-- ==== Sys2Proof/Word.lean ====
section
/-! DEFINITION. The plain words of the SK-7348 manual: bytes, 32-bit register words and the small index types. -/

namespace Sys2Proof

abbrev Byte := BitVec 8
abbrev Half := BitVec 16
abbrev Word := BitVec 32
abbrev DWord := BitVec 64

/-- Radio 0, 1 or 2 (R120). -/
abbrev RadioId := Fin 3
/-- Ethernet port 0 or 1 (chapter 09). -/
abbrev PortId := Fin 2
/-- Worker core W0 to W15 (chapter 10). -/
abbrev WorkerId := Fin 16
/-- Kaolin lane 0 or 1 (R342). -/
abbrev LaneId := Fin 2
/-- A level in dBm, a gain or a ratio, in hundredths of a decibel. -/
abbrev Cdb := Int

end Sys2Proof
end

