-- ==== Sys2Proof/Syntax.lean ====
section
/-! DEFINITION. The commands of the block: one constructor of `Instr` for each row of the manual's list of
operations and events, with the row's operands. An operand carries what comes from outside the device: the
parameters of a host command, the bytes a host-memory read returned, a measured level, a received frame. -/

namespace Sys2Proof

/-- What a read of host memory returned: the bytes, or an error on PCI Express (R422). -/
inductive HostRead where
  | ok (bytes : List Byte)
  | err
  deriving DecidableEq, Repr, Inhabited

/-- TAG and STATUS_ADDR of a command entry (Table 13.3). -/
structure CmdHdr where
  tag        : BitVec 32
  statusAddr : BitVec 64
  deriving DecidableEq, Repr, Inhabited

/-- BUF of Table 13.5: the host address, the byte length and what reading it returned. -/
structure Buf where
  addr : BitVec 64
  len  : BitVec 32
  data : HostRead
  deriving DecidableEq, Repr, Inhabited

/-- The parameters of CHAN_CONFIG (Table 13.5). -/
structure ChanParams where
  index  : BitVec 16
  mode   : Byte
  txTrim : Byte
  freq   : BitVec 32
  tuneN  : Byte
  tune0  : BitVec 32
  tune1  : BitVec 32
  tune2  : BitVec 32
  tune3  : BitVec 32
  deriving DecidableEq, Repr, Inhabited

/-- The parameters of SENSOR_SET (Table 13.5). -/
structure SensorParams where
  sidx    : BitVec 32
  addr    : BitVec 24
  write   : Byte
  group   : Byte
  ulKind  : Byte
  ulIndex : Byte
  dl      : Byte
  members : Byte
  anchor0 : BitVec 16
  anchor1 : BitVec 16
  anchor2 : BitVec 16
  deriving DecidableEq, Repr, Inhabited

/-- The parameters of KEY_INSTALL and KEY_INSTALL_WRAPPED, with the key or the wrap read from host memory. -/
structure KeyParams where
  target   : Byte
  slot     : Byte
  len      : Byte
  keyidx   : Byte
  sidx     : BitVec 32
  ctrStart : BitVec 48
  hostUse  : Byte
  addr     : BitVec 64
  data     : HostRead
  deriving DecidableEq, Repr, Inhabited

/-- The parameters of KAO_OP, with the source blocks read from host memory. -/
structure KaoOpParams where
  target : Byte
  slot   : Byte
  keyidx : Byte
  sidx   : BitVec 32
  op     : Byte
  draw   : Byte
  blocks : BitVec 16
  srcAddr : BitVec 64
  src    : HostRead
  dst    : BitVec 64
  deriving DecidableEq, Repr, Inhabited

/-- What the device measures at a slot tick: VIN (R430), the junction temperature (R532), the radios' and the
DRAM PHY's temperatures (R138, R391), and the noise values of a survey dwell that ends at this tick (R415). -/
structure TickMeasure where
  vin     : BitVec 16
  tj      : Byte
  temp0   : Byte
  temp1   : Byte
  temp2   : Byte
  phyTemp : Byte
  survey  : List Byte
  deriving DecidableEq, Repr, Inhabited

/-- The samples of a receive window as digitised, cut where the gain stepped inside it (R87): each part in the order of
time. A window in which no gain step fell has one part. -/
abbrev Samples := List (List (Int × Int))

/-- A rise of the wideband level (R88, R99): the levels of the two consecutive 2 µs blocks that declare it, the level of the
2 µs block after them that an attack measures (R85), and the moment of the declaration in picoseconds from T0. -/
structure WbRise where
  block0 : Cdb
  block1 : Cdb
  level  : Cdb
  whenPs : Int
  deriving DecidableEq, Repr, Inhabited

/-- One closed receive window of a radio (R81, R214): period 0 to 15, how far it lies after the grid window in picoseconds
(−31.25 µs, 0, +31.25 µs, or the measured arrival of a Mladol frame that comes on shifted windows), the ADC
samples of the period at an extreme code (R114), whether an attack fell inside it, whether every ADC sample held one code or
full scale (R491), and its samples. -/
structure WindowObs where
  period : Nat
  anchor : Int
  clip   : Nat
  attack : Bool
  stuck  : Bool
  samples : Samples
  deriving DecidableEq, Repr, Inhabited

/-- The kinds of transmission that one radio makes as a burst (R123). -/
inductive BurstKind where
  | data | ack | beacon | mesh | wake
  deriving DecidableEq, Repr, Inhabited

/-- The bits of a codeword that a DRAM read finds wrong (R373): the beat of the pair, and the line: DQ0 to DQ31 as 0 to 31 and
CB0 to CB7 as 32 to 39. -/
abbrev Codeword := List (Bool × Fin 40)

/-- Which reader of a register or counter (R509). -/
inductive Reader where
  | host | firmware
  deriving DecidableEq, Repr, Inhabited

/-- What a Silt management port transaction does (R442). -/
inductive SiltOp where
  | read
  | write (value : Word)
  deriving DecidableEq, Repr, Inhabited

/-- The power domains of Table 14.3 that can be powered down. -/
inductive Domain where
  | rf (r : RadioId) | viterbi | eth (p : PortId) | loam (g : Fin 4) | core | dmc | hif
  deriving DecidableEq, Repr, Inhabited

/-- A request to Kaolin (R341, R350): requester 0 to 15 worker, 16 control pair, 17 host path. -/
structure KaoReq where
  requester : Fin 18
  pinned    : Bool
  slot      : Nat
  sidx      : BitVec 20
  keyidx    : BitVec 4
  decrypt   : Bool
  draw      : Bool
  blocks    : List (BitVec 128)
  deriving DecidableEq, Repr, Inhabited

/-- What a received Ethernet frame looked like at the MAC (R286): its bytes from the destination address to the
last byte before the FCS, the FCS received, and whether a code error occurred; and whether the host writes or deletes the MAC
or the IPv6 exact entry of the frame's source in the fabric cycle in which it would be learned (R277). -/
structure EthRx where
  bytes   : List Byte
  fcs     : Word
  codeErr : Bool
  hostMac : Bool
  hostIp6 : Bool
  deriving DecidableEq, Repr, Inhabited

/-- What a block of DRAM holds for the block that reads it (Tables 12.3 and 12.6). -/
inductive DramUse where
  | other
  | sensorContext (sidx : Nat)
  | rotation (index : Nat)
  | noiseFloor (radio : RadioId) (chan subch sub : Nat)
  | spilledFrame (port : PortId) (queue : Nat)
  | sensorEntry (index : Nat)
  | staticCopy (table : Fin 5) (index : Nat)
  | itemBuffer (id : Nat)
  | downlinkBuffer (sidx : Nat)
  | commandBuffer (tag : BitVec 32)
  | keyRecord (sidx : BitVec 20) (keyidx : BitVec 4)
  | firmware
  | linkMpdu (link : Nat)
  deriving DecidableEq, Repr, Inhabited

/-- A request of one of the eight ports of the DRAM controller (R384, R386), as it arrives there, and what the block holds.
A read-modify-write carries `write := true` and `whole := false` (R372); `data` is the block as merged. -/
structure DramReq where
  id    : Nat
  use   : DramUse
  port  : Fin 8
  write : Bool
  whole : Bool
  block : BitVec 29
  rank  : Bool
  bg    : BitVec 2
  bank  : BitVec 2
  row   : BitVec 18
  data  : BitVec 256
  deriving DecidableEq, Repr, Inhabited

/-- An RX descriptor that the host has posted, as the device reads it after a poll shows it (R418). -/
structure RxPost where
  ring  : Fin 16
  addr  : BitVec 64
  len   : BitVec 16
  flags : Byte
  deriving DecidableEq, Repr, Inhabited

/-- What one doorbell poll reads (R402, R403): the 64 words of offsets 0x000 to 0x1FF, and the RX descriptors that
the new indices publish. -/
structure PollRead where
  words : List (BitVec 64)
  posts : List RxPost
  deriving DecidableEq, Repr, Inhabited

/-- What the boot stage finds when it runs (R369, R370): whether rank 1 trains and whether rows alias. -/
structure DramFind where
  rank1   : Bool
  aliased : Bool
  deriving DecidableEq, Repr, Inhabited

/-- The commands of the block, one for each row of the manual's list. -/
inductive Instr where
  -- Host commands (Table 13.5)
  | nop (h : CmdHdr)
  | chanConfig (h : CmdHdr) (p : ChanParams)
  | schedWrite (h : CmdHdr) (radio : Byte) (first count : BitVec 16) (buf : Buf)
  | rotWrite (h : CmdHdr) (first : BitVec 32) (count : BitVec 16) (buf : Buf)
  | scheduleCommit (h : CmdHdr)
  | rfEnable (h : CmdHdr) (radio : Byte)
  | rfDisable (h : CmdHdr) (radio : Byte)
  | rfReset (h : CmdHdr) (radio : Byte)
  | rfCalSweep (h : CmdHdr) (radio : Byte)
  | rfAntEnable (h : CmdHdr) (radio ports : Byte)
  | wakeSend (h : CmdHdr) (chan : BitVec 16) (code : BitVec 32)
  | spectrumSurvey (h : CmdHdr) (mask : Byte) (first count : BitVec 16) (dwell : Byte) (buf : Buf)
  | sensorSet (h : CmdHdr) (p : SensorParams)
  | meshFlood (h : CmdHdr) (kind ttl : Byte) (buf : Buf)
  | timeForceAccept (h : CmdHdr)
  | timeForceSet (h : CmdHdr) (form : Byte) (sec : BitVec 48) (ns : BitVec 32)
  | ruleWrite (h : CmdHdr) (first count : BitVec 16) (buf : Buf)
  | patternWrite (h : CmdHdr) (pattern len : Byte) (value mask : List Byte)
  | hashWrite (h : CmdHdr) (which bits : Byte) (key : List Byte)
  | indirWrite (h : CmdHdr) (first count : BitVec 16) (buf : Buf)
  | rulesetCommit (h : CmdHdr)
  | fwdWrite (h : CmdHdr) (table op : Byte) (index : BitVec 16) (buf : Buf)
  | tableRebuild (h : CmdHdr) (table : Byte)
  | keyInstall (h : CmdHdr) (p : KeyParams)
  | keyInstallWrapped (h : CmdHdr) (p : KeyParams)
  | keyExport (h : CmdHdr) (keyidx : Byte) (sidx : BitVec 32) (dst : BitVec 64)
  | keyDelete (h : CmdHdr) (target slot len keyidx : Byte) (sidx : BitVec 32)
  | kaoOp (h : CmdHdr) (p : KaoOpParams)
  | dramTrain (h : CmdHdr)
  | ccSwitch (h : CmdHdr)
  | pwrStateActive (h : CmdHdr)
  | pwrStateLean (h : CmdHdr)
  | pwrStateSentinel (h : CmdHdr) (p0 : Byte)
  | fwBlock (h : CmdHdr) (offset : BitVec 32) (len : BitVec 16) (bufAddr : BitVec 64) (data : HostRead)
  | fwApply (h : CmdHdr)
  | fwActivate (h : CmdHdr) (p0 : Byte)
  | profileWrite (h : CmdHdr) (buf : Buf)
  | unlistedOpcode (h : CmdHdr) (opcode : BitVec 16)
  -- Register accesses. `same` names the W1C or RC bits that hardware sets in the fabric cycle of the access (R11); a read
  -- lies `ofs` bytes behind the register's address, asks for `bytes` bytes (R8), and may find one upset bit (R490)
  | registerWrite (addr : BitVec 24) (bytes : Nat) (value same : Word)
  | timNowNsRead (ofs : BitVec 2) (bytes : Nat) (upset : Bool)
  | counterLowRead (reader : Reader) (snapshot : Bool) (index : BitVec 11) (ofs : BitVec 2) (bytes : Nat) (upset : Bool)
  | tskLevelRead (ofs : BitVec 2) (bytes : Nat) (same upset : Bool)
  | clkTjRead (ofs : BitVec 2) (bytes : Nat) (same upset : Bool)
  | snapshotRequest (value : Word)
  | obsTraceMark (value : Word)
  | gclCommit (port : PortId) (value : Word)
  | mdioStart (value : Word)
  | pwrRelease (value : Word)
  | bootPcieGo (value : Word) (image : HostRead)
  | hostAttach (value : Word)
  | hostDetach (value : Word)
  | ringEnable (ring : Nat) (value : Word)
  | ringDisable (ring : Nat) (value : Word)
  | timSlotOffsetWrite (value : Word)
  | ethModeWrite (port : PortId) (value : Word)
  | kaoCfgWrite (value : Word)
  | siltPortAccess (offset : BitVec 16) (op : SiltOp) (bar0SameCycle : Bool)
  -- The slot and the receive chain; `coexGnt` is the level of COEX_GNT as sampled
  | slotTick (m : TickMeasure)
  | tableCopyDone
  | acquisitionOpen (radio : RadioId) (lock coexGnt : Bool) (wbNoise : Cdb)
  | widebandDetection (radio : RadioId) (w : WbRise)
  | laterPreamble (radio : RadioId) (w : WbRise) (cells : List (Nat × Cdb))
  | syncEvaluation (radio : RadioId) (half : Samples)
  | sigVerdict (radio : RadioId) (subch : Nat)
  | windowClose (radio : RadioId) (w : WindowObs)
  | crcVerdict (radio : RadioId) (subch : Nat) (upsets : List (Fin 5))
  | stuckSlotDetection (radio : RadioId)
  | ackrxPreset (radio : RadioId)
  | ackSymbolReceive (radio : RadioId) (subch : Nat) (window : Samples)
  | decodeAndContext
  | delivery
  | loadmapResend (sidx : BitVec 20)
  | downlinkAgeTimeout (sidx : BitVec 20)
  | wakeRequestTimeout
  | coexReqAssert (radio : RadioId)
  | coexGntWithdrawn (radio : RadioId)
  | burstCheck (radio : RadioId) (lock coexGnt : Bool)
  | burstEnd (radio : RadioId) (fwd refl expected : Cdb)
  | tgStart
  | synthLock (radio : RadioId)
  | calChunk (radio : RadioId) (startPs : Int)
  | sweepDone (radio : RadioId) (ok : Bool)
  | channelEntryBuild (radio : RadioId) (index : Nat)
  | wakePatternReceived (code : BitVec 32) (crc : Byte)
  -- Workers, tasks and control pairs
  | workerAsk (worker : WorkerId)
  | itemComplete (worker : WorkerId) (upsets : List (Fin 5))
  | delayPost (list : Fin 8) (delay : BitVec 16) (flowKey : BitVec 20)
  | delayTick
  | watchdogFire (worker : WorkerId)
  | workerResetDone (worker : WorkerId)
  | journalCheckpoint
  | lockstepMismatch
  | heartbeatMiss
  | takeoverDone
  | pairSelftestDone (pass : Bool)
  -- Kaolin
  | kaoRequest (r : KaoReq)
  | keyLoad (sidx : BitVec 20) (keyidx : BitVec 4)
  | kaoBlockResult (lane : LaneId) (agree repeatAgree : Bool)
  | laneSelftestDone (lane : LaneId) (pass : Bool)
  | lockRevoke
  | drbgReseed (healthy : Bool)
  | kaoModeApply
  -- DRAM
  | dramReadDone (arrived : List DramReq) (id : Nat) (codewords : List Codeword)
  | alertNFall (arrived : List DramReq) (rank : Bool)
  | alertNRise
  | retryEntryRetire (rank : Bool)
  | refresh (rank : Bool)
  | retrainMeasured (shifts : List Int)
  | scrubVisit (block : BitVec 29) (codewords : List Codeword)
  | urgencyChange (arrived : List DramReq) (port : Fin 8)
  | dramWriteRetire (arrived : List DramReq) (id : Nat)
  -- Host interface
  | doorbellPoll (r : PollRead)
  | txDescriptor (ring : Fin 16) (desc : List Byte) (payload : HostRead) (upsets : List (Fin 5))
  | msixModerationExpiry (ring : Nat)
  | statusWordUpdate (opcode : BitVec 16)
  | dmaError (ring : Nat)
  | perstNAssert
  | perstNDeassert
  | pcieLinkLoss
  -- Ethernet
  | frameReceived (port : PortId) (f : EthRx) (upsets : List (Fin 5))
  | staticRestore (table : Fin 5) (index : Nat)
  | pauseInterval (port : PortId)
  | pauseExpiry (port : PortId)
  | pauseStorm (port : PortId)
  | stormEnd (port : PortId)
  | frameBoundary (port : PortId)
  | gateEntryChange (port : PortId)
  | shaperRefill
  | linkDown (port : PortId)
  | linkUp (port : PortId)
  | loadWindow (rxBits txBits : Nat)
  | flowMoveComplete
  | pairStepChange
  | pairStepTimeout
  | mdioFrameDone (ack : Bool) (data : BitVec 16)
  | agingVisit (table : Fin 2) (index : Nat) (hit : Bool)
  -- Time
  | ptpIntervalExpiry (port : PortId) (msg : Fin 3)
  | ppsInEdge (rising : Bool) (widthNs : Nat)
  | ppsLoss
  | ppsOutRise
  | ppsOutFall
  | servoLossTimeout
  -- Power
  | uvloRelease
  | uvloEngage
  | powerStepDone (siltTicks : Nat)
  | powerStepTimeout (siltTicks : Nat)
  | attemptRestart
  | vcorePhaseFault (phase : Fin 4)
  | vcoreAdjust (up : Bool)
  | brownout
  | domainAccess (d : Domain) (isolated : Bool)
  | domainReady (d : Domain)
  | sentinelArm (active : BitVec 6)
  | ethEnergyWake (port : PortId)
  | wakeFrame (port : PortId) (frame : List Byte) (fcsOk : Bool)
  | gpioWake (levels : BitVec 16)
  | siltTimerExpiry
  | listenWindowOpen (port : PortId)
  | listenWindowClose (port : PortId)
  | wakeNTimeout
  | refclk40Loss
  | powerOnReset (strap : BitVec 4) (testEn extSupply vio18Kept : Bool)
  | sysRstN (strap : BitVec 4)
  -- Boot and update
  | bootComplete (find : DramFind)
  | uartImageReceived (image : List Byte)
  | fwChunk (body : List Byte)
  | standaloneModeTry (port : PortId)
  | activationResume (pauseUs : BitVec 32)
  | activationAbandon (pauseUs : BitVec 32)
  | sramPatrol (upset : Bool)
  -- Boundary scan
  | extest
  | samplePreload (capture : List Bool)
  | idcode
  | clamp
  | highz
  | bypass (opcode : BitVec 4)
  -- Further events
  | searchSyncAcquired (radio : RadioId) (arrivalPs : Int) (half : Samples) (windows : List Samples)
  | fwApplyDone (flashError : Bool)
  | tableRebuildDone
  | traceMsgSent
  | announceReceiptTimeout (port : PortId)
  | porNAssert
  | sysRstNAssert
  deriving DecidableEq, Repr, Inhabited

end Sys2Proof
end

