-- ==== Sys2Proof/Decode.lean ====
section
/-! DEFINITION. The commands that a word spells. The manual's list gives no bits to any of its rows, so a word spells none. -/

namespace Sys2Proof

/-- The command that a word of `nbits` bits spells by the bits of the manual's list: no row has any. -/
def decodeTableWord (_nbits _w : Nat) : Option Instr := none

end Sys2Proof
end

