-- ==== Sys2Proof/Machine/Bytes.lean ====
section
/-! DEFINITION. Bytes and bits: byte orders (R7, R66), bit lists, and the cyclic redundancy checks (R46, R68). -/

namespace Sys2Proof.Machine

/-- The byte that holds `n` mod 256. -/
def byte (n : Nat) : Byte := BitVec.ofNat 8 n

/-- `n` bytes, least significant first (R7). -/
def le : Nat → Nat → List Byte
  | 0, _ => []
  | n + 1, v => byte v :: le n (v / 256)

/-- `n` bytes, most significant first (R66). -/
def be (n v : Nat) : List Byte := (le n v).reverse

/-- The number that bytes spell, least significant first. -/
def ofLe : List Byte → Nat
  | [] => 0
  | b :: t => b.toNat + 256 * ofLe t

/-- The number that bytes spell, most significant first. -/
def ofBe (l : List Byte) : Nat := l.foldl (fun a b => a * 256 + b.toNat) 0

/-- `n` bytes of `l` from offset `o`. -/
def slice (l : List Byte) (o n : Nat) : List Byte := (l.drop o).take n

/-- The little-endian number of `n` bytes at offset `o`. -/
def leAt (l : List Byte) (o n : Nat) : Nat := ofLe (slice l o n)

/-- The big-endian number of `n` bytes at offset `o`. -/
def beAt (l : List Byte) (o n : Nat) : Nat := ofBe (slice l o n)

/-- A signed number as `n`-byte two's complement. -/
def signedLe (n : Nat) (v : Int) : List Byte := le n (v % (2 ^ (8 * n) : Nat)).toNat

/-- A number of `n` bits read as two's complement. -/
def toSigned (n v : Nat) : Int := if v < 2 ^ (n - 1) then (v : Int) else (v : Int) - (2 ^ n : Nat)

/-- A signed number clamped into a range. -/
def clampInt (lo hi v : Int) : Int := if v < lo then lo else if hi < v then hi else v

/-- A number clamped into a range. -/
def clampNat (lo hi v : Nat) : Nat := if v < lo then lo else if hi < v then hi else v

/-- `m` bits of a number from bit `lo`. -/
def bitsAt (v lo m : Nat) : Nat := (v >>> lo) % 2 ^ m

/-- `n` bits, most significant first. -/
def bitsMsb : Nat → Nat → List Bool
  | 0, _ => []
  | n + 1, v => v.testBit n :: bitsMsb n v

/-- The number that bits spell, most significant first. -/
def ofBitsMsb (l : List Bool) : Nat := l.foldl (fun a b => 2 * a + b.toNat) 0

/-- The bits of bytes, each byte most significant bit first. -/
def bytesBits (l : List Byte) : List Bool := l.flatMap fun b => bitsMsb 8 b.toNat

/-- One step of a CRC of width `w`, most significant bit first. -/
def crcBit (w poly c : Nat) (b : Bool) : Nat :=
  let c' := (c <<< 1) % 2 ^ w
  if c.testBit (w - 1) != b then c' ^^^ poly else c'

/-- The CRC-8 of R46: polynomial 0x07, initial value 0xFF, no inversion. -/
def crc8 (l : List Byte) : Nat := (bytesBits l).foldl (crcBit 8 0x07) 0xFF

/-- The CRC32 of R68: polynomial 0x04C1_1DB7, initial value and final XOR 0xFFFF_FFFF. -/
def crc32 (l : List Byte) : Nat := (bytesBits l).foldl (crcBit 32 0x04C11DB7) 0xFFFFFFFF ^^^ 0xFFFFFFFF

/-- Write bytes at an offset of a list that is long enough. -/
def patch (l : List Byte) (o : Nat) (b : List Byte) : List Byte := l.take o ++ b ++ l.drop (o + b.length)

/-- Bytes as the bits of `l` XOR the bits of `m`, byte by byte. -/
def xorBytes (l m : List Byte) : List Byte := List.zipWith (· ^^^ ·) l m

/-- A byte list padded with zeros to a multiple of `n`. -/
def padTo (n : Nat) (l : List Byte) : List Byte := l ++ List.replicate ((n - l.length % n) % n) 0

/-- The first `n` bytes of `l`, filled with zeros when `l` is shorter. -/
def fit (n : Nat) (l : List Byte) : List Byte := l.take n ++ List.replicate (n - l.length) 0

end Sys2Proof.Machine
end

