-- ==== Sys2Proof/Config.lean ====
section
/-! DEFINITION. What an implementation fixes and the manual leaves open, and the free values. None has a body that a
proof could see: a statement holds for every choice. -/

namespace Sys2Proof.Config

/-- The unique device number of GLB_SERIAL (Table 17.3). -/
opaque serial : BitVec 64

/-- The device key that wraps keys (R343). -/
opaque deviceKey : BitVec 256

/-- The Nerran key hash fused at manufacture (R462), as State.reset holds it. -/
opaque keyHash : BitVec 256

/-- A fresh free number for each value of the counter in the state: a value the manual leaves open. -/
opaque freeNat : Nat → Nat

/-- The servo's estimate of the reference's frequency offset after a measurement (R227, R232), by the free counter: the
manual states its use and not its computation. -/
opaque freqEst : Nat → BitVec 32
/-- How far p corrects an offset of this many nanoseconds, in units of 2^−40, before the limit of SLEW_MAX (R233). -/
opaque slewMag : Nat → Nat

/-- What a radio derives for a channel index (Table 4.3): VCO, IQ, DC and LO codes. -/
opaque calVco : Nat → Nat → BitVec 32
opaque calIq : Nat → Nat → BitVec 32
opaque calDc : Nat → Nat → BitVec 32
opaque calLo : Nat → Nat → BitVec 32
/-- The thermal floor of a radio's channel entry, from its calibrated noise figure (R104). -/
opaque thermalFloor : Nat → Nat → Int
/-- The noise floor of a subcarrier that no quiet observation has reached since its entry restarted (R104). -/
opaque initFloor : Nat → Nat → Int
/-- Which of DATA_DOWN (0), GRANT (1) and JOIN_RSP (2) a downlink is, by its descriptor or encapsulation header: the
manual has the host compose all three and states no field that tells them apart. -/
opaque dlType : List Byte → Fin 3
/-- Which way a noise floor between two 0.25 dB steps goes (R103), by its value. -/
opaque floorUp : Int → Bool
/-- The recovery time of a FAULT event in microseconds, by the free counter (Table 16.9). -/
opaque recoveryUs : Nat → Nat

/-- How far a retraining run on leaving self-refresh moves each lane's centre, in taps, by the free counter (R394). -/
opaque laneShifts : Nat → List Int

/-- The final status of DRAM_TRAIN when both runs were suspect: the manual states none (R393). -/
opaque trainFail : Fin 16

end Sys2Proof.Config
end

