-- ==== Sys2Proof/Machine/State.lean ====
section
/-! DEFINITION. The state of the block as plain data: the register file, the counters, what each block of Table 1.1
holds beyond its registers, the pins, the outputs written so far, and the queue of waiting commands. A field that a
register shows lives in the register file only; everything here is what no register shows. -/

namespace Sys2Proof.Machine

/-- A sparse table: strictly rising keys, and no entry equal to what an unlisted key reads as. -/
abbrev Sparse (α : Type) := List (Nat × α)

/-- A command that the device has fetched (R410): its opcode and header, its index on the command ring, and which
driver of the rings sent it (R409, R424). -/
structure Cmd where
  opcode : Half
  hdr    : CmdHdr
  idx    : Nat
  epoch  : Nat
  deriving DecidableEq, Repr, Inhabited

/-! ## The air format (chapters 02, 03) -/

/-- A loading map (Table 2.10): version, the sender's FLOOR, the rate code, and 16 codes per member. -/
structure LoadMap where
  version : BitVec 4
  floorQ  : Bool
  rate    : BitVec 2
  codes   : List (BitVec 4)
  deriving DecidableEq, Repr, Inhabited

/-- What one subcarrier of a symbol carries (Tables 2.3 and 2.8): a constellation point on its integer levels, the square of
the inverse scale (1, 2, 10, 42 or 170), and whether it is boosted by √2. Its amplitude is `point / √norm`, times √2 when
boosted. -/
structure Sym where
  re    : Int
  im    : Int
  norm  : Nat
  boost : Bool
  deriving DecidableEq, Repr, Inhabited

/-- One symbol period of a burst on air: its number from the burst's first slot, and what each used subcarrier k carries. The
signal of the period is `baseband` of that content (R40). -/
structure AirPeriod where
  period  : Nat
  content : List (Int × Sym)
  deriving DecidableEq, Repr, Inhabited

/-- State of a receive cell (Table 3.2). -/
inductive CellState where
  | idle | acq | hold | data
  deriving DecidableEq, Repr, Inhabited

/-- What a slot's schedule grants on one subchannel of a radio for reception (Table 3.2). -/
inductive GrantKind where
  | none | uplink | ra | mesh | contd
  deriving DecidableEq, Repr, Inhabited

/-- A survivor of the Viterbi decoder (R113): its metric and its bits, newest first. -/
structure VPath where
  metric : Int
  bits   : List Bool
  deriving DecidableEq, Repr, Inhabited

/-- The decoder's state for one reception: a survivor for each of the 64 trellis states, the stages that they hold, and the
bits that have left them. -/
structure VitState where
  paths : List VPath
  depth : Nat
  out   : List Bool
  deriving DecidableEq, Repr, Inhabited

/-- One cell of a radio in reception. -/
structure Cell where
  subch   : Nat
  kind    : GrantKind
  state   : CellState
  owner   : Option Nat
  train   : Nat
  stripe  : BitVec 3
  member  : Nat
  link    : Option Nat
  chan    : Nat
  firstS  : Int
  e       : Int
  /-- How far its windows lie after the grid windows, in picoseconds (R82, R214). -/
  anchor  : Int
  level   : Cdb
  sig     : BitVec 24
  map     : LoadMap
  lmStale : Bool
  clipped : Bool
  /-- g_i of the 16 data subcarriers, measured on the CE window (R109). -/
  gains   : List Cdb
  /-- H_k of the used subcarriers, ascending (R107). -/
  chanEst : List (Int × Int)
  /-- The sum of the CE pilots' magnitudes (R108). -/
  cePilot : Nat
  /-- The pilots of the last DATA window against C(k) and H_k, and the carrier offset they track, in hertz (R108). -/
  pilot   : Option (Int × Int)
  cfo     : Int
  /-- Soft bits of demapped DATA symbols that their decoder job still waits for: by symbol, data subcarrier and label bit. -/
  soft    : List (List (List Int))
  dlAtT0  : Bool
  /-- The CRC32 verdict has fallen. -/
  judged  : Bool
  /-- The CRC32 passed. -/
  crcOk   : Bool
  deriving DecidableEq, Repr, Inhabited

/-- A reception in the Viterbi bank: the radio and subchannel of its member 0, its first slot and length, its decoder state,
the soft bits that no stage has taken yet, and the symbols decoded (R113). -/
structure VitRec where
  radio  : RadioId
  subch  : Nat
  firstS : Int
  train  : Nat
  st     : VitState
  left   : List Int
  syms   : Nat
  deriving DecidableEq, Repr, Inhabited

/-- What a job of the Viterbi bank decodes (Table 3.7): a cell's SIG, or one symbol of a reception with Σb coded bits per
symbol at a rate. -/
inductive VitWork where
  | sig (soft : List Int)
  | data (key : RadioId × Nat × Int) (train sumb : Nat) (rate : BitVec 2) (soft : List Int)
  deriving DecidableEq, Repr, Inhabited

/-- A job that waits: when its window closed, in fabric cycles, and its radio and subchannel (R113). -/
structure VitJob where
  close : Int
  radio : RadioId
  subch : Nat
  work  : VitWork
  deriving DecidableEq, Repr, Inhabited

/-- The Viterbi bank (R113): the fabric cycle from which each of the four engines is free, the jobs in the order in which
they run, and the receptions. -/
structure Bank where
  free : List Int
  jobs : List VitJob
  recs : List VitRec
  deriving DecidableEq, Repr, Inhabited

/-- AGC state of a radio (Table 3.1). -/
inductive AgcState where
  | preset | frozen | ackrx
  deriving DecidableEq, Repr, Inhabited

/-- A reception whose SIG passed, on its way through the pipeline (R18). -/
structure Rx where
  radio    : RadioId
  chan     : Nat
  subch    : Nat
  firstS   : Int
  sidx     : Option Nat
  link     : Option Nat
  sig      : BitVec 24
  mpdu     : List Byte
  e        : Int
  /-- The sender's carrier offset in hertz (R108, R109). -/
  cfo      : Int
  level    : Cdb
  clipped  : Bool
  lmStale  : Bool
  recovery : Bool
  members  : Nat
  crcOk    : Bool
  accepted : Bool
  /-- The sender has no usable sensor entry: the uplink goes to PPL_ULDEF (R173). -/
  uldef    : Bool
  /-- The members received: number, radio, channel, subchannel, gains g_i. -/
  mem      : List (Nat × RadioId × Nat × Nat × List Cdb)
  /-- Channel and subchannel of member 0, received or not (R360). -/
  cell0    : Nat × Nat
  /-- Slot ticks since its verdict: it is decoded after one and delivered after two (R18). -/
  stage    : Nat
  deriving DecidableEq, Repr, Inhabited

/-- Where a downlink came from, and where its completion goes (R270, R417): a TX ring of the driver `epoch`, an Ethernet
datagram's source, a Mladol link, or the device. -/
inductive DlOrigin where
  | ring (ring index epoch : Nat)
  | eth (src : BitVec 128) (port : BitVec 16)
  | link
  | device
  deriving DecidableEq, Repr, Inhabited

/-- A downlink on its way to SCH or in one of SCH's queues (R177, R183, R195). -/
structure Downlink where
  origin  : DlOrigin
  ftype   : BitVec 4
  addr    : BitVec 24
  sidx    : Nat
  aport   : Byte
  sec     : Bool
  keyidx  : Nat
  chan    : Nat
  tag     : BitVec 16
  payload : List Byte
  seq     : Byte
  mpdu    : List Byte
  repeats : Nat
  noFit   : Nat
  sent    : Bool
  enterS  : Int
  enterSf : Int
  /-- The ruleset version that the message holds until it reaches SCH (R260). -/
  ver     : Option Nat
  deriving DecidableEq, Repr, Inhabited

/-- A LOADMAP that waits in SCH for a sensor (R186, R187). -/
structure LmFrame where
  map     : LoadMap
  mpdu    : List Byte
  seq     : Byte
  repeats : Nat
  sent    : Bool
  enterS  : Int
  deriving DecidableEq, Repr, Inhabited

/-- A sensor's context, maps and downlink queue (R58, R62, R109, R177, R495). -/
structure SensorCtx where
  addr      : BitVec 24
  anchors   : List (BitVec 16)
  /-- FLOOR as recorded for the sensor (R59). -/
  floorQ    : Bool
  confirmed : LoadMap
  pendMap   : Option LoadMap
  newest    : Option LoadMap
  persist   : Nat
  gains     : List (Option Cdb)
  level     : Option Cdb
  e         : Int
  /-- The carrier offset of its last reception, in hertz (R109). -/
  cfo       : Int
  radios    : List RadioId
  dlSeq     : Byte
  queue     : List Downlink
  lm        : Option LmFrame
  lmWait    : Bool
  lmSince   : Int
  faultSeq  : Option Byte
  issueNext : Bool
  deriving DecidableEq, Repr, Inhabited

/-- One data subcarrier of a noise-floor entry (R103 to R105): N̂, its count, the run of excessive observations. An
unlisted subcarrier has had no observation since its entry restarted. -/
structure Floor where
  nhat  : Cdb
  count : Nat
  run   : List Cdb
  deriving DecidableEq, Repr, Inhabited

/-! ## The transceivers (chapter 04) -/

/-- What CHAN_CONFIG supplies for a channel index (Table 4.3). -/
structure ChanCfg where
  freq   : BitVec 32
  mode   : Fin 3
  txTrim : Nat
  tune   : List (BitVec 24)
  deriving DecidableEq, Repr, Inhabited

/-- What a radio derives for a channel index (Table 4.3). -/
structure CalEntry where
  vco : BitVec 32
  iq  : BitVec 32
  dc  : BitVec 32
  lo  : BitVec 32
  deriving DecidableEq, Repr, Inhabited

/-- What a part of a burst carries, and so what its ACK symbol or its abandoning acts on (Table 4.4). -/
inductive TxWhat where
  | head (sidx : Nat) | loadmap (sidx : Nat) | beacon | jrsp | bcast | mesh (link : Nat)
  deriving DecidableEq, Repr, Inhabited

/-- One cell's transmission within a burst: subchannel, train length, SIG, MPDU and map. -/
structure TxPart where
  what   : TxWhat
  subch  : Nat
  train  : Nat
  stripe : BitVec 3
  member : Nat
  sig    : BitVec 24
  mpdu   : List Byte
  /-- The codes of the map in force, 16 per member of the transmission. -/
  codes  : List (BitVec 4)
  /-- The coded DATA stream, which every member of a stripe shares (R49 to R52, R75). -/
  coded  : List Bool
  firstS : Int
  /-- The ACK symbol that answered: none yet, or what was decoded. -/
  ack    : Option (Option Byte)
  deriving DecidableEq, Repr, Inhabited

/-- A burst that a radio has planned or is sending (R123): the cells of a downlink, beacon or Mladol burst; or the ACK
symbols by subchannel (255 stands for every subchannel of a Mladol row), each with the number of the uplink it answers (0
for a Mladol frame), and the sender and SEQ of each delivered uplink they acknowledge (R495); or a WAKE pattern. -/
structure Burst where
  kind   : BurstKind
  chan   : Nat
  firstS : Int
  parts  : List TxPart
  acks   : List (Nat × Byte × Nat)
  acked  : List (Nat × Byte)
  wake   : Option (BitVec 32)
  /-- How far before its slot tick the burst starts, in units of 0.0625 µs: D of a child-to-parent frame (R212). -/
  lead   : Nat
  deriving DecidableEq, Repr, Inhabited

/-- Runs that the antenna check keeps per port (Table 4.6). -/
structure PortVswr where
  above3 : Nat
  good   : Nat
  above6 : Nat
  deriving DecidableEq, Repr, Inhabited

/-- A full sweep in progress (R137): the indices it builds, those changed meanwhile, and the command that asked. -/
structure Sweep where
  cmd     : Option Cmd
  built   : List Nat
  changed : List Nat
  temp    : Byte
  ends    : Int
  deriving DecidableEq, Repr, Inhabited

/-- A temperature run in progress (R139 to R141): the chunks left, the temperature at its start, its superframes, whether it
has been flagged, and the slot of the last chunk with the number of chunks placed in it. -/
structure TempRun where
  left    : Nat
  temp    : Byte
  sfs     : Nat
  flagged : Bool
  chunkS  : Int
  chunks  : Nat
  deriving DecidableEq, Repr, Inhabited

/-- One radio beyond its registers. -/
structure Radio where
  entries   : Sparse (Option CalEntry)
  pins      : BitVec 9
  chan      : Option Nat
  target    : Option Nat
  hz        : Nat
  missRun   : Nat
  yApplied  : Int
  /-- A retune of this TG waits for the fall of PA_EN (R130). -/
  tuneWait  : Bool
  /-- The next burst's COEX_REQ_ASSERT has come while COEX_REQ was asserted (R148). -/
  coexNext  : Bool
  /-- Lock and grant as the check of a burst found them, while other members of its stripes have not been checked (R132). -/
  checked   : Option (Bool × Bool)
  agc       : AgcState
  gain      : Int
  /-- The gains before each gain step of the slot, the newest first (R87). -/
  gainHist  : List Int
  /-- When the rise of the last attack began, in picoseconds from T0 (R83). -/
  coarse    : Option Int
  pfrz      : Cdb
  wbNoise   : Cdb
  attacks   : Nat
  passed    : Bool
  released  : Bool
  noRx      : Bool
  /-- The slot whose acquisition opened last. -/
  rxS       : Option Int
  stuck     : Bool
  stuckRun  : Nat
  txLowRun  : Nat
  cells     : List Cell
  floors    : Sparse (Option Floor)
  quiet     : List (Nat × Cdb)
  planned   : List Burst
  onAir     : List Burst
  await     : List TxPart
  lowVswr   : PortVswr
  highVswr  : PortVswr
  sweep     : Option Sweep
  tempRun   : Option TempRun
  calDone   : Bool
  buildQ    : List Nat
  deriving DecidableEq, Repr, Inhabited

/-! ## The schedule (chapter 05) -/

/-- A cell entry of a grant table (Table 5.2). -/
structure CellEntry where
  kind    : BitVec 3
  subch   : BitVec 7
  train   : BitVec 4
  stripe  : BitVec 3
  member  : BitVec 2
  rotLog2 : BitVec 4
  rotBase : BitVec 22
  rsv     : BitVec 19
  deriving DecidableEq, Repr, Inhabited

/-- A row of a grant table (Table 5.1) with its cell entries. -/
structure Row where
  chan  : BitVec 9
  type  : BitVec 3
  rsv   : BitVec 13
  ncell : BitVec 7
  cells : List CellEntry
  deriving DecidableEq, Repr, Inhabited

/-- A queued wake request (R197). -/
structure WakeReq where
  cmd     : Cmd
  chan    : Nat
  code    : BitVec 32
  sinceSf : Int
  /-- The calibrating radio that the request waits for, and its target slot (R142). -/
  heldFor : Option (RadioId × Int)
  started : Bool
  deriving DecidableEq, Repr, Inhabited

/-- An entry of the join table (R193), most recently used first in the list. -/
structure JoinEntry where
  sid      : BitVec 64
  nonce    : BitVec 16
  chan     : Nat
  sf       : Nat
  refusals : Nat
  deriving DecidableEq, Repr, Inhabited

/-- A remap in force (R167): the failed radio, the inhibited ports (0 when the whole radio failed) and the first
slot it carries. -/
structure Remap where
  radio  : RadioId
  ports  : BitVec 2
  firstS : Int
  begun  : Bool
  ending : Bool
  deriving DecidableEq, Repr, Inhabited

/-- The schedule engine beyond its registers. -/
structure Sch where
  active   : Sparse Row
  pending  : Sparse Row
  rot      : Sparse Word
  staged   : List (Nat × Word)
  target   : Int
  copying  : Bool
  wakeQ    : List WakeReq
  /-- PROTECTED as it stood at the pending commit (R200). -/
  protPend : Bool
  /-- SCHED_WRITE commands that wait for the end of the copy (R164): radio, first row, rows and buffer. -/
  held     : List (Cmd × Nat × Nat × Nat × Buf)
  bcnSeq   : Sparse Byte
  raA      : Nat
  raB      : Nat
  raK      : Nat
  joins    : List JoinEntry
  jrsp     : List Downlink
  bcast    : List Downlink
  remaps   : List Remap
  sensors  : Sparse SensorCtx
  antEnable : List (Cmd × RadioId × BitVec 2)
  /-- VIOLATION entries already written this superframe, by code and by the party concerned (R199, R222, R422), and the
  THERMAL entry (R532), under code 0x1060. -/
  violSeen : List (Nat × Nat)
  /-- The uplinks of this slot whose ACK symbol has been counted (Table 5.19). -/
  ackSeen : List Nat
  /-- BO as it stood before the last superframe boundary: what a beacon carries whose change would otherwise appear earlier than
  four slots after the reception that brought it (R22). -/
  boPrev : Nat
  /-- Sensors whose context the on-chip context cache holds, and whose maps the loading-map cache holds, the latest used first
  (R29, R31, R97, R160). -/
  ctxCache : List Nat
  mapCache : List Nat
  deriving DecidableEq, Repr, Inhabited

/-! ## Mladol links and flooding (chapter 06) -/

/-- A Mladol MPDU in a link queue (R210). -/
structure LinkMpdu where
  cls     : Nat
  mpdu    : List Byte
  seq     : Byte
  repeats : Nat
  noFit   : Nat
  enterS  : Int
  sent    : Bool
  mapVer  : Option (BitVec 4)
  deriving DecidableEq, Repr, Inhabited

/-- One Mladol link beyond its registers. -/
structure Link where
  queue     : List LinkMpdu
  lastRxSeq : Option Byte
  ranged    : Bool
  newFloods : Nat
  confirmed : LoadMap
  pendMap   : Option LoadMap
  /-- The newest map computed while a version is pending (R62). -/
  newest    : Option LoadMap
  persist   : Nat
  gains     : List (Option Cdb)
  /-- ADDR of the last frame accepted on the link. -/
  peerAddr  : Option (BitVec 24)
  /-- The radio and channel of the last frame decoded on the link (R60). -/
  rxOn      : Option (RadioId × Nat)
  childE    : Int
  childSlot : BitVec 16
  sentD     : List (BitVec 16 × Nat)
  peerMap   : LoadMap
  deriving DecidableEq, Repr, Inhabited

/-- MSH beyond its registers. -/
structure Msh where
  links     : Sparse Link
  marl      : List (Word × BitVec 16)
  msgid     : BitVec 16
  missed    : Nat
  lastRxS   : Int
  holdSfs   : Nat
  dwellSfs  : Nat
  searchRadio : RadioId
  /-- The parent link's MSH_LINK has been written since the last boundary (R217). -/
  linkWritten : Bool
  parentSeen : Option Word
  rxQ       : List Rx
  deriving DecidableEq, Repr, Inhabited

/-! ## Time (chapter 07) -/

/-- A clock step that waits for its TG (R237). -/
structure Step where
  delta   : Int
  force   : Option Cmd
  deriving DecidableEq, Repr, Inhabited

/-- One port of the PTP clock (R230): the Announce message of its best master; the times t1 to t4 of the exchanges in TAI
nanoseconds; the sequence numbers it sends; a two-step Sync that waits for its Follow_Up, with its sequenceId and correction;
and the mean path delay. -/
structure PtpPort where
  master   : Option (List Byte)
  /-- The masters heard: the newest Announce of each, and the fabric cycles at which its last two
  arrived, the newest first. -/
  foreign  : List (List Byte × List Int)
  /-- The transport of the messages heard: 0 IEEE 802.3, 1 UDP/IPv4, 2 UDP/IPv6. -/
  trans    : Fin 3
  t1       : Int
  t2       : Int
  t3       : Int
  seqSync  : BitVec 16
  seqAnn   : BitVec 16
  seqReq   : BitVec 16
  stepTwo  : Option (Nat × Int)
  delay    : Option Int
  deriving DecidableEq, Repr, Inhabited

/-- TIM beyond its registers. -/
structure Tim where
  sec      : BitVec 48
  ns       : BitVec 30
  frac     : BitVec 32
  inc      : BitVec 40
  elapsed  : Nat
  slotS    : Int
  slew     : Int
  lockRun  : Nat
  awayRun  : Nat
  blocked  : Bool
  fresh    : Bool
  step     : Option Step
  offStep  : Option Nat
  /-- The slot offset that the ticks follow; TIM_SLOT_OFFSET moves it under R241. -/
  offset   : Nat
  noTickBefore : Option Int
  tgBegun  : Bool
  timingHold : Nat
  /-- Fabric cycles since power-on reset (R247). -/
  cyc      : Nat
  ppsSeen  : Bool
  /-- The fabric cycle of the last accepted edge of PPS_IN (R247). -/
  ppsAt    : Nat
  /-- The second in which PPS_OUT rose last, and the fabric cycle at which it falls (R248). -/
  ppsOutS  : Option (BitVec 48)
  ppsOutEnd : Nat
  stamps0  : List (BitVec 16 × BitVec 48 × BitVec 30)
  stamps1  : List (BitVec 16 × BitVec 48 × BitVec 30)
  ptp0     : PtpPort
  ptp1     : PtpPort
  /-- The device clock less PTP time as the last exchange found it, less the steps since: with SRC = 2 its whole seconds (R229). -/
  ptpOfs   : Option Int
  /-- The messages that the device's own PTP clock has composed in this step and that enter PPL at its end: port, frame, and
  what its egress stamp is for (R252). -/
  compose  : List (PortId × List Byte × Option Nat)
  /-- The fabric cycle of the last valid measurement (R232). -/
  measAt   : Nat
  deriving DecidableEq, Repr, Inhabited

/-! ## The message pipeline and the forwarding tables (chapter 08) -/

/-- A rule (R258): key, mask, action and pattern-condition byte. -/
structure Rule where
  key    : BitVec 128
  mask   : BitVec 128
  action : BitVec 64
  cond   : Byte
  deriving DecidableEq, Repr, Inhabited

/-- A payload pattern (R256). -/
structure Pattern where
  len   : Nat
  value : List Byte
  mask  : List Byte
  deriving DecidableEq, Repr, Inhabited

/-- A ruleset (R257). -/
structure Ruleset where
  rules    : Sparse (Option Rule)
  patterns : Sparse Pattern
  profiles : Sparse Byte
  hashKey  : List Byte
  indir    : Sparse Half
  deriving DecidableEq, Repr, Inhabited

/-- A MAC table entry (Table 8.12). -/
structure MacEntry where
  mac   : BitVec 48
  vid   : BitVec 12
  port  : BitVec 2
  stat  : Bool
  hit   : Bool
  clear : Nat
  ins   : Byte
  deriving DecidableEq, Repr, Inhabited

/-- An IPv6 exact-table entry (Table 8.12). -/
structure Ip6Entry where
  addr    : BitVec 128
  port    : BitVec 2
  vid     : BitVec 12
  nextMac : BitVec 48
  toRing  : Bool
  ring    : BitVec 4
  stat    : Bool
  hit     : Bool
  clear   : Nat
  ins     : Byte
  deriving DecidableEq, Repr, Inhabited

/-- An IPv6 prefix-table entry (Table 8.12). -/
structure PfxEntry where
  addr    : BitVec 128
  len     : Nat
  nextHop : BitVec 128
  direct  : Bool
  cls     : BitVec 6
  deriving DecidableEq, Repr, Inhabited

/-- A sensor-table entry (Table 8.13). -/
structure SensorEntry where
  addr    : BitVec 24
  sidx    : Nat
  group   : Byte
  ulKind  : BitVec 3
  ulIndex : BitVec 6
  dlLink  : Bool
  link    : BitVec 3
  deriving DecidableEq, Repr, Inhabited

/-- A server-table entry (Table 8.12). -/
structure ServerEntry where
  addr : BitVec 128
  port : BitVec 16
  deriving DecidableEq, Repr, Inhabited

/-- PPL and FWD beyond their registers. `lost…` lists static entries removed for parity whose DRAM copy has not been
restored yet; `upsets` lists the tables whose next lookup in this step reads a bad parity bit. The sensor table is keyed
by bucket × 8 + way, the MAC and IPv6 exact tables by bucket × 4 + way, the others by index. -/
structure Fwd where
  staging  : Ruleset
  versions : Sparse Ruleset
  gens     : Sparse Word
  mac      : Sparse (Option MacEntry)
  ip6      : Sparse (Option Ip6Entry)
  pfx      : Sparse (Option PfxEntry)
  sensor   : Sparse (Option SensorEntry)
  server   : Sparse (Option ServerEntry)
  lostMac  : Sparse (Option MacEntry)
  lostIp6  : Sparse (Option Ip6Entry)
  lostSrv  : Sparse (Option ServerEntry)
  upsets   : List (Fin 5)
  insStamp : Byte
  /-- The on-chip cache of the sensor table: entry index and entry, the latest used first (R271, R272). -/
  cache    : List (Nat × SensorEntry)
  /-- The fabric cycle before which the MAC and the IPv6 exact table take no further learning request (R274). -/
  macBusy  : Nat
  ip6Busy  : Nat
  /-- The fabric cycle of the sweeper's last visit to each of these tables (R276). -/
  macSwept : Nat
  ip6Swept : Nat
  /-- The commit that is copying: its command, slot and generation, and the fabric cycle at which its copy ends (R259, R261). -/
  copying  : Option (Cmd × Nat × Word × Nat)
  deriving DecidableEq, Repr, Inhabited

/-! ## Work (Table 10.1) -/

/-- What a work item does (Table 10.1), and, once its worker has completed it, the output that is held for release (R325). -/
inductive Work where
  | uplink (rx : Rx)
  | mesh (rx : Rx) (body : List Byte)
  | downlink (d : Downlink)
  | loadmap (sidx : Nat) (map : LoadMap)
  | linkmap (link : Nat) (map : LoadMap)
  | result (d : Downlink) (status : Byte)
  | fwChunk (rx : Rx) (body : List Byte)
  | house
  | timer
  /-- Staged output of an uplink: a message for PPL, with its radio, sensor index and arrival stamp, and whether it goes to
  PPL_ULDEF (R173). -/
  | message (radio : RadioId) (sidx : Option Nat) (stamp : Int) (uldef : Bool) (bytes : List Byte)
  /-- Staged output of a LOADMAP: the protected MPDU. -/
  | lmReady (sidx : Nat) (map : LoadMap) (mpdu : List Byte)
  /-- No output. -/
  | nothing
  deriving DecidableEq, Repr, Inhabited

/-! ## Messages on their way out of PPL (chapters 08, 09, 13) -/

/-- A message for a host RX ring (Table 13.9): KIND, FLAGS, SRC, REASON, RULE, stamp, the version slot it holds, bytes. -/
structure RxMsg where
  kind   : Nat
  flags  : Byte
  src    : Byte
  reason : Nat
  rule   : Nat
  sec    : Nat
  ns     : Nat
  ver    : Nat
  bytes  : List Byte
  deriving DecidableEq, Repr, Inhabited

/-- Who put a frame into an egress queue (Table 9.4): an ETH port, a HOST TX descriptor, or AIR, MLADOL and DEVICE. -/
inductive FrameSrc where
  | eth (port : PortId) | host (ring index epoch : Nat) | air
  deriving DecidableEq, Repr, Inhabited

/-- Which part of the packet buffer holds an egress frame (Table 9.3, R289). -/
inductive BufPart where
  | strict | airRsv | shared | spill
  deriving DecidableEq, Repr, Inhabited

/-- A frame for an egress queue (R288 to R291): its bytes without the FCS; the member that its flow selects (R300); whether
R287 bounds it; the TS_ID of a requested stamp; the ingress stamp of a PTP event message whose residence time is added
(R231); the type of a PTP event message of the device's own. -/
structure EgFrame where
  bytes  : List Byte
  src    : FrameSrc
  ver    : Nat
  pick   : PortId
  bounded : Bool
  part   : BufPart
  tsId   : Option (BitVec 16)
  resid  : Option Int
  own    : Option Nat
  /-- The frame carries an uplink or JOIN_REQ in encapsulation form (UL_ENCAP). -/
  encap  : Bool
  marked : Bool
  held   : Bool
  stomp  : Bool
  deriving DecidableEq, Repr, Inhabited

/-- One copy of a message that leaves PPL: to a port (2 is the link pair) and queue, a host RX ring, a work item with its
flow key, a Mladol link, or the time unit (the port and the PTP message with its ingress stamp in TAI nanoseconds and its
transport). -/
inductive Deliver where
  | port (p q : Nat) (f : EgFrame)
  | ring (n : Nat) (m : RxMsg)
  | item (key : Nat) (w : Work)
  | link (l : Nat) (body : List Byte)
  | tim (p : PortId) (msg : List Byte) (stamp : Int) (trans : Fin 3)
  deriving DecidableEq, Repr, Inhabited

/-! ## Ethernet (chapter 09) -/

/-- A frame in an ingress buffer: its length, the version it holds, and the copies that have not left yet. -/
structure InFrame where
  len  : Nat
  ver  : Nat
  src  : FrameSrc
  todo : List Deliver
  deriving DecidableEq, Repr, Inhabited

/-- A gate list (R309): each entry's gates and duration, CYCLE, BASE, and the cycle start at which it comes into force
(R310). -/
structure GateList where
  entries : List (Byte × Nat)
  cycle   : Nat
  base    : Int
  start   : Int
  deriving DecidableEq, Repr, Inhabited

/-- An egress queue beyond its registers: its frames, the deficit, and the shaper in force with its tokens. -/
structure EgQueue where
  frames  : List EgFrame
  deficit : Int
  tokens  : Int
  shapeOn : Bool
  deriving DecidableEq, Repr, Inhabited

/-- One Ethernet port beyond its registers. `pauseLeft` is the received pause in force in quanta, counted from
the fabric cycle `pauseFrom`; `stallFrom` the fabric cycle since which the head of the ingress buffer lacks an item; `drr` the queue being visited; `tryMode` the mode that STANDALONE tries (R468). -/
structure EthPort where
  inBuf     : List InFrame
  queues    : Sparse EgQueue
  sending   : Option (Nat × EgFrame)
  pauseQ    : List Nat
  pauseLeft : Nat
  pauseFrom : Int
  xoffIntervals : Nat
  gates     : Option GateList
  pendGates : Option GateList
  drr       : Option Nat
  stallFrom : Option Int
  /-- The fabric cycles since which received pause has held the port without a gap, since which a storm is guarded against, and
  at which the interval of the pause controller began (R294, R298). -/
  heldFrom  : Nat
  stormFrom : Nat
  xoffFrom  : Nat
  /-- The fabric cycle at which the frame that is being sent ends, with its preamble and gap (R307). -/
  busyUntil : Nat
  listenOn  : Bool
  /-- The Silt time at which the next listening window begins (R453). -/
  listenAt  : Nat
  tryMode   : Option Nat
  /-- The fabric cycle at which the trial of that mode began. -/
  tryFrom   : Nat
  deriving DecidableEq, Repr, Inhabited

/-- Where a pair rate step stands (Table 9.6). -/
inductive PairPhase where
  | drain | announce | change | back
  deriving DecidableEq, Repr, Inhabited

structure PairStep where
  member  : PortId
  phase   : PairPhase
  newMode : Nat
  oldMode : Nat
  /-- The fabric cycle at which the phase began. -/
  since   : Nat
  deriving DecidableEq, Repr, Inhabited

/-- Flows that move between members (R301): those that select `flow` move to `dest`, behind the marked frames of the other. -/
structure FlowMove where
  dest : PortId
  flow : PortId
  deriving DecidableEq, Repr, Inhabited

/-- The Ethernet pair beyond its registers. `pairCfg` is ETH_PAIRCFG in force while a step runs (R315). -/
structure Eth where
  p0       : EthPort
  p1       : EthPort
  pairStep : Option PairStep
  below    : Nat
  moving   : Option FlowMove
  pairCfg  : Option Word
  mdioRead : Bool
  /-- How often the shapers have been refilled, and the fabric cycle at which the last load window ended (R303, R313). -/
  refills  : Nat
  loadFrom : Nat
  deriving DecidableEq, Repr, Inhabited

/-! ## Tasks and control pairs (chapter 10) -/

/-- The part of the item pool that an item takes from (R319). -/
inductive Pool where
  | air | dev | shared
  deriving DecidableEq, Repr, Inhabited

/-- Where an item stands (R322, R325, R327). -/
inductive ItemState where
  | ready
  | running (w : WorkerId)
  | done
  | delayed (list : Fin 8) (due : Nat)
  deriving DecidableEq, Repr, Inhabited

/-- A work item (R317, R318). `order` is its place in its flow: the count at which it became ready. Ready items stand in
the list with the oldest first. -/
structure Item where
  id       : Nat
  cls      : Fin 8
  prio     : Nat
  tag      : Option (BitVec 10)
  pool     : Pool
  state    : ItemState
  order    : Nat
  /-- It waits for the delivery stage, which begins with the next slot (R18). -/
  staged   : Bool
  /-- The fabric cycle at which the worker that runs it took it (R329). -/
  since    : Nat
  excluded : List WorkerId
  work     : Work
  deriving DecidableEq, Repr, Inhabited

/-- TSK and the control pairs beyond their registers. -/
structure Tsk where
  items    : List Item
  nextId   : Nat
  nextOrd  : Nat
  waiting  : List WorkerId
  recent   : List (WorkerId × BitVec 10)
  hangs    : List WorkerId
  dtick    : Nat
  /-- The commands fetched since the last checkpoint (R334). -/
  journal  : List Cmd
  takeover : Option Byte
  testing  : Bool
  ccSwitch : Option Cmd
  /-- Device compositions that wait for an item (Table 10.2), with their flow keys. -/
  deferred : List (Work × Nat)
  deriving DecidableEq, Repr, Inhabited

/-! ## Kaolin (chapter 11) -/

/-- A key slot (R344). -/
structure KeySlot where
  key     : BitVec 256
  aes256  : Bool
  ctr     : BitVec 48
  hostUse : Bool
  holds   : Option (Nat × Nat)
  used    : Nat
  deriving DecidableEq, Repr, Inhabited

/-- An entry of a sensor key record (Table 11.1). -/
structure KeyRec where
  aes256  : Bool
  hostUse : Bool
  keyidx  : Nat
  ctr     : BitVec 48
  wrap    : List Byte
  deriving DecidableEq, Repr, Inhabited

/-- A request that Kaolin has accepted (R350, R353). -/
structure KaoJob where
  req     : KaoReq
  slotNo  : Nat
  key     : BitVec 256
  aes256  : Bool
  drawn   : Option (BitVec 48)
  outputs : List (BitVec 128)
  host    : Option (Cmd × BitVec 64)
  deriving DecidableEq, Repr, Inhabited

/-- A request that waits for its key (R347), for a change of MODE or for the lock (R354, R355), with the host command that
made it and its destination. -/
abbrev KaoWait := KaoReq × Option (Cmd × BitVec 64)

/-- Kaolin beyond its registers. `locked` is MODE in force, `pinned` PINNED, `markLog` MARK_LOG2 and `hostSensor` HOST_SENSOR. -/
structure Kao where
  slots    : Sparse (Option KeySlot)
  records  : Sparse (Option KeyRec)
  queue    : List KaoJob
  waitKey  : List KaoWait
  waitMode : List KaoWait
  rr       : Nat
  lock     : Option (Fin 18)
  lockQ    : List (Fin 18)
  revoked  : List (Fin 18)
  testing  : List LaneId
  useClock : Nat
  sinceSeed : Nat
  modePend : Option Bool
  pinPend  : Option Nat
  pinned   : Nat
  locked   : Bool
  /-- KEYIDX of each link's key (Table 15.4, LINKKEY). -/
  linkKidx : Sparse Nat
  markLog  : Nat
  hostSensor : Bool
  /-- The fabric cycle at which the lock was granted, and HOLD_MAX as it then stood (R354, R367). -/
  lockFrom : Nat
  holdMax  : Nat
  /-- The keys (SIDX, KEYIDX) that wait for a free slot (R348). -/
  keyWaits : List (Nat × Nat)
  /-- Blocks since the noise source was last asked for a seed (R358). -/
  sinceTry : Nat
  /-- The fabric cycle at which the self-test of a lane ends (R357). -/
  testEnd  : Sparse Nat
  deriving DecidableEq, Repr, Inhabited

/-! ## DRAM (chapter 12) -/

/-- A parity recovery in progress (R380, R381): ALERT_N is low, or `left` replayed commands are unconfirmed. -/
structure Recovery where
  rank   : Bool
  alerts : Nat
  low    : Bool
  left   : Nat
  deriving DecidableEq, Repr, Inhabited

/-- A retraining run (R391 to R393). -/
structure TrainRun where
  temp    : Byte
  suspect : Bool
  /-- The result, and the ranks that have not applied it, once measured. -/
  result  : Option (List Int × List Bool)
  joined  : List Cmd
  deriving DecidableEq, Repr, Inhabited

/-- DMC beyond its registers. -/
structure Dmc where
  reqs      : List DramReq
  waiting   : List DramReq
  /-- Requests in flight that the full retry buffer keeps from being issued (R379). -/
  unissued  : List Nat
  retry0    : List DramReq
  retry1    : List DramReq
  inorder   : List (Nat × List Nat)
  recovery  : Option Recovery
  blocks    : Sparse (BitVec 256)
  poison    : List Nat
  urgency   : Sparse Nat
  /-- The fabric cycle at which each request in flight was admitted, by its number (R387). -/
  admitted  : Sparse Nat
  postponed0 : Nat
  postponed1 : Nat
  run       : Option TrainRun
  /-- How far each lane's centre has moved since boot training, in taps (R392). -/
  taps      : List Int
  /-- Rotation entries that could not be read in this superframe (Table 12.3). -/
  rotLost   : List Nat
  ueThisSf  : Nat
  scrubPos  : Nat
  selfRefresh : Bool
  /-- The fabric cycle at which the refresh interval of each rank, and the scrub interval, began (R371, R376). -/
  refFrom0  : Nat
  refFrom1  : Nat
  scrubFrom : Nat
  deriving DecidableEq, Repr, Inhabited

/-! ## Host interface (chapter 13) -/

/-- One ring beyond its registers (R401, R404). -/
structure Ring where
  host    : Nat
  dev     : Nat
  back    : List Nat
  halted  : Bool
  modWait : Bool
  /-- The fabric cycle of the first entry that has not been signalled (R407). -/
  modFrom : Nat
  posts   : List RxPost
  deriving DecidableEq, Repr, Inhabited

/-- A deferred command or long operation that runs (R410, R414). -/
structure Running where
  cmd     : Cmd
  long    : Bool
  upd     : Half
  pct     : Byte
  part    : Word
  arg     : Nat
  deriving DecidableEq, Repr, Inhabited

/-- A spectrum survey in progress (R415). -/
structure Survey where
  /-- The radio and channel index of each record still to come, the one being received first. -/
  todo  : List (RadioId × Nat)
  dwell : Nat
  buf   : BitVec 64
  /-- Superframe boundaries until the record at the head is due. -/
  left  : Nat
  recs  : Nat
  fromLocal : Bool
  deriving DecidableEq, Repr, Inhabited

/-- A TX descriptor that the device has fetched and not written back (R417). -/
structure TxJob where
  ring    : Nat
  index   : Nat
  epoch   : Nat
  copies  : Nat
  reached : Bool
  tooLong : Bool
  deriving DecidableEq, Repr, Inhabited

/-- A TX descriptor that stays on its ring: the copies of its message that have found no room or no item (Tables 9.4 and
10.2), and the fabric cycle since which it waits. -/
structure HostWait where
  ring  : Nat
  index : Nat
  epoch : Nat
  ver   : Nat
  todo  : List Deliver
  since : Int
  deriving DecidableEq, Repr, Inhabited

/-- An output of the active control pair that the journal records (R334): a completion of the command at an index, final or
not; an event entry with PHASE 0; a flood that the device originates. -/
inductive Written where
  | compl (idx : Nat) (final : Bool)
  | event (entry : List Byte)
  | flood (kind ttl : Nat) (msgid : BitVec 16) (body : List Byte)
  deriving DecidableEq, Repr, Inhabited

/-- HIF beyond its registers. -/
structure Hif where
  rings    : Sparse Ring
  runs     : List Running
  complQ   : List (List Byte × Nat)
  epoch    : Nat
  /-- Commands that the local host has issued. -/
  localIdx : Nat
  eventQ   : List (List Byte)
  lost     : Nat
  tx       : List TxJob
  txWait   : List HostWait
  survey   : Option Survey
  fetchStop : Bool
  attachDue : Bool
  /-- The polls of the doorbell page in the present slot (R403). -/
  polls     : Nat
  /-- What the active control pair has put out since its last checkpoint (R334). -/
  written  : List Written
  deriving DecidableEq, Repr, Inhabited

/-! ## Power (chapter 14) -/

/-- Where the power-up or wake sequence stands (R437 to R439). -/
structure PowerSeq where
  step    : Nat
  retried : Bool
  sentinel : Bool
  deriving DecidableEq, Repr, Inhabited

/-- The power die and the Silt domain beyond the PWR registers. -/
structure Pwr where
  vinUp     : Bool
  porLow    : Bool
  sysLow    : Bool
  seq       : Option PowerSeq
  restart   : Bool
  failures  : List (Nat × Nat)
  entering  : Option (Cmd × Bool)
  armed     : Bool
  backTo    : BitVec 3
  entryTai  : Int
  leanCmd   : Option Cmd
  activeCmd : Option Cmd
  /-- Isolated domains that an access has made operational again. -/
  woken     : List Domain
  stalled   : List Domain
  resetAt   : List Nat
  faultBoot : Option Nat
  brownBoot : Bool
  extSupply : Bool
  coldBoot  : Bool
  /-- An attempt has failed and no later one has succeeded (R498). -/
  attemptFailed : Bool
  /-- The Silt timer, in nanoseconds. -/
  silt      : Nat
  /-- The Silt timer at entry to SENTINEL or at the start from cold, and at the last failed attempt (R439, R452). -/
  entrySilt : Nat
  failSilt  : Nat
  /-- The fabric cycle before which VCORE takes no further step (R432), and at which WAKE_N was driven low (R455). -/
  vcoreNext : Nat
  wakeNFrom : Nat
  deriving DecidableEq, Repr, Inhabited

/-! ## Boot and update (chapter 15) -/

/-- The activation of a new image (R478 to R481). -/
structure Activation where
  cmd    : Cmd
  target : Int
  reset  : Bool
  begun  : Bool
  deriving DecidableEq, Repr, Inhabited

/-- Flash, staging area, the update engine and the local host's commands (chapter 15). `keyHash` is fused at manufacture.
`map0` and `map1` are the persisted bitmaps, each with its sequence number. -/
structure Boot where
  keyHash  : BitVec 256
  flashMB  : Nat
  bankA    : List Byte
  bankB    : List Byte
  applied  : Bool
  activeB  : Bool
  txEpoch  : Sparse (BitVec 26)
  rxEpoch  : Sparse (BitVec 26)
  lastWrap : Sparse (List Byte)
  msgBase  : BitVec 16
  prof0    : List Byte
  prof1    : List Byte
  map0     : Option (Nat × List Nat)
  map1     : Option (Nat × List Nat)
  chunks   : Sparse (List Byte)
  stageId  : Option (Word × Nat)
  marked   : List Nat
  sincePersist : Nat
  applying : Option Cmd
  activation : Option Activation
  paused   : Bool
  /-- Receptions held in DRAM during an activation pause, in arrival order (R480). -/
  hold     : List Rx
  /-- An image received through PCI Express that the boot ROM has accepted (R464). -/
  image    : List Byte
  /-- The schema of the running image. -/
  schema   : Half
  /-- Schema and GEN of the profile in force; none when it is blank. -/
  profile  : Option (Half × Word)
  /-- Commands that the local host has still to issue, with their number in the profile. -/
  localCmds : List (Option Nat × Instr)
  /-- The command that the local host waits for, and its status once it has completed. -/
  localCur : Option (Option Nat × Cmd)
  localEnd : Option Nat
  /-- With a blank profile the local host repeats its survey (R468). -/
  surveyLoop : Bool
  autoApply : Bool
  autoActivate : Bool
  /-- Both banks have been rejected (R463). -/
  bothRejected : Bool
  deriving DecidableEq, Repr, Inhabited

/-! ## Observation (chapter 17) -/

/-- OBS beyond its registers. -/
structure Obs where
  hostShadow : Word
  fwShadow   : Word
  hostSnap   : Word
  fwSnap     : Word
  snap       : Sparse (BitVec 64)
  watchHist  : Sparse (List (BitVec 64))
  watchQuiet : Sparse Nat
  traceQ     : List (List Byte)
  traceLost  : Nat
  traceOn    : Bool
  testEn     : Bool
  tap        : BitVec 4
  boundary   : List Bool
  tapUndef   : Bool
  /-- TSK_LEVEL.PEAK and CLK_TJ.MAX before hardware last set them (R11). -/
  peakWas    : Nat
  tjWas      : Nat
  deriving DecidableEq, Repr, Inhabited

/-- Pins that are the device's alone: FAULT_N, PG_OUT, RST_OUT_N, PPS_OUT, WAKE_N (true while driven low),
PERST_N as seen, GPIO outputs. -/
structure Pins where
  faultN  : Bool
  pgOut   : Bool
  rstOutN : Bool
  ppsOut  : Bool
  wakeN   : Bool
  perstN  : Bool
  gpio    : BitVec 16
  deriving DecidableEq, Repr, Inhabited

/-- What the device has put on its links and balls. -/
inductive Output where
  | hostWrite (addr : Nat) (bytes : List Byte)
  | msix (vector : Nat)
  | value (v : Word)
  /-- A burst: radio, carrier, level, its start in picoseconds from T0 of its first slot (R246), the content of its symbol
  periods (R40), and the keying of the carrier by a WAKE pattern, one bit per 125 µs (R79). -/
  | air (radio : RadioId) (hz : Nat) (level : Cdb) (start : Int) (sig : List AirPeriod) (keys : List Bool) (b : Burst)
  | tuner (radio : RadioId) (bits : List Bool)
  | eth (port : PortId) (frame : List Byte) (stomped : Bool)
  | remoteFault (port : PortId)
  | mdio (word : Word)
  | trace (bytes : List Byte)
  | localEvent (entry : List Byte)
  | localCompl (entry : List Byte)
  | localMsg (bytes : List Byte)
  deriving DecidableEq, Repr, Inhabited

/-! ## The machine -/

/-- The block without its queue of waiting commands. `regs` holds every register word that differs from its reset
value, by BAR0 address; `eff` holds the values in force of the registers whose writes wait for a boundary (R505). -/
structure Dev where
  regs     : Sparse Word
  eff      : Sparse Word
  counters : Sparse (BitVec 64)
  chans    : Sparse (Option ChanCfg)
  r0       : Radio
  r1       : Radio
  r2       : Radio
  sch      : Sch
  msh      : Msh
  tim      : Tim
  fwd      : Fwd
  eth      : Eth
  tsk      : Tsk
  kao      : Kao
  dmc      : Dmc
  hif      : Hif
  pwr      : Pwr
  boot     : Boot
  obs      : Obs
  pins     : Pins
  decodeQ  : List Rx
  vit      : Bank
  outs     : List Output
  freeCtr  : Nat
  deriving DecidableEq, Repr, Inhabited

/-- The machine: the block and the queue of the commands that wait for it, first in, first out. -/
structure State where
  pending  : List Instr
  dev      : Dev
  deriving DecidableEq, Repr, Inhabited

/-- Why the machine stops. -/
inductive Fault where
  /-- Raised by every command other than a reset or a TAP instruction once EXTEST, CLAMP or HIGHZ has taken the balls
  from their functions: the manual calls the device's state undefined until SYS_RST_N (R516). Safe. -/
  | stateUndefined
  deriving DecidableEq, Repr

/-- Why a command has no meaning. -/
inductive Refusal where
  /-- Raised by the dispatch arm of a command that has no meaning yet. Safe. -/
  | notModelled (mnemonic : String)
  deriving DecidableEq, Repr

/-! ## Reset (R9, R506)

Every register reads its reset value (the register file lists none that differs), every counter is 0, and every table of
the device is empty. Values that the manual does not give are named in the assumption log. -/

/-- No map: version 0. -/
def noMap : LoadMap := ⟨0, false, 0, []⟩

def initRadio : Radio :=
  { entries := [], pins := 0, chan := none, target := none, hz := 0, missRun := 0, yApplied := 0, tuneWait := false,
    coexNext := false, checked := none, agc := .preset, gain := 0,
    gainHist := [], coarse := none, pfrz := 0, wbNoise := 0, attacks := 0, passed := false, released := false, noRx := false, rxS := none, stuck := false,
    stuckRun := 0, txLowRun := 0, cells := [], floors := [], quiet := [], planned := [], onAir := [], await := [],
    lowVswr := ⟨0, 0, 0⟩, highVswr := ⟨0, 0, 0⟩, sweep := none, tempRun := none, calDone := false,
    buildQ := [] }

def initSch : Sch :=
  { active := [], pending := [], rot := [], staged := [], target := 0, copying := false, wakeQ := [], protPend := true, held := [], bcnSeq := [],
    raA := 0, raB := 0, raK := 0, joins := [], jrsp := [], bcast := [], remaps := [], sensors := [], antEnable := [],
    violSeen := [], ackSeen := [], boPrev := 2, ctxCache := [], mapCache := [] }

def initMsh : Msh :=
  { links := [], marl := [], msgid := 0, missed := 0, lastRxS := 0, holdSfs := 0, dwellSfs := 0, searchRadio := 0,
    linkWritten := false, parentSeen := none, rxQ := [] }

def initPtp : PtpPort :=
  { master := none, foreign := [], trans := 0, t1 := 0, t2 := 0, t3 := 0, seqSync := 0, seqAnn := 0, seqReq := 0, stepTwo := none, delay := none }

/-- The clock starts at 0 with increment 2.5 ns, and the first step after reset is free of the jump limit (R234). -/
def initTim : Tim :=
  { sec := 0, ns := 0, frac := 0, inc := 0x0280000000, elapsed := 0, slotS := 0, slew := 0, lockRun := 0, awayRun := 0,
    blocked := false, fresh := true, step := none, offStep := none, offset := 0, noTickBefore := none, tgBegun := false,
    timingHold := 0, cyc := 0, ppsSeen := false, ppsAt := 0, ppsOutS := none, ppsOutEnd := 0, stamps0 := [], stamps1 := [], ptp0 := initPtp, ptp1 := initPtp,
    ptpOfs := none, compose := [], measAt := 0 }

def noRules : Ruleset := ⟨[], [], [], List.replicate 40 0, []⟩

def initFwd : Fwd :=
  { staging := noRules, versions := [], gens := [], mac := [], ip6 := [], pfx := [], sensor := [], server := [], lostMac := [],
    lostIp6 := [], lostSrv := [], upsets := [], insStamp := 0, cache := [], macBusy := 0, ip6Busy := 0, macSwept := 0, ip6Swept := 0, copying := none }

def initPort : EthPort :=
  { inBuf := [], queues := [], sending := none, pauseQ := [], pauseLeft := 0, pauseFrom := 0, xoffIntervals := 0,
    gates := none, pendGates := none, drr := none, stallFrom := none, heldFrom := 0, stormFrom := 0, xoffFrom := 0, busyUntil := 0, listenOn := false, listenAt := 0, tryMode := none, tryFrom := 0 }

def initEth : Eth :=
  { p0 := initPort, p1 := initPort, pairStep := none, below := 0, moving := none, pairCfg := none, mdioRead := false,
    refills := 0, loadFrom := 0 }

def initTsk : Tsk :=
  { items := [], nextId := 0, nextOrd := 0, waiting := [], recent := [], hangs := [], dtick := 0, journal := [],
    takeover := none, testing := false, ccSwitch := none, deferred := [] }

def initKao : Kao :=
  { slots := [], records := [], queue := [], waitKey := [], waitMode := [], rr := 0, lock := none, lockQ := [], revoked := [],
    testing := [], useClock := 0, sinceSeed := 0, modePend := none, pinPend := none, pinned := 32,
    locked := false, linkKidx := [], markLog := 4, hostSensor := false, lockFrom := 0, holdMax := 50, keyWaits := [], sinceTry := 0,
    testEnd := [] }

def initDmc : Dmc :=
  { reqs := [], waiting := [], unissued := [], retry0 := [], retry1 := [], inorder := [], recovery := none, blocks := [],
    poison := [], urgency := [], admitted := [], postponed0 := 0, postponed1 := 0, run := none, taps := [], rotLost := [], ueThisSf := 0,
    scrubPos := 0, selfRefresh := false, refFrom0 := 0, refFrom1 := 0, scrubFrom := 0 }

def initHif : Hif :=
  { rings := [], runs := [], complQ := [], epoch := 0, localIdx := 0, eventQ := [], lost := 0, tx := [], txWait := [], survey := none,
    fetchStop := false, attachDue := false, polls := 0, written := [] }

/-- Power has come up: the lockout is released and POR_N and SYS_RST_N are high. -/
def initPwr : Pwr :=
  { vinUp := true, porLow := false, sysLow := false, seq := none, restart := false, failures := [], entering := none,
    armed := false, backTo := 2, entryTai := 0, leanCmd := none, activeCmd := none, woken := [], stalled := [], resetAt := [],
    faultBoot := none, brownBoot := false,
    extSupply := false, coldBoot := false, attemptFailed := false, silt := 0, entrySilt := 0, failSilt := 0, vcoreNext := 0, wakeNFrom := 0 }

/-- The flash is erased; its size is 32 MB. -/
def initBoot : Boot :=
  { keyHash := Config.keyHash, flashMB := 32, bankA := [], bankB := [], applied := false, activeB := false, txEpoch := [],
    rxEpoch := [], lastWrap := [], msgBase := 0, prof0 := [], prof1 := [], map0 := none, map1 := none, chunks := [],
    stageId := none, marked := [], sincePersist := 0, applying := none, activation := none, paused := false, hold := [],
    image := [], schema := 0, profile := none, localCmds := [], localCur := none, localEnd := none, surveyLoop := false, autoApply := false,
    autoActivate := false, bothRejected := false }

def initObs : Obs :=
  { hostShadow := 0, fwShadow := 0, hostSnap := 0, fwSnap := 0, snap := [], watchHist := [], watchQuiet := [], traceQ := [],
    traceLost := 0, traceOn := false, testEn := false, tap := 2, boundary := [], tapUndef := false, peakWas := 0, tjWas := 0 }

/-- The pins after reset: FAULT_N and PERST_N high, the outputs low, RST_OUT_N among them (R526). -/
def initPins : Pins :=
  { faultN := true, pgOut := false, rstOutN := false, ppsOut := false, wakeN := false, perstN := true, gpio := 0 }

def initDev : Dev :=
  { regs := [], eff := [], counters := [], chans := [], r0 := initRadio, r1 := initRadio, r2 := initRadio, sch := initSch,
    msh := initMsh, tim := initTim, fwd := initFwd, eth := initEth, tsk := initTsk, kao := initKao, dmc := initDmc,
    hif := initHif, pwr := initPwr, boot := initBoot, obs := initObs, pins := initPins, decodeQ := [], vit := ⟨[0, 0, 0, 0], [], []⟩, outs := [],
    freeCtr := 0 }

/-- The machine right after power-on reset: in BOOT, with no command waiting. -/
def State.reset : State := { pending := [], dev := initDev }

end Sys2Proof.Machine
end

