-- ==== Sys2Proof/Machine/AirFormat.lean ====
section
/-! DEFINITION. The Bluane air format of chapter 02 as pure functions: numerology, SIG, coding, loading maps, the MPDU
and the ACK symbol. -/

namespace Sys2Proof.Machine

/-! ## Numerology (R35 to R39) -/

/-- Used subcarriers below DC of a mode N, M, W (Table 2.1). -/
def halfUsed (mode : Fin 3) : Nat := match mode with | 0 => 52 | 1 => 208 | 2 => 832
/-- Blocks of a mode. -/
def modeBlocks (mode : Fin 3) : Nat := match mode with | 0 => 2 | 1 => 8 | 2 => 32
/-- Subchannels of a mode. -/
def modeSubch (mode : Fin 3) : Nat := 3 * modeBlocks mode
/-- Width of a mode in hertz, from the lowest used subcarrier to the highest (Table 2.1). -/
def modeWidth (mode : Fin 3) : Nat := match mode with | 0 => 832000 | 1 => 3328000 | 2 => 13312000

/-- Subcarrier index k of block `b`, offset `o` (R37). -/
def blockK (mode : Fin 3) (b o : Nat) : Int :=
  let h : Int := halfUsed mode
  let bb : Int := modeBlocks mode / 2
  if (b : Int) < bb then -h + 52 * b + o else 1 + 52 * ((b : Int) - bb) + o

/-- Is subcarrier k a pilot (R36)? -/
def isPilot (k : Int) : Bool := (k.natAbs + 13 - 7) % 13 == 0

/-- The offsets that a subchannel position spans (Table 2.2): the first and the number. -/
def spanOf (a : Nat) : Nat × Nat := if a = 0 then (0, 17) else if a = 1 then (17, 18) else (35, 17)

/-- The used subcarriers of subchannel `s`, ascending (R37). -/
def subchK (mode : Fin 3) (s : Nat) : List Int :=
  let sp := spanOf (s % 3)
  (List.range sp.2).map fun j => blockK mode (s / 3) (sp.1 + j)

/-- The data subcarriers of subchannel `s`, i = 0 to 15 (R37). -/
def subchData (mode : Fin 3) (s : Nat) : List Int := (subchK mode s).filter fun k => !isPilot k

/-- `n` outputs of the 9-bit register of R38 from state `s`. -/
def refBits : Nat → Nat → List Bool
  | 0, _ => []
  | n + 1, s =>
    let fb := (s.testBit 8 != s.testBit 4).toNat
    s.testBit 8 :: refBits n ((2 * s + fb) % 512)

/-- The reference value C(k) is −1 where the bit is set; k is the mode's `j`-th used subcarrier (R38). -/
def refNeg (mode : Fin 3) : List Bool := refBits (2 * halfUsed mode) 511

/-- C(k) of the used subcarriers of one subchannel (R38). -/
def subchRef (mode : Fin 3) (s : Nat) : List Int :=
  let st := 52 * (s / 3) + (spanOf (s % 3)).1
  (((refNeg mode).drop st).take (spanOf (s % 3)).2).map fun b => if b then -1 else 1

/-! ## Slot layout (R42, R43) -/

/-- What a symbol period carries (Table 2.4). -/
inductive PeriodUse where
  | sync | ce | sig | data | agap | ack | tg
  deriving DecidableEq, Repr

/-- The use of period `j` of slot `i` of a train of `l` slots (Table 2.4). -/
def periodUse (l i j : Nat) : PeriodUse :=
  if i = 0 ∧ j = 0 then .sync
  else if i = 0 ∧ j = 1 then .ce
  else if i = 0 ∧ j = 2 then .sig
  else if j < 13 then .data
  else if i + 1 < l then .data
  else if j = 13 then .agap
  else if j = 14 then .ack
  else .tg

/-- N_DATA (R43). -/
def nData (l : Nat) : Nat := if l ≤ 1 then 10 else 16 * l - 6

/-! ## SIG (R45 to R48) -/

def sigMcs (sig : BitVec 24) : BitVec 4 := sig.extractLsb' 20 4
def sigRate (sig : BitVec 24) : BitVec 2 := sig.extractLsb' 20 2
def sigSel (sig : BitVec 24) : BitVec 2 := sig.extractLsb' 22 2
def sigLmv (sig : BitVec 24) : BitVec 4 := sig.extractLsb' 16 4
def sigTrain (sig : BitVec 24) : BitVec 4 := sig.extractLsb' 12 4
def sigStripe (sig : BitVec 24) : BitVec 3 := sig.extractLsb' 9 3
def sigMore (sig : BitVec 24) : Bool := sig.getLsbD 8
def sigCrc (sig : BitVec 24) : BitVec 8 := sig.setWidth 8

/-- The CRC-8 over bits [23:8] of a SIG (R46). -/
def sigCrcOf (hi : Nat) : Nat := crc8 (be 2 hi)

/-- A SIG built from its fields (Table 2.5). -/
def mkSig (mcs : BitVec 4) (lmv : BitVec 4) (train : BitVec 4) (stripe : BitVec 3) (more : Bool) : BitVec 24 :=
  let hi := mcs.toNat * 4096 + lmv.toNat * 256 + train.toNat * 16 + stripe.toNat * 2 + more.toNat
  BitVec.ofNat 24 (hi * 256 + sigCrcOf hi)

/-- The valid STRIPE masks (Table 2.5). -/
def stripeValid (m : BitVec 3) : Bool := m == 1 || m == 3 || m == 7

/-- Number of members that a STRIPE mask names. -/
def stripeCount (m : BitVec 3) : Nat := m.toNat % 2 + m.toNat / 2 % 2 + m.toNat / 4

/-- Does a SIG pass (R48)? -/
def sigPasses (sig : BitVec 24) : Bool :=
  (sigCrc sig).toNat == sigCrcOf (sig.toNat / 256) && stripeValid (sigStripe sig)

/-! ## Coding (R49 to R54) -/

/-- Parity of a number below 128. -/
def parity7 (v : Nat) : Bool := (bitsMsb 7 v).foldl (· != ·) false

/-- The rate-½ encoder: the output pairs A, B from state `st` (R51). The newest bit of the state is its bit 5. The most
significant bit of each octal generator taps the present input bit, the least significant the oldest (DESIGN CHOICE, log entry
189: the manual does not say which end of a generator does). -/
def convEncode : Nat → List Bool → List (Bool × Bool)
  | _, [] => []
  | st, b :: t =>
    let v := b.toNat * 64 + st
    (parity7 (v &&& 0o133), parity7 (v &&& 0o171)) :: convEncode (v / 2) t

/-- The patterns A and B of Table 2.7. -/
def punctPattern (rate : BitVec 2) : List (Bool × Bool) :=
  match rate with
  | 0 => [(true, true)]
  | 1 => [(true, true), (true, false)]
  | 2 => [(true, true), (true, false), (false, true)]
  | _ => [(true, true), (true, false), (false, true), (true, false), (false, true)]

/-- Keep the coded bits that the pattern marks, starting at pattern entry `i` (R51). -/
def puncture (pat : List (Bool × Bool)) : Nat → List (Bool × Bool) → List Bool
  | _, [] => []
  | i, (a, b) :: t =>
    let p := pat.getD (i % pat.length) (false, false)
    (if p.1 then [a] else []) ++ (if p.2 then [b] else []) ++ puncture pat (i + 1) t

/-- The start state of the tail-biting form: the last six information bits (R47, R71). -/
def tailState (v : Nat) : Nat := ofBitsMsb ((bitsMsb 6 (v % 64)).reverse)

/-- The 32 coded bits of a SIG (R47). -/
def sigCoded (sig : BitVec 24) : List Bool :=
  puncture (punctPattern 2) 0 (convEncode (tailState sig.toNat) (bitsMsb 24 sig.toNat))

/-- The QPSK label, I bit then Q bit, of each data subcarrier of a SIG symbol (R47). -/
def sigLabels (sig : BitVec 24) : List (Bool × Bool) :=
  let c := sigCoded sig
  (List.range 16).map fun i => let p := (i * 13) % 16; (c.getD (2 * p) false, c.getD (2 * p + 1) false)

/-- The scrambler of R50 from register `d`: each output is XORed with the bit and enters d[0]. -/
def scramble : Nat → List Bool → List Bool
  | _, [] => []
  | d, b :: t =>
    let o := d.testBit 6 != d.testBit 3
    (b != o) :: scramble ((2 * d + o.toNat) % 128) t

/-- The scrambler's start for a transmission whose first slot number is `s` (R50). -/
def scrambleSeed (s : Nat) : Nat := s % 127 + 1

/-- Numerator of the code rate over 12 (Table 2.6). -/
def rate12 (rate : BitVec 2) : Nat := match rate with | 0 => 6 | 1 => 8 | 2 => 9 | _ => 10

/-- Information capacity I = floor(C × r) (R52). -/
def capacity (coded : Nat) (rate : BitVec 2) : Nat := coded * rate12 rate / 12

/-- Does an MPDU of `len` bytes fit `l` slots at Σb coded bits per symbol (R52)? -/
def mpduFits (len l sumb : Nat) (rate : BitVec 2) : Bool := 8 * len + 6 ≤ capacity (nData l * sumb) rate

/-- The largest MPDU that fits (R52, R67). -/
def mpduMax (l sumb : Nat) (rate : BitVec 2) : Nat := (capacity (nData l * sumb) rate - 6) / 8

/-- The coded DATA stream of an MPDU: scrambled, tail and pad bits appended, encoded, punctured, and filled with zeros
to C bits (R49, R52). The coded bits of a last, partial puncturing period are encoded and sent, before the zeros (DESIGN
CHOICE, log entry 190: the manual does not say whether they are or carry 0 too). -/
def dataCoded (mpdu : List Byte) (slot l sumb : Nat) (rate : BitVec 2) : List Bool :=
  let c := nData l * sumb
  let bits := scramble (scrambleSeed slot) (bytesBits mpdu)
  let info := bits ++ List.replicate (capacity c rate - bits.length) false
  let out := puncture (punctPattern rate) 0 (convEncode 0 info)
  (out ++ List.replicate (c - out.length) false).take c

/-- Joint interleaving position p of M members: member and data subcarrier (R53, R75). -/
def interPos (m p : Nat) : Nat × Nat := (p % m, 5 * (p / m) % 16)

/-- The subcarriers, as index 16 × member + i, in the order in which one symbol's bits are placed (R53, R75). -/
def placeOrder (m : Nat) (bits : List Nat) : List Nat :=
  (List.range 8).flatMap fun j =>
    ((List.range (16 * m)).map fun p => let q := interPos m p; 16 * q.1 + q.2).filter fun x =>
      decide (j < bits.getD x 0)

/-- The constellation labels of one symbol, by subcarrier (R53). -/
def placeSymbol (m : Nat) (bits : List Nat) (coded : List Bool) : List (List Bool) :=
  let z := (placeOrder m bits).zip coded
  (List.range (16 * m)).map fun x => (z.filter fun p => p.1 == x).map (·.2)

/-- Gray code to binary, most significant bit first. -/
def grayToBin : Bool → List Bool → List Bool
  | _, [] => []
  | acc, b :: t => let v := acc != b; v :: grayToBin v t

/-- The level of one axis: 2g − (2^(n/2) − 1) (R54). -/
def axisLevel (l : List Bool) : Int := 2 * (ofBitsMsb (grayToBin false l) : Int) - ((2 ^ l.length : Nat) - 1)

/-- The unscaled point of a label; BPSK uses the I axis alone (R54). -/
def constPoint (l : List Bool) : Int × Int :=
  if l.length ≤ 1 then (if l = [] then 0 else axisLevel l, 0)
  else (axisLevel (l.take (l.length / 2)), axisLevel (l.drop (l.length / 2)))

/-! ## Loading codes and maps (R55 to R64) -/

/-- The constellation number of a loading code, 0 (off) to 5 (Table 2.9). -/
def codeCon (c : BitVec 4) : Nat := c.toNat / 2
/-- The boost bit of a loading code. -/
def codeBoost (c : BitVec 4) : Nat := c.toNat % 2
/-- Bits per subcarrier of a constellation number (Table 2.9). -/
def conBits (c : Nat) : Nat := match c with | 1 => 1 | 2 => 2 | 3 => 4 | 4 => 6 | 5 => 8 | _ => 0

/-- Σb of a map (R52). -/
def sumBits (codes : List (BitVec 4)) : Nat := codes.foldl (fun a c => a + conBits (codeCon c)) 0

/-- Members of a map. -/
def LoadMap.members (m : LoadMap) : Nat := m.codes.length / 16

/-- The floor map of `m` members: BPSK, or QPSK when `q` (R59). -/
def floorMap (q : Bool) (m : Nat) (rate : BitVec 2) : LoadMap :=
  ⟨0, q, rate, List.replicate (16 * m) (if q then 4 else 2)⟩

/-- A code reduced by one constellation step: BPSK stays, off and boost are unchanged (Table 2.6). -/
def reduceCode (c : BitVec 4) : BitVec 4 := if 2 ≤ codeCon c then c - 2 else c

/-- A map reduced one step. -/
def LoadMap.reduced (m : LoadMap) : LoadMap := { m with codes := m.codes.map reduceCode }

/-- The map that decodes a frame (Table 2.11), and whether this counts as LM_STALE. -/
def selectMap (floorQ : Bool) (confirmed : LoadMap) (pend : Option LoadMap) (sig : BitVec 24) (onAnchors : Bool)
    (members : Nat) :
    LoadMap × Bool :=
  let rate := sigRate sig
  match sigSel sig with
  | 2 => (floorMap false members rate, false)
  | 3 => (floorMap true members rate, false)
  | sel =>
    if !onAnchors then (floorMap floorQ members rate, false)
    else
      let use (m : LoadMap) : LoadMap := { (if sel = 1 then m.reduced else m) with rate := rate }
      if sigLmv sig = confirmed.version then (use confirmed, false)
      else match pend with
        | some p =>
          if sigLmv sig = p.version then (use p, false) else (floorMap floorQ members rate, true)
        | none => (floorMap floorQ members rate, true)

/-- The thresholds of Table 2.12 in hundredths of a decibel, by constellation 1 to 5 and rate. -/
def snrThr (c : Nat) (rate : BitVec 2) : Cdb :=
  let row : Cdb × Cdb × Cdb × Cdb := match c with
    | 1 => (100, 300, 400, 500)
    | 2 => (400, 600, 700, 800)
    | 3 => (1000, 1250, 1350, 1450)
    | 4 => (1550, 1800, 1950, 2050)
    | _ => (2100, 2400, 2550, 2700)
  match rate with | 0 => row.1 | 1 => row.2.1 | 2 => row.2.2.1 | _ => row.2.2.2

/-- The highest constellation whose threshold `e` reaches, 0 for none (R61). -/
def bestCon (e : Cdb) (rate : BitVec 2) : Nat :=
  if snrThr 5 rate ≤ e then 5 else if snrThr 4 rate ≤ e then 4 else if snrThr 3 rate ≤ e then 3
  else if snrThr 2 rate ≤ e then 2 else if snrThr 1 rate ≤ e then 1 else 0

/-- A subcarrier in the procedure of R61: e, constellation, boost. -/
structure LoadCell where
  e     : Cdb
  con   : Nat
  boost : Nat
  deriving DecidableEq, Repr

/-- What a boost of a subcarrier would bring: bits gained, and the margin over the new threshold (R61). -/
def boostGain (rate : BitVec 2) (x : LoadCell) : Int × Cdb :=
  let up := bestCon (x.e + 300) rate
  ((conBits up : Int) - conBits x.con, x.e + 300 - snrThr up rate)

/-- The index of the best candidate for a boost, if one gains (R61). -/
def bestBoost (rate : BitVec 2) (l : List LoadCell) : Option Nat :=
  let f (acc : Option (Nat × Int × Cdb)) (p : Nat × LoadCell) : Option (Nat × Int × Cdb) :=
    let x := p.2
    if x.con = 0 ∨ x.boost ≠ 0 then acc
    else
      let g := boostGain rate x
      if g.1 ≤ 0 then acc
      else match acc with
        | none => some (p.1, g)
        | some (_, bg) => if bg.1 < g.1 ∨ (bg.1 = g.1 ∧ bg.2 < g.2) then some (p.1, g) else acc
  (((List.range l.length).zip l).foldl f none).map (·.1)

/-- Spend a member's budget of boosts (R61). -/
def spendBoosts (rate : BitVec 2) : Nat → List LoadCell → List LoadCell
  | 0, l => l
  | n + 1, l =>
    match bestBoost rate l with
    | none => l
    | some j => spendBoosts rate n (l.modify j fun x => { x with con := bestCon (x.e + 300) rate, boost := 1 })

/-- The loading of one member at one rate (R61). -/
def loadMember (rate : BitVec 2) (margin : Cdb) (snr : List Cdb) : List LoadCell :=
  let l := snr.map fun s => let e := s - margin; (⟨e, bestCon e rate, 0⟩ : LoadCell)
  spendBoosts rate (l.filter fun x => x.con == 0).length l

/-- The codes of a loading. -/
def loadCodes (l : List LoadCell) : List (BitVec 4) := l.map fun x => BitVec.ofNat 4 (2 * x.con + x.boost)

/-- The metric of a map, in twelfths (R61). -/
def metric12 (codes : List (BitVec 4)) (rate : BitVec 2) : Nat := sumBits codes * rate12 rate

/-- A candidate map at one rate for the members' SNR lists (R61). -/
def candidate (rate : BitVec 2) (margin : Cdb) (snr : List (List Cdb)) : List (BitVec 4) :=
  snr.flatMap fun l => loadCodes (loadMember rate margin l)

/-- The map of R61; the floor map when no subcarrier can carry data. -/
def computeMap (version : BitVec 4) (floorQ : Bool) (margin : Cdb) (snr : List (List Cdb)) : LoadMap :=
  let step (best : Nat × BitVec 2 × List (BitVec 4)) (rate : BitVec 2) :=
    let c := candidate rate margin snr
    if best.1 < metric12 c rate then (metric12 c rate, rate, c) else best
  let b := [1, 2, 3].foldl step
    (metric12 (candidate 0 margin snr) 0, (0 : BitVec 2), candidate 0 margin snr)
  if b.1 = 0 then { floorMap floorQ snr.length 0 with version := version } else ⟨version, floorQ, b.2.1, b.2.2⟩

/-- Is a map safe at these SNR values (R62)? `slack` is MARGIN − HYST. -/
def mapSafe (m : LoadMap) (slack : Cdb) (snr : List Cdb) : Bool :=
  (m.codes.zip snr).all fun p =>
    codeCon p.1 == 0 || decide (slack ≤ p.2 + 300 * codeBoost p.1 - snrThr (codeCon p.1) m.rate)

/-- The loading-map record (Table 2.10). -/
def loadMapRecord (m : LoadMap) (anchors : List (BitVec 16)) : List Byte :=
  byte (m.version.toNat * 16 + m.floorQ.toNat * 8 + (anchors.length - 1)) :: byte m.rate.toNat ::
  ((List.range anchors.length).flatMap fun k =>
    be 2 (anchors.getD k 0).toNat ++
    (List.range 8).map fun q =>
      byte ((m.codes.getD (16 * k + 2 * q) 0).toNat * 16 + (m.codes.getD (16 * k + 2 * q + 1) 0).toNat))

/-- A loading map read from its record; none for a reserved code or three as MEMBERS (R57). -/
def readLoadMap (b : List Byte) : Option (LoadMap × List (BitVec 16)) :=
  let b0 := beAt b 0 1
  let n := b0 % 4 + 1
  if n = 4 ∨ b.length < 2 + 10 * n then none
  else
    let codes := (List.range n).flatMap fun k => (slice b (4 + 10 * k) 8).flatMap fun x =>
      [BitVec.ofNat 4 (x.toNat / 16), BitVec.ofNat 4 (x.toNat % 16)]
    if codes.any fun c => decide (12 ≤ c.toNat) then none
    else some (⟨BitVec.ofNat 4 (b0 / 16), b0.testBit 3, BitVec.ofNat 2 (beAt b 1 1), codes⟩,
      (List.range n).map fun k => BitVec.ofNat 16 (beAt b (2 + 10 * k) 2))

/-! ## The MPDU (R66 to R68) -/

/-- The header of an MPDU (Table 2.15, Table 2.16). -/
structure MpduHdr where
  ftype  : BitVec 4
  ver    : BitVec 2
  sec    : Bool
  noack  : Bool
  keyidx : BitVec 4
  seq    : Byte
  addr   : BitVec 24
  flags  : BitVec 16
  len    : Nat
  deriving DecidableEq, Repr

/-- FC as a number (Table 2.16). -/
def MpduHdr.fc (h : MpduHdr) : Nat :=
  h.ftype.toNat * 4096 + h.ver.toNat * 1024 + h.sec.toNat * 512 + h.noack.toNat * 256 + h.keyidx.toNat * 16

/-- The 10 header bytes. -/
def MpduHdr.bytes (h : MpduHdr) : List Byte :=
  be 2 h.fc ++ [h.seq] ++ be 3 h.addr.toNat ++ be 2 h.flags.toNat ++ be 2 h.len

/-- The header of an MPDU's bytes. -/
def readHdr (m : List Byte) : MpduHdr :=
  let fc := beAt m 0 2
  { ftype := BitVec.ofNat 4 (fc / 4096), ver := BitVec.ofNat 2 (fc / 1024), sec := fc.testBit 9, noack := fc.testBit 8,
    keyidx := BitVec.ofNat 4 (fc / 16), seq := byte (beAt m 2 1), addr := BitVec.ofNat 24 (beAt m 3 3),
    flags := BitVec.ofNat 16 (beAt m 6 2), len := beAt m 8 2 }

/-- Append the CRC32 (R68). -/
def withCrc (m : List Byte) : List Byte := m ++ be 4 (crc32 m)

/-- An MPDU built from its header fields and payload; LEN and CRC32 are computed (R66). -/
def mkMpdu (h : MpduHdr) (payload : List Byte) : List Byte :=
  withCrc ({ h with len := payload.length + 14 }.bytes ++ payload)

/-- Does the CRC32 over the first LEN bytes check (R68)? -/
def crcPasses (m : List Byte) (len : Nat) : Bool :=
  decide (14 ≤ len) && decide (len ≤ m.length) && slice m (len - 4) 4 == be 4 (crc32 (m.take (len - 4)))

/-- The payload of an MPDU of LEN bytes. -/
def mpduPayload (m : List Byte) (len : Nat) : List Byte := slice m 10 (len - 14)

/-- Set RETRY in an MPDU and renew its CRC32 (R69). -/
def setRetry (m : List Byte) : List Byte :=
  withCrc ((patch m 6 [byte (beAt m 6 1 ||| 0x80)]).take (m.length - 4))

def flagRetry (h : MpduHdr) : Bool := h.flags.getLsbD 15
def flagAlert (h : MpduHdr) : Bool := h.flags.getLsbD 14

/-- The frame types of Table 2.17. -/
def tBeacon : BitVec 4 := 0
def tDataUp : BitVec 4 := 1
def tDataDown : BitVec 4 := 2
def tJoinReq : BitVec 4 := 3
def tJoinRsp : BitVec 4 := 4
def tLoadmap : BitVec 4 := 5
def tGrant : BitVec 4 := 6
def tMesh : BitVec 4 := 7
/-- Is a TYPE reserved (Table 2.17)? -/
def typeReserved (t : BitVec 4) : Bool := decide (8 ≤ t.toNat)

/-! ## The ACK symbol (R70 to R72) -/

/-- CODE and TCORR in one byte (Table 2.19). -/
def mkAck (code : Nat) (tcorr : Int) : Byte := byte (code * 64 + (tcorr % 64).toNat)
def ackCode (b : Byte) : Nat := b.toNat / 64
/-- TCORR as a signed number of half microseconds. -/
def ackTcorr (b : Byte) : Int := toSigned 6 (b.toNat % 64)

/-- −e / 0.5 µs rounded to nearest, halves away from zero, clamped (R72), for the mean e of `n` members whose arrival errors
add up to `sum` picoseconds (R76). -/
def tcorrMean (sum : Int) (n : Nat) : Int :=
  let r : Int := ((2 * sum.natAbs + 500000 * n) / (1000000 * n) : Nat)
  clampInt (-32) 31 (if 0 ≤ sum then -r else r)

/-- TCORR for an arrival error of `e` picoseconds (R72). -/
def tcorrOf (e : Int) : Int := tcorrMean e 1

/-- The 16 coded bits of an ACK symbol (R71). -/
def ackCoded (b : Byte) : List Bool :=
  puncture (punctPattern 0) 0 (convEncode (tailState b.toNat) (bitsMsb 8 b.toNat))

/-- The differential bits of steps n = 1 to 16: step n carries coded bit q with n = 1 + (5q mod 16) (R71). -/
def ackSteps (b : Byte) : List Bool :=
  let c := ackCoded b
  (List.range 16).map fun n => c.getD (13 * n % 16) false

/-- The values ±1 of the used subcarriers of an ACK symbol (R71). -/
def ackChain (b : Byte) (nused : Nat) : List Int :=
  let vals := (ackSteps b).foldl (fun (a : List Int) x => a ++ [if x then -(a.getLastD 1) else a.getLastD 1]) [1]
  if nused = 18 then vals ++ [vals.getLastD 1] else vals

/-! ## WAKE (R78, R79) -/

/-- The 48 bits of a WAKE pattern (Table 2.20). -/
def wakeBits (code : BitVec 32) : List Bool :=
  bytesBits (0xAA :: be 4 code.toNat ++ [byte (crc8 (be 4 code.toNat))])

/-- Does a WAKE pattern's CRC pass (R80)? -/
def wakeCrcOk (code : BitVec 32) (crc : Byte) : Bool := crc == byte (crc8 (be 4 code.toNat))

end Sys2Proof.Machine
end

