-- ==== Sys2Proof/Machine/Counters.lean ====
section
/-! DEFINITION. The indices of the counters (Table 17.4 and the counter tables of the chapters). -/

namespace Sys2Proof.Machine.Cnt

/-! Table 3.15 -/
def detRadio (r : Nat) : Nat := 0x100 + 0x20 * r + 0
def falseDet (r : Nat) : Nat := 0x100 + 0x20 * r + 1
def syncCell (r : Nat) : Nat := 0x100 + 0x20 * r + 2
def sigPass (r : Nat) : Nat := 0x100 + 0x20 * r + 3
def sigFail (r : Nat) : Nat := 0x100 + 0x20 * r + 4
def sigMismatch (r : Nat) : Nat := 0x100 + 0x20 * r + 5
def crcPass (r : Nat) : Nat := 0x100 + 0x20 * r + 6
def crcFail (r : Nat) : Nat := 0x100 + 0x20 * r + 7
def hdrLenErr (r : Nat) : Nat := 0x100 + 0x20 * r + 8
def hdrVerErr (r : Nat) : Nat := 0x100 + 0x20 * r + 9
def hdrTypeErr (r : Nat) : Nat := 0x100 + 0x20 * r + 10
def lmStale (r : Nat) : Nat := 0x100 + 0x20 * r + 11
def captureRestart (r : Nat) : Nat := 0x100 + 0x20 * r + 12
def captureLost (r : Nat) : Nat := 0x100 + 0x20 * r + 13
def captureLate (r : Nat) : Nat := 0x100 + 0x20 * r + 14
def clipped (r : Nat) : Nat := 0x100 + 0x20 * r + 15
def timingOut (r : Nat) : Nat := 0x100 + 0x20 * r + 16
def ungranted (r : Nat) : Nat := 0x100 + 0x20 * r + 17
def noiseJump (r : Nat) : Nat := 0x100 + 0x20 * r + 18
def ackRxOk (r : Nat) : Nat := 0x100 + 0x20 * r + 19
def ackRxMiss (r : Nat) : Nat := 0x100 + 0x20 * r + 20
def stripeErased (r : Nat) : Nat := 0x100 + 0x20 * r + 21
def stripeDisagree (r : Nat) : Nat := 0x100 + 0x20 * r + 22

/-! Table 4.16 -/
def txBurst (r : Nat) : Nat := 0x160 + 0x10 * r + 0
def txSynthNotReady (r : Nat) : Nat := 0x160 + 0x10 * r + 1
def rxSynthMiss (r : Nat) : Nat := 0x160 + 0x10 * r + 2
def coexDenied (r : Nat) : Nat := 0x160 + 0x10 * r + 3
def coexLate (r : Nat) : Nat := 0x160 + 0x10 * r + 4
def coexRxDenied (r : Nat) : Nat := 0x160 + 0x10 * r + 5
def retune (r : Nat) : Nat := 0x160 + 0x10 * r + 6
def coldRetune (r : Nat) : Nat := 0x160 + 0x10 * r + 7
def calRun (r : Nat) : Nat := 0x160 + 0x10 * r + 8
def calStarved (r : Nat) : Nat := 0x160 + 0x10 * r + 9
def vswrBackoff (r : Nat) : Nat := 0x160 + 0x10 * r + 10
def vswrInhibit (r : Nat) : Nat := 0x160 + 0x10 * r + 11

/-! Table 5.19 -/
def ulAck : Nat := 0x190 + 0
def ulNackRetry : Nat := 0x190 + 1
def ulNackDrop : Nat := 0x190 + 2
def ulRetryRx : Nat := 0x190 + 3
def ulMore : Nat := 0x190 + 4
def dlSent : Nat := 0x190 + 5
def dlAccepted : Nat := 0x190 + 6
def dlRepeat : Nat := 0x190 + 7
def dlTimeout : Nat := 0x190 + 8
def dlNofit : Nat := 0x190 + 9
def dlQfull : Nat := 0x190 + 10
def dlSensorDrop : Nat := 0x190 + 11
def loadmapSent : Nat := 0x190 + 12
def lmConfirmed : Nat := 0x190 + 13
def beaconSent : Nat := 0x190 + 14
def raBusy : Nat := 0x190 + 15
def raCollided : Nat := 0x190 + 16
def joinAccepted : Nat := 0x190 + 17
def joinClosed : Nat := 0x190 + 18
def joinRepeat : Nat := 0x190 + 19
def wakeSent : Nat := 0x190 + 20
def rowsNotCarried : Nat := 0x190 + 21
def vOutOfGrant : Nat := 0x190 + 22
def vAddrMismatch : Nat := 0x190 + 23
def vWrongType : Nat := 0x190 + 24
def vStaleMap : Nat := 0x190 + 25
def vTiming : Nat := 0x190 + 26
def vJoinFlood : Nat := 0x190 + 27

/-! Table 6.15 -/
def linkTx : Nat := 0x1B0 + 0
def linkRxOk : Nat := 0x1B0 + 1
def linkCrcFail : Nat := 0x1B0 + 2
def linkRepeat : Nat := 0x1B0 + 3
def linkDrop : Nat := 0x1B0 + 4
def linkQdrop : Nat := 0x1B0 + 5
def lbcnMiss : Nat := 0x1B0 + 6
def holdoverEntry : Nat := 0x1B0 + 7
def searchEntry : Nat := 0x1B0 + 8
def reacquire : Nat := 0x1B0 + 9
def floodRx : Nat := 0x1B0 + 10
def floodDup : Nat := 0x1B0 + 11
def floodOwn : Nat := 0x1B0 + 12
def floodFwd : Nat := 0x1B0 + 13
def floodTtlEnd : Nat := 0x1B0 + 14
def marlEvict : Nat := 0x1B0 + 15
def vTtlAbuse : Nat := 0x1B0 + 16
def vFloodRate : Nat := 0x1B0 + 17
def vPeerUnknown : Nat := 0x1B0 + 18
def vLinkTiming : Nat := 0x1B0 + 19
def wakeMatch : Nat := 0x1B0 + 20
def wakeCrcFail : Nat := 0x1B0 + 21
def vLinkAuth : Nat := 0x1B0 + 22
def linkNofit : Nat := 0x1B0 + 23

/-! Table 7.15 -/
def offsetValid : Nat := 0x1D0 + 0
def stepApplied : Nat := 0x1D0 + 1
def stepRefused : Nat := 0x1D0 + 2
def timeForce : Nat := 0x1D0 + 3
def lockGain : Nat := 0x1D0 + 4
def holdoverIn : Nat := 0x1D0 + 5
def airBreak : Nat := 0x1D0 + 6
def slotsSkipped : Nat := 0x1D0 + 7
def tsqOvf : Nat := 0x1D0 + 8
def ppsInEdge : Nat := 0x1D0 + 9
def ppsInBad : Nat := 0x1D0 + 10
def ppsInMiss : Nat := 0x1D0 + 11
def tcCorrected : Nat := 0x1D0 + 12
def ptpIgnored : Nat := 0x1D0 + 13
def vPtpJump : Nat := 0x1D0 + 14

/-! Table 8.15 -/
def pplIn : Nat := 0x1E0 + 0
def bridged : Nat := 0x1E0 + 1
def routed : Nat := 0x1E0 + 2
def terminated : Nat := 0x1E0 + 3
def ulEncap : Nat := 0x1E0 + 4
def dlDecap : Nat := 0x1E0 + 5
def dropRule : Nat := 0x1E0 + 6
def dropSamePort : Nat := 0x1E0 + 7
def dropL3Err : Nat := 0x1E0 + 8
def dropBueErr : Nat := 0x1E0 + 9
def dropRingFull : Nat := 0x1E0 + 10
def hoplimit : Nat := 0x1E0 + 11
def nhMiss : Nat := 0x1E0 + 12
def noRoute : Nat := 0x1E0 + 13
def sensorMiss : Nat := 0x1E0 + 14
def xdeep : Nat := 0x1E0 + 15
def parityMac : Nat := 0x1E0 + 16
def parityIp6x : Nat := 0x1E0 + 17
def parityIp6p : Nat := 0x1E0 + 18
def paritySensor : Nat := 0x1E0 + 19
def parityServer : Nat := 0x1E0 + 20
def learnMac : Nat := 0x1E0 + 21
def learnIp6 : Nat := 0x1E0 + 22
def stationMove : Nat := 0x1E0 + 23
def staticConflict : Nat := 0x1E0 + 24
def agedMac : Nat := 0x1E0 + 25
def agedIp6 : Nat := 0x1E0 + 26
def evictMac : Nat := 0x1E0 + 27
def evictIp6 : Nat := 0x1E0 + 28
def insertFail : Nat := 0x1E0 + 29
def verCommit : Nat := 0x1E0 + 30
def commitBusy : Nat := 0x1E0 + 31

/-! Table 9.14 -/
def rxOk (p : Nat) : Nat := 0x280 + 0x20 * p + 0
def rxBytes (p : Nat) : Nat := 0x280 + 0x20 * p + 1
def rxRunt (p : Nat) : Nat := 0x280 + 0x20 * p + 2
def rxOversize (p : Nat) : Nat := 0x280 + 0x20 * p + 3
def rxFcsErr (p : Nat) : Nat := 0x280 + 0x20 * p + 4
def rxCodeErr (p : Nat) : Nat := 0x280 + 0x20 * p + 5
def rxPause (p : Nat) : Nat := 0x280 + 0x20 * p + 6
def rxCtrlOther (p : Nat) : Nat := 0x280 + 0x20 * p + 7
def dropInFull (p : Nat) : Nat := 0x280 + 0x20 * p + 8
def txOk (p : Nat) : Nat := 0x280 + 0x20 * p + 9
def txBytes (p : Nat) : Nat := 0x280 + 0x20 * p + 10
def txPause (p : Nat) : Nat := 0x280 + 0x20 * p + 11
def txStomped (p : Nat) : Nat := 0x280 + 0x20 * p + 12
def txOversize (p : Nat) : Nat := 0x280 + 0x20 * p + 13
def cutThrough (p : Nat) : Nat := 0x280 + 0x20 * p + 14
def dropLinkDown (p : Nat) : Nat := 0x280 + 0x20 * p + 15
def linkDown (p : Nat) : Nat := 0x280 + 0x20 * p + 16
def xoffEntry (p : Nat) : Nat := 0x280 + 0x20 * p + 17
def pausedUs (p : Nat) : Nat := 0x280 + 0x20 * p + 18
def rateStep (p : Nat) : Nat := 0x280 + 0x20 * p + 19
def vPauseStorm (p : Nat) : Nat := 0x280 + 0x20 * p + 20
def vPauseIgnored (p : Nat) : Nat := 0x280 + 0x20 * p + 21

/-! Table 9.15 -/
def qTx (p q : Nat) : Nat := 0x2C0 + 0x20 * p + 4 * q + 0
def qDropFull (p q : Nat) : Nat := 0x2C0 + 0x20 * p + 4 * q + 1
def qGateDrop (p q : Nat) : Nat := 0x2C0 + 0x20 * p + 4 * q + 2
def qSpilled (p q : Nat) : Nat := 0x2C0 + 0x20 * p + 4 * q + 3

/-! Table 10.12 -/
def itemCreated : Nat := 0x300 + 0
def itemReleased : Nat := 0x300 + 1
def dispatchAffine : Nat := 0x300 + 2
def dispatchOther : Nat := 0x300 + 3
def delayPosted : Nat := 0x300 + 4
def delayDue : Nat := 0x300 + 5
def dropAir : Nat := 0x300 + 6
def deferDev : Nat := 0x300 + 7
def stallEthUs : Nat := 0x300 + 8
def stallHostUs : Nat := 0x300 + 9
def wdFire : Nat := 0x300 + 10
def itemAbandon : Nat := 0x300 + 11
def workerRetired : Nat := 0x300 + 12
def ccTakeover : Nat := 0x300 + 13
def ccLockstep : Nat := 0x300 + 14
def ccHeartbeat : Nat := 0x300 + 15
def ccCmdReexec : Nat := 0x300 + 16
def ccEventRepeat : Nat := 0x300 + 17

/-! Table 11.10 -/
def blockEnc : Nat := 0x320 + 0
def blockDec : Nat := 0x320 + 1
def ccmOk : Nat := 0x320 + 2
def authFail : Nat := 0x320 + 3
def noKey : Nat := 0x320 + 4
def keyLoad : Nat := 0x320 + 5
def keyEvict : Nat := 0x320 + 6
def keyWait : Nat := 0x320 + 7
def unwrapFail : Nat := 0x320 + 8
def ctrExhausted : Nat := 0x320 + 9
def ctrMark : Nat := 0x320 + 10
def mismatch : Nat := 0x320 + 11
def retryOk : Nat := 0x320 + 12
def blockFault : Nat := 0x320 + 13
def laneOffline : Nat := 0x320 + 14
def lockRevoke : Nat := 0x320 + 15
def rngHealthFail : Nat := 0x320 + 16

/-! Table 12.14 -/
def rdBlocks : Nat := 0x340 + 0
def wrBlocks : Nat := 0x340 + 1
def rmw : Nat := 0x340 + 2
def ce : Nat := 0x340 + 3
def ue : Nat := 0x340 + 4
def ueScrub : Nat := 0x340 + 5
def scrubPass : Nat := 0x340 + 6
def caAlert : Nat := 0x340 + 7
def caReplayedCmds : Nat := 0x340 + 8
def caFail : Nat := 0x340 + 9
def inorderEntry : Nat := 0x340 + 10
def lateP (k : Nat) : Nat := 0x340 + 11 + k
def refPostponed : Nat := 0x340 + 19
def retrainRun : Nat := 0x340 + 20
def trainSuspect : Nat := 0x340 + 21
def errlogOvf : Nat := 0x340 + 22
def dropDramUe : Nat := 0x340 + 23

/-! Table 13.17 -/
def dbPoll : Nat := 0x360 + 0
def cmdDone : Nat := 0x360 + 1
def cmdState : Nat := 0x360 + 2
def cmdInProgress : Nat := 0x360 + 3
def txDescDone : Nat := 0x360 + 4
def rxDescDone : Nat := 0x360 + 5
def rxTrunc : Nat := 0x360 + 6
def eventWritten : Nat := 0x360 + 7
def eventLost : Nat := 0x360 + 8
def msixSent : Nat := 0x360 + 9
def vRingIndex : Nat := 0x360 + 10
def vTxDesc : Nat := 0x360 + 11
def vRxDesc : Nat := 0x360 + 12
def vDmaError : Nat := 0x360 + 13
def hostAttach : Nat := 0x360 + 14
def hostDetach : Nat := 0x360 + 15

/-! Table 14.17 -/
def leanEntry : Nat := 0x380 + 0
def sentinelEntry : Nat := 0x380 + 1
def wakeOk : Nat := 0x380 + 2
def stepRetry : Nat := 0x380 + 3
def attemptFail : Nat := 0x380 + 4
def faultLockEntry : Nat := 0x380 + 5
def brownout : Nat := 0x380 + 6
def domainWake : Nat := 0x380 + 7
def phaseFail : Nat := 0x380 + 8
def vinWarn : Nat := 0x380 + 9
def ethListen : Nat := 0x380 + 10

/-! Table 15.9 -/
def boot : Nat := 0x3A0 + 0
def bootFallback : Nat := 0x3A0 + 1
def profileCopyBad : Nat := 0x3A0 + 2
def profileRecUnknown : Nat := 0x3A0 + 3
def fwChunkNew : Nat := 0x3A0 + 4
def fwChunkDup : Nat := 0x3A0 + 5
def fwChunkOther : Nat := 0x3A0 + 6
def fwChunkBad : Nat := 0x3A0 + 7
def bitmapPersist : Nat := 0x3A0 + 8
def fwApplyOk : Nat := 0x3A0 + 9
def fwApplyFail : Nat := 0x3A0 + 10
def fwActivated : Nat := 0x3A0 + 11
def fwActivateFail : Nat := 0x3A0 + 12
def profileWrite : Nat := 0x3A0 + 13
def surveyPass : Nat := 0x3A0 + 14

/-! Table 16.10 -/
def sramCe : Nat := 0x3C0 + 0
def regCe : Nat := 0x3C0 + 1
def radioFailover : Nat := 0x3C0 + 2
def rowsCarried : Nat := 0x3C0 + 3
def remapEnd : Nat := 0x3C0 + 4
def ulRecovery : Nat := 0x3C0 + 5
def linkFailover : Nat := 0x3C0 + 6
def faultReset : Nat := 0x3C0 + 7
def degraded : Nat := 0x3C0 + 8
def dramLost : Nat := 0x3C0 + 9

/-! Table 17.5 -/
def traceMsg : Nat := 0x0 + 0
def traceDrop : Nat := 0x0 + 1
def snapshot : Nat := 0x0 + 2
def watchFire : Nat := 0x0 + 3

/-! R279: the rule counters, and R485: SURVEY_BUSY. -/
def rule (n : Nat) : Nat := 0x200 + n
def surveyBusy (i : Nat) : Nat := 0x400 + i

end Sys2Proof.Machine.Cnt
end

