-- ==== Sys2Proof/Machine/Sparse.lean ====
section
/-! DEFINITION. Sparse tables: a table lists the keys whose value differs from what an unlisted key reads as, in
rising order of key. Every table of the state is read and written through these operations only. -/

namespace Sys2Proof.Machine

/-- Read key `k`; an unlisted key reads as `d`. -/
def Sparse.get {α : Type} (d : α) : Sparse α → Nat → α
  | [], _ => d
  | (j, v) :: t, k => if j = k then v else Sparse.get d t k

/-- Insert a pair in front of the first greater key. -/
def Sparse.ins {α : Type} (k : Nat) (v : α) : Sparse α → Sparse α
  | [] => [(k, v)]
  | (j, w) :: t => if k < j then (k, v) :: (j, w) :: t else (j, w) :: Sparse.ins k v t

/-- Drop every pair of a key. -/
def Sparse.drop {α : Type} (k : Nat) : Sparse α → Sparse α
  | [] => []
  | (j, w) :: t => if j = k then Sparse.drop k t else (j, w) :: Sparse.drop k t

/-- Write key `k`; writing what an unlisted key reads as removes the pair. -/
def Sparse.put {α : Type} [DecidableEq α] (d : α) (t : Sparse α) (k : Nat) (v : α) : Sparse α :=
  if v = d then Sparse.drop k t else Sparse.ins k v (Sparse.drop k t)

/-- The canonical form: strictly rising keys, and no value equal to its key's default. -/
def Sparse.wf {α : Type} [DecidableEq α] (d : Nat → α) : Sparse α → Bool
  | [] => true
  | (j, v) :: t => decide (v ≠ d j) && t.all (fun p => decide (j < p.1)) && Sparse.wf d t

/-- Apply `f` to the value at key `k`. -/
def Sparse.modify {α : Type} [DecidableEq α] (d : α) (t : Sparse α) (k : Nat) (f : α → α) : Sparse α :=
  Sparse.put d t k (f (Sparse.get d t k))

end Sys2Proof.Machine
end

