-- ==== Sys2Proof/Machine/RegMap.lean ====
section
/-! DEFINITION. The register map of BAR0 (R504): for each register its address, and for each field its place, as the
register tables of the chapters give them; each register's access masks, reset value and the boundary at which a
write takes effect (R505). -/

namespace Sys2Proof.Machine

/-- When the device's behaviour follows a write to a register (R505). -/
inductive Boundary where
  | atOnce | slotTick | superframe | scrub | sentinel | recompute
  deriving DecidableEq, Repr

/-- A register: which bits each access code of Table 0.4 covers, its reset value, and its boundary. The bits no mask
covers read as reset and ignore writes (RO and RSV). -/
structure RegDesc where
  rw    : Word
  w1c   : Word
  rc    : Word
  wo    : Word
  reset : Word
  bound : Boundary
  deriving DecidableEq, Repr

/-- A field of a register. -/
structure Field where
  addr : Nat
  lo   : Nat
  n    : Nat
  deriving DecidableEq, Repr

namespace Reg

def glbId : Nat := 0x0
def glbId_part : Field := ⟨glbId, 16, 16⟩
def glbId_major : Field := ⟨glbId, 4, 4⟩
def glbId_minor : Field := ⟨glbId, 0, 4⟩
def airLmcfg : Nat := 0x180100
def airLmcfg_persist : Field := ⟨airLmcfg, 24, 4⟩
def airLmcfg_gain_pct : Field := ⟨airLmcfg, 16, 5⟩
def airLmcfg_hyst : Field := ⟨airLmcfg, 8, 4⟩
def airLmcfg_margin : Field := ⟨airLmcfg, 0, 6⟩
def airFloorcfg : Nat := 0x180104
def airFloorcfg_floor_rate : Field := ⟨airFloorcfg, 8, 2⟩
def airFloorcfg_floor_snr : Field := ⟨airFloorcfg, 0, 7⟩
def bbpDetcfg (r : Nat) : Nat := 0x140000 + r * 0x1000
def bbpDetcfg_sync_thr (r : Nat) : Field := ⟨bbpDetcfg r, 24, 8⟩
def bbpDetcfg_rise (r : Nat) : Field := ⟨bbpDetcfg r, 16, 4⟩
def bbpDetcfg_cell_min (r : Nat) : Field := ⟨bbpDetcfg r, 8, 6⟩
def bbpDetcfg_off_sched (r : Nat) : Field := ⟨bbpDetcfg r, 0, 1⟩
def bbpAgccfg (r : Nat) : Nat := 0x140004 + r * 0x1000
def bbpAgccfg_target (r : Nat) : Field := ⟨bbpAgccfg r, 8, 6⟩
def bbpAgccfg_ack_head (r : Nat) : Field := ⟨bbpAgccfg r, 4, 4⟩
def bbpAgccfg_head (r : Nat) : Field := ⟨bbpAgccfg r, 0, 4⟩
def bbpCapcfg (r : Nat) : Nat := 0x140008 + r * 0x1000
def bbpCapcfg_cap_en (r : Nat) : Field := ⟨bbpCapcfg r, 8, 1⟩
def bbpCapcfg_capture_db (r : Nat) : Field := ⟨bbpCapcfg r, 0, 4⟩
def bbpRxcfg (r : Nat) : Nat := 0x14000C + r * 0x1000
def bbpRxcfg_ack_det (r : Nat) : Field := ⟨bbpRxcfg r, 12, 4⟩
def bbpRxcfg_clip_damp (r : Nat) : Field := ⟨bbpRxcfg r, 8, 1⟩
def bbpRxcfg_clip_min (r : Nat) : Field := ⟨bbpRxcfg r, 0, 8⟩
def bbpRxstat (r : Nat) : Nat := 0x140020 + r * 0x1000
def bbpRxstat_agc_limit (r : Nat) : Field := ⟨bbpRxstat r, 6, 1⟩
def bbpRxstat_noise_jump (r : Nat) : Field := ⟨bbpRxstat r, 5, 1⟩
def bbpRxstat_ungranted (r : Nat) : Field := ⟨bbpRxstat r, 4, 1⟩
def bbpRxstat_timing_out (r : Nat) : Field := ⟨bbpRxstat r, 3, 1⟩
def bbpRxstat_clip (r : Nat) : Field := ⟨bbpRxstat r, 2, 1⟩
def bbpRxstat_capture (r : Nat) : Field := ⟨bbpRxstat r, 1, 1⟩
def bbpRxstat_false_det (r : Nat) : Field := ⟨bbpRxstat r, 0, 1⟩
def bbpNoisecfg : Nat := 0x143000
def bbpNoisecfg_min_obs : Field := ⟨bbpNoisecfg, 16, 8⟩
def bbpNoisecfg_jump_n : Field := ⟨bbpNoisecfg, 12, 4⟩
def bbpNoisecfg_jump_db : Field := ⟨bbpNoisecfg, 8, 4⟩
def bbpNoisecfg_tau : Field := ⟨bbpNoisecfg, 0, 4⟩
def rfStat (r : Nat) : Nat := 0x100000 + r * 0x10000
def rfStat_cal_applied (r : Nat) : Field := ⟨rfStat r, 13, 1⟩
def rfStat_vswr_event (r : Nat) : Field := ⟨rfStat r, 12, 1⟩
def rfStat_coex_late (r : Nat) : Field := ⟨rfStat r, 11, 1⟩
def rfStat_coex_denied (r : Nat) : Field := ⟨rfStat r, 10, 1⟩
def rfStat_synth_miss (r : Nat) : Field := ⟨rfStat r, 9, 1⟩
def rfStat_cal_starved (r : Nat) : Field := ⟨rfStat r, 8, 1⟩
def rfStat_hb_inhibit (r : Nat) : Field := ⟨rfStat r, 7, 1⟩
def rfStat_lb_inhibit (r : Nat) : Field := ⟨rfStat r, 6, 1⟩
def rfStat_hb_backoff (r : Nat) : Field := ⟨rfStat r, 5, 1⟩
def rfStat_lb_backoff (r : Nat) : Field := ⟨rfStat r, 4, 1⟩
def rfStat_lock (r : Nat) : Field := ⟨rfStat r, 3, 1⟩
def rfStat_state (r : Nat) : Field := ⟨rfStat r, 0, 3⟩
def rfTxcfg (r : Nat) : Nat := 0x100004 + r * 0x10000
def rfTxcfg_pa_lag (r : Nat) : Field := ⟨rfTxcfg r, 24, 4⟩
def rfTxcfg_pa_lead (r : Nat) : Field := ⟨rfTxcfg r, 16, 6⟩
def rfTxcfg_hb_atten (r : Nat) : Field := ⟨rfTxcfg r, 8, 8⟩
def rfTxcfg_lb_atten (r : Nat) : Field := ⟨rfTxcfg r, 0, 8⟩
def rfFectl (r : Nat) : Nat := 0x100008 + r * 0x10000
def rfFectl_hb_tx (r : Nat) : Field := ⟨rfFectl r, 24, 6⟩
def rfFectl_hb_rx (r : Nat) : Field := ⟨rfFectl r, 18, 6⟩
def rfFectl_lb_tx (r : Nat) : Field := ⟨rfFectl r, 12, 6⟩
def rfFectl_lb_rx (r : Nat) : Field := ⟨rfFectl r, 6, 6⟩
def rfFectl_idle (r : Nat) : Field := ⟨rfFectl r, 0, 6⟩
def rfCalcfg (r : Nat) : Nat := 0x10000C + r * 0x10000
def rfCalcfg_starve_sf (r : Nat) : Field := ⟨rfCalcfg r, 16, 8⟩
def rfCalcfg_auto_en (r : Nat) : Field := ⟨rfCalcfg r, 8, 1⟩
def rfCalcfg_cal_dt (r : Nat) : Field := ⟨rfCalcfg r, 0, 5⟩
def rfCoexcfg (r : Nat) : Nat := 0x100010 + r * 0x10000
def rfCoexcfg_rx_req (r : Nat) : Field := ⟨rfCoexcfg r, 11, 1⟩
def rfCoexcfg_gnt_pol (r : Nat) : Field := ⟨rfCoexcfg r, 10, 1⟩
def rfCoexcfg_req_pol (r : Nat) : Field := ⟨rfCoexcfg r, 9, 1⟩
def rfCoexcfg_en (r : Nat) : Field := ⟨rfCoexcfg r, 8, 1⟩
def rfCoexcfg_coex_lead (r : Nat) : Field := ⟨rfCoexcfg r, 0, 8⟩
def rfAntcfg (r : Nat) : Nat := 0x100014 + r * 0x10000
def rfAntcfg_vswr_en (r : Nat) : Field := ⟨rfAntcfg r, 8, 1⟩
def rfAntcfg_det_ofs (r : Nat) : Field := ⟨rfAntcfg r, 0, 8⟩
def rfTemp (r : Nat) : Nat := 0x100018 + r * 0x10000
def rfTemp_last (r : Nat) : Field := ⟨rfTemp r, 8, 8⟩
def rfTemp_now (r : Nat) : Field := ⟨rfTemp r, 0, 8⟩
def schCommit : Nat := 0x1A0000
def schCommit_pending : Field := ⟨schCommit, 31, 1⟩
def schCommit_prot_active : Field := ⟨schCommit, 28, 1⟩
def schCommit_target_sf : Field := ⟨schCommit, 16, 12⟩
def schCommit_active : Field := ⟨schCommit, 12, 1⟩
def schCommit_cur_sf : Field := ⟨schCommit, 0, 12⟩
def schAdmcfg : Nat := 0x1A0004
def schAdmcfg_protected : Field := ⟨schAdmcfg, 0, 1⟩
def schDlcfg : Nat := 0x1A0008
def schDlcfg_nofit_max : Field := ⟨schDlcfg, 24, 4⟩
def schDlcfg_age_max : Field := ⟨schDlcfg, 16, 8⟩
def schDlcfg_lm_resend : Field := ⟨schDlcfg, 12, 4⟩
def schDlcfg_qdepth : Field := ⟨schDlcfg, 8, 4⟩
def schDlcfg_retry_max : Field := ⟨schDlcfg, 0, 3⟩
def schRacfg : Nat := 0x1A000C
def schRacfg_join_en : Field := ⟨schRacfg, 31, 1⟩
def schRacfg_join_gap : Field := ⟨schRacfg, 24, 4⟩
def schRacfg_bo_max : Field := ⟨schRacfg, 20, 4⟩
def schRacfg_bo_min : Field := ⟨schRacfg, 16, 4⟩
def schRacfg_ra_hi : Field := ⟨schRacfg, 4, 4⟩
def schRacfg_ra_lo : Field := ⟨schRacfg, 0, 4⟩
def schBcncfg : Nat := 0x1A0010
def schBcncfg_gw_id : Field := ⟨schBcncfg, 0, 32⟩
def schStat : Nat := 0x1A0014
def schStat_bo : Field := ⟨schStat, 8, 4⟩
def schStat_bo_changed : Field := ⟨schStat, 4, 1⟩
def schStat_violation : Field := ⟨schStat, 3, 1⟩
def schStat_ra_saturated : Field := ⟨schStat, 2, 1⟩
def schStat_dlq_full : Field := ⟨schStat, 1, 1⟩
def schStat_nocarry : Field := ⟨schStat, 0, 1⟩
def mshCfg : Nat := 0x1C0000
def mshCfg_track_en : Field := ⟨mshCfg, 31, 1⟩
def mshCfg_search_dwell : Field := ⟨mshCfg, 24, 4⟩
def mshCfg_ttl_max : Field := ⟨mshCfg, 20, 4⟩
def mshCfg_holdover_limit : Field := ⟨mshCfg, 8, 8⟩
def mshCfg_flood_rate : Field := ⟨mshCfg, 0, 8⟩
def mshStat : Nat := 0x1C0004
def mshStat_state : Field := ⟨mshStat, 30, 2⟩
def mshStat_hop : Field := ⟨mshStat, 24, 4⟩
def mshStat_cur_chan : Field := ⟨mshStat, 12, 9⟩
def mshStat_search_idx : Field := ⟨mshStat, 9, 3⟩
def mshStat_wake_match : Field := ⟨mshStat, 5, 1⟩
def mshStat_qdrop : Field := ⟨mshStat, 4, 1⟩
def mshStat_violation : Field := ⟨mshStat, 3, 1⟩
def mshStat_reacquired : Field := ⟨mshStat, 2, 1⟩
def mshStat_holdover_ev : Field := ⟨mshStat, 1, 1⟩
def mshStat_up_lost : Field := ⟨mshStat, 0, 1⟩
def mshDelay : Nat := 0x1C0008
def mshDelay_d : Field := ⟨mshDelay, 0, 12⟩
def mshParch (i : Nat) : Nat := 0x1C0010 + i * 0x4
def mshParch_valid (i : Nat) : Field := ⟨mshParch i, 31, 1⟩
def mshParch_chan (i : Nat) : Field := ⟨mshParch i, 0, 9⟩
def mshLink (i : Nat) : Nat := 0x1C0040 + i * 0x4
def mshLink_en (i : Nat) : Field := ⟨mshLink i, 31, 1⟩
def mshLink_role (i : Nat) : Field := ⟨mshLink i, 30, 1⟩
def mshLink_retry_max (i : Nat) : Field := ⟨mshLink i, 27, 3⟩
def mshLink_chan (i : Nat) : Field := ⟨mshLink i, 0, 9⟩
def mshLinkpeer (i : Nat) : Nat := 0x1C0060 + i * 0x4
def mshLinkpeer_peer_id (i : Nat) : Field := ⟨mshLinkpeer i, 0, 32⟩
def mshWakecodeA : Nat := 0x1C0080
def mshWakecodeA_code : Field := ⟨mshWakecodeA, 0, 32⟩
def mshWakecodeB : Nat := 0x1C0084
def mshWakecodeB_code : Field := ⟨mshWakecodeB, 0, 32⟩
def mshWakefreq : Nat := 0x1C0088
def mshWakefreq_freq : Field := ⟨mshWakefreq, 0, 32⟩
def timNowNs : Nat := 0x200000
def timNowNs_ns : Field := ⟨timNowNs, 0, 30⟩
def timNowSecLo : Nat := 0x200004
def timNowSecLo_sec : Field := ⟨timNowSecLo, 0, 32⟩
def timNowSecHi : Nat := 0x200008
def timNowSecHi_sec : Field := ⟨timNowSecHi, 0, 16⟩
def timNowFrac : Nat := 0x20000C
def timNowFrac_frac : Field := ⟨timNowFrac, 0, 32⟩
def timFreqEst : Nat := 0x200010
def timFreqEst_y : Field := ⟨timFreqEst, 0, 32⟩
def timOffset : Nat := 0x200014
def timOffset_theta : Field := ⟨timOffset, 0, 32⟩
def timSlotOffset : Nat := 0x200020
def timSlotOffset_offset : Field := ⟨timSlotOffset, 0, 22⟩
def timSrccfg : Nat := 0x200024
def timSrccfg_src : Field := ⟨timSrccfg, 8, 3⟩
def timSrccfg_lock_thr : Field := ⟨timSrccfg, 0, 8⟩
def timServocfg : Nat := 0x200028
def timServocfg_loss_to : Field := ⟨timServocfg, 24, 8⟩
def timServocfg_slew_max : Field := ⟨timServocfg, 16, 8⟩
def timServocfg_step_min : Field := ⟨timServocfg, 0, 12⟩
def timJumpLimit : Nat := 0x20002C
def timJumpLimit_limit : Field := ⟨timJumpLimit, 0, 30⟩
def timPtpcfg : Nat := 0x200030
def timPtpcfg_domain : Field := ⟨timPtpcfg, 24, 8⟩
def timPtpcfg_log_sync : Field := ⟨timPtpcfg, 20, 4⟩
def timPtpcfg_log_ann : Field := ⟨timPtpcfg, 16, 4⟩
def timPtpcfg_tc_en : Field := ⟨timPtpcfg, 3, 1⟩
def timPtpcfg_bc_en : Field := ⟨timPtpcfg, 2, 1⟩
def timPtpcfg_p1_en : Field := ⟨timPtpcfg, 1, 1⟩
def timPtpcfg_p0_en : Field := ⟨timPtpcfg, 0, 1⟩
def timStat : Nat := 0x200034
def timStat_air_break : Field := ⟨timStat, 7, 1⟩
def timStat_stepped : Field := ⟨timStat, 6, 1⟩
def timStat_pps_lost : Field := ⟨timStat, 5, 1⟩
def timStat_tsq_ovf1 : Field := ⟨timStat, 4, 1⟩
def timStat_tsq_ovf0 : Field := ⟨timStat, 3, 1⟩
def timStat_jump_refused : Field := ⟨timStat, 2, 1⟩
def timStat_state : Field := ⟨timStat, 0, 2⟩
def timEthIncorr (p : Nat) : Nat := 0x200040 + p * 0x8
def timEthIncorr_corr (p : Nat) : Field := ⟨timEthIncorr p, 0, 24⟩
def timEthEgcorr (p : Nat) : Nat := 0x200044 + p * 0x8
def timEthEgcorr_corr (p : Nat) : Field := ⟨timEthEgcorr p, 0, 24⟩
def timRfExtdly (p : Nat) : Nat := 0x200050 + p * 0x4
def timRfExtdly_tx (p : Nat) : Field := ⟨timRfExtdly p, 16, 16⟩
def timRfExtdly_rx (p : Nat) : Field := ⟨timRfExtdly p, 0, 16⟩
def timPpscfg : Nat := 0x200060
def timPpscfg_out_width : Field := ⟨timPpscfg, 8, 24⟩
def timPpscfg_in_pol : Field := ⟨timPpscfg, 3, 1⟩
def timPpscfg_out_mode : Field := ⟨timPpscfg, 0, 2⟩
def timPpsCorr : Nat := 0x200064
def timPpsCorr_out : Field := ⟨timPpsCorr, 16, 16⟩
def timPpsCorr_in : Field := ⟨timPpsCorr, 0, 16⟩
def pplCfg : Nat := 0x240000
def pplCfg_route_en : Field := ⟨pplCfg, 9, 1⟩
def pplCfg_bcast_host : Field := ⟨pplCfg, 8, 1⟩
def pplCfg_ctrl_ring : Field := ⟨pplCfg, 0, 4⟩
def pplBue : Nat := 0x240004
def pplBue_hops : Field := ⟨pplBue, 24, 8⟩
def pplBue_queue : Field := ⟨pplBue, 19, 3⟩
def pplBue_port : Field := ⟨pplBue, 0, 16⟩
def pplUldef : Nat := 0x240008
def pplUldef_kind : Field := ⟨pplUldef, 8, 3⟩
def pplUldef_index : Field := ⟨pplUldef, 0, 6⟩
def pplOwnip (i : Nat) : Nat := 0x240010 + i * 0x4
def pplOwnip_ip (i : Nat) : Field := ⟨pplOwnip i, 0, 32⟩
def pplMacHi : Nat := 0x240020
def pplMacHi_mac : Field := ⟨pplMacHi, 0, 16⟩
def pplMacLo : Nat := 0x240024
def pplMacLo_mac : Field := ⟨pplMacLo, 0, 32⟩
def pplVerstat : Nat := 0x240030
def pplVerstat_held : Field := ⟨pplVerstat, 16, 16⟩
def pplVerstat_copying : Field := ⟨pplVerstat, 4, 1⟩
def pplVerstat_cur : Field := ⟨pplVerstat, 0, 4⟩
def pplGen : Nat := 0x240034
def pplGen_gen : Field := ⟨pplGen, 0, 32⟩
def fwdTblcfg (t : Nat) : Nat := 0x260000 + t * 0x4
def fwdTblcfg_learn_en (t : Nat) : Field := ⟨fwdTblcfg t, 18, 1⟩
def fwdTblcfg_age_en (t : Nat) : Field := ⟨fwdTblcfg t, 17, 1⟩
def fwdTblcfg_evict (t : Nat) : Field := ⟨fwdTblcfg t, 16, 1⟩
def fwdTblcfg_age_sec (t : Nat) : Field := ⟨fwdTblcfg t, 0, 16⟩
def fwdStat : Nat := 0x260010
def fwdStat_ins_fail : Field := ⟨fwdStat, 5, 1⟩
def fwdStat_par_server : Field := ⟨fwdStat, 4, 1⟩
def fwdStat_par_sensor : Field := ⟨fwdStat, 3, 1⟩
def fwdStat_par_ip6p : Field := ⟨fwdStat, 2, 1⟩
def fwdStat_par_ip6x : Field := ⟨fwdStat, 1, 1⟩
def fwdStat_par_mac : Field := ⟨fwdStat, 0, 1⟩
def fwdFill (t : Nat) : Nat := 0x260020 + t * 0x4
def fwdFill_count (t : Nat) : Field := ⟨fwdFill t, 0, 21⟩
def ethCfg (p : Nat) : Nat := 0x300000 + p * 0x10000
def ethCfg_mode (p : Nat) : Field := ⟨ethCfg p, 16, 3⟩
def ethCfg_maxlen (p : Nat) : Field := ⟨ethCfg p, 0, 14⟩
def ethPausecfg (p : Nat) : Nat := 0x300004 + p * 0x10000
def ethPausecfg_rx_en (p : Nat) : Field := ⟨ethPausecfg p, 31, 1⟩
def ethPausecfg_tx_en (p : Nat) : Field := ⟨ethPausecfg p, 30, 1⟩
def ethPausecfg_storm_ms (p : Nat) : Field := ⟨ethPausecfg p, 16, 8⟩
def ethPausecfg_high_pct (p : Nat) : Field := ⟨ethPausecfg p, 8, 8⟩
def ethPausecfg_low_pct (p : Nat) : Field := ⟨ethPausecfg p, 0, 8⟩
def ethStat (p : Nat) : Nat := 0x300008 + p * 0x10000
def ethStat_rate (p : Nat) : Field := ⟨ethStat p, 16, 3⟩
def ethStat_storm (p : Nat) : Field := ⟨ethStat p, 6, 1⟩
def ethStat_xoff (p : Nat) : Field := ⟨ethStat p, 5, 1⟩
def ethStat_paused (p : Nat) : Field := ⟨ethStat p, 4, 1⟩
def ethStat_link_chg (p : Nat) : Field := ⟨ethStat p, 3, 1⟩
def ethStat_rate_fail (p : Nat) : Field := ⟨ethStat p, 2, 1⟩
def ethStat_an_done (p : Nat) : Field := ⟨ethStat p, 1, 1⟩
def ethStat_link (p : Nat) : Field := ⟨ethStat p, 0, 1⟩
def ethPaircfg : Nat := 0x300020
def ethPaircfg_en : Field := ⟨ethPaircfg, 31, 1⟩
def ethPaircfg_step_en : Field := ⟨ethPaircfg, 30, 1⟩
def ethPaircfg_hold_s : Field := ⟨ethPaircfg, 16, 8⟩
def ethPaircfg_up_pct : Field := ⟨ethPaircfg, 8, 8⟩
def ethPaircfg_down_pct : Field := ⟨ethPaircfg, 0, 8⟩
def ethPairstat : Nat := 0x300024
def ethPairstat_stepping : Field := ⟨ethPairstat, 2, 1⟩
def ethPairstat_carry : Field := ⟨ethPairstat, 0, 2⟩
def ethMdio : Nat := 0x300040
def ethMdio_busy : Field := ⟨ethMdio, 31, 1⟩
def ethMdio_c45 : Field := ⟨ethMdio, 30, 1⟩
def ethMdio_op : Field := ⟨ethMdio, 28, 2⟩
def ethMdio_phyad : Field := ⟨ethMdio, 23, 5⟩
def ethMdio_regad : Field := ⟨ethMdio, 18, 5⟩
def ethMdio_noack : Field := ⟨ethMdio, 16, 1⟩
def ethMdio_data : Field := ⟨ethMdio, 0, 16⟩
def tshPortcfg (p : Nat) : Nat := 0x340000 + p * 0x2000
def tshPortcfg_ovhd (p : Nat) : Field := ⟨tshPortcfg p, 0, 7⟩
def tshQcfg (p q : Nat) : Nat := 0x340100 + p * 0x2000 + q * 0x8
def tshQcfg_policy (p q : Nat) : Field := ⟨tshQcfg p q, 31, 1⟩
def tshQcfg_weight (p q : Nat) : Field := ⟨tshQcfg p q, 16, 8⟩
def tshQcfg_limit (p q : Nat) : Field := ⟨tshQcfg p q, 0, 14⟩
def tshShape (p q : Nat) : Nat := 0x340104 + p * 0x2000 + q * 0x8
def tshShape_en (p q : Nat) : Field := ⟨tshShape p q, 31, 1⟩
def tshShape_rate (p q : Nat) : Field := ⟨tshShape p q, 16, 14⟩
def tshShape_burst (p q : Nat) : Field := ⟨tshShape p q, 0, 16⟩
def tshGclCfg (p : Nat) : Nat := 0x340200 + p * 0x2000
def tshGclCfg_en (p : Nat) : Field := ⟨tshGclCfg p, 31, 1⟩
def tshGclCfg_commit (p : Nat) : Field := ⟨tshGclCfg p, 30, 1⟩
def tshGclCfg_pending (p : Nat) : Field := ⟨tshGclCfg p, 29, 1⟩
def tshGclCfg_len (p : Nat) : Field := ⟨tshGclCfg p, 0, 8⟩
def tshGclCycle (p : Nat) : Nat := 0x340204 + p * 0x2000
def tshGclCycle_cycle (p : Nat) : Field := ⟨tshGclCycle p, 0, 30⟩
def tshGclBaseSecHi (p : Nat) : Nat := 0x340208 + p * 0x2000
def tshGclBaseSecHi_sec (p : Nat) : Field := ⟨tshGclBaseSecHi p, 0, 16⟩
def tshGclBaseSecLo (p : Nat) : Nat := 0x34020C + p * 0x2000
def tshGclBaseSecLo_sec (p : Nat) : Field := ⟨tshGclBaseSecLo p, 0, 32⟩
def tshGclBaseNs (p : Nat) : Nat := 0x340210 + p * 0x2000
def tshGclBaseNs_ns (p : Nat) : Field := ⟨tshGclBaseNs p, 0, 30⟩
def tshGclEntry (p i : Nat) : Nat := 0x341000 + p * 0x2000 + i * 0x4
def tshGclEntry_gates (p i : Nat) : Field := ⟨tshGclEntry p i, 24, 8⟩
def tshGclEntry_duration (p i : Nat) : Field := ⟨tshGclEntry p i, 0, 24⟩
def tskCfg : Nat := 0x380000
def tskCfg_aff_window : Field := ⟨tskCfg, 0, 4⟩
def tskPriomap : Nat := 0x380004
def tskPriomap_prio : Field := ⟨tskPriomap, 0, 32⟩
def tskRsvcfg : Nat := 0x380008
def tskRsvcfg_air_rsv : Field := ⟨tskRsvcfg, 16, 12⟩
def tskRsvcfg_dev_rsv : Field := ⟨tskRsvcfg, 0, 12⟩
def tskWdcfg : Nat := 0x38000C
def tskWdcfg_retire : Field := ⟨tskWdcfg, 16, 4⟩
def tskWdcfg_limit : Field := ⟨tskWdcfg, 0, 16⟩
def tskStat : Nat := 0x380010
def tskStat_abandon : Field := ⟨tskStat, 5, 1⟩
def tskStat_retired : Field := ⟨tskStat, 4, 1⟩
def tskStat_wd_fire : Field := ⟨tskStat, 3, 1⟩
def tskStat_shared_empty : Field := ⟨tskStat, 2, 1⟩
def tskStat_air_drop : Field := ⟨tskStat, 1, 1⟩
def tskStat_dev_defer : Field := ⟨tskStat, 0, 1⟩
def tskLevel : Nat := 0x380014
def tskLevel_in_use : Field := ⟨tskLevel, 16, 13⟩
def tskLevel_peak : Field := ⟨tskLevel, 0, 13⟩
def tskWstat (w : Nat) : Nat := 0x380100 + w * 0x4
def tskWstat_state (w : Nat) : Field := ⟨tskWstat w, 30, 2⟩
def tskWstat_hangs (w : Nat) : Field := ⟨tskWstat w, 16, 8⟩
def tskWstat_tag (w : Nat) : Field := ⟨tskWstat w, 0, 10⟩
def tskCcstat : Nat := 0x380200
def tskCcstat_active : Field := ⟨tskCcstat, 31, 1⟩
def tskCcstat_stby : Field := ⟨tskCcstat, 26, 2⟩
def tskCcstat_takeovers : Field := ⟨tskCcstat, 8, 8⟩
def tskCcstat_pair_fault : Field := ⟨tskCcstat, 1, 1⟩
def tskCcstat_takeover : Field := ⟨tskCcstat, 0, 1⟩
def kaoCfg : Nat := 0x3C0000
def kaoCfg_mode : Field := ⟨kaoCfg, 31, 1⟩
def kaoCfg_host_sensor : Field := ⟨kaoCfg, 30, 1⟩
def kaoCfg_mark_log2 : Field := ⟨kaoCfg, 16, 4⟩
def kaoCfg_pinned : Field := ⟨kaoCfg, 0, 8⟩
def kaoLockcfg : Nat := 0x3C0004
def kaoLockcfg_hold_max : Field := ⟨kaoLockcfg, 0, 16⟩
def kaoLock : Nat := 0x3C0008
def kaoLock_held : Field := ⟨kaoLock, 31, 1⟩
def kaoLock_waiters : Field := ⟨kaoLock, 16, 5⟩
def kaoLock_owner : Field := ⟨kaoLock, 0, 5⟩
def kaoStat : Nat := 0x3C000C
def kaoStat_lane1_off : Field := ⟨kaoStat, 7, 1⟩
def kaoStat_lane0_off : Field := ⟨kaoStat, 6, 1⟩
def kaoStat_rng_stale : Field := ⟨kaoStat, 5, 1⟩
def kaoStat_rng_fail : Field := ⟨kaoStat, 4, 1⟩
def kaoStat_fault : Field := ⟨kaoStat, 3, 1⟩
def kaoStat_mismatch : Field := ⟨kaoStat, 2, 1⟩
def kaoStat_key_corrupt : Field := ⟨kaoStat, 1, 1⟩
def kaoStat_ctr_exh : Field := ⟨kaoStat, 0, 1⟩
def kaoSlots : Nat := 0x3C0010
def kaoSlots_inuse : Field := ⟨kaoSlots, 16, 9⟩
def kaoSlots_loaded : Field := ⟨kaoSlots, 0, 9⟩
def dmcCfg : Nat := 0x400000
def dmcCfg_conf : Field := ⟨dmcCfg, 31, 1⟩
def dmcCfg_rate : Field := ⟨dmcCfg, 18, 2⟩
def dmcCfg_dens : Field := ⟨dmcCfg, 17, 1⟩
def dmcCfg_ref_2x : Field := ⟨dmcCfg, 0, 1⟩
def dmcCalcfg : Nat := 0x400004
def dmcCalcfg_auto_en : Field := ⟨dmcCalcfg, 8, 1⟩
def dmcCalcfg_cal_dt : Field := ⟨dmcCalcfg, 0, 5⟩
def dmcScrubcfg : Nat := 0x400008
def dmcScrubcfg_en : Field := ⟨dmcScrubcfg, 31, 1⟩
def dmcScrubcfg_hours : Field := ⟨dmcScrubcfg, 0, 8⟩
def dmcStat : Nat := 0x40000C
def dmcStat_train : Field := ⟨dmcStat, 6, 2⟩
def dmcStat_train_suspect : Field := ⟨dmcStat, 5, 1⟩
def dmcStat_train_applied : Field := ⟨dmcStat, 4, 1⟩
def dmcStat_replay : Field := ⟨dmcStat, 3, 1⟩
def dmcStat_ca_fail : Field := ⟨dmcStat, 2, 1⟩
def dmcStat_ue : Field := ⟨dmcStat, 1, 1⟩
def dmcStat_ce : Field := ⟨dmcStat, 0, 1⟩
def dmcTemp : Nat := 0x400010
def dmcTemp_last : Field := ⟨dmcTemp, 8, 8⟩
def dmcTemp_now : Field := ⟨dmcTemp, 0, 8⟩
def dmcErrstat : Nat := 0x400014
def dmcErrstat_ovf : Field := ⟨dmcErrstat, 4, 1⟩
def dmcErrstat_wr_ptr : Field := ⟨dmcErrstat, 0, 4⟩
def dmcPortcfg (k : Nat) : Nat := 0x400040 + k * 0x4
def dmcPortcfg_max_infl (k : Nat) : Field := ⟨dmcPortcfg k, 16, 8⟩
def dmcPortcfg_target (k : Nat) : Field := ⟨dmcPortcfg k, 0, 16⟩
def dmcErrlogAddr (k : Nat) : Nat := 0x400100 + k * 0x10
def dmcErrlogAddr_block (k : Nat) : Field := ⟨dmcErrlogAddr k, 0, 29⟩
def dmcErrlogInfo (k : Nat) : Nat := 0x400104 + k * 0x10
def dmcErrlogInfo_type (k : Nat) : Field := ⟨dmcErrlogInfo k, 28, 4⟩
def dmcErrlogInfo_port (k : Nat) : Field := ⟨dmcErrlogInfo k, 24, 3⟩
def dmcErrlogInfo_rank (k : Nat) : Field := ⟨dmcErrlogInfo k, 20, 1⟩
def dmcErrlogInfo_bg (k : Nat) : Field := ⟨dmcErrlogInfo k, 18, 2⟩
def dmcErrlogInfo_bank (k : Nat) : Field := ⟨dmcErrlogInfo k, 16, 2⟩
def dmcErrlogInfo_nib_b (k : Nat) : Field := ⟨dmcErrlogInfo k, 5, 5⟩
def dmcErrlogInfo_nib_a (k : Nat) : Field := ⟨dmcErrlogInfo k, 0, 5⟩
def dmcErrlogTime (k : Nat) : Nat := 0x400108 + k * 0x10
def dmcErrlogTime_sf (k : Nat) : Field := ⟨dmcErrlogTime k, 20, 12⟩
def dmcErrlogTime_slot (k : Nat) : Field := ⟨dmcErrlogTime k, 0, 9⟩
def dmcErrlogCnt (k : Nat) : Nat := 0x40010C + k * 0x10
def dmcErrlogCnt_valid (k : Nat) : Field := ⟨dmcErrlogCnt k, 31, 1⟩
def dmcErrlogCnt_count (k : Nat) : Field := ⟨dmcErrlogCnt k, 0, 9⟩
def hifCtrl : Nat := 0x40000
def hifCtrl_host_en : Field := ⟨hifCtrl, 0, 1⟩
def hifStat : Nat := 0x40004
def hifStat_dev_state : Field := ⟨hifStat, 8, 3⟩
def hifStat_dma_err : Field := ⟨hifStat, 4, 1⟩
def hifStat_ring_err : Field := ⟨hifStat, 3, 1⟩
def hifStat_evt_lost : Field := ⟨hifStat, 2, 1⟩
def hifStat_link_down : Field := ⟨hifStat, 1, 1⟩
def hifStat_link_up : Field := ⟨hifStat, 0, 1⟩
def hifDbBaseLo : Nat := 0x40010
def hifDbBaseLo_addr : Field := ⟨hifDbBaseLo, 12, 20⟩
def hifDbBaseHi : Nat := 0x40014
def hifDbBaseHi_addr : Field := ⟨hifDbBaseHi, 0, 32⟩
def hifDbPoll : Nat := 0x40018
def hifDbPoll_div : Field := ⟨hifDbPoll, 0, 9⟩
def hifRingBaseLo (i : Nat) : Nat := 0x41000 + i * 0x10
def hifRingBaseLo_addr (i : Nat) : Field := ⟨hifRingBaseLo i, 6, 26⟩
def hifRingBaseHi (i : Nat) : Nat := 0x41004 + i * 0x10
def hifRingBaseHi_addr (i : Nat) : Field := ⟨hifRingBaseHi i, 0, 32⟩
def hifRingCfg (i : Nat) : Nat := 0x41008 + i * 0x10
def hifRingCfg_en (i : Nat) : Field := ⟨hifRingCfg i, 31, 1⟩
def hifRingCfg_log2size (i : Nat) : Field := ⟨hifRingCfg i, 24, 4⟩
def hifRingCfg_vector (i : Nat) : Field := ⟨hifRingCfg i, 16, 5⟩
def hifRingCfg_irq_en (i : Nat) : Field := ⟨hifRingCfg i, 15, 1⟩
def hifRingCfg_mod_us (i : Nat) : Field := ⟨hifRingCfg i, 8, 6⟩
def hifRingStat (i : Nat) : Nat := 0x4100C + i * 0x10
def hifRingStat_err (i : Nat) : Field := ⟨hifRingStat i, 31, 1⟩
def hifRingStat_idx (i : Nat) : Field := ⟨hifRingStat i, 0, 16⟩
def pwrState : Nat := 0x10000
def pwrState_state : Field := ⟨pwrState, 0, 2⟩
def pwrWakecfg : Nat := 0x10004
def pwrWakecfg_tcxo_gpio_en : Field := ⟨pwrWakecfg, 20, 1⟩
def pwrWakecfg_tcxo_gpio : Field := ⟨pwrWakecfg, 16, 4⟩
def pwrWakecfg_gpio_sel : Field := ⟨pwrWakecfg, 12, 4⟩
def pwrWakecfg_gpio_pol : Field := ⟨pwrWakecfg, 11, 1⟩
def pwrWakecfg_eth1_mode : Field := ⟨pwrWakecfg, 10, 1⟩
def pwrWakecfg_eth0_mode : Field := ⟨pwrWakecfg, 9, 1⟩
def pwrWakecfg_en : Field := ⟨pwrWakecfg, 0, 6⟩
def pwrTimer : Nat := 0x10008
def pwrTimer_count : Field := ⟨pwrTimer, 0, 32⟩
def pwrEthwake : Nat := 0x1000C
def pwrEthwake_code : Field := ⟨pwrEthwake, 0, 32⟩
def pwrListen : Nat := 0x10010
def pwrListen_period_s : Field := ⟨pwrListen, 16, 16⟩
def pwrListen_win_ms : Field := ⟨pwrListen, 0, 16⟩
def pwrAonStatus : Nat := 0x10014
def pwrAonStatus_cause : Field := ⟨pwrAonStatus, 28, 4⟩
def pwrAonStatus_attempts : Field := ⟨pwrAonStatus, 24, 4⟩
def pwrAonStatus_locked : Field := ⟨pwrAonStatus, 23, 1⟩
def pwrAonStatus_brownout : Field := ⟨pwrAonStatus, 22, 1⟩
def pwrAonStatus_fail : Field := ⟨pwrAonStatus, 21, 1⟩
def pwrAonStatus_first : Field := ⟨pwrAonStatus, 12, 3⟩
def pwrAonStatus_src : Field := ⟨pwrAonStatus, 0, 6⟩
def pwrRelease : Nat := 0x10018
def pwrRelease_key : Field := ⟨pwrRelease, 0, 16⟩
def pwrRailstat : Nat := 0x1001C
def pwrRailstat_vcore : Field := ⟨pwrRailstat, 24, 8⟩
def pwrRailstat_extsup : Field := ⟨pwrRailstat, 15, 1⟩
def pwrRailstat_ph_fail : Field := ⟨pwrRailstat, 8, 4⟩
def pwrRailstat_pg : Field := ⟨pwrRailstat, 0, 7⟩
def pwrVin : Nat := 0x10020
def pwrVin_warn : Field := ⟨pwrVin, 16, 1⟩
def pwrVin_mv : Field := ⟨pwrVin, 0, 16⟩
def pwrVincfg : Nat := 0x10024
def pwrVincfg_warn_v : Field := ⟨pwrVincfg, 0, 8⟩
def bootStat : Nat := 0x60000
def bootStat_fallback : Field := ⟨bootStat, 7, 1⟩
def bootStat_prof : Field := ⟨bootStat, 5, 2⟩
def bootStat_bank : Field := ⟨bootStat, 4, 1⟩
def bootStat_strap : Field := ⟨bootStat, 0, 4⟩
def bootBuild : Nat := 0x60004
def bootBuild_build : Field := ⟨bootBuild, 0, 32⟩
def bootRegion : Nat := 0x60008
def bootRegion_code : Field := ⟨bootRegion, 0, 16⟩
def bootUpdStat : Nat := 0x6000C
def bootUpdStat_state : Field := ⟨bootUpdStat, 30, 2⟩
def bootUpdStat_act_pend : Field := ⟨bootUpdStat, 29, 1⟩
def bootUpdStat_received : Field := ⟨bootUpdStat, 0, 17⟩
def bootUpdMiss : Nat := 0x60010
def bootUpdMiss_none : Field := ⟨bootUpdMiss, 16, 1⟩
def bootUpdMiss_chunk : Field := ⟨bootUpdMiss, 0, 16⟩
def bootUpdLimit : Nat := 0x60014
def bootUpdLimit_limit : Field := ⟨bootUpdLimit, 0, 17⟩
def bootPcieAddrLo : Nat := 0x60020
def bootPcieAddrLo_addr : Field := ⟨bootPcieAddrLo, 0, 32⟩
def bootPcieAddrHi : Nat := 0x60024
def bootPcieAddrHi_addr : Field := ⟨bootPcieAddrHi, 0, 32⟩
def bootPcieCtl : Nat := 0x60028
def bootPcieCtl_err : Field := ⟨bootPcieCtl, 2, 1⟩
def bootPcieCtl_done : Field := ⟨bootPcieCtl, 1, 1⟩
def bootPcieCtl_go : Field := ⟨bootPcieCtl, 0, 1⟩
def glbFault : Nat := 0x40
def glbFault_dram_lost : Field := ⟨glbFault, 8, 1⟩
def glbFault_ca_fail : Field := ⟨glbFault, 7, 1⟩
def glbFault_nocarry : Field := ⟨glbFault, 6, 1⟩
def glbFault_link_member : Field := ⟨glbFault, 5, 1⟩
def glbFault_worker_retired : Field := ⟨glbFault, 4, 1⟩
def glbFault_phase_lost : Field := ⟨glbFault, 3, 1⟩
def glbFault_lane_off : Field := ⟨glbFault, 2, 1⟩
def glbFault_no_standby : Field := ⟨glbFault, 1, 1⟩
def glbFault_radio_failed : Field := ⟨glbFault, 0, 1⟩
def glbFaultEn : Nat := 0x44
def glbFaultEn_en : Field := ⟨glbFaultEn, 0, 9⟩
def pwrFltCause : Nat := 0x10028
def pwrFltCause_cause : Field := ⟨pwrFltCause, 28, 4⟩
def pwrFltCause_lean_only : Field := ⟨pwrFltCause, 24, 1⟩
def pwrFltCause_resets : Field := ⟨pwrFltCause, 16, 3⟩
def glbSerialLo : Nat := 0x4
def glbSerialLo_serial : Field := ⟨glbSerialLo, 0, 32⟩
def glbSerialHi : Nat := 0x8
def glbSerialHi_serial : Field := ⟨glbSerialHi, 0, 32⟩
def glbScratch : Nat := 0xC
def glbScratch_value : Field := ⟨glbScratch, 0, 32⟩
def obsTraceCfg : Nat := 0x480000
def obsTraceCfg_en : Field := ⟨obsTraceCfg, 0, 1⟩
def obsTraceTypes : Nat := 0x480004
def obsTraceTypes_en : Field := ⟨obsTraceTypes, 2, 6⟩
def obsTraceTypes_sync : Field := ⟨obsTraceTypes, 1, 1⟩
def obsTraceRxmask : Nat := 0x480008
def obsTraceRxmask_radios : Field := ⟨obsTraceRxmask, 0, 3⟩
def obsTraceStat : Nat := 0x48000C
def obsTraceStat_drop : Field := ⟨obsTraceStat, 16, 1⟩
def obsTraceStat_level : Field := ⟨obsTraceStat, 0, 16⟩
def obsTraceMark : Nat := 0x480010
def obsTraceMark_value : Field := ⟨obsTraceMark, 0, 32⟩
def obsSnapCtl : Nat := 0x480014
def obsSnapCtl_req : Field := ⟨obsSnapCtl, 31, 1⟩
def obsSnapCtl_pending : Field := ⟨obsSnapCtl, 30, 1⟩
def obsSnapCtl_auto : Field := ⟨obsSnapCtl, 0, 1⟩
def obsSnapStat : Nat := 0x480018
def obsSnapStat_seq : Field := ⟨obsSnapStat, 24, 8⟩
def obsSnapStat_sf : Field := ⟨obsSnapStat, 9, 12⟩
def obsSnapStat_slot : Field := ⟨obsSnapStat, 0, 9⟩
def obsWatchFired (i : Nat) : Nat := 0x480020 + i * 0x4
def obsWatchFired_fired (i : Nat) : Field := ⟨obsWatchFired i, 0, 32⟩
def obsWatchCfg (i : Nat) : Nat := 0x481000 + i * 0x10
def obsWatchCfg_en (i : Nat) : Field := ⟨obsWatchCfg i, 31, 1⟩
def obsWatchCfg_window (i : Nat) : Field := ⟨obsWatchCfg i, 16, 4⟩
def obsWatchCfg_index (i : Nat) : Field := ⟨obsWatchCfg i, 0, 11⟩
def obsWatchLim (i : Nat) : Nat := 0x481004 + i * 0x10
def obsWatchLim_limit (i : Nat) : Field := ⟨obsWatchLim i, 0, 32⟩
def obsWatchLast (i : Nat) : Nat := 0x481008 + i * 0x10
def obsWatchLast_delta (i : Nat) : Field := ⟨obsWatchLast i, 0, 32⟩
def clkStat : Nat := 0x20000
def clkStat_tj_warn : Field := ⟨clkStat, 5, 1⟩
def clkStat_pcie_ref : Field := ⟨clkStat, 4, 1⟩
def clkStat_eth_ref : Field := ⟨clkStat, 3, 1⟩
def clkStat_xo32k : Field := ⟨clkStat, 2, 1⟩
def clkStat_pll_lock : Field := ⟨clkStat, 1, 1⟩
def clkStat_ref_ok : Field := ⟨clkStat, 0, 1⟩
def clkRefmode : Nat := 0x20004
def clkRefmode_diff : Field := ⟨clkRefmode, 0, 1⟩
def clkRefmon : Nat := 0x20008
def clkRefmon_ampl : Field := ⟨clkRefmon, 0, 8⟩
def clkXo32k : Nat := 0x2000C
def clkXo32k_trim : Field := ⟨clkXo32k, 0, 5⟩
def clkTj : Nat := 0x20010
def clkTj_max : Field := ⟨clkTj, 8, 8⟩
def clkTj_now : Field := ⟨clkTj, 0, 8⟩
def clkTjcfg : Nat := 0x20014
def clkTjcfg_warn : Field := ⟨clkTjcfg, 0, 8⟩
def clkPaddrv : Nat := 0x20018
def clkPaddrv_fe : Field := ⟨clkPaddrv, 6, 2⟩
def clkPaddrv_trace : Field := ⟨clkPaddrv, 4, 2⟩
def clkPaddrv_spi : Field := ⟨clkPaddrv, 2, 2⟩
def clkPaddrv_gpio : Field := ⟨clkPaddrv, 0, 2⟩
def clkPadpull : Nat := 0x2001C
def clkPadpull_gpio_pd : Field := ⟨clkPadpull, 0, 16⟩

/-- The MSI-X table of 32 entries and the pending-bit array (R399). -/
def msixTable (v j : Nat) : Nat := 0x48000 + v * 16 + j * 4
def msixPba (j : Nat) : Nat := 0x49000 + j * 4
/-- OBS counters: the words of counter `i` and of its snapshot (R508, R510). -/
def counterLow (i : Nat) : Nat := 0x490000 + i * 8
def snapshotLow (i : Nat) : Nat := 0x494000 + i * 8

end Reg

/-- Does offset `o` lie in an array of `n` elements of stride `st` that starts at `b`? -/
def inArray (o b n st : Nat) : Bool := decide (b ≤ o) && decide ((o - b) / st < n) && decide ((o - b) % st = 0)
/-- As `inArray`, for a two-dimensional array. -/
def inArray2 (o b n1 st1 n2 st2 : Nat) : Bool :=
  decide (b ≤ o) && decide ((o - b) / st1 < n1) && decide ((o - b) % st1 / st2 < n2) &&
    decide ((o - b) % st1 % st2 = 0)

/-- The rings that exist: command, completion, event, TX 16 to 31 and RX 32 to 47 (Table 13.2). -/
def ringExists (i : Nat) : Bool := decide (i < 3) || (decide (16 ≤ i) && decide (i < 48))

/-- Reset of DMC_PORTCFG[k]: MAX_INFL and TARGET of Table 12.5. -/
def dmcPortReset (k : Nat) : Word :=
  match k with
  | 0 => BitVec.ofNat 32 (64 * 65536 + 400)
  | 1 => BitVec.ofNat 32 (64 * 65536 + 2000)
  | 2 => BitVec.ofNat 32 (32 * 65536 + 500)
  | 3 => BitVec.ofNat 32 (96 * 65536 + 1000)
  | 4 => BitVec.ofNat 32 (16 * 65536 + 4000)
  | 5 => BitVec.ofNat 32 (16 * 65536 + 600)
  | 6 => BitVec.ofNat 32 (16 * 65536 + 1500)
  | _ => BitVec.ofNat 32 (16 * 65536 + 1000)

/-- The registers of block GLB, by offset from its base. -/
def descGlb (o : Nat) : Option RegDesc :=
  if o = 0x0 then some ⟨0x0, 0x0, 0x0, 0x0, 0x734800B0, .atOnce⟩ else
  if o = 0x40 then some ⟨0x0, 0x100, 0x0, 0x0, 0x0, .atOnce⟩ else
  if o = 0x44 then some ⟨0x1FF, 0x0, 0x0, 0x0, 0x1FF, .atOnce⟩ else
  if o = 0x4 then some ⟨0x0, 0x0, 0x0, 0x0, Config.serial.setWidth 32, .atOnce⟩ else
  if o = 0x8 then some ⟨0x0, 0x0, 0x0, 0x0, (Config.serial >>> 32).setWidth 32, .atOnce⟩ else
  if o = 0xC then some ⟨0xFFFFFFFF, 0x0, 0x0, 0x0, 0x0, .atOnce⟩ else
  none

/-- The registers of block AIR, by offset from its base. -/
def descAir (o : Nat) : Option RegDesc :=
  if o = 0x100 then some ⟨0xF1F0F3F, 0x0, 0x0, 0x0, 0x20A040C, .recompute⟩ else
  if o = 0x104 then some ⟨0x37F, 0x0, 0x0, 0x0, 0x1C, .recompute⟩ else
  none

/-- The registers of block BBP, by offset from its base. -/
def descBbp (o : Nat) : Option RegDesc :=
  if inArray o 0x0 3 0x1000 then some ⟨0xFF0F3F01, 0x0, 0x0, 0x0, 0x50040801, .slotTick⟩ else
  if inArray o 0x4 3 0x1000 then some ⟨0x3FFF, 0x0, 0x0, 0x0, 0x1433, .slotTick⟩ else
  if inArray o 0x8 3 0x1000 then some ⟨0x10F, 0x0, 0x0, 0x0, 0x106, .slotTick⟩ else
  if inArray o 0xC 3 0x1000 then some ⟨0xF1FF, 0x0, 0x0, 0x0, 0x4104, .slotTick⟩ else
  if inArray o 0x20 3 0x1000 then some ⟨0x0, 0x7F, 0x0, 0x0, 0x0, .atOnce⟩ else
  if o = 0x3000 then some ⟨0xFFFF0F, 0x0, 0x0, 0x0, 0x104406, .slotTick⟩ else
  none

/-- The registers of block RF0, by offset from its base. -/
def descRf0 (o : Nat) : Option RegDesc :=
  if inArray o 0x0 3 0x10000 then some ⟨0x0, 0x3E00, 0x0, 0x0, 0x0, .atOnce⟩ else
  if inArray o 0x4 3 0x10000 then some ⟨0xF3FFFFF, 0x0, 0x0, 0x0, 0x20AA0A0, .slotTick⟩ else
  if inArray o 0x8 3 0x10000 then some ⟨0x3FFFFFFF, 0x0, 0x0, 0x0, 0x0, .slotTick⟩ else
  if inArray o 0xC 3 0x10000 then some ⟨0xFF011F, 0x0, 0x0, 0x0, 0x400108, .slotTick⟩ else
  if inArray o 0x10 3 0x10000 then some ⟨0xFFF, 0x0, 0x0, 0x0, 0x32, .slotTick⟩ else
  if inArray o 0x14 3 0x10000 then some ⟨0x1FF, 0x0, 0x0, 0x0, 0x100, .slotTick⟩ else
  if inArray o 0x18 3 0x10000 then some ⟨0x0, 0x0, 0x0, 0x0, 0x0, .atOnce⟩ else
  none

/-- The registers of block SCH, by offset from its base. -/
def descSch (o : Nat) : Option RegDesc :=
  if o = 0x0 then some ⟨0x0, 0x0, 0x0, 0x0, 0x10000000, .atOnce⟩ else
  if o = 0x4 then some ⟨0x1, 0x0, 0x0, 0x0, 0x1, .atOnce⟩ else
  if o = 0x8 then some ⟨0xFFFFF07, 0x0, 0x0, 0x0, 0x4404803, .superframe⟩ else
  if o = 0xC then some ⟨0x8FFF00FF, 0x0, 0x0, 0x0, 0x84A20042, .superframe⟩ else
  if o = 0x10 then some ⟨0xFFFFFFFF, 0x0, 0x0, 0x0, 0x0, .atOnce⟩ else
  if o = 0x14 then some ⟨0x0, 0x1F, 0x0, 0x0, 0x200, .atOnce⟩ else
  none

/-- The registers of block MSH, by offset from its base. -/
def descMsh (o : Nat) : Option RegDesc :=
  if o = 0x0 then some ⟨0x8FF0FFFF, 0x0, 0x0, 0x0, 0x2804040, .slotTick⟩ else
  if o = 0x4 then some ⟨0x0, 0x3E, 0x0, 0x0, 0x0, .atOnce⟩ else
  if o = 0x8 then some ⟨0x0, 0x0, 0x0, 0x0, 0x0, .atOnce⟩ else
  if inArray o 0x10 8 0x4 then some ⟨0x800001FF, 0x0, 0x0, 0x0, 0x0, .superframe⟩ else
  if inArray o 0x40 8 0x4 then some ⟨0xF80001FF, 0x0, 0x0, 0x0, 0x18000000, .superframe⟩ else
  if inArray o 0x60 8 0x4 then some ⟨0xFFFFFFFF, 0x0, 0x0, 0x0, 0x0, .superframe⟩ else
  if o = 0x80 then some ⟨0xFFFFFFFF, 0x0, 0x0, 0x0, 0x0, .slotTick⟩ else
  if o = 0x84 then some ⟨0xFFFFFFFF, 0x0, 0x0, 0x0, 0x0, .slotTick⟩ else
  if o = 0x88 then some ⟨0xFFFFFFFF, 0x0, 0x0, 0x0, 0x0, .slotTick⟩ else
  none

/-- The registers of block TIM, by offset from its base. -/
def descTim (o : Nat) : Option RegDesc :=
  if o = 0x0 then some ⟨0x0, 0x0, 0x0, 0x0, 0x0, .atOnce⟩ else
  if o = 0x4 then some ⟨0x0, 0x0, 0x0, 0x0, 0x0, .atOnce⟩ else
  if o = 0x8 then some ⟨0x0, 0x0, 0x0, 0x0, 0x0, .atOnce⟩ else
  if o = 0xC then some ⟨0x0, 0x0, 0x0, 0x0, 0x0, .atOnce⟩ else
  if o = 0x10 then some ⟨0x0, 0x0, 0x0, 0x0, 0x0, .atOnce⟩ else
  if o = 0x14 then some ⟨0x0, 0x0, 0x0, 0x0, 0x0, .atOnce⟩ else
  if o = 0x20 then some ⟨0x3FFFFF, 0x0, 0x0, 0x0, 0x0, .atOnce⟩ else
  if o = 0x24 then some ⟨0x7FF, 0x0, 0x0, 0x0, 0x64, .slotTick⟩ else
  if o = 0x28 then some ⟨0xFFFF0FFF, 0x0, 0x0, 0x0, 0x31401F4, .slotTick⟩ else
  if o = 0x2C then some ⟨0x3FFFFFFF, 0x0, 0x0, 0x0, 0x3E8, .slotTick⟩ else
  if o = 0x30 then some ⟨0xFFFF000F, 0x0, 0x0, 0x0, 0xD10000, .slotTick⟩ else
  if o = 0x34 then some ⟨0x0, 0xFC, 0x0, 0x0, 0x0, .atOnce⟩ else
  if inArray o 0x40 2 0x8 then some ⟨0xFFFFFF, 0x0, 0x0, 0x0, 0x0, .atOnce⟩ else
  if inArray o 0x44 2 0x8 then some ⟨0xFFFFFF, 0x0, 0x0, 0x0, 0x0, .atOnce⟩ else
  if inArray o 0x50 3 0x4 then some ⟨0xFFFFFFFF, 0x0, 0x0, 0x0, 0x0, .atOnce⟩ else
  if o = 0x60 then some ⟨0xFFFFFF0B, 0x0, 0x0, 0x0, 0x98968000, .atOnce⟩ else
  if o = 0x64 then some ⟨0xFFFFFFFF, 0x0, 0x0, 0x0, 0x0, .atOnce⟩ else
  none

/-- The registers of block PPL, by offset from its base. -/
def descPpl (o : Nat) : Option RegDesc :=
  if o = 0x0 then some ⟨0x30F, 0x0, 0x0, 0x0, 0x100, .atOnce⟩ else
  if o = 0x4 then some ⟨0xFF38FFFF, 0x0, 0x0, 0x0, 0x4020B8F4, .atOnce⟩ else
  if o = 0x8 then some ⟨0x73F, 0x0, 0x0, 0x0, 0x100, .atOnce⟩ else
  if inArray o 0x10 4 0x4 then some ⟨0xFFFFFFFF, 0x0, 0x0, 0x0, 0x0, .atOnce⟩ else
  if o = 0x20 then some ⟨0xFFFF, 0x0, 0x0, 0x0, 0x0, .atOnce⟩ else
  if o = 0x24 then some ⟨0xFFFFFFFF, 0x0, 0x0, 0x0, 0x0, .atOnce⟩ else
  if o = 0x30 then some ⟨0x0, 0x0, 0x0, 0x0, 0x0, .atOnce⟩ else
  if o = 0x34 then some ⟨0x0, 0x0, 0x0, 0x0, 0x0, .atOnce⟩ else
  none

/-- The registers of block FWD, by offset from its base. -/
def descFwd (o : Nat) : Option RegDesc :=
  if inArray o 0x0 2 0x4 then some ⟨0x7FFFF, 0x0, 0x0, 0x0, 0x6012C, .atOnce⟩ else
  if o = 0x10 then some ⟨0x0, 0x3F, 0x0, 0x0, 0x0, .atOnce⟩ else
  if inArray o 0x20 4 0x4 then some ⟨0x0, 0x0, 0x0, 0x0, 0x0, .atOnce⟩ else
  none

/-- The registers of block ETH0, by offset from its base. -/
def descEth0 (o : Nat) : Option RegDesc :=
  if inArray o 0x0 2 0x10000 then some ⟨0x73FFF, 0x0, 0x0, 0x0, 0x2400, .atOnce⟩ else
  if inArray o 0x4 2 0x10000 then some ⟨0xC0FFFFFF, 0x0, 0x0, 0x0, 0xC0644B32, .atOnce⟩ else
  if inArray o 0x8 2 0x10000 then some ⟨0x0, 0xC, 0x0, 0x0, 0x0, .atOnce⟩ else
  if o = 0x20 then some ⟨0xC0FFFFFF, 0x0, 0x0, 0x0, 0x3C2D28, .atOnce⟩ else
  if o = 0x24 then some ⟨0x0, 0x0, 0x0, 0x0, 0x0, .atOnce⟩ else
  if o = 0x40 then some ⟨0xFFFCFFFF, 0x0, 0x0, 0x0, 0x0, .atOnce⟩ else
  none

/-- The registers of block TSH, by offset from its base. -/
def descTsh (o : Nat) : Option RegDesc :=
  if inArray o 0x0 2 0x2000 then some ⟨0x7F, 0x0, 0x0, 0x0, 0x14, .atOnce⟩ else
  if inArray2 o 0x100 2 0x2000 8 0x8 then some ⟨0x80FF3FFF, 0x0, 0x0, 0x0, 0x10100, .atOnce⟩ else
  if inArray2 o 0x104 2 0x2000 8 0x8 then some ⟨0xBFFFFFFF, 0x0, 0x0, 0x0, 0x27102400, .atOnce⟩ else
  if inArray o 0x200 2 0x2000 then some ⟨0x800000FF, 0x0, 0x0, 0x40000000, 0x1, .atOnce⟩ else
  if inArray o 0x204 2 0x2000 then some ⟨0x3FFFFFFF, 0x0, 0x0, 0x0, 0x2625A0, .atOnce⟩ else
  if inArray o 0x208 2 0x2000 then some ⟨0xFFFF, 0x0, 0x0, 0x0, 0x0, .atOnce⟩ else
  if inArray o 0x20C 2 0x2000 then some ⟨0xFFFFFFFF, 0x0, 0x0, 0x0, 0x0, .atOnce⟩ else
  if inArray o 0x210 2 0x2000 then some ⟨0x3FFFFFFF, 0x0, 0x0, 0x0, 0x0, .atOnce⟩ else
  if inArray2 o 0x1000 2 0x2000 128 0x4 then some ⟨0xFFFFFFFF, 0x0, 0x0, 0x0, 0xFF000000, .atOnce⟩ else
  none

/-- The registers of block TSK, by offset from its base. -/
def descTsk (o : Nat) : Option RegDesc :=
  if o = 0x0 then some ⟨0xF, 0x0, 0x0, 0x0, 0x4, .slotTick⟩ else
  if o = 0x4 then some ⟨0xFFFFFFFF, 0x0, 0x0, 0x0, 0x20137456, .slotTick⟩ else
  if o = 0x8 then some ⟨0xFFF0FFF, 0x0, 0x0, 0x0, 0x4000100, .slotTick⟩ else
  if o = 0xC then some ⟨0xFFFFF, 0x0, 0x0, 0x0, 0x301F4, .slotTick⟩ else
  if o = 0x10 then some ⟨0x0, 0x3F, 0x0, 0x0, 0x0, .atOnce⟩ else
  if o = 0x14 then some ⟨0x0, 0x0, 0x1FFF, 0x0, 0x0, .atOnce⟩ else
  if inArray o 0x100 16 0x4 then some ⟨0x0, 0x0, 0x0, 0x0, 0x0, .atOnce⟩ else
  if o = 0x200 then some ⟨0x0, 0x3, 0x0, 0x0, 0x0, .atOnce⟩ else
  none

/-- The registers of block KAO, by offset from its base. -/
def descKao (o : Nat) : Option RegDesc :=
  if o = 0x0 then some ⟨0xC00F00FF, 0x0, 0x0, 0x0, 0x40020, .atOnce⟩ else
  if o = 0x4 then some ⟨0xFFFF, 0x0, 0x0, 0x0, 0x32, .atOnce⟩ else
  if o = 0x8 then some ⟨0x0, 0x0, 0x0, 0x0, 0x0, .atOnce⟩ else
  if o = 0xC then some ⟨0x0, 0x1F, 0x0, 0x0, 0x0, .atOnce⟩ else
  if o = 0x10 then some ⟨0x0, 0x0, 0x0, 0x0, 0x0, .atOnce⟩ else
  none

/-- The registers of block DMC, by offset from its base. -/
def descDmc (o : Nat) : Option RegDesc :=
  if o = 0x0 then some ⟨0x1, 0x0, 0x0, 0x0, 0x0, .atOnce⟩ else
  if o = 0x4 then some ⟨0x11F, 0x0, 0x0, 0x0, 0x108, .superframe⟩ else
  if o = 0x8 then some ⟨0x800000FF, 0x0, 0x0, 0x0, 0x80000018, .scrub⟩ else
  if o = 0xC then some ⟨0x0, 0x3F, 0x0, 0x0, 0x0, .atOnce⟩ else
  if o = 0x10 then some ⟨0x0, 0x0, 0x0, 0x0, 0x0, .atOnce⟩ else
  if o = 0x14 then some ⟨0x0, 0x10, 0x0, 0x0, 0x0, .atOnce⟩ else
  if inArray o 0x40 8 0x4 then some ⟨0xFFFFFF, 0x0, 0x0, 0x0, dmcPortReset ((o - 0x40) / 4), .atOnce⟩ else
  if inArray o 0x100 16 0x10 then some ⟨0x0, 0x0, 0x0, 0x0, 0x0, .atOnce⟩ else
  if inArray o 0x104 16 0x10 then some ⟨0x0, 0x0, 0x0, 0x0, 0x3FF, .atOnce⟩ else
  if inArray o 0x108 16 0x10 then some ⟨0x0, 0x0, 0x0, 0x0, 0x0, .atOnce⟩ else
  if inArray o 0x10C 16 0x10 then some ⟨0x0, 0x80000000, 0x0, 0x0, 0x0, .atOnce⟩ else
  none

/-- The registers of block HIF, by offset from its base. -/
def descHif (o : Nat) : Option RegDesc :=
  if inArray o 0x8000 128 4 then
    some ⟨if o % 16 = 12 then 1 else if o % 16 = 0 then 0xFFFFFFFC else 0xFFFFFFFF, 0, 0, 0, if o % 16 = 12 then 1 else 0, .atOnce⟩ else
  if inArray o 0x9000 2 4 then some ⟨0, 0, 0, 0, 0, .atOnce⟩ else
  if o = 0x0 then some ⟨0x1, 0x0, 0x0, 0x0, 0x0, .atOnce⟩ else
  if o = 0x4 then some ⟨0x0, 0x1E, 0x0, 0x0, 0x100, .atOnce⟩ else
  if o = 0x10 then some ⟨0xFFFFF000, 0x0, 0x0, 0x0, 0x0, .atOnce⟩ else
  if o = 0x14 then some ⟨0xFFFFFFFF, 0x0, 0x0, 0x0, 0x0, .atOnce⟩ else
  if o = 0x18 then some ⟨0x1FF, 0x0, 0x0, 0x0, 0x40, .slotTick⟩ else
  if inArray o 0x1000 48 0x10 && ringExists ((o - 0x1000) / 16) then some ⟨0xFFFFFFC0, 0x0, 0x0, 0x0, 0x0, .atOnce⟩ else
  if inArray o 0x1004 48 0x10 && ringExists ((o - 0x1000) / 16) then some ⟨0xFFFFFFFF, 0x0, 0x0, 0x0, 0x0, .atOnce⟩ else
  if inArray o 0x1008 48 0x10 && ringExists ((o - 0x1000) / 16) then some ⟨0x8F1FBF00, 0x0, 0x0, 0x0, 0x0, .atOnce⟩ else
  if inArray o 0x100C 48 0x10 && ringExists ((o - 0x1000) / 16) then some ⟨0x0, 0x80000000, 0x0, 0x0, 0x0, .atOnce⟩ else
  none

/-- The registers of block PWR, by offset from its base. -/
def descPwr (o : Nat) : Option RegDesc :=
  if o = 0x0 then some ⟨0x0, 0x0, 0x0, 0x0, 0x0, .atOnce⟩ else
  if o = 0x4 then some ⟨0x1FFE3F, 0x0, 0x0, 0x0, 0x4, .sentinel⟩ else
  if o = 0x8 then some ⟨0xFFFFFFFF, 0x0, 0x0, 0x0, 0x0, .sentinel⟩ else
  if o = 0xC then some ⟨0xFFFFFFFF, 0x0, 0x0, 0x0, 0x0, .sentinel⟩ else
  if o = 0x10 then some ⟨0xFFFFFFFF, 0x0, 0x0, 0x0, 0xA0014, .sentinel⟩ else
  if o = 0x14 then some ⟨0x0, 0x60003F, 0x0, 0x0, 0x7000, .atOnce⟩ else
  if o = 0x18 then some ⟨0x0, 0x0, 0x0, 0xFFFF, 0x0, .atOnce⟩ else
  if o = 0x1C then some ⟨0x0, 0x0, 0x0, 0x0, 0xA0000000, .atOnce⟩ else
  if o = 0x20 then some ⟨0x0, 0x10000, 0x0, 0x0, 0x0, .atOnce⟩ else
  if o = 0x24 then some ⟨0xFF, 0x0, 0x0, 0x0, 0x46, .atOnce⟩ else
  if o = 0x28 then some ⟨0x0, 0x0, 0x0, 0x0, 0x0, .atOnce⟩ else
  none

/-- The registers of block BOOT, by offset from its base. -/
def descBoot (o : Nat) : Option RegDesc :=
  if o = 0x0 then some ⟨0x0, 0x0, 0x0, 0x0, 0x0, .atOnce⟩ else
  if o = 0x4 then some ⟨0x0, 0x0, 0x0, 0x0, 0x0, .atOnce⟩ else
  if o = 0x8 then some ⟨0x0, 0x0, 0x0, 0x0, 0x0, .atOnce⟩ else
  if o = 0xC then some ⟨0x0, 0x0, 0x0, 0x0, 0x0, .atOnce⟩ else
  if o = 0x10 then some ⟨0x0, 0x0, 0x0, 0x0, 0x10000, .atOnce⟩ else
  if o = 0x14 then some ⟨0x0, 0x0, 0x0, 0x0, 0x0, .atOnce⟩ else
  if o = 0x20 then some ⟨0xFFFFFFFF, 0x0, 0x0, 0x0, 0x0, .atOnce⟩ else
  if o = 0x24 then some ⟨0xFFFFFFFF, 0x0, 0x0, 0x0, 0x0, .atOnce⟩ else
  if o = 0x28 then some ⟨0x0, 0x0, 0x0, 0x1, 0x0, .atOnce⟩ else
  none

/-- The registers of block OBS, by offset from its base. -/
def descObs (o : Nat) : Option RegDesc :=
  if o = 0x0 then some ⟨0x1, 0x0, 0x0, 0x0, 0x0, .slotTick⟩ else
  if o = 0x4 then some ⟨0xFC, 0x0, 0x0, 0x0, 0xFE, .atOnce⟩ else
  if o = 0x8 then some ⟨0x7, 0x0, 0x0, 0x0, 0x7, .atOnce⟩ else
  if o = 0xC then some ⟨0x0, 0x10000, 0x0, 0x0, 0x0, .atOnce⟩ else
  if o = 0x10 then some ⟨0x0, 0x0, 0x0, 0xFFFFFFFF, 0x0, .atOnce⟩ else
  if o = 0x14 then some ⟨0x1, 0x0, 0x0, 0x80000000, 0x0, .atOnce⟩ else
  if o = 0x18 then some ⟨0x0, 0x0, 0x0, 0x0, 0x0, .atOnce⟩ else
  if inArray o 0x20 3 0x4 then some ⟨0x0, 0xFFFFFFFF, 0x0, 0x0, 0x0, .atOnce⟩ else
  if inArray o 0x1000 96 0x10 then some ⟨0x800F07FF, 0x0, 0x0, 0x0, 0x10000, .superframe⟩ else
  if inArray o 0x1004 96 0x10 then some ⟨0xFFFFFFFF, 0x0, 0x0, 0x0, 0xFFFFFFFF, .superframe⟩ else
  if inArray o 0x1008 96 0x10 then some ⟨0x0, 0x0, 0x0, 0x0, 0x0, .atOnce⟩ else
  none

/-- The registers of block CLK, by offset from its base. -/
def descClk (o : Nat) : Option RegDesc :=
  if o = 0x0 then some ⟨0x0, 0x20, 0x0, 0x0, 0x0, .atOnce⟩ else
  if o = 0x4 then some ⟨0x0, 0x0, 0x0, 0x0, 0x0, .atOnce⟩ else
  if o = 0x8 then some ⟨0x0, 0x0, 0x0, 0x0, 0x0, .atOnce⟩ else
  if o = 0xC then some ⟨0x1F, 0x0, 0x0, 0x0, 0x10, .atOnce⟩ else
  if o = 0x10 then some ⟨0x0, 0x0, 0xFF00, 0x0, 0x8000, .atOnce⟩ else
  if o = 0x14 then some ⟨0xFF, 0x0, 0x0, 0x0, 0x69, .atOnce⟩ else
  if o = 0x18 then some ⟨0xFF, 0x0, 0x0, 0x0, 0x69, .atOnce⟩ else
  if o = 0x1C then some ⟨0xFFFF, 0x0, 0x0, 0x0, 0xFFFF, .atOnce⟩ else
  none

/-- The register at a BAR0 address; none where no chapter assigns one (R504, Table 17.1). -/
def regDesc (a : Nat) : Option RegDesc :=
  if 0x490000 ≤ a then none else
  if a < 0x1C0000 then
    if a < 0x60000 then
      if a < 0x20000 then
        if a < 0x10000 then
          descGlb a
        else
          descPwr (a - 0x10000)
      else
        if a < 0x40000 then
          descClk (a - 0x20000)
        else
          descHif (a - 0x40000)
    else
      if a < 0x140000 then
        if a < 0x100000 then
          descBoot (a - 0x60000)
        else
          descRf0 (a - 0x100000)
      else
        if a < 0x180000 then
          descBbp (a - 0x140000)
        else
          if a < 0x1A0000 then
            descAir (a - 0x180000)
          else
            descSch (a - 0x1A0000)
  else
    if a < 0x340000 then
      if a < 0x240000 then
        if a < 0x200000 then
          descMsh (a - 0x1C0000)
        else
          descTim (a - 0x200000)
      else
        if a < 0x260000 then
          descPpl (a - 0x240000)
        else
          if a < 0x300000 then
            descFwd (a - 0x260000)
          else
            descEth0 (a - 0x300000)
    else
      if a < 0x3C0000 then
        if a < 0x380000 then
          descTsh (a - 0x340000)
        else
          descTsk (a - 0x380000)
      else
        if a < 0x400000 then
          descKao (a - 0x3C0000)
        else
          if a < 0x480000 then
            descDmc (a - 0x400000)
          else
            descObs (a - 0x480000)

/-- What a register holds after power-on reset; 0 where there is none. -/
def resetVal (a : Nat) : Word := match regDesc a with | some d => d.reset | none => 0

/-- The boundary of a register's writes. -/
def boundOf (a : Nat) : Boundary := match regDesc a with | some d => d.bound | none => .atOnce

end Sys2Proof.Machine
end

