-- ==== Sys2Proof/Machine/Ops.lean ====
section
/-! DEFINITION. The named operations over the register file, the counters, the rings, the events, the completions and
the trace port. Every family of commands acts on the block through them. -/

namespace Sys2Proof.Machine

/-! ## Registers (R8 to R10, R504, R505) -/

/-- The value of a register, as the last write or the hardware left it. -/
def Dev.reg (d : Dev) (a : Nat) : Word := Sparse.get (resetVal a) d.regs a

/-- Set a register. -/
def Dev.setReg (d : Dev) (a : Nat) (v : Word) : Dev := { d with regs := Sparse.put (resetVal a) d.regs a v }

/-- The value of a register that the device's behaviour follows: behind a boundary, the value in force (R505). -/
def Dev.cfg (d : Dev) (a : Nat) : Word :=
  match boundOf a with
  | .atOnce => d.reg a
  | _ => Sparse.get (resetVal a) d.eff a

/-- The bits of a field in a word. -/
def Field.of (f : Field) (w : Word) : Nat := (w.toNat >>> f.lo) % 2 ^ f.n

/-- A word with one field replaced. -/
def Field.put (f : Field) (w : Word) (v : Nat) : Word :=
  let m : Word := BitVec.ofNat 32 (2 ^ f.n - 1) <<< f.lo
  (w &&& ~~~m) ||| (BitVec.ofNat 32 (v % 2 ^ f.n) <<< f.lo)

/-- A field of a register. -/
def Dev.fld (d : Dev) (f : Field) : Nat := f.of (d.reg f.addr)
/-- A field of a register's value in force. -/
def Dev.cfgFld (d : Dev) (f : Field) : Nat := f.of (d.cfg f.addr)
/-- Hardware sets a field. -/
def Dev.setFld (d : Dev) (f : Field) (v : Nat) : Dev := d.setReg f.addr (f.put (d.reg f.addr) v)
/-- A one-bit field. -/
def Dev.bit (d : Dev) (f : Field) : Bool := d.fld f == 1
/-- A one-bit field of a register's value in force. -/
def Dev.cfgBit (d : Dev) (f : Field) : Bool := d.cfgFld f == 1
/-- Hardware sets a one-bit field to 1. -/
def Dev.raise (d : Dev) (f : Field) : Dev := d.setFld f 1
/-- Hardware sets a one-bit field. -/
def Dev.setBit (d : Dev) (f : Field) (b : Bool) : Dev := d.setFld f b.toNat
/-- A field as two's complement. -/
def Dev.signedFld (d : Dev) (f : Field) : Int := toSigned f.n (d.fld f)
/-- A field in force that acts as `v` when it holds 0. -/
def orElse0 (x v : Nat) : Nat := if x = 0 then v else x

/-- At a boundary, the registers of its class take their written values into force (R505). -/
def Dev.applyBoundary (d : Dev) (b : Boundary) : Dev :=
  let keep := d.eff.filter fun p => boundOf p.1 != b
  let new := d.regs.filter fun p => boundOf p.1 == b
  { d with eff := new.foldl (fun t p => Sparse.put (resetVal p.1) t p.1 p.2) keep }

/-! ## Counters (R508) -/

/-- A counter's value. -/
def Dev.counter (d : Dev) (i : Nat) : BitVec 64 := Sparse.get 0 d.counters i

/-- Add to a counter, modulo 2^64; an index beyond 0x7FF names none. -/
def Dev.bumpBy (d : Dev) (i n : Nat) : Dev :=
  { d with counters := Sparse.put 0 d.counters i (d.counter i + BitVec.ofNat 64 n) }

/-- Count one event. -/
def Dev.bump (d : Dev) (i : Nat) : Dev := d.bumpBy i 1

/-! ## Outputs -/

/-- Put something on a link or ball; the newest output stands first. -/
def Dev.out (d : Dev) (o : Output) : Dev := { d with outs := o :: d.outs }

/-! ## Tick units (R17, Table 1.3) -/

/-- The TAI nanosecond count (R16). -/
def Dev.tai (d : Dev) : Int := (d.tim.sec.toNat : Int) * 1000000000 + d.tim.ns.toNat

/-- Slot number of an absolute slot count. -/
def slotOf (s : Int) : Nat := (s % 512).toNat
/-- Superframe number of an absolute slot count. -/
def sfOf (s : Int) : Nat := (s / 512 % 4096).toNat
/-- Hyperframe number of an absolute slot count. -/
def hfOf (s : Int) : Nat := (s / 2097152 % 4294967296).toNat

def Dev.slot (d : Dev) : Nat := slotOf d.tim.slotS
def Dev.sf (d : Dev) : Nat := sfOf d.tim.slotS

/-! ## Device state (Table 13.14) -/

def dsOff : Nat := 0
def dsBoot : Nat := 1
def dsStandalone : Nat := 2
def dsHosted : Nat := 3
def dsSentinel : Nat := 4
def dsFaultLock : Nat := 5

/-- HIF_STAT.DEV_STATE. -/
def Dev.devState (d : Dev) : Nat := d.fld Reg.hifStat_dev_state
/-- Does the device operate: STANDALONE or HOSTED? -/
def Dev.operating (d : Dev) : Bool := d.devState == dsStandalone || d.devState == dsHosted
def Dev.hosted (d : Dev) : Bool := d.devState == dsHosted

/-! ## Trace port (R512 to R514) -/

/-- Bytes that wait in the trace buffer. -/
def Dev.traceLevel (d : Dev) : Nat := d.obs.traceQ.foldl (fun a m => a + m.length) 0

/-- A trace message (R513). -/
def traceMsg (ty : Nat) (time : Nat) (payload : List Byte) : List Byte :=
  let m := byte ty :: byte payload.length :: le 3 time ++ payload
  m ++ [byte (crc8 m)]

/-- Append a message to the trace buffer and show the level. -/
def Dev.tracePush (d : Dev) (m : List Byte) : Dev :=
  let d := { d with obs := { d.obs with traceQ := d.obs.traceQ ++ [m] } }
  d.setFld Reg.obsTraceStat_level d.traceLevel

/-- After discards, a LOST message goes out at the first opportunity (Table 17.6). -/
def Dev.traceLostMsg (d : Dev) : Dev :=
  let m := traceMsg 7 d.tim.elapsed (le 2 d.obs.traceLost)
  if d.obs.traceLost = 0 ∨ 8192 < d.traceLevel + m.length then d
  else { d with obs := { d.obs with traceLost := 0 } }.tracePush m

/-- Generate a trace message of type `ty`, unless the port is off or the type disabled; a message that finds no room
is discarded whole (R514). -/
def Dev.trace (d : Dev) (ty : Nat) (payload : List Byte) : Dev :=
  if !d.cfgBit Reg.obsTraceCfg_en || !(d.reg Reg.obsTraceTypes).getLsbD ty then d
  else
    let m := traceMsg ty d.tim.elapsed payload
    let lost := if d.obs.traceLost = 0 then 0 else 8
    let room := if ty = 1 then true else decide (d.traceLevel + lost + m.length ≤ 8192 - 64)
    if room then d.traceLostMsg.tracePush m
    else ({ d with obs := { d.obs with traceLost := d.obs.traceLost + 1 } }.bump Cnt.traceDrop).raise
      Reg.obsTraceStat_drop

/-- An RX or TX trace message of a radio that OBS_TRACE_RXMASK names (R514). -/
def Dev.traceRadio (d : Dev) (r : RadioId) (ty : Nat) (payload : List Byte) : Dev :=
  if (d.fld Reg.obsTraceRxmask_radios).testBit r.val then d.trace ty payload else d

/-! ## Rings (R400 to R407) -/

/-- A ring that has not been enabled. -/
def emptyRing : Ring := ⟨0, 0, [], false, false, 0, []⟩
def Dev.ring (d : Dev) (i : Nat) : Ring := Sparse.get emptyRing d.hif.rings i
def Dev.setRing (d : Dev) (i : Nat) (r : Ring) : Dev :=
  { d with hif := { d.hif with rings := Sparse.put emptyRing d.hif.rings i r } }

/-- Bytes of an entry (Table 13.2). -/
def entrySize (i : Nat) : Nat := if i = 0 then 64 else if i = 1 then 16 else 32

/-- LOG2SIZE as it acts (Table 13.2). -/
def Dev.log2Size (d : Dev) (i : Nat) : Nat :=
  let v := d.fld (Reg.hifRingCfg_log2size i)
  if i = 0 then clampNat 4 12 v
  else if i = 1 then max (clampNat 4 12 v) (clampNat 4 12 (d.fld (Reg.hifRingCfg_log2size 0)))
  else if i = 2 then clampNat 6 12 v
  else clampNat 6 14 v

def Dev.ringSize (d : Dev) (i : Nat) : Nat := 2 ^ d.log2Size i
def Dev.ringEn (d : Dev) (i : Nat) : Bool := d.bit (Reg.hifRingCfg_en i)
/-- A ring the device may use: enabled and not halted. -/
def Dev.ringLive (d : Dev) (i : Nat) : Bool := d.ringEn i && !(d.ring i).halted
def Dev.ringBase (d : Dev) (i : Nat) : Nat :=
  (d.reg (Reg.hifRingBaseHi i)).toNat * 4294967296 + (d.reg (Reg.hifRingBaseLo i)).toNat

/-- Host address of entry `k` of ring `i` (R401). -/
def Dev.entryAddr (d : Dev) (i k : Nat) : Nat := d.ringBase i + k % d.ringSize i * entrySize i

/-- PHASE of entry `k` (R405). -/
def Dev.phase (d : Dev) (i k : Nat) : Nat := (k / d.ringSize i + 1) % 2

/-- Room in a ring that the device fills: its entries beyond the host's consumer index are fewer than the ring holds. -/
def Dev.ringRoom (d : Dev) (i : Nat) : Bool :=
  d.ringLive i && decide ((d.ring i).dev - (d.ring i).host < d.ringSize i)

/-- Set the device's index of a ring, and its image in HIF_RING_STAT. -/
def Dev.setRingDev (d : Dev) (i k : Nat) : Dev :=
  (d.setRing i { d.ring i with dev := k }).setFld (Reg.hifRingStat_idx i) k

/-- Write host memory; only a HOSTED device does (R424). -/
def Dev.hostWrite (d : Dev) (addr : Nat) (bytes : List Byte) : Dev :=
  if d.hosted then d.out (.hostWrite addr bytes) else d

/-- Send an MSI-X vector, or set its pending bit while the vector is masked (R407). -/
def Dev.msix (d : Dev) (v : Nat) : Dev :=
  if (d.reg (Reg.msixTable v 3)).getLsbD 0 then
    d.setReg (Reg.msixPba 0) (d.reg (Reg.msixPba 0) ||| (1 <<< v))
  else (d.out (.msix v)).bump Cnt.msixSent

/-- Signal an entry written to ring `i` (R407). -/
def Dev.signal (d : Dev) (i : Nat) : Dev :=
  if !d.bit (Reg.hifRingCfg_irq_en i) then d
  else if d.fld (Reg.hifRingCfg_mod_us i) = 0 then d.msix (d.fld (Reg.hifRingCfg_vector i))
  else if (d.ring i).modWait then d
  else d.setRing i { d.ring i with modWait := true, modFrom := d.tim.cyc }

/-- Write the next entry of the completion or event ring with its PHASE in bit 7 of byte `pb` (R405). -/
def Dev.ringWrite (d : Dev) (i pb : Nat) (entry : List Byte) : Dev :=
  let k := (d.ring i).dev
  let e := patch entry pb [byte ((entry.getD pb 0).toNat + 128 * d.phase i k)]
  ((d.hostWrite (d.entryAddr i k) e).setRingDev i (k + 1)).signal i

/-- Halt a ring: HIF_RING_STAT[i].ERR and HIF_STAT.RING_ERR (R404). -/
def Dev.haltRing (d : Dev) (i : Nat) : Dev :=
  ((d.setRing i { d.ring i with halted := true }).raise (Reg.hifRingStat_err i)).raise Reg.hifStat_ring_err

/-! ## Events (R420, R421) -/

/-- DATA of an event from named bytes: each pair is an offset of the entry (8 to 31) and its bytes. -/
def evData (l : List (Nat × List Byte)) : List Byte :=
  l.foldl (fun e p => (patch e (p.1 - 8) p.2).take 24) (List.replicate 24 0)

/-- An event entry with PHASE 0 (R420). -/
def Dev.eventEntry (d : Dev) (ty code : Nat) (recov : Bool) (data : List Byte) : List Byte :=
  le 2 ty ++ [byte (64 * recov.toNat), byte code] ++ le 4 (d.sf * 1048576 + d.slot * 2048) ++ data

/-- The journal records an output of the active control pair (R334). -/
def Dev.record (d : Dev) (w : Written) : Dev := { d with hif := { d.hif with written := d.hif.written ++ [w] } }

/-- Write one event to the ring of the driver in charge. -/
def Dev.writeEvent (d : Dev) (e : List Byte) : Dev :=
  ((if d.hosted then d.ringWrite 2 2 e else d.out (.localEvent e)).bump Cnt.eventWritten).record (.event e)

/-- Can the driver in charge take an event now? A failed control pair's outputs are blocked until the takeover is done
(R335). -/
def Dev.eventRoom (d : Dev) : Bool :=
  d.tsk.takeover.isNone && if d.hosted then d.ringRoom 2 else d.devState == dsStandalone

/-- Write queued events while there is room; an EVENT_LOST entry goes ahead of them (R421). -/
def Dev.drainEvents : Nat → Dev → Dev
  | 0, d => d
  | n + 1, d =>
    if !d.eventRoom then d
    else if d.hif.lost ≠ 0 then
      let e := d.eventEntry 0x0012 0 false (evData [(12, le 4 d.hif.lost)])
      Dev.drainEvents n ({ d with hif := { d.hif with lost := 0 } }.writeEvent e)
    else match d.hif.eventQ with
      | [] => d
      | e :: t => Dev.drainEvents n ({ d with hif := { d.hif with eventQ := t } }.writeEvent e)

/-- The device produces an event (R420, R421): traced, queued, and written as room allows. -/
def Dev.eventR (d : Dev) (ty code : Nat) (recov : Bool) (l : List (Nat × List Byte)) : Dev :=
  let e := d.eventEntry ty code recov (evData l)
  let d := d.trace 2 e
  if d.hif.eventQ.length < 256 then
    Dev.drainEvents 258 { d with hif := { d.hif with eventQ := d.hif.eventQ ++ [e] } }
  else ({ d with hif := { d.hif with lost := d.hif.lost + 1 } }.bump Cnt.eventLost).raise Reg.hifStat_evt_lost

/-- An event without RECOVERY. -/
def Dev.event (d : Dev) (ty code : Nat) (l : List (Nat × List Byte)) : Dev := d.eventR ty code false l

/-- A VIOLATION event, at most once per code and party in a superframe (R199, R222, R314, R422). -/
def Dev.violation (d : Dev) (code party : Nat) (l : List (Nat × List Byte)) : Dev :=
  if d.sch.violSeen.contains (code, party) then d
  else { d with sch := { d.sch with violSeen := (code, party) :: d.sch.violSeen } }.event 0x0001 code l

/-! ## Completions (R408 to R411) -/

def stOk : Nat := 0
def stBadParam : Nat := 1
def stNoResource : Nat := 2
def stBusy : Nat := 3
def stNotSupported : Nat := 4
def stState : Nat := 5
def stTimeout : Nat := 6
def stFault : Nat := 7
def stCounterExhausted : Nat := 8
def stAuthFail : Nat := 9
def stVersion : Nat := 0xA
def stSynthNotReady : Nat := 0xB
def stCoexDenied : Nat := 0xC
def stInProgress : Nat := 0xD
def stOverflow : Nat := 0xE
def stPartnerViolation : Nat := 0xF

/-- A completion entry with PHASE 0 (Table 13.4). -/
def complEntry (c : Cmd) (status : Nat) (final : Bool) (result : Nat) : List Byte :=
  le 4 c.hdr.tag.toNat ++ le 2 c.opcode.toNat ++ [byte status, byte final.toNat] ++ le 8 result

/-- The CMD trace message of a completion (Table 17.6). -/
def complTrace (e : List Byte) : List Byte := slice e 4 2 ++ slice e 6 1 ++ [byte (beAt e 7 1 % 2)] ++ slice e 0 4

/-- Write one completion to the ring of the driver in charge; `k` is the command's index on ring 0. -/
def Dev.writeCompl (d : Dev) (e : List Byte) (k : Nat) : Dev :=
  let final := beAt e 7 1 % 2 == 1
  let d := if d.hosted then d.ringWrite 1 7 e else d.out (.localCompl e)
  let d := d.trace 5 (complTrace e)
  let d := (d.bump (if final then Cnt.cmdDone else Cnt.cmdInProgress)).record (.compl k final)
  if final && d.hosted then d.setRing 0 { d.ring 0 with back := (d.ring 0).back.filter (· != k) } else d

/-- Can the driver in charge take a completion now? -/
def Dev.complRoom (d : Dev) : Bool := d.tsk.takeover.isNone && if d.hosted then d.ringRoom 1 else true

/-- Write the completions that waited for room (R409). -/
def Dev.drainCompl : Nat → Dev → Dev
  | 0, d => d
  | n + 1, d =>
    if !d.complRoom then d
    else match d.hif.complQ with
      | [] => d
      | (e, k) :: t => Dev.drainCompl n ({ d with hif := { d.hif with complQ := t } }.writeCompl e k)

/-- The local host learns the status of the command that it waits for (R470). -/
def Dev.tellLocal (d : Dev) (c : Cmd) (status : Nat) : Dev :=
  match d.boot.localCur with
  | some x => if x.2 = c then { d with boot := { d.boot with localEnd := some status } } else d
  | none => d

/-- Complete a command: written as room allows; a command of a former driver completes without an entry (R424). -/
def Dev.completion (d : Dev) (c : Cmd) (status : Nat) (final : Bool) (result : Nat) : Dev :=
  let d := if final then d.tellLocal c status else d
  if c.epoch ≠ d.hif.epoch then d
  else Dev.drainCompl 64
    { d with hif := { d.hif with complQ := d.hif.complQ ++ [(complEntry c status final result, c.idx)] } }

/-- The final completion of a command. -/
def Dev.complete (d : Dev) (c : Cmd) (status result : Nat) : Dev := d.completion c status true result

/-- The final completion with STATE: counted, with a CMD_STATE event (R411). `radio` is the state of the named radio,
0xFF when none is named. -/
def Dev.refuseState (d : Dev) (c : Cmd) (radio : Nat) : Dev :=
  ((d.complete c stState 0).bump Cnt.cmdState).event 0x0003 0
    [(8, le 2 c.opcode.toNat), (12, le 4 c.hdr.tag.toNat), (16, [byte d.devState, byte radio])]

/-! ## Fetching a command (R401, R404, R409, R410, R425) -/

/-- Does the device fetch the command that stands first? Not outside STANDALONE and HOSTED, not during an activation
pause (R479), not with 16 D and L commands outstanding, not behind a
SCHED_WRITE that is held (R164), not while a completion waits for room; and, with an external
host, only an entry that a poll has shown. -/
def Dev.fetches (d : Dev) : Bool :=
  d.operating && !d.hif.fetchStop && !d.boot.paused && d.sch.held.isEmpty && decide (d.hif.runs.length < 16) && d.hif.complQ.isEmpty && d.complRoom &&
    (!d.hosted || (d.ringLive 0 && decide ((d.ring 0).dev < (d.ring 0).host)))

/-- Take the command from the ring. -/
def Dev.fetch (d : Dev) (op : Half) (h : CmdHdr) : Cmd × Dev :=
  let k := if d.hosted then (d.ring 0).dev else d.hif.localIdx
  let c : Cmd := ⟨op, h, k, d.hif.epoch⟩
  let d := { d with tsk := { d.tsk with journal := d.tsk.journal ++ [c] } }
  if d.hosted then (c, (d.setRingDev 0 (k + 1)).setRing 0 { (d.ring 0) with dev := k + 1, back := (d.ring 0).back ++ [k] })
  else (c, { d with hif := { d.hif with localIdx := k + 1 } })

/-- A host command: fetched and executed, or left on the ring. -/
def hostCmd (op : Half) (h : CmdHdr) (body : Cmd → Dev → Dev) (d : Dev) : Dev :=
  if d.fetches then let f := d.fetch op h; body f.1 f.2 else d

/-! ## Long and deferred commands (R410, R414) -/

/-- The status word of a long operation (Table 13.6). -/
def statusWord (r : Running) (status : Nat) : List Byte :=
  le 4 r.cmd.hdr.tag.toNat ++ [byte status, r.pct] ++ le 2 r.upd.toNat ++ le 4 r.part.toNat ++ le 4 0

/-- Write the status word of a running long operation; UPD counts the write. -/
def Dev.writeStatus (d : Dev) (r : Running) (status : Nat) : Running × Dev :=
  let r := { r with upd := r.upd + 1 }
  if r.cmd.hdr.statusAddr = 0 ∨ !r.long ∨ r.cmd.epoch ≠ d.hif.epoch then (r, d)
  else (r, d.hostWrite r.cmd.hdr.statusAddr.toNat (statusWord r status))

/-- Is a command of this opcode running? -/
def Dev.runningOp (d : Dev) (op : Half) : Option Running := d.hif.runs.find? fun r => r.cmd.opcode == op

/-- Start a deferred command: it is outstanding until it completes. -/
def Dev.startDeferred (d : Dev) (c : Cmd) : Dev :=
  { d with hif := { d.hif with runs := d.hif.runs ++ [⟨c, false, 0, 0, 0, 0⟩] } }

/-- Start a long operation: IN_PROGRESS completion and first status word. -/
def Dev.startLong (d : Dev) (c : Cmd) (result arg : Nat) : Dev :=
  let d := d.completion c stInProgress false result
  let s := d.writeStatus ⟨c, true, 0, 0, 0, arg⟩ stInProgress
  { s.2 with hif := { s.2.hif with runs := s.2.hif.runs ++ [s.1] } }

/-- Change a running operation's progress and write its status word (R414). -/
def Dev.progress (d : Dev) (op : Half) (pct part : Nat) : Dev :=
  match d.runningOp op with
  | none => d
  | some r =>
    let s := d.writeStatus { r with pct := byte pct, part := BitVec.ofNat 32 part } stInProgress
    { s.2 with hif := { s.2.hif with runs := s.2.hif.runs.map fun x => if x.cmd == r.cmd then s.1 else x } }

/-- Finish an outstanding command with its final status: the last status word, then the completion (R406, R414). -/
def Dev.finish (d : Dev) (c : Cmd) (status result : Nat) : Dev :=
  match d.hif.runs.find? fun r => r.cmd == c with
  | none => d
  | some r =>
    let r := if status = stOk then { r with pct := 100 } else r
    let s := d.writeStatus r status
    { s.2 with hif := { s.2.hif with runs := s.2.hif.runs.filter fun x => x.cmd != c } }.complete c status result

/-- Finish an outstanding command with STATE (R411). -/
def Dev.finishState (d : Dev) (c : Cmd) (radio : Nat) : Dev :=
  match d.hif.runs.find? fun r => r.cmd == c with
  | none => d
  | some r =>
    let s := d.writeStatus r stState
    { s.2 with hif := { s.2.hif with runs := s.2.hif.runs.filter fun x => x.cmd != c } }.refuseState c radio

/-- Begin a long operation unless its opcode already runs: then BUSY (R410). -/
def Dev.longOr (d : Dev) (c : Cmd) (k : Dev → Dev) : Dev :=
  if (d.runningOp c.opcode).isSome then d.complete c stBusy 0 else k d

/-! ## Radios -/

def Dev.radio (d : Dev) (r : RadioId) : Radio := match r with | 0 => d.r0 | 1 => d.r1 | 2 => d.r2
def Dev.setRadio (d : Dev) (r : RadioId) (x : Radio) : Dev :=
  match r with | 0 => { d with r0 := x } | 1 => { d with r1 := x } | 2 => { d with r2 := x }
def Dev.modRadio (d : Dev) (r : RadioId) (f : Radio → Radio) : Dev := d.setRadio r (f (d.radio r))

/-- The radios in order. -/
def radios : List RadioId := [0, 1, 2]

end Sys2Proof.Machine
end

