-- ==== Sys2Proof/Machine/Items.lean ====
section
/-! DEFINITION. Work items of chapter 10: the item pool and its parts, creation, readiness and dispatch to workers. -/

namespace Sys2Proof.Machine

/-- The class of a work item (Table 10.1). -/
def Work.cls : Work → Fin 8
  | .uplink _ => 0
  | .mesh _ _ => 1
  | .downlink _ => 2
  | .loadmap _ _ => 3
  | .linkmap _ _ => 3
  | .result _ _ => 4
  | .fwChunk _ _ => 5
  | .house => 6
  | .timer => 7
  | .message _ _ _ _ _ => 0
  | .lmReady _ _ _ => 3
  | .nothing => 7

/-- The flow tag of a flow key (R318). -/
def flowTag (key : Nat) : BitVec 10 := BitVec.ofNat 10 (key % 1024 ^^^ key / 1024 % 1024)

/-- The priority of a class (Table 10.7); 8 to 15 act as 7. -/
def Dev.priority (d : Dev) (c : Fin 8) : Nat := min 7 (bitsAt (d.cfg Reg.tskPriomap).toNat (4 * c) 4)

/-! ## The pool (R319, R320) -/

/-- Who asks for an item: AIR or MLADOL, DEVICE, an ETH port, or a HOST ring. -/
inductive ItemSrc where
  | air | device | eth (p : PortId) | host (ring : Nat)
  deriving DecidableEq, Repr

def Dev.airRsv (d : Dev) : Nat := min 3584 (d.cfgFld Reg.tskRsvcfg_air_rsv)
def Dev.devRsv (d : Dev) : Nat := min (3584 - d.airRsv) (d.cfgFld Reg.tskRsvcfg_dev_rsv)
def Dev.inPool (d : Dev) (p : Pool) : Nat := (d.tsk.items.filter fun i => i.pool == p).length

/-- What the air and the device part keep from the others: the reserve, or what they still hold of a larger one (R339). -/
def Dev.airPart (d : Dev) : Nat := max d.airRsv (d.inPool .air)
def Dev.devPart (d : Dev) : Nat := max d.devRsv (d.inPool .dev)

/-- The part of the pool that gives a source its next item; none when it finds none. A new split applies as items are
freed (R339). -/
def Dev.poolFor (d : Dev) (s : ItemSrc) : Option Pool :=
  let shared := if d.inPool .shared + d.airPart + d.devPart < 4096 then some Pool.shared else none
  match s with
  | .air => if d.inPool .air < d.airRsv ∧ d.inPool .air + d.inPool .shared + d.devPart < 4096 then some .air else shared
  | .device => if d.inPool .dev < d.devRsv ∧ d.inPool .dev + d.inPool .shared + d.airPart < 4096 then some .dev else shared
  | .eth _ => shared
  | .host _ => shared

/-- TSK_LEVEL shows the items held and the peak (R10). -/
def Dev.showLevel (d : Dev) : Dev :=
  let n := d.tsk.items.length
  let d := d.setFld Reg.tskLevel_in_use n
  let p := d.fld Reg.tskLevel_peak
  if p < n then { d with obs := { d.obs with peakWas := p } }.setFld Reg.tskLevel_peak n else d

/-! ## Dispatch (R322 to R324) -/

/-- Does TSK dispatch to a worker: not during an activation pause (R479), not to W6 to W15 in LEAN or on the way there
(R446), not to a worker in reset or retired? -/
def Dev.mayTake (d : Dev) (w : WorkerId) : Bool :=
  !d.boot.paused && (decide (w.val < 6) || (d.pwr.leanCmd.isNone && d.fld Reg.pwrState_state != 1)) &&
    decide (d.fld (Reg.tskWstat_state w) ≤ 1)

/-- May a worker run an item: ready, not waiting for its stage of the pipeline (R18), and not excluded by R329? -/
def Item.runs (i : Item) (w : WorkerId) : Bool := i.state == .ready && !i.staged && !i.excluded.contains w

/-- The worker that last ran an item's tag, leaving out the excluded ones (R323). -/
def Dev.lastRunner (d : Dev) (i : Item) : Option WorkerId :=
  match i.tag with
  | none => none
  | some t => (d.tsk.recent.find? fun p => p.2 == t && !i.excluded.contains p.1).map (·.1)

/-- A worker takes an item. -/
def Dev.give (d : Dev) (i : Item) (w : WorkerId) : Dev :=
  let d := d.bump (if d.lastRunner i = some w then Cnt.dispatchAffine else Cnt.dispatchOther)
  let d := { d with tsk := { d.tsk with
      items := d.tsk.items.map fun (x : Item) => if x.id = i.id then { x with state := .running w, since := d.tim.cyc } else x
      waiting := d.tsk.waiting.filter (· != w)
      recent := match i.tag with
        | some t => (w, t) :: d.tsk.recent.filter fun p => p != (w, t)
        | none => d.tsk.recent } }
  let d := d.setFld (Reg.tskWstat_state w) 1
  match i.tag with
  | some t => d.setFld (Reg.tskWstat_tag w) t.toNat
  | none => d

/-- The item an asking worker takes (R322). -/
def Dev.choose (d : Dev) (w : WorkerId) : Option Item :=
  let can := d.tsk.items.filter fun i => i.runs w && d.mayTake w
  let top := can.foldl (fun a i => max a i.prio) 0
  let l := can.filter fun i => i.prio == top
  match (l.take (d.cfgFld Reg.tskCfg_aff_window)).find? fun i => d.lastRunner i == some w with
  | some i => some i
  | none => l.head?

/-- A worker asks for an item: it takes one or waits. -/
def Dev.ask (d : Dev) (w : WorkerId) : Dev :=
  match d.choose w with
  | some i => d.give i w
  | none => { d with tsk := { d.tsk with waiting := d.tsk.waiting.filter (· != w) ++ [w] } }

/-- An item has become ready: a waiting worker that may run it takes it (R323). -/
def Dev.offer (d : Dev) (i : Item) : Dev :=
  let can := d.tsk.waiting.filter fun w => i.runs w && d.mayTake w
  match d.lastRunner i with
  | some w => if can.contains w then d.give i w else match can with | [] => d | v :: _ => d.give i v
  | none => match can with | [] => d | v :: _ => d.give i v

/-! ## Creation (R317, R318) -/

/-- Does an item wait for the next slot: what the decode and context stage of slot n + 1 creates is worked on in the delivery
stage, slot n + 2 (R18, Tables 1.4 and 10.3)? -/
def Work.isStaged (w : Work) : Bool :=
  match w with
  | .uplink _ => true
  | .loadmap _ _ => true
  | .linkmap _ _ => true
  | _ => false

/-- Create an item of a pool part, ready unless it goes to a delay list. -/
def Dev.newItem (d : Dev) (p : Pool) (key : Nat) (work : Work) (delayed : Option (Fin 8 × Nat)) : Dev :=
  let c := work.cls
  let i : Item :=
    { id := d.tsk.nextId, cls := c, prio := d.priority c, tag := if c = 6 then none else some (flowTag key), pool := p,
      state := (match delayed with | some x => .delayed x.1 x.2 | none => .ready),
      order := d.tsk.nextOrd, staged := work.isStaged, since := 0, excluded := [], work := work }
  let d := { d with tsk := { d.tsk with
    items := d.tsk.items ++ [i], nextId := d.tsk.nextId + 1, nextOrd := d.tsk.nextOrd + 1 } }
  let d := (d.bump Cnt.itemCreated).showLevel
  if delayed.isSome then d else d.offer i

/-- A source asks for an item; none when the pool has none for it (Table 10.2). -/
def Dev.create (d : Dev) (src : ItemSrc) (key : Nat) (work : Work) : Option Dev :=
  (d.poolFor src).map fun p => d.newItem p key work none

/-- The shared part ran out. -/
def Dev.noItem (d : Dev) : Dev := d.raise Reg.tskStat_shared_empty

/-- AIR and MLADOL: the message is dropped for lack of an item (R320). -/
def Dev.createAir (d : Dev) (key : Nat) (work : Work) : Dev :=
  match d.create .air key work with
  | some d => d
  | none => (d.noItem.raise Reg.tskStat_air_drop).bump Cnt.dropAir

/-- DEVICE: the composition is deferred to the next slot. -/
def Dev.createDev (d : Dev) (key : Nat) (work : Work) : Dev :=
  match d.create .device key work with
  | some d => d
  | none =>
    let d := (d.noItem.raise Reg.tskStat_dev_defer).bump Cnt.deferDev
    { d with tsk := { d.tsk with deferred := d.tsk.deferred ++ [(work, key)] } }

/-- Offer the ready items to the waiting workers again, the longest waiting first. -/
def Dev.dispatchAll (d : Dev) : Dev :=
  d.tsk.waiting.foldl (fun d w => match d.choose w with | some i => d.give i w | none => d) d

/-- An item becomes ready: it takes its place in its flow's order, and a waiting worker may take it (R323, R326). -/
def Dev.becomeReady (d : Dev) (i : Item) : Dev :=
  let i' := { i with state := ItemState.ready, staged := false, order := d.tsk.nextOrd }
  let d := { d with tsk := { d.tsk with
    items := d.tsk.items.filter (fun (j : Item) => j.id != i.id) ++ [i'], nextOrd := d.tsk.nextOrd + 1 } }
  d.offer i'

/-- A slot begins: the items that waited for it become ready, in the order of their creation (R18, Table 10.3). -/
def Dev.stageItems (d : Dev) : Dev := (d.tsk.items.filter fun i => i.staged).foldl Dev.becomeReady d

/-- The deferred compositions ask again at a slot tick. -/
def Dev.retryDeferred (d : Dev) : Dev :=
  let l := d.tsk.deferred
  l.foldl (fun d p => d.createDev p.2 p.1) { d with tsk := { d.tsk with deferred := [] } }

end Sys2Proof.Machine
end

