-- ==== Sys2Proof/Machine/Host.lean ====
section
/-! DEFINITION. The TX and RX rings of chapter 13: write-backs, the copies of a frame that a host sent, and messages
written to the host. -/

namespace Sys2Proof.Machine

/-! ## TX write-back (R416, R417) -/

/-- Write back bytes 24 to 27 of a TX descriptor (Table 13.8). A former driver's descriptor completes without a write-back
(R424). -/
def Dev.txDone (d : Dev) (ring index epoch status : Nat) (seq : Byte) : Dev :=
  let i := 16 + ring
  if epoch ≠ d.hif.epoch ∨ !d.hosted then d
  else
    let d := d.hostWrite (d.entryAddr i index + 24) [byte status, 0x80, seq, 0]
    let d := d.setRing i { d.ring i with back := (d.ring i).back.filter (· != index) }
    (d.bump Cnt.txDescDone).signal i

/-- A frame that a host sends leaves in `n` copies that count. -/
def Dev.txStart (d : Dev) (ring index n : Nat) : Dev :=
  { d with hif := { d.hif with tx := d.hif.tx ++ [⟨ring, index, d.hif.epoch, n, false, false⟩] } }

/-- The status of a FRAME descriptor whose copies have all ended. -/
def TxJob.status (j : TxJob) : Nat := if j.reached then stOk else if j.tooLong then stBadParam else stNoResource

/-- A copy of a message has ended: `ok` when it reached a port, a ring or TIM; `long` when it was dropped by R287. -/
def Dev.copyEnd (d : Dev) (src : FrameSrc) (ok long : Bool) : Dev :=
  match src with
  | .host ring index epoch =>
    let mine (j : TxJob) : Bool := j.ring == ring && j.index == index && j.epoch == epoch
    match d.hif.tx.find? mine with
    | none => d
    | some j =>
      let j' := { j with copies := j.copies - 1, reached := j.reached || ok, tooLong := j.tooLong || long }
      if j'.copies = 0 then
        { d with hif := { d.hif with tx := d.hif.tx.filter fun x => !mine x } }.txDone ring index epoch j'.status 0
      else { d with hif := { d.hif with tx := d.hif.tx.map fun x => if mine x then j' else x } }
  | _ => d

/-- TX_DESC: a host violation of a TX ring (Table 13.11). -/
def Dev.txViolation (d : Dev) (ring : Nat) : Dev :=
  (d.bump Cnt.vTxDesc).violation 0x51 (16 + ring) [(8, [byte (16 + ring)])]

/-! ## Ring violations (R404, R422) -/

/-- A host-memory access of a descriptor or buffer failed: the ring halts (DMA_ERROR). -/
def Dev.ringDmaError (d : Dev) (i : Nat) : Dev :=
  (((d.haltRing i).raise Reg.hifStat_dma_err).bump Cnt.vDmaError).violation 0x53 i [(8, [byte i])]

/-- A host-memory read of a command failed (R413, R422): FAULT, and nothing halts. -/
def Dev.cmdDmaError (d : Dev) (c : Cmd) : Dev :=
  ((((d.raise Reg.hifStat_dma_err).bump Cnt.vDmaError).violation 0x53 0 [(8, [0])])).complete c stFault 0

/-! ## RX rings (R418, R419) -/

/-- Bytes 8 to 31 of an RX descriptor as written back (Table 13.9). -/
def rxWriteBack (len kind : Nat) (trunc : Bool) (flags src : Byte) (reason rule sec ns gen : Nat) : List Byte :=
  le 2 len ++ [byte (128 + 16 * kind + 8 * trunc.toNat), flags, src, byte reason] ++ le 2 rule ++ le 4 sec ++ le 4 ns ++
    le 4 gen ++ [0, 0, 0, 0]

/-- The generation of a version slot (R260). -/
def Dev.genOf (d : Dev) (ver : Nat) : Nat := (Sparse.get 0 d.fwd.gens ver).toNat

/-- Write back the next RX descriptor of ring `i`. -/
def Dev.rxBack (d : Dev) (i : Nat) (rest : List RxPost) (b : List Byte) : Dev :=
  let k := (d.ring i).dev
  let d := d.hostWrite (d.entryAddr i k + 8) b
  let d := (d.setRing i { d.ring i with posts := rest }).setRingDev i (k + 1)
  (d.bump Cnt.rxDescDone).signal i

/-- Fill the posted descriptors of a ring with one message: an invalid one is written back and passed over; answers whether
the message was written. -/
def Dev.rxFill (d : Dev) (i : Nat) (m : RxMsg) : List RxPost → Dev × Bool
  | [] => (d.bump Cnt.dropRingFull, false)
  | p :: rest =>
    if p.len = 0 ∨ p.addr = 0 ∨ p.flags ≠ 0 then
      let d := d.rxBack i rest (rxWriteBack 0 m.kind true 0 0 0 0xFFFF 0 0 0)
      let d := (d.bump Cnt.vRxDesc).violation 0x52 i [(8, [byte i])]
      d.rxFill i m rest
    else
      let cut := decide (p.len.toNat < m.bytes.length)
      let b := m.bytes.take p.len.toNat
      let d := d.hostWrite p.addr.toNat b
      let d := if cut then d.bump Cnt.rxTrunc else d
      (d.rxBack i rest (rxWriteBack b.length m.kind cut m.flags m.src m.reason m.rule m.sec m.ns (d.genOf m.ver)), true)

/-- Write a message to RX ring `n` (R278, R418). In STANDALONE the local host takes it and discards it (R424, R470). -/
def Dev.rxWrite (d : Dev) (n : Nat) (m : RxMsg) : Dev × Bool :=
  let i := 32 + n
  if !d.hosted then ((d.out (.localMsg m.bytes)).bump Cnt.rxDescDone, true)
  else if !d.ringLive i then (d.bump Cnt.dropRingFull, false)
  else d.rxFill i m (d.ring i).posts

/-! ## Transmit stamps (R245) -/

/-- A stamp enters a port's queue of 64; answers whether it found room. -/
def Dev.stampPut (d : Dev) (p : PortId) (id : BitVec 16) (t : Int) : Dev × Bool :=
  let l := if p = 0 then d.tim.stamps0 else d.tim.stamps1
  if 64 ≤ l.length then
    ((d.bump Cnt.tsqOvf).raise (if p = 0 then Reg.timStat_tsq_ovf0 else Reg.timStat_tsq_ovf1), false)
  else
    let l := l ++ [(id, BitVec.ofInt 48 (t / 1000000000), BitVec.ofInt 30 (t % 1000000000))]
    (if p = 0 then { d with tim := { d.tim with stamps0 := l } } else { d with tim := { d.tim with stamps1 := l } }, true)

/-- Write one port's stamps to the event ring while it has room. -/
def Dev.drainStamps (p : PortId) : Nat → Dev → Dev
  | 0, d => d
  | n + 1, d =>
    if !d.eventRoom || !d.hif.eventQ.isEmpty then d
    else match (if p = 0 then d.tim.stamps0 else d.tim.stamps1) with
      | [] => d
      | (id, sec, ns) :: t =>
        let d := if p = 0 then { d with tim := { d.tim with stamps0 := t } } else { d with tim := { d.tim with stamps1 := t } }
        Dev.drainStamps p n
          (d.event 0x0002 0 [(8, [byte p]), (10, le 2 id.toNat), (16, le 6 sec.toNat), (24, le 4 ns.toNat)])

end Sys2Proof.Machine
end

