-- ==== Sys2Proof/Machine/Aes.lean ====
section
/-! DEFINITION. The block operations of Kaolin (R341: AES of FIPS 197), AES key wrap (R343: RFC 3394) and CCM (R359: NIST
SP 800-38C with an 8-byte tag and a 2-byte length field). -/

namespace Sys2Proof.Machine

/-- The S-box of FIPS 197. -/
def sbox : List Byte :=
  [0x63, 0x7c, 0x77, 0x7b, 0xf2, 0x6b, 0x6f, 0xc5, 0x30, 0x01, 0x67, 0x2b, 0xfe, 0xd7, 0xab, 0x76] ++
  [0xca, 0x82, 0xc9, 0x7d, 0xfa, 0x59, 0x47, 0xf0, 0xad, 0xd4, 0xa2, 0xaf, 0x9c, 0xa4, 0x72, 0xc0] ++
  [0xb7, 0xfd, 0x93, 0x26, 0x36, 0x3f, 0xf7, 0xcc, 0x34, 0xa5, 0xe5, 0xf1, 0x71, 0xd8, 0x31, 0x15] ++
  [0x04, 0xc7, 0x23, 0xc3, 0x18, 0x96, 0x05, 0x9a, 0x07, 0x12, 0x80, 0xe2, 0xeb, 0x27, 0xb2, 0x75] ++
  [0x09, 0x83, 0x2c, 0x1a, 0x1b, 0x6e, 0x5a, 0xa0, 0x52, 0x3b, 0xd6, 0xb3, 0x29, 0xe3, 0x2f, 0x84] ++
  [0x53, 0xd1, 0x00, 0xed, 0x20, 0xfc, 0xb1, 0x5b, 0x6a, 0xcb, 0xbe, 0x39, 0x4a, 0x4c, 0x58, 0xcf] ++
  [0xd0, 0xef, 0xaa, 0xfb, 0x43, 0x4d, 0x33, 0x85, 0x45, 0xf9, 0x02, 0x7f, 0x50, 0x3c, 0x9f, 0xa8] ++
  [0x51, 0xa3, 0x40, 0x8f, 0x92, 0x9d, 0x38, 0xf5, 0xbc, 0xb6, 0xda, 0x21, 0x10, 0xff, 0xf3, 0xd2] ++
  [0xcd, 0x0c, 0x13, 0xec, 0x5f, 0x97, 0x44, 0x17, 0xc4, 0xa7, 0x7e, 0x3d, 0x64, 0x5d, 0x19, 0x73] ++
  [0x60, 0x81, 0x4f, 0xdc, 0x22, 0x2a, 0x90, 0x88, 0x46, 0xee, 0xb8, 0x14, 0xde, 0x5e, 0x0b, 0xdb] ++
  [0xe0, 0x32, 0x3a, 0x0a, 0x49, 0x06, 0x24, 0x5c, 0xc2, 0xd3, 0xac, 0x62, 0x91, 0x95, 0xe4, 0x79] ++
  [0xe7, 0xc8, 0x37, 0x6d, 0x8d, 0xd5, 0x4e, 0xa9, 0x6c, 0x56, 0xf4, 0xea, 0x65, 0x7a, 0xae, 0x08] ++
  [0xba, 0x78, 0x25, 0x2e, 0x1c, 0xa6, 0xb4, 0xc6, 0xe8, 0xdd, 0x74, 0x1f, 0x4b, 0xbd, 0x8b, 0x8a] ++
  [0x70, 0x3e, 0xb5, 0x66, 0x48, 0x03, 0xf6, 0x0e, 0x61, 0x35, 0x57, 0xb9, 0x86, 0xc1, 0x1d, 0x9e] ++
  [0xe1, 0xf8, 0x98, 0x11, 0x69, 0xd9, 0x8e, 0x94, 0x9b, 0x1e, 0x87, 0xe9, 0xce, 0x55, 0x28, 0xdf] ++
  [0x8c, 0xa1, 0x89, 0x0d, 0xbf, 0xe6, 0x42, 0x68, 0x41, 0x99, 0x2d, 0x0f, 0xb0, 0x54, 0xbb, 0x16]

/-- Substitute one byte. -/
def sub (b : Byte) : Byte := sbox.getD b.toNat 0
/-- Substitute one byte backwards. -/
def invSub (b : Byte) : Byte := byte (sbox.findIdx fun x => x == b)

/-- Multiply by x in the field of AES. -/
def xtime (b : Byte) : Byte := (b <<< 1) ^^^ (if b.getLsbD 7 then 0x1b else 0)

/-- Multiply in the field of AES by a number below 16. -/
def gmul (k : Nat) (b : Byte) : Byte :=
  let b2 := xtime b
  let b4 := xtime b2
  let b8 := xtime b4
  (if k.testBit 0 then b else 0) ^^^ (if k.testBit 1 then b2 else 0) ^^^ (if k.testBit 2 then b4 else 0) ^^^
    (if k.testBit 3 then b8 else 0)

/-- One column times a circulant matrix. -/
def mixCol (m : Nat × Nat × Nat × Nat) (c : List Byte) : List Byte :=
  let a := c.getD 0 0
  let b := c.getD 1 0
  let x := c.getD 2 0
  let y := c.getD 3 0
  let row (p q r s : Nat) : Byte := gmul p a ^^^ gmul q b ^^^ gmul r x ^^^ gmul s y
  [row m.1 m.2.1 m.2.2.1 m.2.2.2, row m.2.2.2 m.1 m.2.1 m.2.2.1, row m.2.2.1 m.2.2.2 m.1 m.2.1,
    row m.2.1 m.2.2.1 m.2.2.2 m.1]

/-- MixColumns of a state in column order. -/
def mixCols (m : Nat × Nat × Nat × Nat) (s : List Byte) : List Byte :=
  mixCol m (slice s 0 4) ++ mixCol m (slice s 4 4) ++ mixCol m (slice s 8 4) ++ mixCol m (slice s 12 4)

/-- ShiftRows. -/
def shiftRows (s : List Byte) : List Byte :=
  [0, 5, 10, 15, 4, 9, 14, 3, 8, 13, 2, 7, 12, 1, 6, 11].map fun i => s.getD i 0
/-- ShiftRows backwards. -/
def invShiftRows (s : List Byte) : List Byte :=
  [0, 13, 10, 7, 4, 1, 14, 11, 8, 5, 2, 15, 12, 9, 6, 3].map fun i => s.getD i 0

/-- The next words of the key schedule: `w` holds those so far, newest first, `i` counts them. -/
def expandKey (nk : Nat) : Nat → Nat → Byte → List (List Byte) → List (List Byte)
  | 0, _, _, w => w
  | n + 1, i, rc, w =>
    let t := w.headD []
    let back := w.getD (nk - 1) []
    if i % nk = 0 then
      let t := (t.drop 1 ++ t.take 1).map sub
      let t := xorBytes t [rc, 0, 0, 0]
      expandKey nk n (i + 1) (xtime rc) (xorBytes back t :: w)
    else if 6 < nk ∧ i % nk = 4 then expandKey nk n (i + 1) rc (xorBytes back (t.map sub) :: w)
    else expandKey nk n (i + 1) rc (xorBytes back t :: w)

/-- The words of a key of 4·nk bytes, newest first. -/
def keyWords (nk : Nat) (key : List Byte) : List (List Byte) :=
  ((List.range nk).map fun i => slice key (4 * i) 4).reverse

/-- The round keys of a key of 16 or 32 bytes, first round first. -/
def roundKeys (key : List Byte) : List (List Byte) :=
  let nk := key.length / 4
  let n := 4 * (nk + 7)
  let w := (expandKey nk (n - nk) nk 1 (keyWords nk key)).reverse
  (List.range (nk + 7)).map fun r =>
    w.getD (4 * r) [] ++ w.getD (4 * r + 1) [] ++ w.getD (4 * r + 2) [] ++ w.getD (4 * r + 3) []

/-- The rounds of a block encryption. -/
def encRounds : List (List Byte) → List Byte → List Byte
  | [], s => s
  | [k], s => xorBytes (shiftRows (s.map sub)) k
  | k :: t, s => encRounds t (xorBytes (mixCols (2, 3, 1, 1) (shiftRows (s.map sub))) k)

/-- ENCRYPT of one 16-byte block (R341). -/
def aesEnc (key block : List Byte) : List Byte :=
  match roundKeys key with
  | [] => block
  | k :: t => encRounds t (xorBytes block k)

/-- The rounds of a block decryption, last round key first. -/
def decRounds : List (List Byte) → List Byte → List Byte
  | [], s => s
  | [k], s => xorBytes ((invShiftRows s).map invSub) k
  | k :: t, s => decRounds t (mixCols (14, 11, 13, 9) (xorBytes ((invShiftRows s).map invSub) k))

/-- DECRYPT of one 16-byte block (R341). -/
def aesDec (key block : List Byte) : List Byte :=
  match (roundKeys key).reverse with
  | [] => block
  | k :: t => decRounds t (xorBytes block k)

/-! ## Key wrap (RFC 3394) -/

/-- The default initial value. -/
def wrapIv : List Byte := List.replicate 8 0xA6

/-- One step t of the wrap on A and the registers R. -/
def wrapStep (kek : List Byte) (s : List Byte × List (List Byte)) (t : Nat) : List Byte × List (List Byte) :=
  let n := s.2.length
  let i := (t - 1) % n
  let b := aesEnc kek (s.1 ++ s.2.getD i [])
  (xorBytes (b.take 8) (be 8 t), s.2.set i (b.drop 8))

/-- Wrap a key of 8·n bytes. -/
def keyWrap (kek key : List Byte) : List Byte :=
  let n := key.length / 8
  let r := (List.range n).map fun i => slice key (8 * i) 8
  let s := ((List.range (6 * n)).map (· + 1)).foldl (wrapStep kek) (wrapIv, r)
  s.1 ++ s.2.flatten

/-- One step t of the unwrap. -/
def unwrapStep (kek : List Byte) (s : List Byte × List (List Byte)) (t : Nat) : List Byte × List (List Byte) :=
  let n := s.2.length
  let i := (t - 1) % n
  let b := aesDec kek (xorBytes s.1 (be 8 t) ++ s.2.getD i [])
  (b.take 8, s.2.set i (b.drop 8))

/-- Unwrap a key; none when the integrity check fails. -/
def keyUnwrap (kek wrap : List Byte) : Option (List Byte) :=
  let n := wrap.length / 8 - 1
  let r := (List.range n).map fun i => slice wrap (8 * i + 8) 8
  let s := (((List.range (6 * n)).map (· + 1)).reverse).foldl (unwrapStep kek) (wrap.take 8, r)
  if s.1 = wrapIv then some s.2.flatten else none

/-! ## CCM (R359) -/

/-- CBC-MAC over bytes padded to whole blocks, looking at no more than `n` blocks. -/
def cbcMac (key : List Byte) : Nat → List Byte → List Byte → List Byte
  | 0, x, _ => x
  | n + 1, x, m => if m = [] then x else cbcMac key n (aesEnc key (xorBytes x (fit 16 m))) (m.drop 16)

/-- The whole blocks of `n` bytes. -/
def blocksOf (n : Nat) : Nat := (n + 15) / 16

/-- The MAC input: B0, the associated data with its length, the plaintext. -/
def macInput (nonce aad plain : List Byte) : List Byte :=
  (0x59 :: nonce ++ be 2 plain.length) ++ padTo 16 (be 2 aad.length ++ aad) ++ padTo 16 plain

/-- The key stream block A_i. -/
def ctrBlock (key nonce : List Byte) (i : Nat) : List Byte := aesEnc key (0x01 :: nonce ++ be 2 i)

/-- Encrypt or decrypt with blocks A_i onward. -/
def ctrRun (key nonce : List Byte) : Nat → Nat → List Byte → List Byte
  | 0, _, _ => []
  | n + 1, i, m => if m = [] then [] else xorBytes (m.take 16) (ctrBlock key nonce i) ++ ctrRun key nonce n (i + 1) (m.drop 16)

/-- The 8-byte tag. -/
def ccmTag (key nonce aad plain : List Byte) : List Byte :=
  let m := macInput nonce aad plain
  xorBytes ((cbcMac key (blocksOf m.length) (List.replicate 16 0) m).take 8) (ctrBlock key nonce 0)

/-- Ciphertext and tag. -/
def ccmSeal (key nonce aad plain : List Byte) : List Byte :=
  ctrRun key nonce (blocksOf plain.length) 1 plain ++ ccmTag key nonce aad plain

/-- The plaintext, and whether the tag matches. -/
def ccmOpen (key nonce aad body : List Byte) : List Byte × Bool :=
  let n := body.length - 8
  let p := ctrRun key nonce (blocksOf n) 1 (body.take n)
  (p, decide (8 ≤ body.length) && ccmTag key nonce aad p == body.drop n)

/-- Kaolin blocks that one CCM pass takes: the CBC-MAC's and the key stream's. -/
def ccmBlocks (aad n : Nat) : Nat := 1 + blocksOf (aad + 2) + blocksOf n + 1 + blocksOf n

/-- The associated data of a frame: its header with RETRY as 0, and for MESH the Mladol header (R359). -/
def ccmAad (m : List Byte) (mladol : Nat) : List Byte :=
  patch (m.take (10 + mladol)) 6 [(m.getD 6 0) &&& 0x7F]

end Sys2Proof.Machine
end

