-- ==== Sys2Proof/Machine/Keys.lean ====
section
/-! DEFINITION. The key store of Kaolin (chapter 11): slots, sensor key records, counters, and the CCM passes that a worker
builds from block operations. -/

namespace Sys2Proof.Machine

/-- The bytes of a key. -/
def keyBytes (key : BitVec 256) (aes256 : Bool) : List Byte := be (if aes256 then 32 else 16) key.toNat
/-- The device key's bytes (R343). -/
def deviceKey : List Byte := be 32 Config.deviceKey.toNat

def Dev.kslot (d : Dev) (i : Nat) : Option KeySlot := Sparse.get none d.kao.slots i
/-- The slots that hold a key. -/
def Dev.loadedSlots (d : Dev) : Nat := (d.kao.slots.filter fun p => p.2.isSome).length
/-- The key slots that requests in the engine name (R348). -/
def Dev.slotsInUse (d : Dev) : List Nat := (d.kao.queue.map (·.slotNo)).eraseDups
/-- KAO_SLOTS and KAO_LOCK show the engine (Tables 11.7, 11.9). -/
def Dev.showKao (d : Dev) : Dev :=
  let d := (d.setFld Reg.kaoSlots_loaded d.loadedSlots).setFld Reg.kaoSlots_inuse d.slotsInUse.length
  let d := (d.setBit Reg.kaoLock_held d.kao.lock.isSome).setFld Reg.kaoLock_waiters d.kao.lockQ.length
  match d.kao.lock with
  | some o => d.setFld Reg.kaoLock_owner o
  | none => d
def Dev.setKslot (d : Dev) (i : Nat) (k : Option KeySlot) : Dev :=
  { d with kao := { d.kao with slots := Sparse.put none d.kao.slots i k } }.showKao

/-- Entry `e` of a sensor's key record. -/
def Dev.keyRec (d : Dev) (sidx e : Nat) : Option KeyRec := Sparse.get none d.kao.records (2 * sidx + e)
def Dev.setKeyRec (d : Dev) (sidx e : Nat) (k : Option KeyRec) : Dev :=
  { d with kao := { d.kao with records := Sparse.put none d.kao.records (2 * sidx + e) k } }
/-- The entry that holds a KEYIDX. -/
def Dev.findRec (d : Dev) (sidx keyidx : Nat) : Option (Nat × KeyRec) :=
  [0, 1].findSome? fun e => match d.keyRec sidx e with
    | some k => if k.keyidx = keyidx then some (e, k) else none
    | none => none

/-- The cache slot that holds a sensor's key. -/
def Dev.findKey (d : Dev) (sidx keyidx : Nat) : Option Nat :=
  (d.kao.slots.find? fun p => match p.2 with
    | some k => k.holds == some (sidx, keyidx)
    | none => false).map (·.1)

/-- A slot is used now (R348). -/
def Dev.touch (d : Dev) (i : Nat) : Dev :=
  match d.kslot i with
  | none => d
  | some k =>
    let d := { d with kao := { d.kao with useClock := d.kao.useClock + 1 } }
    d.setKslot i (some { k with used := d.kao.useClock })

/-- The cache slot that a load takes: a free one, else the least recently used that is not in use (R348). -/
def Dev.victim (d : Dev) : Option Nat :=
  let cache := (List.range 256).filter fun i => decide (d.kao.pinned ≤ i)
  match cache.find? fun i => (d.kslot i).isNone && !d.slotsInUse.contains i with
  | some i => some i
  | none =>
    let use (i : Nat) : Nat := match d.kslot i with | some k => k.used | none => 0
    let l := cache.filter fun i => !d.slotsInUse.contains i
    l.foldl (fun a i => match a with
      | none => some i
      | some j => if use i < use j then some i else some j) none

/-- Write a cache slot's C back to its record (R348). -/
def Dev.writeBackC (d : Dev) (i : Nat) : Dev :=
  match d.kslot i with
  | some k =>
    match k.holds with
    | some (s, x) => match d.findRec s x with
      | some (e, r) => d.setKeyRec s e (some { r with ctr := k.ctr })
      | none => d
    | none => d
  | none => d

/-- The key that an entry of a record wraps; none when the integrity check fails (R347). -/
def KeyRec.unwrap (r : KeyRec) : Option (BitVec 256) :=
  (keyUnwrap deviceKey (r.wrap.take (if r.aes256 then 40 else 24))).map fun b => BitVec.ofNat 256 (ofBe b)

/-- What asking for a sensor's key gives (R347, R348). -/
inductive KeyAns where
  | ok (slot : Nat) | noEntry | corrupt | wait
  deriving DecidableEq, Repr

/-- KEY_CORRUPT (R347). -/
def Dev.keyCorrupt (d : Dev) (sidx keyidx : Nat) : Dev :=
  ((d.bump Cnt.unwrapFail).raise Reg.kaoStat_key_corrupt).event 0x000C 0
    [(8, [byte keyidx]), (12, le 4 sidx)]

/-- A request waits for a free slot: counted once (R348). -/
def Dev.keyWaits (d : Dev) (sidx keyidx : Nat) : Dev :=
  if d.kao.keyWaits.contains (sidx, keyidx) then d
  else { d with kao := { d.kao with keyWaits := (sidx, keyidx) :: d.kao.keyWaits } }.bump Cnt.keyWait

/-- Find a sensor's key in the cache, or load it from its record. -/
def Dev.loadKey (d : Dev) (sidx keyidx : Nat) : Dev × KeyAns :=
  match d.findKey sidx keyidx with
  | some i => (d.touch i, .ok i)
  | none =>
    match d.findRec sidx keyidx with
    | none => (d, .noEntry)
    | some (_, r) =>
      match r.unwrap with
      | none => (d.keyCorrupt sidx keyidx, .corrupt)
      | some k =>
        match d.victim with
        | none => (d.keyWaits sidx keyidx, .wait)
        | some i =>
          let d := if (d.kslot i).isSome then (d.writeBackC i).bump Cnt.keyEvict else d
          let d := d.setKslot i (some ⟨k, r.aes256, r.ctr, r.hostUse, some (sidx, keyidx), 0⟩)
          let d := { d with kao := { d.kao with keyWaits := d.kao.keyWaits.filter (· != (sidx, keyidx)) } }
          ((d.bump Cnt.keyLoad).touch i, .ok i)

/-! ## Counters (R350 to R352) -/

/-- DATA of the key events: the key of a slot. -/
def Dev.keyData (d : Dev) (i : Nat) : List (Nat × List Byte) :=
  match (d.kslot i).bind (·.holds) with
  | some (s, x) => [(8, [1]), (10, [byte x]), (12, le 4 s)]
  | none => [(8, [0]), (9, [byte i])]

/-- A key's C has taken a value: COUNTER_MARK at a multiple of the interval (R352). -/
def Dev.markC (d : Dev) (c : Nat) (data : List (Nat × List Byte)) : Dev :=
  if c % 2 ^ (8 + d.kao.markLog) = 0 then
    (d.bump Cnt.ctrMark).event 0x000E 0 (data ++ [(16, le 6 c)])
  else d

/-- Draw a slot's counter; none when it is exhausted (R350, R351). -/
def Dev.drawC (d : Dev) (i : Nat) : Dev × Option Nat :=
  match d.kslot i with
  | none => (d, none)
  | some k =>
    if k.ctr = BitVec.allOnes 48 then
      (((d.bump Cnt.ctrExhausted).raise Reg.kaoStat_ctr_exh).event 0x000D 0 (d.keyData i), none)
    else
      let d := d.setKslot i (some { k with ctr := k.ctr + 1 })
      (d.markC (k.ctr.toNat + 1) (d.keyData i), some k.ctr.toNat)

/-! ## CCM passes -/

/-- The key of a slot. -/
def Dev.slotKey (d : Dev) (i : Nat) : List Byte := match d.kslot i with | some k => keyBytes k.key k.aes256 | none => []

/-- Blocks go through the lanes: counted, and RNG_STALE after 2^24 without a successful reseed (R358). -/
def Dev.lanes (d : Dev) (dec : Bool) (n : Nat) : Dev :=
  let d := d.bumpBy (if dec then Cnt.blockDec else Cnt.blockEnc) n
  let d := { d with kao := { d.kao with sinceSeed := d.kao.sinceSeed + n, sinceTry := d.kao.sinceTry + n } }
  if 16777216 ≤ d.kao.sinceSeed then d.raise Reg.kaoStat_rng_stale else d

/-- Protect a frame: ciphertext and tag (R359). -/
def Dev.seal (d : Dev) (i : Nat) (nonce aad plain : List Byte) : Dev × List Byte :=
  (d.lanes false (ccmBlocks aad.length plain.length), ccmSeal (d.slotKey i) nonce aad plain)

/-- Check a frame: plaintext and whether the tag matched. -/
def Dev.unseal (d : Dev) (i : Nat) (nonce aad body : List Byte) : Dev × List Byte × Bool :=
  let o := ccmOpen (d.slotKey i) nonce aad body
  let d := d.lanes false (ccmBlocks aad.length (body.length - 8))
  (if o.2 then d.bump Cnt.ccmOk else d, o)

/-- The nonce of an uplink: the first slot of the transmission, and member 0's cell (Table 11.3). -/
def nonceUp (addr : Nat) (s : Int) (chan subch : Nat) : List Byte :=
  0x00 :: be 3 addr ++ be 6 (s % 281474976710656).toNat ++ be 2 (chan * 128 + subch) ++ [0x00]
/-- The nonce of a downlink (0x01) or a Mladol frame (0x02 to the child, 0x03 to the parent). -/
def nonceC (kind : Byte) (addr c keyidx : Nat) : List Byte :=
  kind :: be 3 addr ++ be 6 c ++ [byte keyidx, 0x00, 0x00]

end Sys2Proof.Machine
end

