-- ==== Sys2Proof/Machine/Sched.lean ====
section
/-! DEFINITION. The grant tables of chapter 05: rows and cells, the checks of a commit, occupancy and protected
admission, the remap of a failed radio's rows, and the rotation table. -/

namespace Sys2Proof.Machine

/-! ## Rows and cells (R157, R158) -/

def emptyRow : Row := ⟨0, 0, 0, 0, []⟩
def rowIdle : BitVec 3 := 0
def rowUp : BitVec 3 := 1
def rowDown : BitVec 3 := 2
def rowMesh : BitVec 3 := 3
def rowWake : BitVec 3 := 4
def rowWakeCont : BitVec 3 := 5

def ckEmpty : BitVec 3 := 0
def ckUplink : BitVec 3 := 1
def ckDownlink : BitVec 3 := 2
def ckRa : BitVec 3 := 3
def ckBeacon : BitVec 3 := 4
def ckCont : BitVec 3 := 5
def ckJrsp : BitVec 3 := 6

/-- Row of a radio and slot in a table. -/
def rowAt (t : Sparse Row) (r slot : Nat) : Row := Sparse.get emptyRow t (r * 512 + slot)

/-- A row header from its little-endian bytes (Table 5.1, R7). -/
def readRowHdr (b : List Byte) : Row :=
  let v := ofLe b
  ⟨BitVec.ofNat 9 (v >>> 23), BitVec.ofNat 3 (v >>> 20), BitVec.ofNat 13 (v >>> 7), BitVec.ofNat 7 v, []⟩

/-- A cell entry from its little-endian bytes (Table 5.2). -/
def readCell (b : List Byte) : CellEntry :=
  let v := ofLe b
  { kind := BitVec.ofNat 3 (v >>> 61), subch := BitVec.ofNat 7 (v >>> 54), train := BitVec.ofNat 4 (v >>> 50),
    stripe := BitVec.ofNat 3 (v >>> 47), member := BitVec.ofNat 2 (v >>> 45), rotLog2 := BitVec.ofNat 4 (v >>> 41),
    rotBase := BitVec.ofNat 22 (v >>> 19), rsv := BitVec.ofNat 19 v }

/-- The cells of a row, packed after its header. -/
def readCells : Nat → List Byte → List CellEntry
  | 0, _ => []
  | n + 1, b => readCell (b.take 8) :: readCells n (b.drop 8)

/-- `n` rows packed in a buffer; none when they run past it (Table 13.5). -/
def readRows : Nat → List Byte → Option (List Row)
  | 0, _ => some []
  | n + 1, b =>
    let h := readRowHdr (b.take 4)
    let nc := h.ncell.toNat
    if b.length < 4 + 8 * nc then none
    else (readRows n (b.drop (4 + 8 * nc))).map fun t => { h with cells := readCells nc (b.drop 4) } :: t

/-- Train length of a cell. -/
def CellEntry.len (c : CellEntry) : Nat := c.train.toNat + 1
/-- The cells of a row other than EMPTY. -/
def Row.used (w : Row) : List CellEntry := w.cells.filter fun c => c.kind != ckEmpty
/-- The row's CONT cell on a subchannel. -/
def Row.contOn (w : Row) (s : BitVec 7) : Option CellEntry := w.cells.find? fun c => c.kind == ckCont && c.subch == s
/-- The row's non-EMPTY cell on a subchannel. -/
def Row.cellOn (w : Row) (s : Nat) : Option CellEntry := w.used.find? fun c => c.subch.toNat == s

/-! ## Rotation (R160) -/

/-- Entries of the rotation table: Full or Compact. -/
def Dev.fullConf (d : Dev) : Bool := d.bit Reg.dmcCfg_conf
def Dev.rotSize (d : Dev) : Nat := if d.fullConf then 4194304 else 1048576
/-- Sensor indices of the configuration (Table 12.1). -/
def Dev.maxSensors (d : Dev) : Nat := if d.fullConf then 1048576 else 262144

/-- The rotation entry of a cell in superframe `f`; one that DRAM could not deliver acts as invalid (Table 12.3). -/
def Dev.rotEntry (d : Dev) (c : CellEntry) (f : Nat) : Word :=
  let i := c.rotBase.toNat + f % 2 ^ c.rotLog2.toNat
  if d.dmc.rotLost.contains i then 0 else Sparse.get 0 d.sch.rot i

/-- The owner of a cell in superframe `f`: VALID set, and not a broadcast cell, which BCAST makes of a DOWNLINK cell only. -/
def Dev.cellOwner (d : Dev) (c : CellEntry) (f : Nat) : Option Nat :=
  let w := d.rotEntry c f
  if w.getLsbD 31 && !(c.kind == ckDownlink && w.getLsbD 30) then some (w.toNat % 1048576) else none

/-- Is a DOWNLINK cell a broadcast cell in superframe `f`? -/
def Dev.cellBcast (d : Dev) (c : CellEntry) (f : Nat) : Bool :=
  let w := d.rotEntry c f
  w.getLsbD 31 && w.getLsbD 30

/-! ## Channels (R125 to R128) -/

/-- The configuration of a channel index. -/
def Dev.chan (d : Dev) (i : Nat) : Option ChanCfg := Sparse.get none d.chans i
/-- Is the entry of a channel index valid on a radio? -/
def Dev.entryValid (d : Dev) (r : RadioId) (i : Nat) : Bool := (Sparse.get none (d.radio r).entries i).isSome

/-- Radio states (Table 4.8). -/
def rsOff : Nat := 0
def rsIdle : Nat := 1
def rsCalibrating : Nat := 2
def rsReady : Nat := 3
def rsRunning : Nat := 4
def rsFailed : Nat := 5
def Dev.rfState (d : Dev) (r : RadioId) : Nat := d.fld (Reg.rfStat_state r)
def Dev.rfReadyRun (d : Dev) (r : RadioId) : Bool := d.rfState r == rsReady || d.rfState r == rsRunning

/-- Is a channel index configured, and valid on every radio in READY or RUNNING (R128, R183)? -/
def Dev.chanValid (d : Dev) (i : Nat) : Bool :=
  (d.chan i).isSome && radios.all fun r => !d.rfReadyRun r || d.entryValid r i

/-- Does a row transmit on a channel index? -/
def Row.uses (w : Row) (i : Nat) : Bool := w.type != rowIdle && w.chan.toNat == i

/-- Is the high-band port the one for a frequency (R120)? -/
def highBand (freq : Nat) : Bool := decide (1300000000 ≤ freq)
def Dev.chanHigh (d : Dev) (i : Nat) : Bool := match d.chan i with | some c => highBand c.freq.toNat | none => false

/-- Does a channel of this mode centred on FREQ lie within one port's carrier range (R126)? -/
def freqFits (freq : Nat) (mode : Fin 3) : Bool :=
  let h := modeWidth mode / 2
  (decide (340000000 + h ≤ freq) && decide (freq + h ≤ 1050000000)) ||
    (decide (1300000000 + h ≤ freq) && decide (freq + h ≤ 2700000000))

/-! ## Structure of a table (Table 5.4, first row) -/

/-- The subchannels of a row's channel; 96 where the index is not configured, which the second check refuses. -/
def Dev.rowSubch (d : Dev) (w : Row) : Nat := match d.chan w.chan.toNat with | some c => modeSubch c.mode | none => 96

/-- Kind against row type and train length (Table 5.3). -/
def kindLegal (type : BitVec 3) (c : CellEntry) : Bool :=
  if c.kind = ckEmpty then true
  else if c.kind = ckUplink then type == rowUp
  else if c.kind = ckRa then type == rowUp && c.len == 2
  else if c.kind = ckDownlink then type == rowDown
  else if c.kind = ckBeacon then type == rowDown && c.len == 4
  else if c.kind = ckJrsp then type == rowDown && decide (4 ≤ c.len)
  else if c.kind = ckCont then type == rowUp || type == rowDown
  else false

/-- STRIPE and MEMBER of one cell (R161). -/
def stripeLegal (c : CellEntry) : Bool :=
  stripeValid c.stripe && (c.stripe != 1 || c.member == 0) && decide (c.member.toNat < stripeCount c.stripe) &&
    (c.stripe == 1 || c.kind == ckUplink || c.kind == ckDownlink || c.kind == ckCont)

/-- ROT_LOG2 and ROT_BASE of a cell with an owner (R160). -/
def Dev.rotLegal (d : Dev) (c : CellEntry) : Bool :=
  if c.kind = ckUplink ∨ c.kind = ckDownlink then
    decide (c.rotLog2.toNat ≤ 12) && c.rotBase.toNat % 2 ^ c.rotLog2.toNat == 0 &&
      decide (c.rotBase.toNat + 2 ^ c.rotLog2.toNat ≤ d.rotSize)
  else decide (c.rotLog2.toNat ≤ 12)

/-- One cell alone. Every cell with STRIPE = 0b001 carries MEMBER = 0, an EMPTY one too (R161). -/
def Dev.cellLegal (d : Dev) (w : Row) (c : CellEntry) : Bool :=
  c.rsv == 0 && kindLegal w.type c &&
    (if c.kind = ckEmpty then c.stripe != 1 || c.member == 0 else decide (c.subch.toNat < d.rowSubch w) && stripeLegal c && d.rotLegal c)

/-- No two used cells on one subchannel. -/
def distinctSubch : List CellEntry → Bool
  | [] => true
  | c :: t => t.all (fun x => x.subch != c.subch) && distinctSubch t

/-- The rows that continue a train have its CONT cells; those of a stripe carry its rotation too (R159, R161). -/
def trainLegal (t : Sparse Row) (r slot : Nat) (w : Row) (c : CellEntry) : Bool :=
  decide (slot + c.len ≤ 512) &&
    (List.range (c.len - 1)).all fun k =>
      let x := rowAt t r (slot + k + 1)
      x.type == w.type && x.chan == w.chan &&
        match x.contOn c.subch with
        | some e => e.train == c.train && e.stripe == c.stripe && e.member == c.member &&
            (c.stripe == 1 || (e.rotLog2 == c.rotLog2 && e.rotBase == c.rotBase))
        | none => false

/-- A CONT cell lies within a train that began earlier. -/
def contLegal (t : Sparse Row) (r slot : Nat) (c : CellEntry) : Bool :=
  (List.range 15).any fun k =>
    decide (k + 1 ≤ slot) &&
      match (rowAt t r (slot - (k + 1))).cellOn c.subch.toNat with
      | some e => e.kind != ckCont && decide (k + 1 < e.len)
      | none => false

/-- The WAKE rows and their WAKE_CONT rows (R157). -/
def wakeLegal (t : Sparse Row) (r slot : Nat) (w : Row) : Bool :=
  if w.type = rowWake then
    decide (slot < 510) && [1, 2].all fun k =>
      let x := rowAt t r (slot + k)
      x.type == rowWakeCont && x.chan == w.chan
  else if w.type = rowWakeCont then
    [1, 2].any fun k => decide (k ≤ slot) && (rowAt t r (slot - k)).type == rowWake &&
      (k == 1 || (rowAt t r (slot - 1)).type == rowWakeCont)
  else true

/-- The enabled links of the device as last written: number, channel and role; of several PARENT links only the
lowest-numbered counts (R202, R203). -/
def linksOf (word : Nat → Word) : List (Nat × Nat × Bool) :=
  let l := ((List.range 8).filter fun i => (word i).getLsbD 31).map fun i =>
    (i, (word i).toNat % 512, (word i).getLsbD 30)
  let first := (l.find? fun x => x.2.2).map (·.1)
  l.filter fun x => !x.2.2 || first == some x.1

def Dev.writtenLinks (d : Dev) : List (Nat × Nat × Bool) := linksOf fun i => d.reg (Reg.mshLink i)
def Dev.links (d : Dev) : List (Nat × Nat × Bool) := linksOf fun i => d.cfg (Reg.mshLink i)

/-- The number of a MESH row of a channel within the superframe, over all radios (R204). -/
def meshIndex (t : Sparse Row) (chan slot : Nat) : Nat :=
  (t.filter fun p => p.2.type == rowMesh && p.2.chan.toNat == chan && decide (p.1 % 512 < slot)).length

/-- A MESH row: no cells, the channel of an enabled link, and before a child-to-parent row of the parent link an IDLE row
(R203, R205). -/
def Dev.meshLegal (d : Dev) (t : Sparse Row) (r slot : Nat) (w : Row) : Bool :=
  if w.type = rowMesh then
    w.ncell == 0 &&
      match d.writtenLinks.find? fun x => x.2.1 == w.chan.toNat with
      | none => false
      | some x => !x.2.2 || meshIndex t w.chan.toNat slot % 2 == 0 ||
          (decide (0 < slot) && (rowAt t r (slot - 1)).type == rowIdle)
  else true

/-- The members of a striped cell's stripe in the same row of every radio (R161). -/
def stripeMembers (t : Sparse Row) (slot : Nat) (c : CellEntry) : List (Nat × Row × CellEntry) :=
  (List.range 3).flatMap fun r =>
    let w := rowAt t r slot
    ((w.used.filter fun x => x.kind == c.kind && x.train == c.train && x.stripe == c.stripe &&
      x.rotLog2 == c.rotLog2 && x.rotBase == c.rotBase)).map fun x => (r, w, x)

/-- The members present are those of the mask, on different radios, with MEMBER ascending in carrier frequency. -/
def Dev.stripeSetLegal (d : Dev) (t : Sparse Row) (slot : Nat) (c : CellEntry) : Bool :=
  if c.stripe = 1 ∨ c.kind = ckCont then true
  else
    let l := stripeMembers t slot c
    let freq (w : Row) : Nat := match d.chan w.chan.toNat with | some x => x.freq.toNat | none => 0
    l.length == stripeCount c.stripe &&
      l.all fun x => l.all fun y =>
        (x == y) || (x.1 != y.1 && x.2.2.member != y.2.2.member &&
          (decide (x.2.2.member.toNat < y.2.2.member.toNat) == decide (freq x.2.1 < freq y.2.1)))

/-- One row of a table. -/
def Dev.rowLegal (d : Dev) (t : Sparse Row) (k : Nat) (w : Row) : Bool :=
  let r := k / 512
  let slot := k % 512
  w.rsv == 0 && decide (w.type.toNat ≤ 5) && decide (w.ncell.toNat ≤ 64) && distinctSubch w.used &&
    wakeLegal t r slot w && d.meshLegal t r slot w &&
    w.cells.all fun c => d.cellLegal w c &&
      (if c.kind = ckEmpty then true
       else if c.kind = ckCont then contLegal t r slot c
       else trainLegal t r slot w c && d.stripeSetLegal t slot c)

/-- The pending tables keep the structure that the first row of Table 5.4 asks. -/
def Dev.tableLegal (d : Dev) (t : Sparse Row) : Bool := t.all fun p => d.rowLegal t p.1 p.2

/-- Every channel named is valid on every radio in READY or RUNNING. -/
def Dev.tableChannels (d : Dev) (t : Sparse Row) : Bool :=
  t.all fun p => p.2.type == rowIdle || d.chanValid p.2.chan.toNat

/-- A table that holds any row other than IDLE. -/
def tableTransmits (t : Sparse Row) : Bool := t.any fun p => p.2.type != rowIdle

/-! ## Occupancy and admission (R165, R166) -/

/-- Cell positions of one row. -/
def rowOcc (w : Row) : Nat :=
  if w.type = rowMesh ∨ w.type = rowWake ∨ w.type = rowWakeCont then 64 else w.used.length

/-- O_r. -/
def occupancy (t : Sparse Row) (r : Nat) : Nat :=
  (t.filter fun p => p.1 / 512 == r).foldl (fun a p => a + rowOcc p.2) 0

/-- Is row `slot` joined to the row before it: by a CONT cell or as WAKE_CONT? -/
def joined (t : Sparse Row) (r slot : Nat) : Bool :=
  let w := rowAt t r slot
  w.type == rowWakeCont || w.used.any fun c => c.kind == ckCont

/-- First row of the run that holds a row (R166). -/
def runStart (t : Sparse Row) (r : Nat) : Nat → Nat
  | 0 => 0
  | s + 1 => if joined t r (s + 1) then runStart t r s else s + 1

/-- Rows of the run from its first row on, looking at most `n` rows ahead. -/
def runLen (t : Sparse Row) (r slot : Nat) : Nat → Nat
  | 0 => 1
  | n + 1 => if slot + 1 < 512 ∧ joined t r (slot + 1) then runLen t r (slot + 1) n + 1 else 1

/-- Is a radio IDLE in every row of a run? -/
def idleRun (t : Sparse Row) (y start n : Nat) : Bool :=
  (List.range n).all fun k => (rowAt t y (start + k)).type == rowIdle

/-- Protected admission (R166). -/
def admitted (t : Sparse Row) : Bool :=
  ([0, 1, 2].all fun r => decide (occupancy t r ≤ 21845)) &&
    t.all fun p =>
      let r := p.1 / 512
      let slot := p.1 % 512
      p.2.type == rowIdle || joined t r slot ||
        [0, 1, 2].any fun y => y != r && idleRun t y slot (runLen t r slot 511)

/-! ## The remap (R167, R168, R492 to R494) -/

/-- Does a remap cover a row of its radio: the whole radio, or the port of the row's channel? -/
def Dev.remapCovers (d : Dev) (m : Remap) (w : Row) : Bool :=
  w.type != rowIdle && (m.ports == 0 || (if d.chanHigh w.chan.toNat then m.ports.getLsbD 1 else m.ports.getLsbD 0))

/-- The remap that takes a radio's row away from it. -/
def Dev.remapOf (d : Dev) (r : RadioId) (w : Row) : Option Remap :=
  d.sch.remaps.find? fun m => m.radio == r && d.remapCovers m w

/-- A MESH row whose channel matches no enabled link in force is treated as IDLE (R203). -/
def Dev.rowInForce (d : Dev) (w : Row) : Row :=
  if w.type = rowMesh ∧ (d.links.all fun x => x.2.1 != w.chan.toNat) then emptyRow else w

/-- The device as the boundary before slot count `s` leaves it: swapped tables, staged rotation writes, the registers
that change at it, and the remaps that end at it (R24, R26). For the present superframe it is the device itself. -/
def Dev.viewAt (d : Dev) (s : Int) : Dev :=
  if s / 512 ≤ d.tim.slotS / 512 then d
  else
    let swap := d.bit Reg.schCommit_pending && decide (d.sch.target ≤ s / 512)
    let d := if swap then d.setBit Reg.schCommit_prot_active d.sch.protPend else d
    let d := { d with sch := { d.sch with
      active := if swap then d.sch.pending else d.sch.active
      rot := d.sch.staged.foldl (fun (t : Sparse Word) (p : Nat × Word) => Sparse.put 0 t p.1 p.2) d.sch.rot
      remaps := d.sch.remaps.filter fun m => if m.ports = 0 then !d.rfReadyRun m.radio else !m.ending } }
    d.applyBoundary .superframe

/-- A radio's own row in a slot number. -/
def Dev.ownRow (d : Dev) (r : RadioId) (slot : Nat) : Row := d.rowInForce (rowAt d.sch.active r slot)

/-- The radio that carries a failed radio's run: the lowest-numbered other radio in READY or RUNNING that is IDLE for the
whole run; none under unprotected admission (R167, R168). -/
def Dev.carrierOf (d : Dev) (r : RadioId) (slot : Nat) : Option RadioId :=
  if !d.bit Reg.schCommit_prot_active then none
  else
    let st := runStart d.sch.active r slot
    let n := runLen d.sch.active r st 511
    radios.find? fun y => y != r && d.rfReadyRun y && idleRun d.sch.active y st n

/-- The rows of slot count `s` that are remapped: the radio, its row, and its carrier. A radio carries one row: of two
that name it, the lower-numbered failed radio's (DESIGN CHOICE, log entry 67). Before its first carried slot a remap carries nothing
(R492). -/
def Dev.remapped (d : Dev) (s : Int) : List (RadioId × Row × Option RadioId) :=
  let d := d.viewAt s
  let slot := slotOf s
  let l := radios.filterMap fun r =>
    let w := d.ownRow r slot
    (d.remapOf r w).map fun m => (r, w, if m.firstS ≤ s then d.carrierOf r slot else none)
  l.map fun x => (x.1, x.2.1,
    if (l.find? fun y => y.2.2.isSome && y.2.2 == x.2.2).map (·.1) == some x.1 then x.2.2 else none)

/-- The row that a radio carries in slot count `s`: its own unless it is remapped, or one that it carries for another. -/
def Dev.rowCarried (d : Dev) (r : RadioId) (s : Int) : Row :=
  let d := d.viewAt s
  let w := d.ownRow r (slotOf s)
  if w.type = rowIdle then
    match (d.remapped s).find? fun x => x.2.2 == some r with
    | some x => x.2.1
    | none => emptyRow
  else if (d.remapOf r w).isSome then emptyRow else w

/-- The owner of a cell in slot count `s`. -/
def Dev.ownerAt (d : Dev) (c : CellEntry) (s : Int) : Option Nat := (d.viewAt s).cellOwner c (sfOf s)
/-- Is a DOWNLINK cell a broadcast cell in slot count `s`? -/
def Dev.bcastAt (d : Dev) (c : CellEntry) (s : Int) : Bool := (d.viewAt s).cellBcast c (sfOf s)
/-- The number of a MESH row of a channel within its superframe. -/
def Dev.meshIndexAt (d : Dev) (chan : Nat) (s : Int) : Nat := meshIndex (d.viewAt s).sch.active chan (slotOf s)
/-- The enabled links in force in slot count `s`. -/
def Dev.linksAt (d : Dev) (s : Int) : List (Nat × Nat × Bool) := (d.viewAt s).links

/-- Does a radio have grant cells or rows of its own in a table? -/
def hasRows (t : Sparse Row) (r : Nat) : Bool := t.any fun p => p.1 / 512 == r && p.2.type != rowIdle

/-- Does a radio carry rows of another in the superframe? -/
def Dev.carriesAny (d : Dev) (y : RadioId) : Bool :=
  d.sch.remaps.any fun m => m.radio != y &&
    d.sch.active.any fun p => p.1 / 512 == m.radio.val && d.remapCovers m p.2 &&
      d.carrierOf m.radio (p.1 % 512) == some y

/-! ## SCH registers in force -/

def Dev.ageMax (d : Dev) : Nat := orElse0 (d.cfgFld Reg.schDlcfg_age_max) 1
def Dev.nofitMax (d : Dev) : Nat := orElse0 (d.cfgFld Reg.schDlcfg_nofit_max) 1
def Dev.lmResend (d : Dev) : Nat := orElse0 (d.cfgFld Reg.schDlcfg_lm_resend) 1
def Dev.qdepth (d : Dev) : Nat := orElse0 (d.cfgFld Reg.schDlcfg_qdepth) 1
def Dev.retryMax (d : Dev) : Nat := d.cfgFld Reg.schDlcfg_retry_max
def Dev.boMax (d : Dev) : Nat := min 10 (d.cfgFld Reg.schRacfg_bo_max)
def Dev.boMin (d : Dev) : Nat := min (d.cfgFld Reg.schRacfg_bo_min) d.boMax
def Dev.joinGap (d : Dev) : Nat := orElse0 (d.cfgFld Reg.schRacfg_join_gap) 1

/-- JOIN_OPEN (R170): JOIN_EN, and the parent link in neither HOLDOVER nor SEARCH. -/
def Dev.joinOpen (d : Dev) : Bool := d.cfgBit Reg.schRacfg_join_en && decide (d.fld Reg.mshStat_state < 2)

/-! ## Sensors (R58, R177, R189) -/

/-- The context of a sensor at join: version 0, the floor BPSK map (R189). -/
def emptySensor : SensorCtx :=
  ⟨0, [], false, ⟨0, false, 0, []⟩, none, none, 0, [], none, 0, 0, [], 0, [], none, false, 0, none, false⟩
def Dev.sensor (d : Dev) (i : Nat) : SensorCtx := Sparse.get emptySensor d.sch.sensors i
def Dev.setSensor (d : Dev) (i : Nat) (x : SensorCtx) : Dev :=
  { d with sch := { d.sch with sensors := Sparse.put emptySensor d.sch.sensors i x } }
def Dev.modSensor (d : Dev) (i : Nat) (f : SensorCtx → SensorCtx) : Dev := d.setSensor i (f (d.sensor i))

/-! ## Links (R202) -/

/-- The link map at the start: version 0, floor BPSK on every subchannel. -/
def emptyLink : Link :=
  ⟨[], none, false, 0, ⟨0, false, 0, []⟩, none, none, 0, [], none, none, 0, 0xFFFF, [], ⟨0, false, 0, []⟩⟩
def Dev.link (d : Dev) (l : Nat) : Link := Sparse.get emptyLink d.msh.links l
def Dev.setLink (d : Dev) (l : Nat) (x : Link) : Dev :=
  { d with msh := { d.msh with links := Sparse.put emptyLink d.msh.links l x } }
def Dev.modLink (d : Dev) (l : Nat) (f : Link → Link) : Dev := d.setLink l (f (d.link l))
/-- The parent link in force: its number and channel. -/
def Dev.parentLink (d : Dev) : Option (Nat × Nat) := (d.links.find? fun x => x.2.2).map fun x => (x.1, x.2.1)

/-- The channel on which a row goes out: the parent link's rows follow MSH_STAT.CUR_CHAN (R217). -/
def Dev.airChan (d : Dev) (w : Row) : Nat :=
  match d.parentLink with
  | some (_, c) => if w.type = rowMesh ∧ w.chan.toNat = c then d.fld Reg.mshStat_cur_chan else w.chan.toNat
  | none => w.chan.toNat

/-- Does a row belong to the parent link? -/
def Dev.parentRowOf (d : Dev) (w : Row) : Bool :=
  match d.parentLink with
  | some (_, c) => w.type == rowMesh && w.chan.toNat == c
  | none => false

/-- The channel of the search receiver on the search radio (R217): in SEARCH, in slots whose row is IDLE or the parent
link's. -/
def Dev.searchChan (d : Dev) (r : RadioId) (w : Row) : Option Nat :=
  if d.fld Reg.mshStat_state = 3 ∧ d.msh.searchRadio = r ∧ (w.type = rowIdle ∨ d.parentRowOf w = true) then
    some (d.cfgFld (Reg.mshParch_chan (d.fld Reg.mshStat_search_idx)))
  else none

/-- Does a radio carry cells in slot `s` (R151, Table 4.8): RUNNING, or READY and about to run? -/
def Dev.willRun (d : Dev) (r : RadioId) (s : Int) : Bool :=
  d.rfState r == rsRunning || (d.rfState r == rsReady &&
    ((decide (d.tim.slotS / 512 < s / 512) && hasRows (d.viewAt s).sch.active r) ||
      (d.remapped s).any fun x => x.2.2 == some r))

end Sys2Proof.Machine
end

