-- ==== Sys2Proof/Machine/Time.lean ====
section
/-! DEFINITION. The time unit of chapter 07: the clock, the slot tick, the servo, steps of the clock and of the tick,
and PPS. -/

namespace Sys2Proof.Machine

/-! ## The clock (R226, R227) -/

/-- Set the clock to a TAI nanosecond count; the fraction becomes 0. -/
def Dev.setTai (d : Dev) (t : Int) : Dev :=
  { d with tim := { d.tim with sec := BitVec.ofInt 48 (t / 1000000000), ns := BitVec.ofInt 30 (t % 1000000000), frac := 0 } }

/-- y as a signed number in units of 2^−40 (TIM_FREQ_EST). -/
def Dev.freqY (d : Dev) : Int := toSigned 32 (d.reg Reg.timFreqEst).toNat

/-- Nearest integer to n / m, halves away from zero; `m` is positive. -/
def roundDiv (n m : Int) : Int :=
  let a : Int := ((2 * n.natAbs + m.natAbs) / (2 * m.natAbs) : Nat)
  if 0 ≤ n then a else -a

/-- The increment 2.5 ns × (1 − y′) with y′ = y / (1 + y) + p, in 8.32 fixed point (R227). -/
def increment (y p : Int) : BitVec 40 :=
  let m : Int := 1099511627776
  BitVec.ofInt 40 (roundDiv (10737418240 * (m * m - p * (m + y))) (m * (m + y)))

/-- FREQ / (1 + y), rounded to the nearest hertz (R135). -/
def Dev.carrierWord (d : Dev) (freq : Nat) : Nat :=
  (roundDiv ((freq : Int) * 1099511627776) (1099511627776 + d.freqY)).toNat

/-- The absolute count of the slot whose tick comes next: the first that begins after the present instant and not before
the end of an air break (R16, R17, R239). -/
def Dev.nextS (d : Dev) : Int :=
  let t := d.tai + 1
  let t := match d.tim.noTickBefore with | some n => max t n | none => t
  Int.neg (((d.tim.offset : Int) - t) / 2500000)

/-- The TAI nanosecond count at which slot `s` begins. -/
def Dev.tickTai (d : Dev) (s : Int) : Int := s * 2500000 + d.tim.offset

/-- The count of the present slot in the numbering that the next tick continues: between a step that renumbers the slots and
that tick it differs from `slotS` (R239, R241). -/
def Dev.curS (d : Dev) : Int := d.nextS - 1

/-- Fabric cycles until the clock reads `t`. -/
def Dev.cyclesTo (d : Dev) (t : Int) : Nat :=
  ((t - d.tai).toNat * 4294967296 - d.tim.frac.toNat) / d.tim.inc.toNat

/-- Time passes until the clock reads `t`. -/
def Dev.advanceTo (d : Dev) (t : Int) : Dev :=
  let n := d.cyclesTo t
  let d := d.setTai t
  { d with tim := { d.tim with cyc := d.tim.cyc + n } }

/-- One fabric cycle: the clock adds the increment, unless that reached the next slot tick, which is a command
(DESIGN CHOICE, log entry 2). -/
def Dev.cycle (d : Dev) : Dev :=
  let v := d.tim.ns.toNat * 4294967296 + d.tim.frac.toNat + d.tim.inc.toNat
  let ns := v / 4294967296
  let t : Int := (d.tim.sec.toNat : Int) * 1000000000 + ns
  if d.tickTai d.nextS ≤ t then d
  else
    { d with tim := { d.tim with
        sec := if 1000000000 ≤ ns then d.tim.sec + 1 else d.tim.sec,
        ns := BitVec.ofNat 30 (ns % 1000000000), frac := BitVec.ofNat 32 v, elapsed := d.tim.elapsed + 1,
        cyc := d.tim.cyc + 1 } }

/-- Let time pass to a fabric cycle; none when the next slot tick, which is a command, comes first. -/
def Dev.reachCycle (d : Dev) (c : Nat) : Option Dev :=
  if c ≤ d.tim.cyc then some d
  else
    let n := c - d.tim.cyc
    let v := d.tim.ns.toNat * 4294967296 + d.tim.frac.toNat + n * d.tim.inc.toNat
    let t : Int := (d.tim.sec.toNat : Int) * 1000000000 + (v / 4294967296 : Nat)
    if d.tickTai d.nextS ≤ t then none
    else
      let x := d.setTai t
      some { x with tim := { x.tim with frac := BitVec.ofNat 32 v, elapsed := d.tim.elapsed + n, cyc := c } }

/-- What falls due at a fabric cycle: the clock moves there. A command that comes while the next slot tick lies before that
cycle is not due, and does nothing (DESIGN CHOICE, log entry 210). -/
def Dev.due (d : Dev) (c : Nat) (k : Dev → Dev) : Dev := match d.reachCycle c with | some d => k d | none => d

/-- What falls due at the first fabric cycle at which the clock reads `t` TAI nanoseconds or more. -/
def Dev.dueTai (d : Dev) (t : Int) (k : Dev → Dev) : Dev :=
  let n := ((t - d.tai).toNat * 4294967296 - d.tim.frac.toNat + d.tim.inc.toNat - 1) / d.tim.inc.toNat
  if t ≤ d.tai then k d else d.due (d.tim.cyc + n) k

/-- Fabric cycles in a microsecond, a millisecond and a second. -/
def cyclesPerUs : Nat := 400
def cyclesPerMs : Nat := 400000
def cyclesPerS : Nat := 400000000

/-! ## Servo (R229 to R236) -/

def svFreerun : Nat := 0
def svAcquiring : Nat := 1
def svLocked : Nat := 2
def svHoldover : Nat := 3

def Dev.servo (d : Dev) : Nat := d.fld Reg.timStat_state

/-- May PPS_OUT be high: in mode 1, and in mode 2 while LOCKED (R248)? -/
def Dev.ppsOutOn (d : Dev) : Bool :=
  let m := d.fld Reg.timPpscfg_out_mode
  m == 1 || (m == 2 && d.servo == svLocked)

/-- Where PPS_OUT may not be high it is low (R248). -/
def Dev.ppsOutGate (d : Dev) : Dev := if d.ppsOutOn then d else { d with pins := { d.pins with ppsOut := false } }

/-- Move the servo, counting entries to LOCKED and HOLDOVER (Table 7.15); HOLDOVER and FREERUN take p = 0. -/
def Dev.setServo (d : Dev) (s : Nat) : Dev :=
  if d.servo = s then d
  else
    let d := d.setFld Reg.timStat_state s
    let d := if s = svLocked then d.bump Cnt.lockGain else if s = svHoldover then d.bump Cnt.holdoverIn else d
    let slew := if s = svHoldover ∨ s = svFreerun then 0 else d.tim.slew
    let d := { d with tim := { d.tim with slew := slew, lockRun := 0, awayRun := 0, fresh := d.tim.fresh || s == svFreerun } }
    (if s = svFreerun then d.setReg Reg.timFreqEst 0 else d).ppsOutGate

/-- The source in force: 4 and above act as 0 (Table 7.1). -/
def Dev.timeSrc (d : Dev) : Nat := let s := d.cfgFld Reg.timSrccfg_src; if s ≤ 3 then s else 0
def Dev.trackEn (d : Dev) : Bool := d.cfgBit Reg.mshCfg_track_en
def Dev.jumpLimit (d : Dev) : Nat := min 1000000000 (d.cfgFld Reg.timJumpLimit_limit)
def Dev.stepMin (d : Dev) : Nat := d.cfgFld Reg.timServocfg_step_min
def Dev.lockThr (d : Dev) : Nat := d.cfgFld Reg.timSrccfg_lock_thr
/-- The largest |p|, in units of 2^−40: SLEW_MAX × 0.1 ppm. -/
def Dev.slewMax (d : Dev) : Nat := orElse0 (d.cfgFld Reg.timServocfg_slew_max) 1 * 1099511627776 / 10000000

/-- TIM_OFFSET, saturating. -/
def Dev.setOffset (d : Dev) (theta : Int) : Dev :=
  d.setReg Reg.timOffset (BitVec.ofInt 32 (clampInt (-2147483648) 2147483647 theta))

/-- Is a TIME_FORCE step waiting (R236)? -/
def Dev.forceWaits (d : Dev) : Bool := match d.tim.step with | some s => s.force.isSome | none => false

/-- The runs of Table 7.3: 16 consecutive offsets within LOCK_THR lock, 16 beyond it while LOCKED unlock. -/
def Dev.lockRuns (d : Dev) (theta : Int) : Dev :=
  let near := decide (theta.natAbs ≤ d.lockThr)
  let l := if near then d.tim.lockRun + 1 else 0
  let a := if near then 0 else d.tim.awayRun + 1
  let d := { d with tim := { d.tim with lockRun := min l 16, awayRun := min a 16 } }
  if d.servo = svAcquiring ∧ 16 ≤ l then d.setServo svLocked
  else if d.servo = svLocked ∧ 16 ≤ a then d.setServo svAcquiring
  else d

/-- A valid offset: slewed or stepped (R233), and y refined. -/
def Dev.takeOffset (d : Dev) (theta : Int) : Dev :=
  let d := (d.bump Cnt.offsetValid).setOffset theta
  let d := d.setReg Reg.timFreqEst (Config.freqEst d.freeCtr)
  let d := { d with freeCtr := d.freeCtr + 1, tim := { d.tim with blocked := false, measAt := d.tim.cyc } }
  let d := if d.servo = svFreerun ∨ d.servo = svHoldover then d.setServo svAcquiring else d
  let d := d.lockRuns theta
  if theta.natAbs < d.stepMin then
    let m : Int := min d.slewMax (Config.slewMag theta.natAbs)
    { d with tim := { d.tim with slew := if 0 ≤ theta then m else -m } }
  else { d with tim := { d.tim with step := some ⟨-theta, none⟩ } }

/-- A measured offset (R233 to R236); none is handled during a takeover (Table 10.4). `ptp` names the port and clockIdentity
of a PTP source. -/
def Dev.measure (d : Dev) (theta : Int) (ptp : Option (Nat × BitVec 64)) : Dev :=
  if d.forceWaits || d.tsk.takeover.isSome then d
  else if d.jumpLimit < theta.natAbs ∧ ¬(d.tim.fresh = true) then
    let d := ((d.raise Reg.timStat_jump_refused).bump Cnt.stepRefused).setOffset theta
    let d := { d with tim := { d.tim with blocked := true } }
    match ptp with
    | none => d
    | some (p, id) =>
      (d.bump Cnt.vPtpJump).violation 0x30 0
        [(8, [byte p]), (16, le 8 id.toNat), (24, signedLe 4 (clampInt (-2147483648) 2147483647 theta))]
  else d.takeOffset theta

/-- TIME_FORCE SET or ACCEPT schedules its step; a servo step that waits is dropped (R236). -/
def Dev.forceStep (d : Dev) (c : Cmd) (delta : Int) : Dev :=
  let d := d.startDeferred c
  { d with tim := { d.tim with step := some (Step.mk delta (some c)), slew := 0 } }

/-- The servo leaves LOCKED for HOLDOVER (R232). -/
def Dev.servoLoss (d : Dev) : Dev := if d.servo = svLocked then d.setServo svHoldover else d

/-- SERVO_LOSS_TIMEOUT: LOSS_TO seconds have passed since the last valid measurement (R232). -/
def Dev.servoTimeout (d : Dev) : Dev :=
  d.due (d.tim.measAt + orElse0 (d.cfgFld Reg.timServocfg_loss_to) 1 * cyclesPerS) Dev.servoLoss

/-! ## Steps (R237 to R242) -/

/-- A row that a step may not divide from the slot before it: one that continues a train or a WAKE pattern, or a
child-to-parent row of the device's parent link (R237). -/
def Dev.rowContinues (d : Dev) (r : RadioId) (s : Int) : Bool :=
  let w := d.rowCarried r s
  w.type == rowWakeCont || (w.used.any fun c => c.kind == ckCont) ||
    (w.type == rowMesh && d.meshIndexAt w.chan.toNat s % 2 == 1 &&
      (d.linksAt s).any fun x => x.2.2 && x.2.1 == w.chan.toNat)

/-- Is period 15 of the present slot TG on every radio, with nothing continuing across the next tick? -/
def Dev.tgFree (d : Dev) : Bool :=
  d.slot == 511 || radios.all fun r => !d.rowContinues r (d.tim.slotS + 1)

/-- A difference of offsets folded into −1,250,000 to +1,249,999 ns (R241). -/
def foldOffset (f : Int) : Int := (f + 1250000) % 2500000 - 1250000

/-- A command that marks an instant moves the clock to it, where the instant has not passed and comes before the next slot tick
(DESIGN CHOICE, log entry 210). -/
def Dev.reachTai (d : Dev) (t : Int) : Dev :=
  if t ≤ d.tai ∨ d.tickTai d.nextS ≤ t then d
  else
    let n := d.cyclesTo t
    let d := d.advanceTo t
    { d with tim := { d.tim with elapsed := d.tim.elapsed + n } }

/-- At the start of TG the clock stands 2,343.75 µs after the tick: a command that marks an instant moves it there. -/
def Dev.reachTg (d : Dev) : Dev :=
  let t := d.tickTai d.tim.slotS + 2343750
  if t ≤ d.tai then d
  else
    let d := d.advanceTo t
    { d with tim := { d.tim with elapsed := 937500 } }

/-- Apply the waiting step and the waiting offset change as one step Δ (R237): the clock takes the step, the tick also
the offset change, which moves every later tick later by the difference (R241; DEDUCED sign, log entry 43). Any step of the clock ends the
freedom from the jump limit that FREERUN gives (R234), and moves the arrivals of frames that wait for their delivery on the
clock's scale. -/
def Dev.applySteps (d : Dev) : Dev :=
  if (d.tim.step.isNone && d.tim.offStep.isNone) || !d.tgFree then d
  else
    let dc : Int := match d.tim.step with | some s => s.delta | none => 0
    let off := d.tim.offStep.getD d.tim.offset
    let delta := dc - foldOffset ((off : Int) - d.tim.offset)
    let force := d.tim.step.bind (·.force)
    let d := if dc = 0 then d else d.setTai (d.tai + dc)
    let tim : Tim := { d.tim with
      step := none, offStep := none, offset := off, fresh := d.tim.fresh && d.tim.step.isNone
      ptpOfs := d.tim.ptpOfs.map (· + dc), ppsOutS := if dc < 0 then none else d.tim.ppsOutS
      timingHold := if 15625 < delta.natAbs then 3 else d.tim.timingHold }
    let rxQ := d.msh.rxQ.map fun (x : Rx) => { x with e := x.e + 1000 * dc }
    let d := { d with tim := tim, msh := { d.msh with rxQ := rxQ } }
    let d := (d.bump Cnt.stepApplied).raise Reg.timStat_stepped
    let d := if 31250 < delta.natAbs then
        ({ d with tim := { d.tim with noTickBefore := some (d.tai + 156250) } }.bump Cnt.airBreak).raise
          Reg.timStat_air_break
      else d
    match force with
    | none => d
    | some c =>
      let d := d.bump Cnt.timeForce
      let d := if d.servo = svLocked ∨ d.servo = svHoldover then d.setServo svAcquiring else d
      d.finish c stOk 0

/-- A write to TIM_SLOT_OFFSET schedules the change (R241); larger values act as 2,499,999. -/
def Dev.slotOffsetWritten (d : Dev) : Dev :=
  let v := min 2499999 (d.fld Reg.timSlotOffset_offset)
  { d with tim := { d.tim with offStep := if v = d.tim.offset then none else some v } }

/-- Enter the slot whose tick comes next: the clock stands at its beginning, and slots passed over are counted (R239,
R241). -/
def Dev.enterSlot (d : Dev) : Dev :=
  let s := d.nextS
  let skip := (s - d.tim.slotS - 1).toNat
  let d := d.advanceTo (d.tickTai s)
  let d := { d with tim := { d.tim with slotS := s, elapsed := 0, noTickBefore := none, tgBegun := false } }
  let d := if skip = 0 then d else d.bumpBy Cnt.slotsSkipped skip
  d.setFld Reg.schCommit_cur_sf d.sf

/-- At a slot tick the servo sets the increment, with p within SLEW_MAX in force; with no source and no parent link it runs free (R227, Table 7.3). -/
def Dev.servoTick (d : Dev) : Dev :=
  let d := if d.timeSrc = 0 ∧ !d.trackEn then d.setServo svFreerun else d
  let m : Int := d.slewMax
  let p := clampInt (-m) m d.tim.slew
  { d with tim := { d.tim with slew := p, inc := increment d.freqY p } }

/-! ## PPS (R229, R247, R248) -/

/-- An offset folded into −500,000,000 to +499,999,999 ns. -/
def foldSecond (t : Int) : Int := (t + 500000000) % 1000000000 - 500000000

/-- Is an edge of PPS_IN accepted, of a pulse of `width` nanoseconds, `gap` fabric cycles after the last accepted edge
(R247)? -/
def Dev.ppsAccepts (d : Dev) (width gap : Nat) : Bool :=
  decide (100 ≤ width) &&
    (!d.tim.ppsSeen || decide (2000 * cyclesPerMs ≤ gap) || (decide (999 * cyclesPerMs ≤ gap) && decide (gap ≤ 1001 * cyclesPerMs)))

/-- θ at an accepted edge of PPS_IN: the nanoseconds less IN, folded; with SRC = 2 the whole seconds come from the last PTP
exchange, none before the first (Table 7.1; DESIGN CHOICE, log entry 193). -/
def Dev.ppsTheta (d : Dev) : Int :=
  let f := foldSecond ((d.tim.ns.toNat : Int) - d.fld Reg.timPpsCorr_in)
  match d.tim.ptpOfs with
  | some o => if d.timeSrc = 2 then f + roundDiv (o - f) 1000000000 * 1000000000 else f
  | none => f

/-- An edge of PPS_IN, rising or falling, of a pulse of `width` nanoseconds; IN_POL says which edge counts (R247). -/
def Dev.ppsIn (d : Dev) (rising : Bool) (width : Nat) : Dev :=
  if rising == d.bit Reg.timPpscfg_in_pol then d
  else if !d.ppsAccepts width (d.tim.cyc - d.tim.ppsAt) then d.bump Cnt.ppsInBad
  else
    let d := { d with tim := { d.tim with ppsSeen := true, ppsAt := d.tim.cyc } }.bump Cnt.ppsInEdge
    if !d.trackEn && (d.timeSrc == 2 || d.timeSrc == 3) then d.measure d.ppsTheta none else d

/-- PPS_LOSS: two seconds have passed without an accepted edge; the next two seconds count anew. -/
def Dev.ppsLost (d : Dev) : Dev :=
  d.due (d.tim.ppsAt + 2 * cyclesPerS) fun d =>
    ({ d with tim := { d.tim with ppsSeen := false, ppsAt := d.tim.cyc } }.raise Reg.timStat_pps_lost).bump Cnt.ppsInMiss

/-- PPS_OUT rises when the nanoseconds pass TIM_PPS_CORR.OUT, once in a second, and is due to fall OUT_WIDTH later (R248). -/
def Dev.ppsOutRise (d : Dev) : Dev :=
  if !d.ppsOutOn || decide (d.tim.ns.toNat < d.fld Reg.timPpsCorr_out) || d.tim.ppsOutS == some d.tim.sec then d
  else { d with
    tim := { d.tim with ppsOutS := some d.tim.sec, ppsOutEnd := d.tim.cyc + d.fld Reg.timPpscfg_out_width }
    pins := { d.pins with ppsOut := true } }

/-- PPS_OUT falls once OUT_WIDTH has passed. -/
def Dev.ppsOutFall (d : Dev) : Dev :=
  d.due d.tim.ppsOutEnd fun d => { d with pins := { d.pins with ppsOut := false } }

/-- A read of TIM_NOW_NS latches the other three registers (R228). -/
def Dev.latchNow (d : Dev) : Dev :=
  let d := d.setReg Reg.timNowNs (d.tim.ns.setWidth 32)
  let d := d.setReg Reg.timNowSecLo (d.tim.sec.setWidth 32)
  let d := d.setReg Reg.timNowSecHi ((d.tim.sec >>> 32).setWidth 32)
  d.setReg Reg.timNowFrac d.tim.frac

end Sys2Proof.Machine
end

