-- ==== Sys2Proof/Machine/Kao.lean ====
section
/-! DEFINITION. The cipher engine of chapter 11: key commands, requests, the two lanes, the access modes and the noise
source. -/

namespace Sys2Proof.Machine

/-! ## Key commands (Table 11.2) -/

/-- PINNED as written acts as at most 128 (Table 11.5). -/
def Dev.pinnedWritten (d : Dev) : Nat := min 128 (d.fld Reg.kaoCfg_pinned)

/-- Free the cache slot that holds a sensor's key. -/
def Dev.dropCache (d : Dev) (sidx keyidx : Nat) : Dev :=
  match d.findKey sidx keyidx with | some i => d.setKslot i none | none => d

/-- The record entry that an install takes: the one with this KEYIDX, else a free one (R346). -/
def Dev.installEntry (d : Dev) (sidx keyidx : Nat) : Option Nat :=
  match d.findRec sidx keyidx with
  | some (e, _) => some e
  | none => [0, 1].find? fun e => (d.keyRec sidx e).isNone

/-- Install a key in a pinned slot, or wrapped in a record entry; C and HOST_USE are set (R349, R352). A link's key also
takes its KEYIDX. -/
def Dev.installKey (d : Dev) (p : KeyParams) (entry : Nat) (key : List Byte) : Dev :=
  let c := p.ctrStart
  let use := p.hostUse.getLsbD 0
  let big := p.len == 1
  if p.target = 0 then
    let d := d.setKslot p.slot.toNat (some ⟨BitVec.ofNat 256 (ofBe key), big, c, use, none, 0⟩)
    let d := if p.slot.toNat < 8 then
        { d with kao := { d.kao with linkKidx := Sparse.put 0 d.kao.linkKidx p.slot.toNat p.keyidx.toNat } }
      else d
    d.markC c.toNat [(8, [0]), (9, [p.slot])]
  else
    let sidx := p.sidx.toNat
    let d := d.dropCache sidx p.keyidx.toNat
    let d := d.setKeyRec sidx entry (some ⟨big, use, p.keyidx.toNat, c, fit 40 (keyWrap deviceKey key)⟩)
    d.markC c.toNat [(8, [1]), (10, [p.keyidx]), (12, le 4 sidx)]

/-- Are the parameters of a key command in range? -/
def Dev.keyParamsOk (d : Dev) (target slot keyidx : Byte) (sidx : BitVec 32) : Bool :=
  (target == 0 && decide (slot.toNat < d.kao.pinned)) ||
    (target == 1 && decide (keyidx.toNat < 16) && decide (sidx.toNat < d.maxSensors))

/-- KEY_INSTALL, and with `wrapped` KEY_INSTALL_WRAPPED. -/
def Dev.keyInstall (d : Dev) (c : Cmd) (p : KeyParams) (wrapped : Bool) : Dev :=
  if !d.keyParamsOk p.target p.slot p.keyidx p.sidx || decide (16 ≤ p.keyidx.toNat) || decide (1 < p.len.toNat) || p.addr == 0 then
    d.complete c stBadParam 0
  else
    match p.data with
    | .err => d.cmdDmaError c
    | .ok b =>
      let entry := if p.target = 0 then some 0 else d.installEntry p.sidx.toNat p.keyidx.toNat
      match entry with
      | none => d.complete c stNoResource 0
      | some e =>
        if wrapped then
          match keyUnwrap deviceKey (fit (if p.len = 1 then 40 else 24) b) with
          | none => d.complete c stAuthFail 0
          | some k => (d.installKey p e k).complete c stOk 0
        else (d.installKey p e (fit (if p.len = 1 then 32 else 16) b)).complete c stOk 0

/-- KEY_EXPORT: WRAP, LEN and the current C go to host memory. -/
def Dev.keyExport (d : Dev) (c : Cmd) (keyidx : Byte) (sidx : BitVec 32) (dst : BitVec 64) : Dev :=
  if 16 ≤ keyidx.toNat ∨ d.maxSensors ≤ sidx.toNat ∨ dst = 0 then d.complete c stBadParam 0
  else
    match d.findRec sidx.toNat keyidx.toNat with
    | none => d.complete c stBadParam 0
    | some (_, r) =>
      let ctr := match (d.findKey sidx.toNat keyidx.toNat).bind d.kslot with | some k => k.ctr | none => r.ctr
      (d.hostWrite dst.toNat (fit 40 r.wrap ++ [byte r.aes256.toNat, 0] ++ le 6 ctr.toNat)).complete c stOk 0

/-- KEY_DELETE: clears the slot, or the entry and the cache slot that holds it. -/
def Dev.keyDelete (d : Dev) (c : Cmd) (target slot keyidx : Byte) (sidx : BitVec 32) : Dev :=
  if !d.keyParamsOk target slot keyidx sidx then d.complete c stBadParam 0
  else if target = 0 then
    if (d.kslot slot.toNat).isNone then d.complete c stBadParam 0 else (d.setKslot slot.toNat none).complete c stOk 0
  else
    match d.findRec sidx.toNat keyidx.toNat with
    | none => d.complete c stBadParam 0
    | some (e, _) => ((d.dropCache sidx.toNat keyidx.toNat).setKeyRec sidx.toNat e none).complete c stOk 0

/-! ## Requests (R347, R350, R353 to R355) -/

/-- A request completes without output. -/
def Dev.kaoFail (d : Dev) (host : Option (Cmd × BitVec 64)) (status : Nat) : Dev :=
  match host with | some x => d.finish x.1 status 0 | none => d

/-- The engine accepts a request whose key is in slot `i`: C is drawn if asked for (R350, R351). -/
def Dev.kaoAccept (d : Dev) (w : KaoWait) (i : Nat) : Dev :=
  match d.kslot i with
  | none => d.kaoFail w.2 stNoResource
  | some k =>
    let c := if w.1.draw then d.drawC i else (d, none)
    if w.1.draw && c.2.isNone then c.1.kaoFail w.2 stCounterExhausted
    else
      let j : KaoJob := ⟨w.1, i, k.key, k.aes256, c.2.map fun n => BitVec.ofNat 48 n, [], w.2⟩
      ({ c.1 with kao := { c.1.kao with queue := c.1.kao.queue ++ [j] } }.touch i).showKao

/-- A request that may enter: its pinned slot, or the cache slot that holds its key; else it waits for KEY_LOAD. -/
def Dev.kaoEnter (d : Dev) (w : KaoWait) : Dev :=
  if w.1.pinned then d.kaoAccept w w.1.slot
  else
    match d.findKey w.1.sidx.toNat w.1.keyidx.toNat with
    | some i => d.kaoAccept w i
    | none => { d with kao := { d.kao with waitKey := d.kao.waitKey ++ [w] } }

/-- Requests of one requester in the engine. -/
def Dev.kaoCount (d : Dev) (r : Fin 18) : Nat := (d.kao.queue.filter fun j => j.req.requester == r).length

/-- Put a request aside until MODE has changed, or its requester holds the lock. -/
def Dev.kaoHold (d : Dev) (w : KaoWait) : Dev := { d with kao := { d.kao with waitMode := d.kao.waitMode ++ [w] } }

/-- Does an earlier request of the same requester still wait, for its key or set aside? The later one waits behind it. -/
def Dev.kaoBehind (d : Dev) (r : Fin 18) : Bool :=
  (d.kao.waitKey.any fun w => w.1.requester == r) || d.kao.waitMode.any fun w => w.1.requester == r

/-- A requester gets the lock: HOLD_MAX as it stands now bounds its holding (R354, R367). -/
def Dev.grantLock (d : Dev) (r : Fin 18) : Dev :=
  { d with kao := { d.kao with lock := some r, lockFrom := d.tim.cyc, holdMax := max 10 (d.fld Reg.kaoLockcfg_hold_max) } }

/-- A requester submits a request. In QUEUE mode its queue holds 64; in LOCK mode it takes the lock or waits for it. A
request of a revoked holding completes BUSY. -/
def Dev.kaoSubmit (d : Dev) (w : KaoWait) : Dev :=
  let r := w.1.requester
  if w.1.blocks = [] ∨ 256 < w.1.blocks.length then d.kaoFail w.2 stBadParam
  else if d.kao.modePend.isSome ∨ d.kaoBehind r then d.kaoHold w
  else if !d.kao.locked then (if 64 ≤ d.kaoCount r then d.kaoHold w else d.kaoEnter w)
  else if d.kao.revoked.contains r then d.kaoFail w.2 stBusy
  else
    match d.kao.lock with
    | none => ((d.grantLock r).kaoEnter w).showKao
    | some o =>
      if o = r then d.kaoEnter w
      else
        let q := if d.kao.lockQ.contains r then d.kao.lockQ else d.kao.lockQ ++ [r]
        ({ d with kao := { d.kao with lockQ := q } }.kaoHold w).showKao

/-- The requests put aside ask again, in order. -/
def Dev.kaoRetry (d : Dev) : Dev :=
  let l := d.kao.waitMode
  l.foldl Dev.kaoSubmit { d with kao := { d.kao with waitMode := [] } }

/-- The lock passes to the next waiter, whose requests enter. -/
def Dev.lockPass (d : Dev) : Dev :=
  match d.kao.lockQ with
  | [] => { d with kao := { d.kao with lock := none } }.showKao
  | r :: t => (({ d with kao := { d.kao with lockQ := t } }.grantLock r).kaoRetry).showKao

/-- A holder with no request left gives up the lock. -/
def Dev.lockIdle (d : Dev) : Dev :=
  match d.kao.lock with
  | none => d
  | some o =>
    if d.kaoCount o = 0 ∧ !(d.kao.waitKey.any fun w => w.1.requester == o) then d.lockPass else d

/-- A change of PINNED applies when the slots concerned are not in use; slots that change sides are cleared (R367). -/
def Dev.pinApply (d : Dev) : Dev :=
  match d.kao.pinPend with
  | none => d
  | some n =>
    let l := (List.range 256).filter fun i => (decide (n ≤ i) && decide (i < d.kao.pinned)) || (decide (d.kao.pinned ≤ i) && decide (i < n))
    if l.any fun i => d.slotsInUse.contains i then d
    else
      let d := l.foldl (fun d i => (d.writeBackC i).setKslot i none) d
      { d with kao := { d.kao with pinned := n, pinPend := none } }

/-- What KAO_CFG holds beside MODE takes effect; a change of PINNED waits for the slots concerned (R355, R367). -/
def Dev.kaoTake (d : Dev) : Dev :=
  let n := d.pinnedWritten
  let d := { d with kao := { d.kao with
    markLog := d.fld Reg.kaoCfg_mark_log2, hostSensor := d.bit Reg.kaoCfg_host_sensor,
    pinPend := if n = d.kao.pinned then none else some n } }
  d.pinApply

/-- A pending MODE takes effect once every accepted request has completed (R355). -/
def Dev.modeApply (d : Dev) : Dev :=
  match d.kao.modePend with
  | none => d
  | some m =>
    if d.kao.queue ≠ [] ∨ d.kao.waitKey ≠ [] then d
    else
      let d := { d with kao := { d.kao with locked := m, modePend := none, lock := none, lockQ := [], revoked := [] } }
      d.kaoTake.kaoRetry.showKao

/-- KAO_CFG has been written: a write that changes MODE takes effect, as a whole, when every accepted request has completed
(R355). -/
def Dev.kaoCfgWritten (d : Dev) : Dev :=
  let m := d.bit Reg.kaoCfg_mode
  if m = d.kao.locked then ({ d with kao := { d.kao with modePend := none } }.kaoTake).kaoRetry
  else { d with kao := { d.kao with modePend := some m } }.modeApply

/-- The requests set aside move on, and a holder with none left gives up the lock. -/
def Dev.kaoMove (d : Dev) : Dev :=
  let d := if d.kao.modePend.isNone then d.kaoRetry else d
  if d.kao.locked then d.lockIdle else d

/-- KEY_LOAD: the record is read and its key unwrapped for the requests that wait for it. -/
def Dev.kaoKeyLoad (d : Dev) (sidx keyidx : Nat) : Dev :=
  let mine (w : KaoWait) : Bool := w.1.sidx.toNat == sidx && w.1.keyidx.toNat == keyidx
  let l := d.kao.waitKey.filter mine
  if l = [] then d
  else
    let k := d.loadKey sidx keyidx
    let drop (d : Dev) : Dev := { d with kao := { d.kao with waitKey := d.kao.waitKey.filter fun w => !mine w } }
    match k.2 with
    | .wait => k.1.bumpBy Cnt.keyWait (if d.kao.keyWaits.contains (sidx, keyidx) then 0 else l.length - 1)
    | .noEntry => (l.foldl (fun d w => d.kaoFail w.2 stNoResource) (drop k.1)).kaoMove
    | .corrupt => (l.foldl (fun d w => d.kaoFail w.2 stFault) (drop k.1)).kaoMove
    | .ok i => (l.foldl (fun d w => d.kaoAccept w i) (drop k.1)).kaoMove

/-! ## The lanes (R341, R353, R356, R357) -/

/-- The request that the engine works on: one begun, else the holder's oldest, else the next in round robin. -/
def Dev.kaoNext (d : Dev) : Option KaoJob :=
  match d.kao.queue.find? fun j => j.outputs != [] with
  | some j => some j
  | none =>
    if d.kao.locked then d.kao.queue.find? fun j => d.kao.lock == some j.req.requester
    else (List.range 18).findSome? fun k =>
      d.kao.queue.find? fun j => j.req.requester.val == (d.kao.rr + k) % 18

/-- A request leaves the engine. -/
def Dev.kaoLeave (d : Dev) (j : KaoJob) : Dev :=
  let q := d.kao.queue.takeWhile (· != j) ++ (d.kao.queue.dropWhile (· != j)).drop 1
  let d := { d with kao := { d.kao with
    queue := q, rr := (j.req.requester.val + 1) % 18, revoked := d.kao.revoked.filter (· != j.req.requester) } }
  d.pinApply.showKao

/-- A request completes: a host's blocks are written to its destination (R366). -/
def Dev.kaoDone (d : Dev) (j : KaoJob) : Dev :=
  let d := d.kaoLeave j
  let d := match j.host with
    | none => d
    | some (c, dst) =>
      (d.hostWrite dst.toNat (j.outputs.flatMap fun (b : BitVec 128) => be 16 b.toNat)).finish c stOk (match j.drawn with | some x => x.toNat | none => 0)
  d.kaoMove

/-- One block under a request's key. -/
def KaoJob.block (j : KaoJob) (b : BitVec 128) : BitVec 128 :=
  let k := keyBytes j.key j.aes256
  BitVec.ofNat 128 (ofBe (if j.req.decrypt then aesDec k (be 16 b.toNat) else aesEnc k (be 16 b.toNat)))

/-- Is a lane in service: neither offline nor in its self-test? -/
def Dev.laneUp (d : Dev) (l : LaneId) : Bool :=
  !d.bit (if l = 0 then Reg.kaoStat_lane0_off else Reg.kaoStat_lane1_off) && !d.kao.testing.contains l

/-- A block is released. -/
def Dev.blockOut (d : Dev) (j : KaoJob) : Dev :=
  let j' := { j with outputs := j.outputs ++ [j.block (j.req.blocks.getD j.outputs.length 0)] }
  let d := d.lanes j.req.decrypt 1
  if j'.outputs.length = j.req.blocks.length then
    { d with kao := { d.kao with queue := d.kao.queue.map fun (x : KaoJob) => if x = j then j' else x } }.kaoDone j'
  else { d with kao := { d.kao with queue := d.kao.queue.map fun (x : KaoJob) => if x = j then j' else x } }

/-- Fabric cycles of a lane's known-answer self-test: 10 µs (R357). -/
def selfTestCycles : Nat := 4000

/-- A block's dual computation completes on a lane (R356). -/
def Dev.blockResult (d : Dev) (l : LaneId) (agree again : Bool) : Dev :=
  match d.kaoNext with
  | none => d
  | some j =>
    if !d.laneUp l then d
    else if agree then d.blockOut j
    else
      let d := (d.bump Cnt.mismatch).raise Reg.kaoStat_mismatch
      if again then (d.bump Cnt.retryOk).blockOut j
      else
        let d := ((d.bump Cnt.blockFault).raise Reg.kaoStat_fault).event 0x000F 0 [(8, [byte l.val])]
        let d := { d with kao := { d.kao with
          testing := l :: d.kao.testing, testEnd := Sparse.put 0 d.kao.testEnd l.val (d.tim.cyc + selfTestCycles) } }
        ((d.kaoLeave j).kaoFail j.host stFault).kaoMove

/-- A lane's known-answer self-test ends (R357). -/
def Dev.laneTested (d : Dev) (l : LaneId) (pass : Bool) : Dev :=
  if !d.kao.testing.contains l then d
  else d.due (Sparse.get 0 d.kao.testEnd l.val) fun d =>
    let d := { d with kao := { d.kao with testing := d.kao.testing.filter (· != l) } }
    if pass then d
    else (d.bump Cnt.laneOffline).raise (if l = 0 then Reg.kaoStat_lane0_off else Reg.kaoStat_lane1_off)

/-- A lock held beyond HOLD_MAX is revoked (R354): the request in progress completes, the holder's others complete BUSY. -/
def Dev.lockRevoke (d : Dev) : Dev :=
  match d.kao.lock with
  | none => d
  | some o =>
    d.due (d.kao.lockFrom + cyclesPerUs * d.kao.holdMax) fun d =>
    let later := d.kao.queue.filter fun j => j.req.requester == o && j.outputs == []
    let begun := d.kao.queue.any fun j => j.req.requester == o && j.outputs != []
    let d := d.bump Cnt.lockRevoke
    let d := later.foldl (fun d j => (d.kaoLeave j).kaoFail j.host stBusy) d
    let mine (w : KaoWait) : Bool := w.1.requester == o
    let aside := d.kao.waitKey.filter mine ++ d.kao.waitMode.filter mine
    let d := { d with kao := { d.kao with
      waitKey := d.kao.waitKey.filter fun w => !mine w
      waitMode := d.kao.waitMode.filter fun w => !mine w
      revoked := (if begun then o :: d.kao.revoked else d.kao.revoked) } }
    let d := aside.foldl (fun d w => d.kaoFail w.2 stBusy) d
    d.lockPass

/-- Every 2^20 blocks the noise source is asked for a seed (R358). -/
def Dev.reseed (d : Dev) (healthy : Bool) : Dev :=
  if d.kao.sinceTry < 1048576 then d
  else
  let d := { d with kao := { d.kao with sinceTry := 0 } }
  if healthy then ({ d with kao := { d.kao with sinceSeed := 0 } }).setFld Reg.kaoStat_rng_stale 0
  else (d.bump Cnt.rngHealthFail).raise Reg.kaoStat_rng_fail

/-! ## KAO_OP (R366) -/

/-- 16-byte blocks of a buffer. -/
def toBlocks : Nat → List Byte → List (BitVec 128)
  | 0, _ => []
  | n + 1, b => BitVec.ofNat 128 (ofBe (fit 16 b)) :: toBlocks n (b.drop 16)

/-- The refusal of a key that KAO_OP may not use, or that is not there. -/
def Dev.kaoOpRefusal (d : Dev) (p : KaoOpParams) : Option Nat :=
  if p.target = 0 then
    if d.kao.pinned ≤ p.slot.toNat then some stBadParam
    else if (d.kslot p.slot.toNat).isNone then some stNoResource else none
  else if !d.kao.hostSensor then some stBadParam
  else
    match d.findRec p.sidx.toNat p.keyidx.toNat with
    | none => some stNoResource
    | some (_, r) => if r.hostUse then none else some stBadParam

/-- KAO_OP: a deferred command of the host path. -/
def Dev.kaoOp (d : Dev) (c : Cmd) (p : KaoOpParams) : Dev :=
  let n := p.blocks.toNat
  if 1 < p.target.toNat ∨ 1 < p.op.toNat ∨ n = 0 ∨ 256 < n ∨ p.srcAddr = 0 ∨ p.dst = 0 ∨
      (p.target = 1 ∧ (16 ≤ p.keyidx.toNat ∨ d.maxSensors ≤ p.sidx.toNat)) then d.complete c stBadParam 0
  else
    match d.kaoOpRefusal p with
    | some st => d.complete c st 0
    | none =>
      match p.src with
      | .err => d.cmdDmaError c
      | .ok b =>
        let r : KaoReq := ⟨17, p.target == 0, p.slot.toNat, p.sidx.setWidth 20, p.keyidx.setWidth 4, p.op == 1,
          p.draw.getLsbD 0, toBlocks n b⟩
        (d.startDeferred c).kaoSubmit (r, some (c, p.dst))

end Sys2Proof.Machine
end

