-- ==== Sys2Proof/Machine/Obs.lean ====
section
/-! DEFINITION. Chapter 17: counter reads and snapshots, watches, the trace port and boundary scan. -/

namespace Sys2Proof.Machine

/-! ## Counters and snapshots (R509, R510) -/

/-- A read of the low word of a counter, or of its snapshot: the high word enters the reader's shadow. -/
def Dev.counterRead (d : Dev) (who : Reader) (snapshot : Bool) (i : Nat) : Dev :=
  let v : BitVec 64 := if snapshot then Sparse.get 0 d.obs.snap i else d.counter i
  let hi : Word := (v >>> 32).setWidth 32
  let o := match who, snapshot with
    | .host, false => { d.obs with hostShadow := hi }
    | .host, true => { d.obs with hostSnap := hi }
    | .firmware, false => { d.obs with fwShadow := hi }
    | .firmware, true => { d.obs with fwSnap := hi }
  { d with obs := o }.out (.value (v.setWidth 32))

/-- A write to OBS_SNAP_CTL: AUTO, and a request by REQ. -/
def Dev.snapCtlWrite (d : Dev) (v : Word) : Dev :=
  let d := d.setBit Reg.obsSnapCtl_auto (v.getLsbD 0)
  if v.getLsbD 31 then d.raise Reg.obsSnapCtl_pending else d

/-- At a slot tick: a requested snapshot, and with AUTO one at every superframe boundary. -/
def Dev.snapshotTick (d : Dev) (boundary : Bool) : Dev :=
  if d.bit Reg.obsSnapCtl_pending || (d.bit Reg.obsSnapCtl_auto && boundary) then
    let d := { d with obs := { d.obs with snap := d.counters } }.bump Cnt.snapshot
    let d := d.setBit Reg.obsSnapCtl_pending false
    let d := d.setFld Reg.obsSnapStat_seq (d.fld Reg.obsSnapStat_seq + 1)
    (d.setFld Reg.obsSnapStat_sf d.sf).setFld Reg.obsSnapStat_slot d.slot
  else d

/-! ## Watches (R511) -/

def watchCount : Nat := 96

/-- Watches whose registers change, or are off, at this boundary measure anew; `old` is the device before it. -/
def Dev.watchRestart (d : Dev) (old : Dev) : Dev :=
  let keep (i : Nat) : Bool := d.cfgBit (Reg.obsWatchCfg_en i) && old.cfg (Reg.obsWatchCfg i) == d.cfg (Reg.obsWatchCfg i)
  { d with obs := { d.obs with
      watchHist := d.obs.watchHist.filter fun p => keep p.1
      watchQuiet := d.obs.watchQuiet.filter fun p => keep p.1 } }

/-- One watch at a superframe boundary. -/
def Dev.watchOne (d : Dev) (i : Nat) : Dev :=
  if !d.cfgBit (Reg.obsWatchCfg_en i) then d
  else
    let idx := d.cfgFld (Reg.obsWatchCfg_index i)
    let w := orElse0 (d.cfgFld (Reg.obsWatchCfg_window i)) 1
    let h := Sparse.get [] d.obs.watchHist i
    let v := d.counter idx
    let base := h.getD (min w h.length - 1) v
    let inc := (v - base).toNat
    let quiet := Sparse.get 0 d.obs.watchQuiet i
    let d := { d with obs := { d.obs with
      watchHist := Sparse.put [] d.obs.watchHist i ((v :: h).take 15)
      watchQuiet := Sparse.put 0 d.obs.watchQuiet i (quiet - 1) } }
    let d := d.setReg (Reg.obsWatchLast i) (BitVec.ofNat 32 (min 0xFFFFFFFF inc))
    if inc ≤ d.cfgFld (Reg.obsWatchLim_limit i) then d
    else
      let f := Reg.obsWatchFired (i / 32)
      let d := (d.setReg f (d.reg f ||| ((1 : Word) <<< (i % 32)))).bump Cnt.watchFire
      if quiet - 1 ≠ 0 then d
      else
        { d with obs := { d.obs with watchQuiet := Sparse.put 0 d.obs.watchQuiet i w } }.event 0x0050 0
          [(8, [byte i]), (10, le 2 idx), (12, le 4 (min 0xFFFFFFFF inc))]

/-- WATCH_EVALUATE. -/
def Dev.watchEvaluate (d : Dev) : Dev := (List.range watchCount).foldl (fun d i => d.watchOne i) d

/-! ## The trace port (R512 to R514) -/

/-- At a slot tick: a change of EN takes effect, and SYNC is generated. -/
def Dev.traceTick (d : Dev) : Dev :=
  let on := d.cfgBit Reg.obsTraceCfg_en
  let d := if on == d.obs.traceOn then d
    else { d with obs := { d.obs with traceOn := on, traceQ := [], traceLost := 0 } }.setFld Reg.obsTraceStat_level 0
  d.trace 1 (le 6 (d.tim.slotS % 281474976710656).toNat ++
    [byte (d.fld Reg.timStat_state + 4 * d.fld Reg.pwrState_state), byte d.devState])

/-- A write to OBS_TRACE_MARK. -/
def Dev.traceMark (d : Dev) (v : Word) : Dev := d.trace 6 (le 4 v.toNat)

/-- TRACE_MSG_SENT: the oldest message has left. -/
def Dev.traceSent (d : Dev) : Dev :=
  match d.obs.traceQ with
  | [] => d
  | m :: t =>
    if !d.obs.traceOn then d
    else
      let d := ({ d with obs := { d.obs with traceQ := t } }.out (.trace m)).bump Cnt.traceMsg
      (d.setFld Reg.obsTraceStat_level d.traceLevel).traceLostMsg

/-! ## Boundary scan (R515, R516) -/

/-- Select a TAP instruction: ignored with TEST_EN low. -/
def Dev.tapSelect (d : Dev) (op : BitVec 4) (takesBalls : Bool) : Dev :=
  if !d.obs.testEn then d
  else { d with obs := { d.obs with tap := op, tapUndef := d.obs.tapUndef || takesBalls } }

/-- SAMPLE/PRELOAD captures the balls into the boundary cells, or preloads them. -/
def Dev.tapSample (d : Dev) (cells : List Bool) : Dev :=
  if !d.obs.testEn then d
  else { d with obs := { d.obs with tap := 1, boundary := cells } }

/-- IDCODE reads the identification register. -/
def Dev.tapIdcode (d : Dev) : Dev := if !d.obs.testEn then d else (d.tapSelect 2 false).out (.value 0xB734854F)

/-- The instruction code of BYPASS, and of every opcode that Table 17.7 does not list. -/
def tapBypass (op : BitVec 4) : BitVec 4 := if op.toNat ≤ 4 then 0xF else op

/-! ## The SRAM patrol (R490) -/

/-- SRAM_PATROL: a corrected word is written back and counted. -/
def Dev.sramPatrol (d : Dev) (upset : Bool) : Dev := if upset then d.bump Cnt.sramCe else d

end Sys2Proof.Machine
end

