-- ==== Sys2Proof/Machine/Crypto.lean ====
section
/-! DEFINITION. The two algorithms that the boot chain names (R462): SHA-256 and the verification of an ECDSA signature on
the curve P-256, as their public standards define them (PRESUMED, log entry 13: the manual names them and does not restate them). -/

namespace Sys2Proof.Machine

/-! ## SHA-256 -/

def w32 : Nat := 4294967296

/-- The round constants. -/
def shaK : List Nat :=
  [0x428a2f98, 0x71374491, 0xb5c0fbcf, 0xe9b5dba5, 0x3956c25b, 0x59f111f1, 0x923f82a4, 0xab1c5ed5] ++
  [0xd807aa98, 0x12835b01, 0x243185be, 0x550c7dc3, 0x72be5d74, 0x80deb1fe, 0x9bdc06a7, 0xc19bf174] ++
  [0xe49b69c1, 0xefbe4786, 0x0fc19dc6, 0x240ca1cc, 0x2de92c6f, 0x4a7484aa, 0x5cb0a9dc, 0x76f988da] ++
  [0x983e5152, 0xa831c66d, 0xb00327c8, 0xbf597fc7, 0xc6e00bf3, 0xd5a79147, 0x06ca6351, 0x14292967] ++
  [0x27b70a85, 0x2e1b2138, 0x4d2c6dfc, 0x53380d13, 0x650a7354, 0x766a0abb, 0x81c2c92e, 0x92722c85] ++
  [0xa2bfe8a1, 0xa81a664b, 0xc24b8b70, 0xc76c51a3, 0xd192e819, 0xd6990624, 0xf40e3585, 0x106aa070] ++
  [0x19a4c116, 0x1e376c08, 0x2748774c, 0x34b0bcb5, 0x391c0cb3, 0x4ed8aa4a, 0x5b9cca4f, 0x682e6ff3] ++
  [0x748f82ee, 0x78a5636f, 0x84c87814, 0x8cc70208, 0x90befffa, 0xa4506ceb, 0xbef9a3f7, 0xc67178f2]

/-- The initial hash value. -/
def shaInit : List Nat := [0x6a09e667, 0xbb67ae85, 0x3c6ef372, 0xa54ff53a, 0x510e527f, 0x9b05688c, 0x1f83d9ab, 0x5be0cd19]

/-- Rotate a 32-bit number right. -/
def rotr (n x : Nat) : Nat := (x >>> n) ||| ((x <<< (32 - n)) % w32)

def shaS0 (x : Nat) : Nat := rotr 7 x ^^^ rotr 18 x ^^^ (x >>> 3)
def shaS1 (x : Nat) : Nat := rotr 17 x ^^^ rotr 19 x ^^^ (x >>> 10)
def shaB0 (x : Nat) : Nat := rotr 2 x ^^^ rotr 13 x ^^^ rotr 22 x
def shaB1 (x : Nat) : Nat := rotr 6 x ^^^ rotr 11 x ^^^ rotr 25 x

/-- The message schedule, newest word first. -/
def shaExpand : Nat → List Nat → List Nat
  | 0, l => l
  | n + 1, l =>
    shaExpand n ((shaS1 (l.getD 1 0) + l.getD 6 0 + shaS0 (l.getD 14 0) + l.getD 15 0) % w32 :: l)

/-- One round. -/
def shaRound (s : List Nat) (k w : Nat) : List Nat :=
  match s with
  | [a, b, c, d, e, f, g, h] =>
    let t1 := h + shaB1 e + ((e &&& f) ^^^ ((w32 - 1 - e) &&& g)) + k + w
    let t2 := shaB0 a + ((a &&& b) ^^^ (a &&& c) ^^^ (b &&& c))
    [(t1 + t2) % w32, a, b, c, (d + t1) % w32, e, f, g]
  | _ => s

def shaRounds : List Nat → List Nat → List Nat → List Nat
  | k :: ks, w :: ws, s => shaRounds ks ws (shaRound s k w)
  | _, _, s => s

/-- The words of a block, newest first. -/
def shaWords : Nat → List Byte → List Nat → List Nat
  | 0, _, l => l
  | n + 1, b, l => shaWords n (b.drop 4) (ofBe (b.take 4) :: l)

/-- One block. -/
def shaBlock (s : List Nat) (b : List Byte) : List Nat :=
  List.zipWith (fun x y => (x + y) % w32) s (shaRounds shaK (shaExpand 48 (shaWords 16 b [])).reverse s)

def shaBlocks : Nat → List Byte → List Nat → List Nat
  | 0, _, s => s
  | n + 1, b, s => shaBlocks n (b.drop 64) (shaBlock s (b.take 64))

/-- The SHA-256 digest of bytes. -/
def sha256 (m : List Byte) : List Byte :=
  let p := m ++ [0x80] ++ List.replicate ((119 - m.length % 64) % 64) 0 ++ be 8 (8 * m.length)
  (shaBlocks (p.length / 64) p shaInit).flatMap fun x => be 4 x

/-! ## ECDSA on P-256 -/

def p256 : Nat := 0xFFFFFFFF00000001000000000000000000000000FFFFFFFFFFFFFFFFFFFFFFFF
def n256 : Nat := 0xFFFFFFFF00000000FFFFFFFFFFFFFFFFBCE6FAADA7179E84F3B9CAC2FC632551
def b256 : Nat := 0x5AC635D8AA3A93E7B3EBBD55769886BC651D06B0CC53B0F63BCE3C3E27D2604B
def gx256 : Nat := 0x6B17D1F2E12C4247F8BCE6E563A440F277037D812DEB33A0F4A13945D898C296
def gy256 : Nat := 0x4FE342E2FE1A7F9B8EE7EB4A7C0F9E162BCE33576B315ECECBB6406837BF51F5

/-- a raised to the number that bits spell, modulo m. -/
def powBits (m a : Nat) : List Bool → Nat → Nat
  | [], r => r
  | b :: t, r => powBits m a t (if b then r * r % m * a % m else r * r % m)

/-- The inverse modulo a prime m. -/
def invMod (m a : Nat) : Nat := powBits m (a % m) (bitsMsb 256 (m - 2)) 1

/-- A point in Jacobian coordinates; the point at infinity has z = 0. -/
structure EcPoint where
  x : Nat
  y : Nat
  z : Nat
  deriving DecidableEq, Repr

def ecInf : EcPoint := ⟨1, 1, 0⟩
/-- Difference modulo p. -/
def subP (a b : Nat) : Nat := (a + p256 - b) % p256

def ecDouble (a : EcPoint) : EcPoint :=
  let zz := a.z * a.z % p256
  let yy := a.y * a.y % p256
  let s := 4 * a.x * yy % p256
  let m := 3 * subP a.x zz * (a.x + zz) % p256
  let x := subP (m * m % p256) (2 * s % p256)
  ⟨x, subP (m * subP s x % p256) (8 * yy * yy % p256), 2 * a.y * a.z % p256⟩

def ecAdd (a b : EcPoint) : EcPoint :=
  if a.z = 0 then b
  else if b.z = 0 then a
  else
    let za := a.z * a.z % p256
    let zb := b.z * b.z % p256
    let u := a.x * zb % p256
    let h := subP (b.x * za % p256) u
    let s := a.y * (zb * b.z % p256) % p256
    let r := subP (b.y * (za * a.z % p256) % p256) s
    if h = 0 then (if r = 0 then ecDouble a else ecInf)
    else
      let hh := h * h % p256
      let hhh := hh * h % p256
      let v := u * hh % p256
      let x := subP (subP (r * r % p256) hhh) (2 * v % p256)
      ⟨x, subP (r * subP v x % p256) (s * hhh % p256), h * a.z % p256 * b.z % p256⟩

/-- k times a point, for the bits of k. -/
def ecMulBits (p : EcPoint) : List Bool → EcPoint → EcPoint
  | [], a => a
  | b :: t, a => ecMulBits p t (if b then ecAdd (ecDouble a) p else ecDouble a)

def ecMul (k : Nat) (p : EcPoint) : EcPoint := ecMulBits p (bitsMsb 256 k) ecInf

/-- Is a pair of coordinates on the curve? -/
def onCurve (x y : Nat) : Bool :=
  decide (x < p256) && decide (y < p256) && y * y % p256 == (x * x % p256 * x + (p256 - 3) * x + b256) % p256

/-- Does a signature (r ‖ s) over a message verify under a public key? -/
def ecdsaOk (pub sig msg : List Byte) : Bool :=
  let x := beAt pub 0 32
  let y := beAt pub 32 32
  let r := beAt sig 0 32
  let s := beAt sig 32 32
  if r = 0 ∨ s = 0 ∨ n256 ≤ r ∨ n256 ≤ s ∨ onCurve x y = false then false
  else
    let w := invMod n256 s
    let a := ecAdd (ecMul (ofBe (sha256 msg) * w % n256) ⟨gx256, gy256, 1⟩) (ecMul (r * w % n256) ⟨x, y, 1⟩)
    if a.z = 0 then false
    else
      let zi := invMod p256 a.z
      a.x * (zi * zi % p256) % p256 % n256 == r

end Sys2Proof.Machine
end

