-- ==== Sys2Proof/Machine/Fwd.lean ====
section
/-! DEFINITION. The forwarding tables of chapter 08: buckets, lookups and parity, learning, eviction, aging, and the
entries that the host writes (R271 to R277). -/

namespace Sys2Proof.Machine

/-- The bucket of a hashed key (R271). -/
def bucketOf (buckets : Nat) (key : List Byte) : Nat := crc32 key % buckets
def macKey (mac : BitVec 48) (vid : BitVec 12) : List Byte := be 6 mac.toNat ++ be 2 vid.toNat
def macBucket (mac : BitVec 48) (vid : BitVec 12) : Nat := bucketOf 8192 (macKey mac vid)
def ip6Bucket (a : BitVec 128) : Nat := bucketOf 2048 (be 16 a.toNat)

/-- FWD_FILL of the tables (Table 8.23). -/
def Dev.showFill (d : Dev) : Dev :=
  (((d.setFld (Reg.fwdFill_count 0) d.fwd.mac.length).setFld (Reg.fwdFill_count 1) d.fwd.ip6.length).setFld
    (Reg.fwdFill_count 2) d.fwd.pfx.length).setFld (Reg.fwdFill_count 3) d.fwd.sensor.length

def Dev.setMac (d : Dev) (k : Nat) (e : Option MacEntry) : Dev :=
  { d with fwd := { d.fwd with mac := Sparse.put none d.fwd.mac k e } }.showFill
def Dev.setIp6 (d : Dev) (k : Nat) (e : Option Ip6Entry) : Dev :=
  { d with fwd := { d.fwd with ip6 := Sparse.put none d.fwd.ip6 k e } }.showFill
def Dev.setPfx (d : Dev) (k : Nat) (e : Option PfxEntry) : Dev :=
  { d with fwd := { d.fwd with pfx := Sparse.put none d.fwd.pfx k e } }.showFill
/-- Write an entry of the sensor table, through the cache (R271). -/
def Dev.setSensorAt (d : Dev) (k : Nat) (e : Option SensorEntry) : Dev :=
  { d with fwd := { d.fwd with
    sensor := Sparse.put none d.fwd.sensor k e
    cache := match e with
      | some x => d.fwd.cache.map fun (c : Nat × SensorEntry) => if c.1 = k then (k, x) else c
      | none => d.fwd.cache.filter fun c => c.1 != k } }.showFill
def Dev.setServer (d : Dev) (k : Nat) (e : Option ServerEntry) : Dev :=
  { d with fwd := { d.fwd with server := Sparse.put none d.fwd.server k e } }

/-! ## Parity (R273) -/

/-- Does the next lookup of a table in this step read a bad parity bit? The upset is used up by the answer. -/
def Dev.upset (d : Dev) (t : Fin 5) : Dev × Bool :=
  if d.fwd.upsets.contains t then ({ d with fwd := { d.fwd with upsets := d.fwd.upsets.erase t } }, true) else (d, false)

/-- PARITY_t, FWD_STAT.PAR_t and the TABLE_PARITY event. -/
def Dev.parityFail (d : Dev) (t : Fin 5) (index : Nat) : Dev :=
  ((d.bump (Cnt.parityMac + t)).raise ⟨Reg.fwdStat, t, 1⟩).event 0x0007 0 [(8, [byte t]), (12, le 4 index)]

/-- Static entries of the MAC, IPv6 exact and server tables come back from their copies in DRAM. -/
def Dev.restoreMac (d : Dev) : Dev :=
  let l := d.fwd.lostMac
  l.foldl (fun d p => d.setMac p.1 p.2) { d with fwd := { d.fwd with lostMac := [] } }
def Dev.restoreIp6 (d : Dev) : Dev :=
  let l := d.fwd.lostIp6
  l.foldl (fun d p => d.setIp6 p.1 p.2) { d with fwd := { d.fwd with lostIp6 := [] } }
def Dev.restoreServer (d : Dev) : Dev :=
  let l := d.fwd.lostSrv
  l.foldl (fun d p => d.setServer p.1 p.2) { d with fwd := { d.fwd with lostSrv := [] } }

/-- STATIC_RESTORE of one entry. -/
def Dev.staticRestore (d : Dev) (t : Fin 5) (k : Nat) : Dev :=
  match t with
  | 0 => match Sparse.get none d.fwd.lostMac k with
    | some e => { d with fwd := { d.fwd with lostMac := Sparse.put none d.fwd.lostMac k none } }.setMac k (some e)
    | none => d
  | 1 => match Sparse.get none d.fwd.lostIp6 k with
    | some e => { d with fwd := { d.fwd with lostIp6 := Sparse.put none d.fwd.lostIp6 k none } }.setIp6 k (some e)
    | none => d
  | 4 => match Sparse.get none d.fwd.lostSrv k with
    | some e => { d with fwd := { d.fwd with lostSrv := Sparse.put none d.fwd.lostSrv k none } }.setServer k (some e)
    | none => d
  | _ => d

/-! ## Lookups -/

def Dev.macAt (d : Dev) (k : Nat) : Option MacEntry := Sparse.get none d.fwd.mac k
def Dev.ip6At (d : Dev) (k : Nat) : Option Ip6Entry := Sparse.get none d.fwd.ip6 k

/-- The index of a key in its bucket. -/
def Dev.macIndex (d : Dev) (mac : BitVec 48) (vid : BitVec 12) : Option Nat :=
  let b := macBucket mac vid
  ((List.range 4).map fun w => 4 * b + w).find? fun k => match d.macAt k with
    | some e => e.mac == mac && e.vid == vid
    | none => false
def Dev.ip6Index (d : Dev) (a : BitVec 128) : Option Nat :=
  let b := ip6Bucket a
  ((List.range 4).map fun w => 4 * b + w).find? fun k => match d.ip6At k with
    | some e => e.addr == a
    | none => false

/-- A MAC lookup: a hit sets HIT and zeroes the clear count; bad parity is a miss, and the entry is removed. -/
def Dev.macLookup (d : Dev) (mac : BitVec 48) (vid : BitVec 12) : Dev × Option (Nat × MacEntry) :=
  let d := d.restoreMac
  match d.macIndex mac vid with
  | none => (d, none)
  | some k => match d.macAt k with
    | none => (d, none)
    | some e =>
      let u := d.upset 0
      if u.2 then
        let d := u.1.setMac k none
        let d := if e.stat then { d with fwd := { d.fwd with lostMac := Sparse.put none d.fwd.lostMac k (some e) } } else d
        (d.parityFail 0 k, none)
      else
        let e := { e with hit := true, clear := 0 }
        (d.setMac k (some e), some (k, e))

/-- An IPv6 exact-table lookup. -/
def Dev.ip6Lookup (d : Dev) (a : BitVec 128) : Dev × Option (Nat × Ip6Entry) :=
  let d := d.restoreIp6
  match d.ip6Index a with
  | none => (d, none)
  | some k => match d.ip6At k with
    | none => (d, none)
    | some e =>
      let u := d.upset 1
      if u.2 then
        let d := u.1.setIp6 k none
        let d := if e.stat then { d with fwd := { d.fwd with lostIp6 := Sparse.put none d.fwd.lostIp6 k (some e) } } else d
        (d.parityFail 1 k, none)
      else
        let e := { e with hit := true, clear := 0 }
        (d.setIp6 k (some e), some (k, e))

/-- Does a prefix cover an address? -/
def prefixCovers (p : PfxEntry) (a : BitVec 128) : Bool :=
  p.addr.toNat >>> (128 - p.len) == a.toNat >>> (128 - p.len)

/-- The longest matching entry of the prefix table; of two entries with one prefix, the lower index. -/
def longestPrefix (t : Sparse (Option PfxEntry)) (a : BitVec 128) : Option (Nat × PfxEntry) :=
  t.foldl (fun (b : Option (Nat × PfxEntry)) (x : Nat × Option PfxEntry) =>
    match x.2 with
    | none => b
    | some e =>
      if !prefixCovers e a then b
      else match b with
        | none => some (x.1, e)
        | some y => if y.2.len < e.len then some (x.1, e) else b) none

/-- A prefix lookup; an entry with bad parity is removed and passed over. -/
def Dev.pfxLookup (d : Dev) (a : BitVec 128) : Dev × Option PfxEntry :=
  match longestPrefix d.fwd.pfx a with
  | none => (d, none)
  | some (k, e) =>
    let u := d.upset 2
    if u.2 then
      let d := (u.1.setPfx k none).parityFail 2 k
      (d, (longestPrefix d.fwd.pfx a).map (·.2))
    else (d, some e)

/-- A server lookup: none when the entry is not valid or fails parity. -/
def Dev.serverLookup (d : Dev) (n : Nat) : Dev × Option ServerEntry :=
  let d := d.restoreServer
  match Sparse.get none d.fwd.server n with
  | none => (d, none)
  | some e =>
    let u := d.upset 4
    if u.2 then
      let d := u.1.setServer n none
      let d := { d with fwd := { d.fwd with lostSrv := Sparse.put none d.fwd.lostSrv n (some e) } }
      (d.parityFail 4 n, none)
    else (d, some e)

/-! ## The sensor table (R271, R272) -/

def Dev.sensorBuckets (d : Dev) : Nat := if d.bit Reg.dmcCfg_conf then 262144 else 65536
/-- The two candidate buckets of a short address. -/
def Dev.candidates (d : Dev) (addr : BitVec 24) : Nat × Nat :=
  (bucketOf d.sensorBuckets (be 3 addr.toNat), bucketOf d.sensorBuckets (be 3 addr.toNat ++ [0x5A]))
def Dev.sensorAt (d : Dev) (k : Nat) : Option SensorEntry := Sparse.get none d.fwd.sensor k
def ways8 (b : Nat) : List Nat := (List.range 8).map fun w => 8 * b + w
/-- The index of a short address. -/
def Dev.sensorIndex (d : Dev) (addr : BitVec 24) : Option Nat :=
  let c := d.candidates addr
  (ways8 c.1 ++ ways8 c.2).find? fun k => match d.sensorAt k with
    | some e => e.addr == addr
    | none => false
/-- A free way of a bucket. -/
def Dev.freeWay (d : Dev) (b : Nat) : Option Nat := (ways8 b).find? fun k => (d.sensorAt k).isNone

/-- The entry of a short address as it stands in DRAM. -/
def Dev.sensorOf (d : Dev) (addr : BitVec 24) : Option SensorEntry := (d.sensorIndex addr).bind d.sensorAt

/-- An entry is in the cache of 32,768 and is the last used one; the least recently used leaves it (DESIGN CHOICE, log entry
206). -/
def Dev.cacheSensor (d : Dev) (k : Nat) (e : SensorEntry) : Dev :=
  { d with fwd := { d.fwd with cache := ((k, e) :: d.fwd.cache.filter fun c => c.1 != k).take 32768 } }

/-- Where the entry of a short address stands: in the cache, or else in DRAM. -/
def Dev.sensorFind (d : Dev) (addr : BitVec 24) : Option (Nat × SensorEntry) :=
  match d.fwd.cache.find? fun c => c.2.addr == addr with
  | some c => some c
  | none => (d.sensorIndex addr).bind fun k => (d.sensorAt k).map fun e => (k, e)

/-- The entry of a granted sender is fetched into the cache (R272). -/
def Dev.fetchSensor (d : Dev) (addr : BitVec 24) : Dev :=
  match d.sensorFind addr with
  | some (k, e) => d.cacheSensor k e
  | none => d

/-- A lookup through the cache; bad parity is a miss for this lookup, and the entry is fetched again from DRAM. -/
def Dev.sensorLookup (d : Dev) (addr : BitVec 24) : Dev × Option SensorEntry :=
  match d.sensorFind addr with
  | none => (d, none)
  | some (k, e) =>
    let d := d.cacheSensor k e
    let u := d.upset 3
    if u.2 then
      let d := u.1.parityFail 3 k
      (match d.sensorAt k with | some x => d.cacheSensor k x | none => d, none)
    else (d, some e)

/-- The other candidate bucket of the entry at index `k`. -/
def Dev.otherBucket (d : Dev) (k : Nat) : Option Nat :=
  (d.sensorAt k).map fun e => let c := d.candidates e.addr; if c.1 = k / 8 then c.2 else c.1

/-- Place a sensor entry: over its own address, in a free way, or in the way of an entry that moves to its other candidate;
none when both buckets are full and nothing moves. -/
def Dev.sensorInsert (d : Dev) (e : SensorEntry) : Option Dev :=
  match d.sensorIndex e.addr with
  | some k => some (d.setSensorAt k (some e))
  | none =>
    let c := d.candidates e.addr
    match (d.freeWay c.1).orElse (fun _ => d.freeWay c.2) with
    | some k => some (d.setSensorAt k (some e))
    | none =>
      (ways8 c.1 ++ ways8 c.2).findSome? fun k =>
        ((d.otherBucket k).bind fun b => d.freeWay b).map fun j =>
          (d.setSensorAt j (d.sensorAt k)).setSensorAt k (some e)

/-! ## Eviction, learning and aging (R274 to R277) -/

/-- INSERT_FAIL. -/
def Dev.insertFail (d : Dev) : Dev := (d.bump Cnt.insertFail).raise Reg.fwdStat_ins_fail

/-- Choose the way that an insertion evicts among those that are not STATIC: the earliest insertion stamp, or any (free) with
RANDOM. -/
def Dev.evictWay (d : Dev) (t : Nat) (l : List (Nat × Byte)) : Option Nat :=
  match l with
  | [] => none
  | (k, i) :: rest =>
    if d.bit (Reg.fwdTblcfg_evict t) then (l[Config.freeNat d.freeCtr % l.length]?).map (·.1)
    else some (rest.foldl (fun (b : Nat × Byte) x =>
      if (d.fwd.insStamp - b.2).toNat < (d.fwd.insStamp - x.2).toNat then x else b) (k, i)).1

/-- The generator of RANDOM moves on, and so does the insertion stamp. -/
def Dev.stampNext (d : Dev) : Dev :=
  { d with freeCtr := d.freeCtr + 1, fwd := { d.fwd with insStamp := d.fwd.insStamp + 1 } }

/-- Put a new MAC entry into its bucket: a free way, or over an entry that is not STATIC; none when every way is STATIC. -/
def Dev.macInsert (d : Dev) (e : MacEntry) : Option Dev :=
  let ways := (List.range 4).map fun w => 4 * macBucket e.mac e.vid + w
  let e := { e with ins := d.fwd.insStamp }
  match ways.find? fun k => (d.macAt k).isNone with
  | some k => some ((d.setMac k (some e)).stampNext)
  | none =>
    let l := ways.filterMap fun k => match d.macAt k with
      | some x => if x.stat then none else some (k, x.ins)
      | none => none
    (d.evictWay 0 l).map fun k => ((d.setMac k (some e)).bump Cnt.evictMac).stampNext

/-- Put a new IPv6 exact entry into its bucket. -/
def Dev.ip6Insert (d : Dev) (e : Ip6Entry) : Option Dev :=
  let ways := (List.range 4).map fun w => 4 * ip6Bucket e.addr + w
  let e := { e with ins := d.fwd.insStamp }
  match ways.find? fun k => (d.ip6At k).isNone with
  | some k => some ((d.setIp6 k (some e)).stampNext)
  | none =>
    let l := ways.filterMap fun k => match d.ip6At k with
      | some x => if x.stat then none else some (k, x.ins)
      | none => none
    (d.evictWay 1 l).map fun k => ((d.setIp6 k (some e)).bump Cnt.evictIp6).stampNext

/-- Fabric cycles in the 100 ns in which a table learns at most one entry (R274). -/
def learnCycles : Nat := 40

/-- A table has learned: until 100 ns have passed its next learning requests are discarded. A request is pending for that time
when it changes the table (DEDUCED, log entry 207). -/
def Dev.macLearned (d : Dev) : Dev := { d with fwd := { d.fwd with macBusy := d.tim.cyc + learnCycles } }
def Dev.ip6Learned (d : Dev) : Dev := { d with fwd := { d.fwd with ip6Busy := d.tim.cyc + learnCycles } }

/-- Learn a source MAC (R274). A static entry that the lookup removed for parity comes back and is not learned over (R273). -/
def Dev.learnMac (d : Dev) (mac : BitVec 48) (vid : BitVec 12) (port : BitVec 2) : Dev :=
  if !d.bit (Reg.fwdTblcfg_learn_en 0) ∨ d.tim.cyc < d.fwd.macBusy then d
  else
    let o := d.macLookup mac vid
    match o.2 with
    | some (k, e) =>
      if e.port = port then o.1
      else if e.stat then o.1.bump Cnt.staticConflict
      else ((o.1.setMac k (some { e with port := port })).bump Cnt.stationMove).macLearned
    | none =>
      let d := o.1.restoreMac
      if (d.macIndex mac vid).isSome then d
      else match d.macInsert ⟨mac, vid, port, false, true, 0, 0⟩ with
        | some d => (d.bump Cnt.learnMac).macLearned
        | none => d.insertFail

/-- Learn an IPv6 source address. -/
def Dev.learnIp6 (d : Dev) (a : BitVec 128) (mac : BitVec 48) (vid : BitVec 12) (port : BitVec 2) : Dev :=
  if !d.bit (Reg.fwdTblcfg_learn_en 1) ∨ d.tim.cyc < d.fwd.ip6Busy then d
  else
    let o := d.ip6Lookup a
    match o.2 with
    | some (k, e) =>
      if e.port = port then o.1
      else if e.stat then o.1.bump Cnt.staticConflict
      else ((o.1.setIp6 k (some { e with port := port, vid := vid, nextMac := mac })).bump Cnt.stationMove).ip6Learned
    | none =>
      let d := o.1.restoreIp6
      if (d.ip6Index a).isSome then d
      else match d.ip6Insert ⟨a, port, vid, mac, false, 0, false, true, 0, 0⟩ with
        | some d => (d.bump Cnt.learnIp6).ip6Learned
        | none => d.insertFail

/-- Fabric cycles between two visits of the sweeper: every entry of a table once in AGE_SEC (R276). -/
def Dev.ageCycles (d : Dev) (t : Fin 2) : Nat :=
  orElse0 (d.fld (Reg.fwdTblcfg_age_sec t)) 1 * cyclesPerS / (if t = 0 then 32768 else 8192)

/-- The sweeper at one entry; with `hit` a lookup hits the entry in the same fabric cycle, and wins (R276, R277). -/
def Dev.ageEntry (d : Dev) (t : Fin 2) (k : Nat) (hit : Bool) : Dev :=
  if hit then
    match t with
    | 0 => match d.macAt k with | some e => d.setMac k (some { e with hit := true, clear := 0 }) | none => d
    | 1 => match d.ip6At k with | some e => d.setIp6 k (some { e with hit := true, clear := 0 }) | none => d
  else match t with
    | 0 => match d.macAt k with
      | none => d
      | some e =>
        if e.stat then d
        else if e.hit then d.setMac k (some { e with hit := false })
        else if e.clear + 1 = 2 then (d.setMac k none).bump Cnt.agedMac
        else d.setMac k (some { e with clear := e.clear + 1 })
    | 1 => match d.ip6At k with
      | none => d
      | some e =>
        if e.stat then d
        else if e.hit then d.setIp6 k (some { e with hit := false })
        else if e.clear + 1 = 2 then (d.setIp6 k none).bump Cnt.agedIp6
        else d.setIp6 k (some { e with clear := e.clear + 1 })

/-- AGING_VISIT: the sweeper comes to an entry, `ageCycles` after its last visit (R276; which entry comes next is left to the
sender, DESIGN CHOICE, log entry 213). -/
def Dev.agingVisit (d : Dev) (t : Fin 2) (k : Nat) (hit : Bool) : Dev :=
  if !d.bit (Reg.fwdTblcfg_age_en t) then d
  else d.due ((if t = 0 then d.fwd.macSwept else d.fwd.ip6Swept) + d.ageCycles t) fun d =>
    let c := d.tim.cyc
    { d with fwd := { d.fwd with
        macSwept := if t = 0 then c else d.fwd.macSwept
        ip6Swept := if t = 0 then d.fwd.ip6Swept else c } }.ageEntry t k hit

/-! ## FWD_WRITE (Table 13.5, R275) -/

/-- Write or delete a MAC entry: the status. -/
def Dev.hostMac (d : Dev) (del : Bool) (b : List Byte) : Dev × Nat :=
  let mac := BitVec.ofNat 48 (leAt b 0 6)
  let vid := BitVec.ofNat 12 (leAt b 6 2)
  let d := d.restoreMac
  if del then
    if b.length < 8 then (d, stBadParam)
    else match d.macIndex mac vid with
      | some k => (d.setMac k none, stOk)
      | none => (d, stBadParam)
  else if b.length < 9 ∨ 3 < leAt b 8 1 then (d, stBadParam)
  else
    let e : MacEntry := ⟨mac, vid, BitVec.ofNat 2 (leAt b 8 1), true, false, 0, d.fwd.insStamp⟩
    match d.macIndex mac vid with
    | some k => (d.setMac k (some e), stOk)
    | none => match d.macInsert e with
      | some d => (d, stOk)
      | none => (d, stNoResource)

/-- Write or delete an IPv6 exact entry. -/
def Dev.hostIp6 (d : Dev) (del : Bool) (b : List Byte) : Dev × Nat :=
  let a := BitVec.ofNat 128 (leAt b 0 16)
  let d := d.restoreIp6
  if del then
    if b.length < 16 then (d, stBadParam)
    else match d.ip6Index a with
      | some k => (d.setIp6 k none, stOk)
      | none => (d, stBadParam)
  else if b.length < 27 ∨ 2 < leAt b 16 1 ∨ 1 < leAt b 25 1 then (d, stBadParam)
  else
    let e : Ip6Entry := ⟨a, BitVec.ofNat 2 (leAt b 16 1), BitVec.ofNat 12 (leAt b 17 2), BitVec.ofNat 48 (leAt b 19 6),
      leAt b 25 1 == 1, BitVec.ofNat 4 (leAt b 26 1), true, false, 0, d.fwd.insStamp⟩
    match d.ip6Index a with
    | some k => (d.setIp6 k (some e), stOk)
    | none => match d.ip6Insert e with
      | some d => (d, stOk)
      | none => (d, stNoResource)

/-- Write or delete a prefix entry. -/
def Dev.hostPfx (d : Dev) (del : Bool) (i : Nat) (b : List Byte) : Dev × Nat :=
  if 2048 ≤ i then (d, stBadParam)
  else if del then
    if (Sparse.get none d.fwd.pfx i).isNone then (d, stBadParam) else (d.setPfx i none, stOk)
  else if b.length < 35 ∨ 128 < leAt b 16 1 ∨ 1 < leAt b 33 1 then (d, stBadParam)
  else (d.setPfx i (some ⟨BitVec.ofNat 128 (leAt b 0 16), leAt b 16 1, BitVec.ofNat 128 (leAt b 17 16), leAt b 33 1 == 1,
    BitVec.ofNat 6 (leAt b 34 1)⟩), stOk)

/-- Write or delete a server entry. -/
def Dev.hostServer (d : Dev) (del : Bool) (i : Nat) (b : List Byte) : Dev × Nat :=
  let d := d.restoreServer
  if 64 ≤ i then (d, stBadParam)
  else if del then
    if (Sparse.get none d.fwd.server i).isNone then (d, stBadParam) else (d.setServer i none, stOk)
  else if b.length < 18 then (d, stBadParam)
  else (d.setServer i (some ⟨BitVec.ofNat 128 (leAt b 0 16), BitVec.ofNat 16 (leAt b 16 2)⟩), stOk)

/-- FWD_WRITE on one table. -/
def Dev.fwdWriteEntry (d : Dev) (table : Nat) (del : Bool) (i : Nat) (b : List Byte) : Dev × Nat :=
  if table = 0 then d.hostMac del b
  else if table = 1 then d.hostIp6 del b
  else if table = 2 then d.hostPfx del i b
  else if table = 4 then d.hostServer del i b
  else (d, stBadParam)

/-! ## TABLE_REBUILD (R415) -/

/-- Re-place every sensor entry in its candidate buckets. -/
def Dev.replaceSensors (d : Dev) : Dev :=
  let l := d.fwd.sensor
  l.foldl (fun d p => match p.2 with
    | some e => (d.sensorInsert e).getD d
    | none => d) { d with fwd := { d.fwd with sensor := [], cache := [] } }.showFill

/-- Rebuild a table: the entries repaired, and the entries checked. -/
def Dev.rebuildTable (d : Dev) (t : Nat) : Dev × Nat × Nat :=
  if t = 0 then (d.restoreMac, d.fwd.lostMac.length, d.fwd.mac.length + d.fwd.lostMac.length)
  else if t = 1 then (d.restoreIp6, d.fwd.lostIp6.length, d.fwd.ip6.length + d.fwd.lostIp6.length)
  else if t = 2 then (d, 0, d.fwd.pfx.length)
  else if t = 3 then (d.replaceSensors, 0, d.fwd.sensor.length)
  else (d.restoreServer, d.fwd.lostSrv.length, d.fwd.server.length + d.fwd.lostSrv.length)

end Sys2Proof.Machine
end

