-- ==== Sys2Proof/Machine/Parse.lean ====
section
/-! DEFINITION. The parser of chapter 08 (R254, R255, Table 8.2): the headers of an Ethernet frame, and the checks of the
headers that the device routes or terminates. -/

namespace Sys2Proof.Machine

/-- What the parser extracts from an Ethernet frame (Table 8.2): the tags' VIDs and PCPs, EtherType, and the offsets of the L3
header, the L4 header and the payload. `l3` follows Table 8.3. `l4` is the protocol of a recognised L4 header; `ptp` the
offset of a recognised PTP header. -/
structure Parsed where
  dmac  : Nat
  smac  : Nat
  tags  : Nat
  vidO  : Nat
  vidI  : Nat
  pcpO  : Nat
  pcpI  : Nat
  etype : Nat
  l3    : Nat
  l3off : Nat
  proto : Nat
  tc    : Nat
  src   : List Byte
  dst   : List Byte
  hops  : Nat
  frag  : Bool
  xdeep : Bool
  l4    : Option Nat
  l4off : Nat
  sport : Nat
  dport : Nat
  pay   : Nat
  ptp   : Option Nat
  deriving DecidableEq, Repr, Inhabited

/-- Where the EtherType stands: the tags taken, their VIDs, and the offset after the EtherType; a third tag sets XDEEP. -/
def parseTags (b : List Byte) : Parsed :=
  let p : Parsed := ⟨beAt b 0 6, beAt b 6 6, 0, 0, 0, 0, 0, beAt b 12 2, 0, 14, 0, 0, [], [], 0, false, false, none, 0, 0, 0, 14, none⟩
  let t0 := beAt b 12 2
  if (t0 = 0x8100 ∨ t0 = 0x88A8) ∧ 18 ≤ b.length then
    let p := { p with vidO := beAt b 14 2 % 4096, pcpO := beAt b 14 1 / 32 }
    let t1 := beAt b 16 2
    if t1 = 0x8100 ∧ 22 ≤ b.length then
      let t2 := beAt b 20 2
      { p with tags := 2, vidI := beAt b 18 2 % 4096, pcpI := beAt b 18 1 / 32, etype := t2, l3off := 22, pay := 22,
               xdeep := t2 == 0x8100 || t2 == 0x88A8 }
    else { p with tags := 1, etype := t1, l3off := 18, pay := 18 }
  else p

/-- The L4 header at offset `o` of protocol `proto` (Table 8.2). -/
def parseL4 (b : List Byte) (p : Parsed) (o : Nat) : Parsed :=
  if p.proto = 17 ∧ o + 8 ≤ b.length then
    { p with l4 := some 17, l4off := o, sport := beAt b o 2, dport := beAt b (o + 2) 2, pay := o + 8 }
  else if p.proto = 6 ∧ o + 20 ≤ b.length then
    { p with l4 := some 6, l4off := o, sport := beAt b o 2, dport := beAt b (o + 2) 2,
             pay := o + max 20 (4 * (beAt b (o + 12) 1 / 16)) }
  else if p.proto = 58 ∧ p.l3 = 2 ∧ o + 4 ≤ b.length then
    { p with l4 := some 58, l4off := o, sport := beAt b o 2, pay := o + 4 }
  else p

/-- The kinds of extension header that the parser reads through. -/
def extKnown (n : Nat) : Bool := n == 0 || n == 43 || n == 60 || n == 44
/-- Headers that end parsing at L3 with XDEEP: further extension kinds of IPv6. -/
def extOther (n : Nat) : Bool := n == 50 || n == 51 || n == 135 || n == 139 || n == 140 || n == 253 || n == 254

/-- The extension headers of IPv6 from offset `o`; `left` more may follow. -/
def parseExt (b : List Byte) (p : Parsed) (o : Nat) : Nat → Parsed
  | 0 => if extKnown p.proto ∨ extOther p.proto then { p with xdeep := true, pay := o } else parseL4 b { p with pay := o } o
  | left + 1 =>
    if extOther p.proto then { p with xdeep := true, pay := o }
    else if extKnown p.proto ∧ o + 8 ≤ b.length then
      let nh := beAt b o 1
      if p.proto = 44 then
        let off := beAt b (o + 2) 2 / 8
        if off ≠ 0 then { p with proto := nh, frag := true, pay := o + 8 }
        else parseExt b { p with proto := nh } (o + 8) left
      else
        let n := 8 * (beAt b (o + 1) 1 + 1)
        if o + n ≤ b.length then parseExt b { p with proto := nh } (o + n) left else { p with pay := o }
    else parseL4 b { p with pay := o } o

/-- The parser up to L4 on an Ethernet frame without its FCS. -/
def parseL3 (b : List Byte) : Parsed :=
  let p := parseTags b
  let o := p.l3off
  if p.xdeep ∨ p.etype < 0x0600 then p
  else if p.etype = 0x0800 ∧ o + 20 ≤ b.length ∧ 5 ≤ beAt b o 1 % 16 ∧ o + 4 * (beAt b o 1 % 16) ≤ b.length then
    let ihl := 4 * (beAt b o 1 % 16)
    let frag := decide (beAt b (o + 6) 2 % 8192 ≠ 0)
    let p := { p with l3 := 1, proto := beAt b (o + 9) 1, tc := beAt b (o + 1) 1, src := slice b (o + 12) 4,
                      dst := slice b (o + 16) 4, hops := beAt b (o + 8) 1, frag := frag, pay := o + ihl }
    if frag then p else parseL4 b p (o + ihl)
  else if p.etype = 0x86DD ∧ o + 40 ≤ b.length then
    parseExt b { p with l3 := 2, proto := beAt b (o + 6) 1, tc := beAt b o 2 / 16 % 256, src := slice b (o + 8) 16,
                        dst := slice b (o + 24) 16, hops := beAt b (o + 7) 1, pay := o + 40 } (o + 40) 2
  else if p.etype = 0x0806 then { p with l3 := 3 }
  else p

/-- The length of the header that a PTP message begins with (IEEE 1588, PRESUMED, log entry 205). -/
def ptpHeader : Nat := 34

/-- The parser on an Ethernet frame without its FCS: after L2 or UDP, the payload of a PTP message begins behind its
header. -/
def parseFrame (b : List Byte) : Parsed :=
  let p := parseL3 b
  let o : Option Nat :=
    if p.etype = 0x88F7 ∧ !p.xdeep then some p.l3off
    else if p.l4 = some 17 ∧ (p.dport = 319 ∨ p.dport = 320) then some p.pay
    else none
  match o with
  | some k => if k + ptpHeader ≤ b.length then { p with ptp := o, pay := k + ptpHeader } else { p with ptp := o }
  | none => p

/-- The offset of a PTP message in a frame, if it carries one (Table 8.2). -/
def Parsed.ptpOff (p : Parsed) : Option Nat := p.ptp
/-- Its transport: 0 IEEE 802.3, 1 UDP/IPv4, 2 UDP/IPv6 (Table 7.2). -/
def Parsed.trans (p : Parsed) : Fin 3 := if p.etype = 0x88F7 then 0 else if p.l3 = 1 then 1 else 2

/-- The ones' complement sum of 16-bit words. -/
def sum16 : List Byte → Nat
  | a :: b :: t => (a.toNat * 256 + b.toNat) + sum16 t
  | [a] => a.toNat * 256
  | [] => 0
def fold16 (n : Nat) : Nat := let a := n % 65536 + n / 65536; let a := a % 65536 + a / 65536; a % 65536 + a / 65536
/-- The Internet checksum of bytes. -/
def inetSum (b : List Byte) : Nat := 65535 - fold16 (sum16 b)

/-- The UDP checksum over IPv6 of a datagram whose checksum field is 0; 0 is sent as 0xFFFF. -/
def udp6Sum (src dst udp : List Byte) : Nat :=
  let c := inetSum (src ++ dst ++ be 4 udp.length ++ [0, 0, 0, 17] ++ udp)
  if c = 0 then 0xFFFF else c

/-- The L3 checks on a frame that is routed or terminated (R255): the IPv4 header checksum, and the IPv6 payload length. -/
def l3Good (b : List Byte) (p : Parsed) : Bool :=
  if p.l3 = 1 then fold16 (sum16 (slice b p.l3off (4 * (beAt b p.l3off 1 % 16)))) == 65535
  else if p.l3 = 2 then decide (p.l3off + 40 + beAt b (p.l3off + 4) 2 ≤ b.length)
  else true

/-- A frame with its residence time added to the correctionField of its PTP message (R231); `ns` is the time. -/
def addResidence (b : List Byte) (ns : Int) : List Byte :=
  let p := parseFrame b
  match p.ptpOff with
  | none => b
  | some o =>
    if b.length < o + 16 then b
    else
      let c := (toSigned 64 (beAt b (o + 8) 8) + ns * 65536) % (2 ^ 64 : Nat)
      let b := patch b (o + 8) (be 8 c.toNat)
      if p.l4 = some 17 ∧ p.l3 = 1 then patch b (p.l4off + 6) [0, 0]
      else if p.l4 = some 17 then
        let n := beAt b (p.l4off + 4) 2
        let b := patch b (p.l4off + 6) [0, 0]
        patch b (p.l4off + 6) (be 2 (udp6Sum p.src p.dst (slice b p.l4off n)))
      else b

end Sys2Proof.Machine
end

