-- ==== Sys2Proof/Machine/Level.lean ====
section
/-! DEFINITION. Levels in hundredths of a decibel and their linear powers. The manual adds powers and averages them
linearly; the model does so on fixed-point numbers that carry nine digits (DESIGN CHOICE, log entry 25: the manual states
no precision). -/

namespace Sys2Proof.Machine

/-- 10^(a/10), 10^(a/100) and 10^(a/1000) for a = 0 to 9, scaled by 10^9. -/
def pow10a : List Nat := [1000000000, 1258925412, 1584893192, 1995262315, 2511886432, 3162277660, 3981071706,
  5011872336, 6309573445, 7943282347]
def pow10b : List Nat := [1000000000, 1023292992, 1047128548, 1071519305, 1096478196, 1122018454, 1148153621,
  1174897555, 1202264435, 1230268771]
def pow10c : List Nat := [1000000000, 1002305238, 1004615790, 1006931669, 1009252886, 1011579454, 1013911386,
  1016248693, 1018591388, 1020939484]

/-- 10^(r/1000) for r = 0 to 999, scaled by 10^9. -/
def pow10r (r : Nat) : Nat :=
  pow10a.getD (r / 100) 0 * pow10b.getD (r / 10 % 10) 0 / 1000000000 * pow10c.getD (r % 10) 0 / 1000000000

/-- Linear power of a level, scaled by 10^39; levels below −300 dB read as 0. -/
def linOf (x : Cdb) : Nat :=
  let y := x + 30000
  if y < 0 then 0 else pow10r (y.toNat % 1000) * 10 ^ (y.toNat / 1000)

/-- The number of decimal digits of `n` beyond the first, looking no further than `f`. -/
def digits : Nat → Nat → Nat
  | 0, _ => 0
  | f + 1, n => if n < 10 then 0 else digits f (n / 10) + 1

/-- The largest r below 1000 whose power does not exceed `m` (scaled by 10^9), found digit by digit. -/
def logr (m : Nat) : Nat :=
  let pick (base step : Nat) : Nat :=
    (List.range 10).foldl (fun a k => if pow10r (base + k * step) ≤ m then k else a) 0
  let a := 100 * pick 0 100
  let b := a + 10 * pick a 10
  b + pick b 1

/-- The level of a linear power, rounded down to a hundredth of a decibel. -/
def ofLin (n : Nat) : Cdb :=
  if n = 0 then -30000
  else
    let q := digits 60 n
    let m := if 9 ≤ q then n / 10 ^ (q - 9) else n * 10 ^ (9 - q)
    ((q : Int) - 9) * 1000 + (logr m : Int) - 30000

/-- The level of the sum of powers. -/
def sumLevels (l : List Cdb) : Cdb := ofLin (l.foldl (fun a x => a + linOf x) 0)

/-- The level of the mean of powers. -/
def meanLevel (l : List Cdb) : Cdb := if l = [] then -30000 else ofLin (l.foldl (fun a x => a + linOf x) 0 / l.length)

/-- Is the linear mean of the levels at least `t`? -/
def meanAtLeast (l : List Cdb) (t : Cdb) : Bool :=
  decide (l ≠ []) && decide (l.length * linOf t ≤ l.foldl (fun a x => a + linOf x) 0)

/-- a + (b − a) / n in linear power. -/
def blend (a b : Cdb) (n : Nat) : Cdb := ofLin ((linOf a * (n - 1) + linOf b) / n)

end Sys2Proof.Machine
end

