-- ==== Sys2Proof/Machine/Noise.lean ====
section
/-! DEFINITION. The noise floor (R103 to R106). -/

namespace Sys2Proof.Machine

/-- Key of a data subcarrier in a radio's noise-floor table. -/
def floorKey (chan subch i : Nat) : Nat := chan * 1536 + subch * 16 + i

/-- A radio's entry for a data subcarrier; before the first observation N̂ is a value the manual does not give. -/
def Dev.floorOf (d : Dev) (r : RadioId) (key : Nat) : Floor :=
  (Sparse.get none (d.radio r).floors key).getD ⟨Config.initFloor r (key / 1536), 0, []⟩

def Dev.minObs (d : Dev) : Nat := d.cfgFld Reg.bbpNoisecfg_min_obs
def Dev.jumpN (d : Dev) : Nat := orElse0 (d.cfgFld Reg.bbpNoisecfg_jump_n) 1
def Dev.jumpDb (d : Dev) : Nat := orElse0 (d.cfgFld Reg.bbpNoisecfg_jump_db) 1
def Dev.tau (d : Dev) : Nat := clampNat 2 10 (d.cfgFld Reg.bbpNoisecfg_tau)

/-- The floor that acts: with fewer than MIN_OBS observations, the larger of N̂ and the thermal floor (R104). -/
def Dev.nhat (d : Dev) (r : RadioId) (chan subch i : Nat) : Cdb :=
  let f := d.floorOf r (floorKey chan subch i)
  if f.count < d.minObs then max f.nhat (Config.thermalFloor r chan) else f.nhat

/-- Is the port of a channel backed off on a radio (R146)? -/
def Dev.backedOff (d : Dev) (r : RadioId) (chan : Nat) : Bool :=
  d.bit (if d.chanHigh chan then Reg.rfStat_hb_backoff r else Reg.rfStat_lb_backoff r)

/-- A level in 0.25 dB steps; the direction of rounding is free. -/
def quarter (x : Cdb) : Cdb :=
  if x % 25 = 0 then x else x / 25 * 25 + (if Config.floorUp x then 25 else 0)

/-- One quiet observation of one subcarrier: the new entry, and whether it stepped (R104, R105). -/
def observe (f : Floor) (x : Cdb) (tau minObs jumpN jumpDb : Nat) : Floor × Bool :=
  let run := if f.nhat + 100 * jumpDb ≤ x then f.run ++ [x] else []
  let count := min minObs (f.count + 1)
  if jumpN ≤ run.length then (⟨quarter (meanLevel run), count, []⟩, true)
  else (⟨quarter (blend f.nhat x (2 ^ tau)), count, run⟩, false)

/-- A quiet observation (R103 to R105). -/
def Dev.observe (d : Dev) (r : RadioId) (key : Nat) (x : Cdb) : Dev :=
  let o := Sys2Proof.Machine.observe (d.floorOf r key) x d.tau d.minObs d.jumpN d.jumpDb
  let d := d.modRadio r fun y => { y with floors := Sparse.put none y.floors key (some o.1) }
  if o.2 then (d.bump (Cnt.noiseJump r)).raise (Reg.bbpRxstat_noise_jump r) else d

/-- A cell's noise floor (R117): the linear mean of the floors over its 16 data subcarriers (DESIGN CHOICE, log entry 182: the
manual does not say over which subcarriers, nor how they are averaged). -/
def Dev.noiseOf (d : Dev) (r : RadioId) (chan subch : Nat) : Cdb :=
  meanLevel ((List.range 16).map fun i => d.nhat r chan subch i)

/-- A radio that takes over a channel takes the failed radio's N̂ and count for each data subcarrier whose own count is below
MIN_OBS (R106). -/
def Dev.seedFloors (d : Dev) (failed y : RadioId) (chan : Nat) : Dev :=
  let m := match d.chan chan with | some c => modeSubch c.mode | none => 0
  ((List.range (16 * m)).map fun i => floorKey chan 0 i).foldl (fun d k =>
    if (d.floorOf y k).count < d.minObs then
      d.modRadio y fun x => { x with floors := Sparse.put none x.floors k (some { d.floorOf failed k with run := [] }) }
    else d) d

end Sys2Proof.Machine
end

