-- ==== Sys2Proof/Machine/Radio.lean ====
section
/-! DEFINITION. The transceivers of chapter 04: radio states, the front-end outputs, the calibration store, sweeps and
temperature runs, retuning, and the antenna check. -/

namespace Sys2Proof.Machine

/-! ## Front-end outputs (R123, R124) -/

/-- Is the radio's tuned channel on its high-band port? -/
def Dev.tunedHigh (d : Dev) (r : RadioId) : Bool := match (d.radio r).chan with | some i => d.chanHigh i | none => false

/-- FE_CTL for the present levels of PA_EN and LNA_EN. -/
def Dev.feCtl (d : Dev) (r : RadioId) (pa lna : Bool) : Nat :=
  let hi := d.tunedHigh r
  if pa then d.cfgFld (if hi then Reg.rfFectl_hb_tx r else Reg.rfFectl_lb_tx r)
  else if lna then d.cfgFld (if hi then Reg.rfFectl_hb_rx r else Reg.rfFectl_lb_rx r)
  else d.cfgFld (Reg.rfFectl_idle r)

/-- PA_EN of a radio (bit 8 of its pins). -/
def Dev.paEn (d : Dev) (r : RadioId) : Bool := (d.radio r).pins.getLsbD 8
/-- LNA_EN of a radio (bit 7). -/
def Dev.lnaEn (d : Dev) (r : RadioId) : Bool := (d.radio r).pins.getLsbD 7

/-- Drive PA_EN, LNA_EN and FE_CTL; COEX_REQ (bit 6) stays. LNA_EN gives way to PA_EN (R124). -/
def Dev.drive (d : Dev) (r : RadioId) (pa lna : Bool) : Dev :=
  let lna := lna && !pa
  let req := (d.radio r).pins.getLsbD 6
  d.modRadio r fun x => { x with
    pins := BitVec.ofNat 9 (256 * pa.toNat + 128 * lna.toNat + 64 * req.toNat + d.feCtl r pa lna % 64) }

/-- COEX_REQ is asserted or not (bit 6). -/
def Dev.coexReq (d : Dev) (r : RadioId) (on : Bool) : Dev :=
  d.modRadio r fun x => { x with pins := (x.pins &&& 0x1BF) ||| BitVec.ofNat 9 (64 * on.toNat) }
/-- The level of the COEX_REQ ball, by REQ_POL (Table 4.13). -/
def Dev.coexReqHigh (d : Dev) (r : RadioId) : Bool := (d.radio r).pins.getLsbD 6 != d.cfgBit (Reg.rfCoexcfg_req_pol r)

/-! ## States (R151) -/

/-- The inhibited ports: bit 0 low band, bit 1 high band. -/
def Dev.inhibited (d : Dev) (r : RadioId) : Nat :=
  (d.bit (Reg.rfStat_lb_inhibit r)).toNat + 2 * (d.bit (Reg.rfStat_hb_inhibit r)).toNat

/-- CHAN_CONFIG's opcode. -/
def opChanConfig : Half := 0x0010
/-- Radios whose entry of an index is valid. -/
def Dev.validCount (d : Dev) (i : Nat) : Nat := (radios.filter fun r => d.entryValid r i).length

/-- Show a running CHAN_CONFIG's progress, and finish it when every radio in READY or RUNNING holds a valid entry
(R127). -/
def Dev.chanCheck (d : Dev) : Dev :=
  match d.runningOp opChanConfig with
  | none => d
  | some r =>
    if d.chanValid r.arg then
      let d := d.progress opChanConfig 100 (d.validCount r.arg)
      d.finish r.cmd stOk 0
    else if r.part.toNat = d.validCount r.arg then d
    else d.progress opChanConfig (33 * d.validCount r.arg) (d.validCount r.arg)

/-- A RADIO_STATE event (Table 13.10). -/
def Dev.radioEvent (d : Dev) (r : RadioId) (cause new old : Nat) : Dev :=
  d.event 0x0005 cause [(8, [byte r, byte new, byte old, byte (d.inhibited r)])]

/-- Change RF_STAT.STATE; every change writes one event (R151). A CHAN_CONFIG that waited for this radio's entry no longer
does once the radio has left READY and RUNNING (R127). -/
def Dev.setRf (d : Dev) (r : RadioId) (new cause : Nat) : Dev :=
  let old := d.rfState r
  if old = new then d else ((d.setFld (Reg.rfStat_state r) new).radioEvent r cause new old).chanCheck

/-- A FAULT event (Table 16.9) of a class for a part. -/
def Dev.faultEvent (d : Dev) (cls part : Nat) : Dev :=
  { d with freeCtr := d.freeCtr + 1 }.event 0x0040 cls [(8, [byte part]), (12, le 4 (Config.recoveryUs d.freeCtr))]

/-- The first slot whose rows a failure detected now leaves to a carrier: the next one, or the one after when the TG
before it has begun (R492). -/
def Dev.remapFirst (d : Dev) : Int := d.nextS + (if d.tim.tgBegun then 1 else 0)

/-- Senders of delivered uplinks whose ACK symbol this radio no longer sends: their SEQ becomes FAULT_SEQ (R495). -/
def Dev.recordFaultSeq (d : Dev) (acked : List (Nat × Byte)) : Dev :=
  acked.foldl (fun d p => d.modSensor p.1 fun x => { x with faultSeq := some p.2 }) d

/-- Does some radio still send an ACK symbol for the same sender's uplink? -/
def Dev.ackElsewhere (d : Dev) (a : Nat × Byte) : Bool :=
  radios.any fun r => ((d.radio r).planned ++ (d.radio r).onAir).any fun b => b.acked.contains a

/-- RA cells of a radio that were busy and never passed a CRC32 (R171, Table 5.19). -/
def Dev.raLost (d : Dev) (l : List Cell) : Dev :=
  let n := (l.filter fun c => c.kind == .ra && c.state != .idle && !c.crcOk).length
  { d with sch := { d.sch with raK := d.sch.raK + n } }.bumpBy Cnt.raCollided n

/-- What a part carried waits again in SCH or in its link queue (Table 4.4, R492). -/
def Dev.releasePart (d : Dev) (p : TxPart) : Dev :=
  let free (l : List Downlink) : List Downlink := l.map fun (x : Downlink) => if x.mpdu = p.mpdu then { x with sent := false } else x
  match p.what with
  | .head i => d.modSensor i fun x => { x with queue := free x.queue }
  | .loadmap i => d.modSensor i fun x =>
      { x with lm := x.lm.map fun (m : LmFrame) => if m.mpdu = p.mpdu then { m with sent := false } else m }
  | .beacon => d
  | .jrsp => { d with sch := { d.sch with jrsp := free d.sch.jrsp } }
  | .bcast => { d with sch := { d.sch with bcast := free d.sch.bcast } }
  | .mesh l =>
    d.modLink l fun k =>
      { k with queue := k.queue.map fun (m : LinkMpdu) => if m.mpdu = p.mpdu then { m with sent := false } else m }

/-- A burst that is not sent: its parts wait again, and a wake request that it carried may start again. -/
def Dev.releaseBurst (d : Dev) (b : Burst) : Dev :=
  let d := b.parts.foldl Dev.releasePart d
  match b.wake with
  | none => d
  | some w =>
    let again := fun (x : WakeReq) => if x.started && x.code == w && x.chan == b.chan then { x with started := false } else x
    { d with sch := { d.sch with wakeQ := d.sch.wakeQ.map again } }

/-- What a radio holds of receptions and transmissions is dropped: what it was to send waits again, and the senders whose
ACK symbols go unsent have their SEQ recorded. What it has sent still waits for its ACK symbols. A temperature run is dropped
without completing: CAL_STARVED stays as it stands until a later run completes (R141; DESIGN CHOICE, log entry 185). -/
def Dev.clearAir (d : Dev) (r : RadioId) : Dev :=
  let x := d.radio r
  let d := d.modRadio r fun (y : Radio) => { y with planned := [] }
  let d := d.recordFaultSeq ((x.planned.flatMap (·.acked)).filter fun a => !d.ackElsewhere a)
  let d := (d.raLost x.cells)
  let d := (x.planned ++ x.onAir).foldl Dev.releaseBurst d
  (d.modRadio r fun x => { x with
    cells := [], planned := [], onAir := [], quiet := [], agc := .preset, passed := false, missRun := 0,
    stuck := false, noRx := false, rxS := none, stuckRun := 0, txLowRun := 0, chan := none, target := none, tuneWait := false, coexNext := false,
    checked := none, tempRun := none, calDone := false }).setBit (Reg.rfStat_lock r) false

/-- Planned bursts of a radio whose row a remap has taken go out on the radio that carries the row, or wait again (R492). -/
def Dev.moveBursts (d : Dev) (r : RadioId) (l : List Burst) : Dev :=
  l.foldl (fun d b =>
    match (d.remapped b.firstS).find? fun x => x.1 == r with
    | some (_, _, some y) => d.modRadio y fun x => { x with planned := x.planned ++ [b] }
    | _ => d.releaseBurst b) d

/-- A radio moves to FAILED: its rows are remapped, and what it was to send in a row that another radio carries goes out
there (R134, R137, R147, R167, R491, R492). The remap of an inhibited port stays beside it (R147). -/
def Dev.failRadio (d : Dev) (r : RadioId) (cause : Nat) : Dev :=
  let first := d.remapFirst
  let moved := (d.radio r).planned.filter fun b => b.kind != .ack && decide (first ≤ b.firstS)
  let d := d.modRadio r fun x => { x with planned := x.planned.filter fun b => !moved.contains b }
  let d := (d.clearAir r).drive r false false
  let d := d.setRf r rsFailed cause
  let others := d.sch.remaps.filter fun m => m.radio != r || m.ports != 0
  { d with sch := { d.sch with remaps := ⟨r, 0, first, false, false⟩ :: others } }.moveBursts r moved

/-! ## Levels (R122, R145) -/

/-- The output level of a radio's port on a channel (R122): attenuation plus TX_TRIM, clamped at 40 dB, and 6 dB less
while the port is backed off. -/
def Dev.txLevel (d : Dev) (r : RadioId) (chan : Nat) : Cdb :=
  let hi := d.chanHigh chan
  let att := min 160 (d.cfgFld (if hi then Reg.rfTxcfg_hb_atten r else Reg.rfTxcfg_lb_atten r))
  let trim := match d.chan chan with | some c => c.txTrim | none => 0
  let back := d.bit (if hi then Reg.rfStat_hb_backoff r else Reg.rfStat_lb_backoff r)
  (if hi then 1000 else 1200) - 25 * (min 160 (att + trim) : Nat) - (if back then 600 else 0)

/-- The runs of one port after a valid measurement of return loss `rl` (Table 4.6). -/
def vswrRuns (v : PortVswr) (backed : Bool) (rl : Cdb) : PortVswr :=
  { above3 := if rl < 600 then v.above3 + 1 else 0,
    good := if backed && decide (740 ≤ rl) then v.good + 1 else 0,
    above6 := if rl < 290 then v.above6 + 1 else 0 }

/-- A port becomes inhibited (R147): latched, and no further burst goes out on it; both inhibited make the radio
FAILED. -/
def Dev.inhibitPort (d : Dev) (r : RadioId) (hi : Bool) : Dev :=
  let first := d.remapFirst
  let d := (d.raise (if hi then Reg.rfStat_hb_inhibit r else Reg.rfStat_lb_inhibit r)).bump (Cnt.vswrInhibit r)
  let d := d.raise (Reg.rfStat_vswr_event r)
  let d := d.radioEvent r 3 (d.rfState r) (d.rfState r)
  let both := d.inhibited r == 3
  let port : Remap := ⟨r, if hi then 2 else 1, first, false, false⟩
  let d := { d with sch := { d.sch with remaps := d.sch.remaps ++ [port] } }
  if both then d.failRadio r 3
  else
    let cut := (d.radio r).planned.filter fun b => d.chanHigh b.chan == hi
    let d := d.modRadio r fun x => { x with planned := x.planned.filter fun b => !cut.contains b }
    let d := d.recordFaultSeq ((cut.flatMap (·.acked)).filter fun a => !d.ackElsewhere a)
    let d := d.moveBursts r (cut.filter fun b => b.kind != .ack && decide (first ≤ b.firstS))
    (cut.filter fun b => b.kind == .ack || decide (b.firstS < first)).foldl Dev.releaseBurst d

/-- The antenna check after a burst on a channel, for the port that sent it (R145, R147). -/
def Dev.antennaCheck (d : Dev) (r : RadioId) (chan : Nat) (fwd refl : Cdb) : Dev :=
  if fwd < -2500 then d
  else
    let hi := d.chanHigh chan
    let rl := (fwd - refl + 10 * d.signedFld (Reg.rfAntcfg_det_ofs r)) / 10 * 10
    let bo := if hi then Reg.rfStat_hb_backoff r else Reg.rfStat_lb_backoff r
    let backed := d.bit bo
    let v := vswrRuns (if hi then (d.radio r).highVswr else (d.radio r).lowVswr) backed rl
    let start := !backed && decide (4 ≤ v.above3)
    let stop := backed && decide (64 ≤ v.good)
    let en := d.cfgBit (Reg.rfAntcfg_vswr_en r)
    let v' : PortVswr := if start ∨ stop then { v with above3 := 0, good := 0 } else v
    let d := d.modRadio r fun x => if hi then { x with highVswr := v' } else { x with lowVswr := v' }
    let d := if start then d.bump (Cnt.vswrBackoff r) else d
    let d := if start && en then (d.raise bo).raise (Reg.rfStat_vswr_event r) else d
    let d := if stop && en then d.setBit bo false else d
    if decide (v.above6 < 2) || d.bit (if hi then Reg.rfStat_hb_inhibit r else Reg.rfStat_lb_inhibit r) then d
    else if en then d.inhibitPort r hi
    else
      let again (w : PortVswr) : PortVswr := { w with above6 := 0 }
      (d.modRadio r fun x => if hi then { x with highVswr := again x.highVswr }
        else { x with lowVswr := again x.lowVswr }).bump (Cnt.vswrInhibit r)

/-- The transmit chain failure of R491: forward level more than 20 dB low on 4 bursts whose expected level is −15 dBm
or more. -/
def Dev.txChainCheck (d : Dev) (r : RadioId) (fwd expected : Cdb) : Dev :=
  if expected < -1500 then d
  else
    let run := if fwd < expected - 2000 then (d.radio r).txLowRun + 1 else 0
    let d := d.modRadio r fun x => { x with txLowRun := run }
    if 4 ≤ run then d.failRadio r 5 else d

/-! ## The calibration store (R125 to R128, R137 to R141) -/

/-- The entry that a radio derives for a channel index. -/
def calEntry (r : RadioId) (i : Nat) : CalEntry :=
  ⟨Config.calVco r i, Config.calIq r i, Config.calDc r i, Config.calLo r i⟩

/-- A radio's entry for an index becomes valid. -/
def Dev.setEntry (d : Dev) (r : RadioId) (i : Nat) : Dev :=
  d.modRadio r fun x => { x with entries := Sparse.put none x.entries i (some (calEntry r i)) }
/-- A radio's entry for an index becomes invalid, and its noise floors restart (R126). -/
def Dev.clearEntry (d : Dev) (r : RadioId) (i : Nat) : Dev :=
  d.modRadio r fun x => { x with
    entries := Sparse.put none x.entries i none, floors := x.floors.filter fun p => p.1 / 1536 != i }

/-- The configured channel indices. -/
def Dev.configured (d : Dev) : List Nat := d.chans.filterMap fun p => p.2.map fun _ => p.1

/-- Start a full sweep: CALIBRATING for 40 slots and 2 per configured index (R137). A temperature run in progress is dropped
(DESIGN CHOICE, log entry 185). -/
def Dev.startSweep (d : Dev) (r : RadioId) (cmd : Option Cmd) (cause : Nat) : Dev :=
  let l := d.configured
  let d := d.setRf r rsCalibrating cause
  ((d.modRadio r fun x => { x with
    sweep := some ⟨cmd, l, [], byte (d.fld (Reg.rfTemp_now r)), d.tim.slotS + 40 + 2 * l.length⟩, buildQ := [],
    tempRun := none, calDone := false, chan := none, target := none, tuneWait := false }).setBit (Reg.rfStat_lock r)
      false).drive r false false

/-- Complete commands held for a radio under R142 with a status: those whose target slot is not after `last`, or all. -/
def Dev.resolveHeld (d : Dev) (r : RadioId) (last : Option Int) (status : Nat) : Dev :=
  let due (w : WakeReq) : Bool := match w.heldFor with
    | some (y, s) => y == r && (match last with | some l => decide (s ≤ l) | none => true)
    | none => false
  let held := d.sch.wakeQ.filter due
  let d := { d with sch := { d.sch with wakeQ := d.sch.wakeQ.filter fun w => !due w } }
  held.foldl (fun d w => d.finish w.cmd status 0) d

/-- The 26 bits of a tuner frame (Table 4.5). -/
def tunerFrame (w : BitVec 24) : List Bool :=
  let b := bitsMsb 24 w.toNat
  true :: b ++ [b.foldl (· != ·) false]

/-- The tuner frames of a retune to a channel index, in order (R143, R144). -/
def Dev.sendTuner (d : Dev) (r : RadioId) (i : Nat) : Dev :=
  match d.chan i with
  | none => d
  | some c => c.tune.foldl (fun d w => d.out (.tuner r (tunerFrame w))) d

/-- A sweep at a slot tick: after the 40 slots of the ports' calibration, every second slot begins the cold retune of the next
configured index, with its tuner frames (R137, R144; DESIGN CHOICE, log entry 186: the manual does not order the parts of a
sweep). -/
def Dev.sweepTick (d : Dev) (r : RadioId) : Dev :=
  match (d.radio r).sweep with
  | none => d
  | some s =>
    let k := d.tim.slotS - (s.ends - 2 * s.built.length)
    if k < 0 ∨ k % 2 ≠ 0 then d
    else match s.built[(k / 2).toNat]? with
      | none => d
      | some i => (d.sendTuner r i).bump (Cnt.coldRetune r)

/-- RF_CAL_SWEEP's opcode. -/
def opRfCalSweep : Half := 0x0017

/-- A sweep's results are applied: the radio is READY, with its synthesiser locked on the last index that the sweep built
(Table 4.8), and builds the indices that changed meanwhile (R127). -/
def Dev.sweepDone (d : Dev) (r : RadioId) (s : Sweep) : Dev :=
  let good := s.built.filter fun i => !s.changed.contains i
  let d := good.foldl (fun d i => d.setEntry r i) d
  let d := (d.setFld (Reg.rfTemp_last r) s.temp.toNat).setBit (Reg.rfStat_lock r) true
  let hz := match s.built.getLast?.bind d.chan with | some c => d.carrierWord c.freq.toNat | none => 0
  let y := d.freqY
  let d := (d.modRadio r fun x => { x with
    buildQ := s.changed, chan := s.built.getLast?, target := none, hz := hz, yApplied := y }).setRf r rsReady 5
  let d := match s.cmd with
    | none => d
    | some c => (d.progress opRfCalSweep 100 good.length).finish c stOk 0
  { d with sch := { d.sch with
    wakeQ := d.sch.wakeQ.map fun (w : WakeReq) =>
      if (match w.heldFor with | some x => x.1 == r | none => false) then { w with heldFor := none } else w } }.chanCheck

/-- A sweep ends (R127, R137): once its 40 slots and 2 per index have passed its results are applied; a sweep that fails
moves the radio to FAILED. -/
def Dev.endSweep (d : Dev) (r : RadioId) (ok : Bool) : Dev :=
  match (d.radio r).sweep with
  | none => d
  | some s =>
    if ok && decide (d.tim.slotS < s.ends) then d
    else
      let d := d.modRadio r fun x => { x with sweep := none }
      if ok then d.sweepDone r s
      else
        let d := (d.failRadio r 2).resolveHeld r none stFault
        match s.cmd with
        | none => d
        | some c => d.finish c stFault 0

/-- The absolute difference of two signed bytes. -/
def tempDiff (a b : Nat) : Nat := (toSigned 8 a - toSigned 8 b).natAbs

/-- At the tick of slot 0: read the temperature, and start a run when it has moved beyond CAL_DT (R138). A run starts on a
radio in READY or RUNNING only (DESIGN CHOICE, log entry 187: the rule names no states). -/
def Dev.readTemp (d : Dev) (r : RadioId) (t : Byte) : Dev :=
  let d := d.setFld (Reg.rfTemp_now r) t.toNat
  let dt := orElse0 (d.cfgFld (Reg.rfCalcfg_cal_dt r)) 1
  if d.cfgBit (Reg.rfCalcfg_auto_en r) && (d.radio r).tempRun.isNone && d.rfReadyRun r &&
      decide (dt < tempDiff t.toNat (d.fld (Reg.rfTemp_last r))) then
    let n := ((d.radio r).entries.filter fun p => p.2.isSome).length
    d.modRadio r fun x => { x with tempRun := some ⟨64 + n, t, 0, false, 0, 0⟩ }
  else d

/-- At a superframe boundary: a run that has not completed after STARVE_SF superframes is flagged and counted once (R141). -/
def Dev.starveCheck (d : Dev) (r : RadioId) : Dev :=
  match (d.radio r).tempRun with
  | none => d
  | some t =>
    let due := decide (orElse0 (d.cfgFld (Reg.rfCalcfg_starve_sf r)) 1 ≤ t.sfs + 1)
    let d := d.modRadio r fun x => { x with tempRun := some { t with sfs := t.sfs + 1, flagged := t.flagged || due } }
    if due && !t.flagged then (d.raise (Reg.rfStat_cal_starved r)).bump (Cnt.calStarved r) else d

/-- All results of a completed run are applied together, in a TG that belongs to no train (R140). -/
def Dev.applyCal (d : Dev) (r : RadioId) : Dev :=
  match (d.radio r).tempRun with
  | none => d
  | some t =>
    if !(d.radio r).calDone || d.rowContinues r d.nextS then d
    else
      let l := (d.radio r).entries.filterMap fun p => p.2.map fun _ => p.1
      let d := l.foldl (fun d i => d.setEntry r i) d
      let d := (d.setFld (Reg.rfTemp_last r) t.temp.toNat).setBit (Reg.rfStat_cal_starved r) false
      ((d.modRadio r fun x => { x with tempRun := none, calDone := false }).raise
        (Reg.rfStat_cal_applied r)).bump (Cnt.calRun r)

/-! ## Retuning (R130, R135, R136, R143, R144) -/

/-- Start a retune to a channel index: the outputs fall, the tuner words go out, the synthesiser takes its new word. -/
def Dev.retuneTo (d : Dev) (r : RadioId) (i : Nat) : Dev :=
  match d.chan i with
  | none => d
  | some c =>
    let d := ((d.drive r false false).setBit (Reg.rfStat_lock r) false).sendTuner r i
    let hz := d.carrierWord c.freq.toNat
    let y := d.freqY
    let cold := !d.entryValid r i
    let d := d.modRadio r fun x => { x with chan := some i, target := some i, hz := hz, yApplied := y }
    d.bump (if cold then Cnt.coldRetune r else Cnt.retune r)

/-- The channel index that a radio needs in slot count `s`: that of its row; an IDLE row counts as carrying the channel of the
row that follows it (R205). -/
def Dev.rowChan (d : Dev) (r : RadioId) (s : Int) : Option Nat :=
  let w := d.rowCarried r s
  if (d.searchChan r w).isSome then d.searchChan r w
  else if w.type ≠ rowIdle then some (d.airChan w)
  else
    let n := d.rowCarried r (s + 1)
    if n.type = rowIdle then none else some (d.airChan n)

/-- A retune when the next slot uses a different channel index, never a cold one; else a new frequency word where y has
changed (R130, R136). -/
def Dev.tuneNow (d : Dev) (r : RadioId) : Dev :=
  match d.rowChan r d.nextS with
  | none => d
  | some i =>
    if (d.radio r).chan = some i then
      if (d.radio r).yApplied = d.freqY then d
      else match d.chan i with
        | none => d
        | some c =>
          let hz := d.carrierWord c.freq.toNat
          let y := d.freqY
          d.modRadio r fun x => { x with hz := hz, yApplied := y }
    else if d.entryValid r i then d.retuneTo r i else d

/-- The start of TG on one radio: it retunes now, or at the fall of PA_EN while a burst still holds it (R130, R136). -/
def Dev.tgRadio (d : Dev) (r : RadioId) : Dev :=
  if !d.rfReadyRun r || d.rowContinues r d.nextS then d
  else if (d.radio r).onAir ≠ [] then d.modRadio r fun x => { x with tuneWait := true }
  else d.tuneNow r

/-- PA_EN has fallen: a retune that waited for it begins (R130). -/
def Dev.tuneAfter (d : Dev) (r : RadioId) : Dev :=
  if (d.radio r).tuneWait then (d.modRadio r fun x => { x with tuneWait := false }).tuneNow r else d

/-! ## Chunks of a temperature run (R139) -/

/-- Does a radio have nothing to do in slot count `s`: no grant cell, beacon, Mladol slot, WAKE row or continuing train? -/
def Dev.rowFree (d : Dev) (r : RadioId) (s : Int) : Bool :=
  let w := d.rowCarried r s
  w.type == rowIdle || ((w.type == rowUp || w.type == rowDown) && w.used.isEmpty)

/-- The earliest front-end event of the next slot on a radio, in picoseconds from T0 of the present one: acquisition opens
46.875 µs before a row that it receives; LNA_EN falls 1 µs before the check instant of a burst, which lies PA_LEAD before it
(Table 4.2, R139). A row that transmits may begin with a burst. -/
def Dev.nextFrontEnd (d : Dev) (r : RadioId) : Int :=
  let w := d.rowCarried r d.nextS
  let lead : Int := max 1 (d.cfgFld (Reg.rfTxcfg_pa_lead r) : Nat)
  if w.type = rowIdle then 5000000000
  else if w.type = rowUp then 2500000000 - 46875000
  else if w.type = rowMesh then 2500000000 - max 46875000 (1000000 * (lead + 1))
  else 2500000000 - 1000000 * (lead + 1)

/-- A chunk lasts 80 µs (R139). -/
def chunkPs : Int := 80000000

/-- May a chunk of a temperature run that starts `t` picoseconds after T0 take place here (R139): in a TG in which the radio
does not retune, if it ends before the next slot's first front-end event; or as one of 24 in a free slot? -/
def Dev.chunkPlace (d : Dev) (r : RadioId) (run : TempRun) (t : Int) : Bool :=
  let n := if run.chunkS = d.tim.slotS then run.chunks else 0
  let free := d.rowFree r d.tim.slotS && decide (n < 24) && decide (0 ≤ t) && decide (t + chunkPs ≤ 2500000000)
  let retunes := match d.rowChan r d.nextS with | some i => (d.radio r).chan != some i | none => false
  let tg := d.tim.tgBegun && !d.rowContinues r d.nextS && !retunes && decide (n = 0) &&
    decide (2343750000 ≤ t) && decide (t + chunkPs ≤ d.nextFrontEnd r)
  d.rfReadyRun r && !d.paEn r && (d.radio r).onAir.isEmpty && (d.radio r).target.isNone && (free || tg)

/-- One chunk of a temperature run, which starts `t` picoseconds after T0 (R139); it radiates nothing (R124). A last chunk in a
TG applies the results in the same TG (R140). -/
def Dev.calChunkDone (d : Dev) (r : RadioId) (t : Int) : Dev :=
  match (d.radio r).tempRun with
  | none => d
  | some run =>
    if !d.chunkPlace r run t then d
    else
      let n := if run.chunkS = d.tim.slotS then run.chunks else 0
      let left := run.left - 1
      let d := (d.modRadio r fun x => { x with
        tempRun := some { run with left := left, chunkS := d.tim.slotS, chunks := n + 1 }, calDone := left == 0 }).drive r
          false false
      if d.tim.tgBegun then d.applyCal r else d

/-- At the end of period 14 a radio in ACKRX returns to PRESET, and a COEX_REQ held for its ACK symbols falls (Table 3.1,
R148, R150). The gain stays where the ACK preset put it until the next uplink slot presets it (R85, R86; DESIGN CHOICE, log
entry 188). -/
def Dev.ackrxEnd (d : Dev) (r : RadioId) : Dev :=
  if (d.radio r).agc ≠ .ackrx then d
  else
    let d := d.modRadio r fun x => { x with agc := .preset }
    if (d.radio r).onAir = [] ∧ !(d.radio r).coexNext then d.coexReq r false else d

/-- SYNTH_LOCK: a retune in progress reaches lock. -/
def Dev.synthLocked (d : Dev) (r : RadioId) : Dev :=
  if (d.radio r).target.isNone then d
  else (d.modRadio r fun x => { x with target := none }).setBit (Reg.rfStat_lock r) true

/-- CHANNEL_ENTRY_BUILD: a cold retune and a calibration pass, in this slot and the one before it, both free, have built an
entry that the radio had to build (R127). -/
def Dev.entryBuilt (d : Dev) (r : RadioId) (i : Nat) : Dev :=
  if !d.rfReadyRun r || !(d.radio r).buildQ.contains i || !d.rowFree r (d.tim.slotS - 1) || !d.rowFree r d.tim.slotS then d
  else
    let d := ((d.retuneTo r i).synthLocked r).setEntry r i
    (d.modRadio r fun x => { x with buildQ := x.buildQ.filter (· != i) }).chanCheck

/-! ## Coexistence (R148, R149) -/

/-- The start of a burst in TAI nanoseconds: its symbol period, D earlier for a child-to-parent frame (R212). -/
def Dev.burstStart (d : Dev) (b : Burst) : Int :=
  d.tickTai b.firstS + (if b.kind = .ack then 2187500 else 0) - (625 * b.lead / 10 : Nat)

/-- The length of a burst in nanoseconds: an ACK symbol, a WAKE pattern, or a train up to its last DATA symbol. -/
def Burst.nanos (b : Burst) : Nat :=
  match b.kind with
  | .ack => 156250
  | .wake => 7500000
  | _ => 156250 * (16 * (b.parts.foldl (fun a p => max a p.train) 1) - 3)

/-- PA_LEAD in microseconds. -/
def Dev.paLead (d : Dev) (r : RadioId) : Nat := orElse0 (d.cfgFld (Reg.rfTxcfg_pa_lead r)) 1

/-- The check instant of a burst. -/
def Dev.checkInstant (d : Dev) (r : RadioId) (b : Burst) : Int := d.burstStart b - 1000 * d.paLead r

/-- When COEX_REQ is asserted for a burst (R148). -/
def Dev.coexInstant (d : Dev) (r : RadioId) (b : Burst) : Int :=
  d.burstStart b - 1000 * (max (d.cfgFld (Reg.rfCoexcfg_coex_lead r)) (d.paLead r + 1) : Nat)

/-- When PA_EN falls after a burst (Table 4.2). -/
def Dev.endInstant (d : Dev) (r : RadioId) (b : Burst) : Int :=
  d.burstStart b + b.nanos + 1000 * d.cfgFld (Reg.rfTxcfg_pa_lag r)

/-- COEX_REQ_ASSERT: before a burst, or before a reception with RX_REQ. -/
def Dev.coexAssert (d : Dev) (r : RadioId) : Dev :=
  let due := (d.radio r).planned != [] || d.cfgBit (Reg.rfCoexcfg_rx_req r)
  if d.cfgBit (Reg.rfCoexcfg_en r) && d.rfReadyRun r && due then
    let d := match (d.radio r).planned.head? with | some b => d.reachTai (d.coexInstant r b) | none => d
    let held := (d.radio r).onAir != [] || (d.radio r).agc == .ackrx
    (d.modRadio r fun x => { x with coexNext := x.coexNext || held }).coexReq r true
  else d

/-- COEX_REQ falls with PA_EN or at the end of a reception, unless the next burst's assertion has come (R148). -/
def Dev.coexFall (d : Dev) (r : RadioId) : Dev :=
  if (d.radio r).coexNext then d.modRadio r fun x => { x with coexNext := false } else d.coexReq r false

/-- With EN = 0 COEX_REQ stays deasserted (R148). -/
def Dev.coexOff (d : Dev) (r : RadioId) : Dev :=
  if d.cfgBit (Reg.rfCoexcfg_en r) then d else (d.modRadio r fun x => { x with coexNext := false }).coexReq r false

/-- COEX_GNT_WITHDRAWN: the burst on air is completed, and counted. -/
def Dev.coexWithdrawn (d : Dev) (r : RadioId) : Dev :=
  if d.cfgBit (Reg.rfCoexcfg_en r) && (d.radio r).onAir != [] then
    (d.bump (Cnt.coexLate r)).raise (Reg.rfStat_coex_late r)
  else d

/-- The synthesiser's lock as a check finds it; a miss with a valid entry counts toward the four of R134. Answers whether
the radio fails by it. -/
def Dev.lockSeen (d : Dev) (r : RadioId) (lock : Bool) : Dev × Bool :=
  let valid := match (d.radio r).chan with | some i => d.entryValid r i | none => false
  let run := if lock then 0 else if valid then (d.radio r).missRun + 1 else (d.radio r).missRun
  let d := (d.modRadio r fun x => { x with missRun := run }).setBit (Reg.rfStat_lock r) lock
  (d, decide (4 ≤ run))

/-- Is the grant present, with COEX_GNT at this level (Table 4.13)? With EN = 0 it counts as present (R148). -/
def Dev.granted (d : Dev) (r : RadioId) (gnt : Bool) : Bool :=
  !d.cfgBit (Reg.rfCoexcfg_en r) || gnt != d.cfgBit (Reg.rfCoexcfg_gnt_pol r)

/-! ## State changes by the schedule (Table 4.8, R167, R494) -/

/-- READY and RUNNING at a superframe boundary. -/
def Dev.radioBoundary (d : Dev) (r : RadioId) : Dev :=
  let busy := hasRows d.sch.active r || d.carriesAny r
  if d.rfState r = rsReady ∧ hasRows d.sch.active r then d.setRf r rsRunning 5
  else if d.rfState r = rsRunning ∧ !busy then d.setRf r rsReady 5
  else d

/-- Numbers of rows of a remap that are carried and not carried. -/
def Dev.remapRows (d : Dev) (m : Remap) : Nat × Nat :=
  let rows := d.sch.active.filter fun p => p.1 / 512 == m.radio.val && d.remapCovers m p.2
  let c := (rows.filter fun p => (d.carrierOf m.radio (p.1 % 512)).isSome).length
  (c, rows.length - c)

/-- The carrying radios take the failed radio's noise floors for the channels they take over (R106). -/
def Dev.seedRemap (d : Dev) (m : Remap) : Dev :=
  (d.sch.active.filter fun p => p.1 / 512 == m.radio.val && d.remapCovers m p.2).foldl (fun d p =>
    match d.carrierOf m.radio (p.1 % 512) with
    | some y => d.seedFloors m.radio y p.2.chan.toNat
    | none => d) d

/-- A remap begins at the first slot it carries: counted, with a RADIO_REMAP and a FAULT event (R489, Table 16.9). -/
def Dev.beginRemap (d : Dev) (m : Remap) : Dev :=
  let n := d.remapRows m
  let d := d.seedRemap m
  let d := { d with sch := { d.sch with remaps := d.sch.remaps.map fun x => if x = m then { x with begun := true } else x } }
  let d := (d.bump Cnt.radioFailover).event 0x0041 0
    [(8, [byte m.radio, byte m.ports.toNat]), (10, le 2 (slotOf m.firstS)), (12, le 2 n.1), (14, le 2 n.2)]
  d.faultEvent 4 m.radio

/-- The remaps at a slot tick: those that begin, and the rows of the slot counted as carried or not (R167, R168). -/
def Dev.remapTick (d : Dev) : Dev :=
  let s := d.tim.slotS
  let start := d.sch.remaps.filter fun m => !m.begun && decide (m.firstS ≤ s)
  let d := start.foldl (fun d m => d.beginRemap m) d
  (d.remapped s).foldl (fun d x =>
    match x.2.2 with
    | some y =>
      let d := d.bump Cnt.rowsCarried
      if d.rfState y = rsReady then d.setRf y rsRunning 5 else d
    | none =>
      if (d.remapOf x.1 x.2.1).any fun m => decide (m.firstS ≤ s) then
        (d.bump Cnt.rowsNotCarried).raise Reg.schStat_nocarry
      else d) d

/-- End a remap: REMAP_END (R494). -/
def Dev.endRemap (d : Dev) (m : Remap) : Dev :=
  let d := { d with sch := { d.sch with remaps := d.sch.remaps.filter fun x => x != m } }
  (d.bump Cnt.remapEnd).event 0x0042 0 [(8, [byte m.radio]), (12, le 4 d.sf)]

/-- The remaps that end at a superframe boundary: of a radio READY again, and of ports that RF_ANT_ENABLE names. -/
def Dev.remapBoundary (d : Dev) : Dev :=
  let done := d.sch.remaps.filter fun m => if m.ports = 0 then d.rfReadyRun m.radio else m.ending
  done.foldl (fun d m => d.endRemap m) d

end Sys2Proof.Machine
end

