-- ==== Sys2Proof/Machine/Egress.lean ====
section
/-! DEFINITION. Egress of chapter 09: the packet buffer, admission, the link pair's members, gates, shapers, deficit round
robin, and the frame boundary. -/

namespace Sys2Proof.Machine

/-! ## Ports and the pair -/

def emptyQueue : EgQueue := ⟨[], 0, 0, false⟩
def emptyPort : EthPort := ⟨[], [], none, [], 0, 0, 0, none, none, none, none, 0, 0, 0, 0, false, 0, none, 0⟩

def Dev.port (d : Dev) (p : PortId) : EthPort := match p with | 0 => d.eth.p0 | 1 => d.eth.p1
def Dev.setPort (d : Dev) (p : PortId) (x : EthPort) : Dev :=
  match p with
  | 0 => { d with eth := { d.eth with p0 := x } }
  | 1 => { d with eth := { d.eth with p1 := x } }
def Dev.modPort (d : Dev) (p : PortId) (f : EthPort → EthPort) : Dev := d.setPort p (f (d.port p))
def Dev.queue (d : Dev) (p : PortId) (q : Nat) : EgQueue := Sparse.get emptyQueue (d.port p).queues q
def Dev.setQueue (d : Dev) (p : PortId) (q : Nat) (x : EgQueue) : Dev :=
  d.modPort p fun y => { y with queues := Sparse.put emptyQueue y.queues q x }
def otherPort (p : PortId) : PortId := match p with | 0 => 1 | 1 => 0

/-- The length of a frame on the wire, with padding and FCS (R285, R287). -/
def frameLen (b : List Byte) : Nat := max 64 (b.length + 4)
def EgFrame.len (f : EgFrame) : Nat := frameLen f.bytes
def EgQueue.bytes (x : EgQueue) : Nat := x.frames.foldl (fun a f => a + f.len) 0

def Dev.linkUp (d : Dev) (p : PortId) : Bool := d.bit (Reg.ethStat_link p)
def Dev.maxLen (d : Dev) (p : PortId) : Nat := clampNat 1518 9216 (d.fld (Reg.ethCfg_maxlen p))
/-- The data rate of a mode in Mb/s (Table 9.1). -/
def modeRate (m : Nat) : Nat := if m = 1 then 10000 else if m = 2 then 2500 else if m = 3 ∨ m = 4 then 1000 else 0
def Dev.rateMb (d : Dev) (p : PortId) : Nat := modeRate (d.fld (Reg.ethStat_rate p))

/-- ETH_PAIRCFG in force (R315). -/
def Dev.pairWord (d : Dev) : Word := d.eth.pairCfg.getD (d.reg Reg.ethPaircfg)
def Dev.pairOn (d : Dev) : Bool := Reg.ethPaircfg_en.of d.pairWord == 1
/-- Is a member in service: up, and not stepping (R300)? -/
def Dev.inService (d : Dev) (p : PortId) : Bool :=
  d.linkUp p && match d.eth.pairStep with
    | some s => s.member != p || s.phase == .back
    | none => true
/-- The member that carries the flows that select `pick`. -/
def Dev.memberFor (d : Dev) (pick : PortId) : PortId :=
  if d.inService pick || !d.inService (otherPort pick) then pick else otherPort pick
/-- The port on which a copy for port `p` (2 is the pair) leaves: with the pair formed, both ports are one (R267, R300). -/
def Dev.outPort (d : Dev) (p : Nat) (pick : PortId) : PortId :=
  if d.pairOn then d.memberFor pick else if p = 0 then 0 else if p = 1 then 1 else d.memberFor pick

/-- ETH_PAIRSTAT shows the pair (Table 9.12). -/
def Dev.showPair (d : Dev) : Dev :=
  let c := if d.pairOn then (d.inService 0).toNat + 2 * (d.inService 1).toNat else 0
  (d.setFld Reg.ethPairstat_carry c).setBit Reg.ethPairstat_stepping d.eth.pairStep.isSome

/-- The device's own MAC address. -/
def Dev.ownMac (d : Dev) : List Byte := be 2 (d.fld Reg.pplMacHi_mac) ++ be 4 (d.reg Reg.pplMacLo).toNat
/-- The device's own IPv6 address. -/
def Dev.ownIp (d : Dev) : List Byte := (List.range 4).flatMap fun i => be 4 (d.reg (Reg.pplOwnip i)).toNat

/-! ## Admission (R288 to R290) -/

/-- Bytes that a part of the buffer holds; the strict reserve is counted per queue. -/
def Dev.partBytes (d : Dev) (part : BufPart) (p : PortId) (q : Nat) : Nat :=
  let inQ (x : EgQueue) : Nat := (x.frames.filter fun f => f.part == part).foldl (fun a f => a + f.len) 0
  if part = .strict then inQ (d.queue p q)
  else [(0 : PortId), 1].foldl (fun a r => (d.port r).queues.foldl (fun a (x : Nat × EgQueue) => a + inQ x.2) a) 0

/-- May a frame use a part (Table 9.3, R289)? -/
def partFor (part : BufPart) (q : Nat) (src : FrameSrc) : Bool :=
  match part with
  | .strict => decide (6 ≤ q)
  | .airRsv => src == .air
  | .shared => true
  | .spill => true
def partSize (part : BufPart) : Nat :=
  match part with
  | .strict => 131072
  | .airRsv => 1048576
  | .shared => 5767168
  | .spill => 67108864

/-- The part that takes a frame: the reserves first, then the shared pool, then the spill area in DRAM. -/
def Dev.findPart (d : Dev) (p : PortId) (q : Nat) (f : EgFrame) : Option BufPart :=
  [BufPart.strict, .airRsv, .shared, .spill].find? fun x =>
    partFor x q f.src && decide (d.partBytes x p q + f.len ≤ partSize x)

/-- LIMIT of a queue in bytes. -/
def Dev.queueLimit (d : Dev) (p : PortId) (q : Nat) : Nat := 4096 * orElse0 (d.fld (Reg.tshQcfg_limit p q)) 1

/-- Admit a frame to a queue; none while it finds no room. -/
def Dev.accept (d : Dev) (p : PortId) (q : Nat) (f : EgFrame) : Option Dev :=
  let x := d.queue p q
  if d.queueLimit p q < x.bytes + f.len then none
  else (d.findPart p q f).map fun part =>
    let held := match d.eth.moving with | some m => m.dest == p && f.pick == m.flow | none => false
    let d := d.setQueue p q { x with frames := x.frames ++ [{ f with part := part, held := held }] }
    if part = .spill then d.bump (Cnt.qSpilled p q) else d

/-- Enqueue a copy on a port (R283, R287, Table 9.4): answers false when the copy has to wait where it is. -/
def Dev.enqueue (d : Dev) (p0 q : Nat) (f : EgFrame) : Dev × Bool :=
  let p := d.outPort p0 f.pick
  if f.bounded && decide (d.maxLen p < f.bytes.length + 4) then
    let d := (d.bump (Cnt.txOversize p)).copyEnd f.src false true
    (match f.src with | .host r _ _ => d.txViolation r | _ => d, true)
  else if !d.linkUp p && !d.pairOn then ((d.bump (Cnt.dropLinkDown p)).copyEnd f.src false false, true)
  else match d.accept p q f with
    | some d => (if f.encap then d.bump Cnt.ulEncap else d, true)
    | none => match f.src with
      | .host _ _ _ => (d, false)
      | .eth _ => if d.bit (Reg.tshQcfg_policy p q) then (d, false) else (d.bump (Cnt.qDropFull p q), true)
      | .air => (d.bump (Cnt.qDropFull p q), true)

/-! ## Gates (R307, R309 to R312) -/

/-- The entries of a gate list within one cycle: start, end, gates. -/
def gateSegs (cycle : Nat) : Nat → List (Byte × Nat) → List (Nat × Nat × Byte)
  | _, [] => []
  | s, [(g, _)] => if s < cycle then [(s, cycle, g)] else []
  | s, (g, n) :: t =>
    if cycle ≤ s then []
    else
      let e := min cycle (s + max 1 n)
      (s, e, g) :: gateSegs cycle e t
def GateList.segs (g : GateList) : List (Nat × Nat × Byte) := gateSegs g.cycle 0 g.entries

/-- How long queue `q` stays open over a run of entries; none when all are open. -/
def openOver (q : Nat) : Nat → List (Nat × Nat × Byte) → Option Nat
  | _, [] => none
  | a, (s, e, g) :: t => if g.getLsbD q then openOver q (a + (e - s)) t else some a

/-- How long queue `q` stays open from offset `o` of the cycle, looking one cycle ahead. -/
def GateList.openFrom (g : GateList) (q o : Nat) : Option Nat :=
  let s := g.segs
  openOver q 0 (((s.filter fun x => decide (o < x.2.1)).map fun x => (max o x.1, x.2.1, x.2.2)) ++
    (s.filter fun x => decide (x.1 < o)).map fun x => (x.1, min o x.2.1, x.2.2))

/-- The gate list in force on a port: the list that waits, once its start is reached. -/
def Dev.gates (d : Dev) (p : PortId) : Option GateList :=
  if !d.bit (Reg.tshGclCfg_en p) then none
  else match (d.port p).pendGates with
    | some g => if g.start ≤ d.tai then some g else (d.port p).gates
    | none => (d.port p).gates

/-- How long a list leaves the gate of a queue open from instant `t`, in nanoseconds; none without end. -/
def GateList.openAt (g : GateList) (q : Nat) (t : Int) : Option Nat :=
  if t < g.base then (g.openFrom q 0).map fun x => (g.base - t).toNat + x
  else g.openFrom q ((t - g.base) % g.cycle).toNat

/-- How long the gate of a queue stays open from now, in nanoseconds; none without end. The old list ends where one that waits
starts. -/
def Dev.gateLeft (d : Dev) (p : PortId) (q : Nat) : Option Nat :=
  let now := (d.gates p).bind fun g => g.openAt q d.tai
  match (if d.bit (Reg.tshGclCfg_en p) then (d.port p).pendGates else none) with
  | none => now
  | some g =>
    if g.start ≤ d.tai then now
    else
      let n := (g.start - d.tai).toNat
      if (match now with | some x => decide (x < n) | none => false) then now else (g.openAt q g.start).map (n + ·)

/-- Does a frame of this length end within a time (R307)? -/
def Dev.endsWithin (d : Dev) (p : PortId) (len : Nat) (left : Option Nat) : Bool :=
  match left with
  | none => true
  | some ns => decide ((len + 20) * 8000 ≤ ns * d.rateMb p) && decide (0 < ns)

/-- The longest window of a queue in the list (R312); none when it never closes, and before the list's first start. -/
def Dev.longestWindow (d : Dev) (p : PortId) (q : Nat) : Option Nat :=
  match d.gates p with
  | none => none
  | some g => if d.tai < g.base then none else (g.segs.map fun s => g.openFrom q s.1).foldl (fun a x =>
      match a, x with | some a, some b => some (max a b) | _, _ => none) (some 0)

/-! ## Eligibility and selection (R307, R308, R313) -/

/-- counted_len: the frame length plus OVHD. -/
def Dev.counted (d : Dev) (p : PortId) (f : EgFrame) : Int :=
  (f.len : Int) + max (-32) (d.signedFld (Reg.tshPortcfg_ovhd p))

/-- Is the port's transmit side held by a received pause? -/
def Dev.paused (d : Dev) (p : PortId) : Bool := d.bit (Reg.ethStat_paused p)

def Dev.eligibleHead (d : Dev) (p : PortId) (q : Nat) : Option EgFrame :=
  let x := d.queue p q
  match x.frames with
  | [] => none
  | f :: _ =>
    if f.held || d.paused p || (x.shapeOn && decide (x.tokens < 0)) || !d.endsWithin p f.len (d.gateLeft p q) then none
    else some f

def Dev.weight (d : Dev) (p : PortId) (q : Nat) : Nat := orElse0 (d.fld (Reg.tshQcfg_weight p q)) 1

/-- The queue after `q` in the order Q5 down to Q0. -/
def nextInGroup (q : Nat) : Nat := if q = 0 then 5 else q - 1

/-- Set a queue's deficit. -/
def Dev.setDeficit (d : Dev) (p : PortId) (q : Nat) (v : Int) : Dev := d.setQueue p q { d.queue p q with deficit := v }

/-- Visit the queues of the group from `q` on until one sends: the queue chosen. -/
def Dev.visit (d : Dev) (p : PortId) : Nat → Nat → Dev × Option (Nat × EgFrame)
  | 0, _ => (d, none)
  | n + 1, q =>
    match d.eligibleHead p q with
    | none => d.visit p n (nextInGroup q)
    | some f =>
      let v := (d.queue p q).deficit + 256 * d.weight p q
      if d.counted p f ≤ v then
        ((d.setDeficit p q (v - d.counted p f)).modPort p fun x => { x with drr := some q }, some (q, f))
      else (d.setDeficit p q v).visit p n (nextInGroup q)

/-- The group's choice: the visit in progress goes on while its deficit lasts, then the next queue is visited. -/
def Dev.chooseGroup (d : Dev) (p : PortId) : Dev × Option (Nat × EgFrame) :=
  match (d.port p).drr with
  | none => d.visit p 240 5
  | some q =>
    match d.eligibleHead p q with
    | some f =>
      let v := (d.queue p q).deficit
      if d.counted p f ≤ v then (d.setDeficit p q (v - d.counted p f), some (q, f)) else d.visit p 240 (nextInGroup q)
    | none =>
      let d := if (d.queue p q).frames = [] then d.setDeficit p q 0 else d
      d.visit p 240 (nextInGroup q)

/-- The frame of the highest-ranked eligible queue. -/
def Dev.chooseFrame (d : Dev) (p : PortId) : Dev × Option (Nat × EgFrame) :=
  match d.eligibleHead p 7 with
  | some f => (d, some (7, f))
  | none => match d.eligibleHead p 6 with
    | some f => (d, some (6, f))
    | none => d.chooseGroup p

/-- Drop the head frames of a queue that fit no window (R312). -/
def Dev.gateDrop (d : Dev) (p : PortId) (q : Nat) : Nat → Dev
  | 0 => d
  | n + 1 =>
    let x := d.queue p q
    match x.frames with
    | [] => d
    | f :: t =>
      if d.endsWithin p f.len (d.longestWindow p q) then d
      else (((d.setQueue p q { x with frames := t }).bump (Cnt.qGateDrop p q)).copyEnd f.src false false).gateDrop p q n

/-! ## Transmission (R231, R243, R245, R287) -/

/-- The clock with a correction in 2^−8 ns added, in nanoseconds. -/
def Dev.corrected (d : Dev) (corr : Int) : Int :=
  (d.tai * 4294967296 + d.tim.frac.toNat + corr * 16777216) / 4294967296
/-- The egress stamp of a frame that starts now: the clock with TIM_ETH_EGCORR added. -/
def Dev.egressStamp (d : Dev) (p : PortId) : Int := d.corrected (d.signedFld (Reg.timEthEgcorr_corr p))

/-- An 80-bit PTP timestamp. -/
def ptpStamp (t : Int) : List Byte := be 6 (t / 1000000000 % 281474976710656).toNat ++ be 4 (t % 1000000000).toNat

/-- The PTP message that a frame carries, without what follows it. -/
def ptpOf (b : List Byte) : List Byte := match (parseFrame b).ptpOff with | some o => slice b o (beAt b (o + 2) 2) | none => []

/-- The Follow_Up of a Sync that left at `t`: its header with messageType 8 and the precise origin time. -/
def followUp (sync : List Byte) (t : Int) : List Byte :=
  let m := patch (patch (patch sync 0 [byte (beAt sync 0 1 / 16 * 16 + 8)]) 6 [0, 0]) 32 [2]
  m.take 34 ++ ptpStamp t

def Dev.ptpPort (d : Dev) (p : PortId) : PtpPort := if p = 0 then d.tim.ptp0 else d.tim.ptp1
def Dev.setPtp (d : Dev) (p : PortId) (x : PtpPort) : Dev :=
  if p = 0 then { d with tim := { d.tim with ptp0 := x } } else { d with tim := { d.tim with ptp1 := x } }

/-- The device's own clock composes a message: it enters PPL at the end of the step (R252). -/
def Dev.composed (d : Dev) (p : PortId) (frame : List Byte) (own : Option Nat) : Dev :=
  { d with tim := { d.tim with compose := d.tim.compose ++ [(p, frame, own)] } }

/-- A PTP message of the device's own as a frame of the transport that its port uses: IEEE 802.3, UDP over IPv4 with the
source 0.0.0.0, for the device has no IPv4 address, or UDP over IPv6 from PPL_OWNIP; `event` tells UDP port 319 from 320
(Table 7.2; addresses of IEEE 1588, PRESUMED, log entry 204). -/
def Dev.ptpFrame (d : Dev) (p : PortId) (event : Bool) (m : List Byte) : List Byte :=
  let n := 8 + m.length
  let port := be 2 (if event then 319 else 320)
  let udp := port ++ port ++ be 2 n
  match (d.ptpPort p).trans with
  | 0 => [0x01, 0x1B, 0x19, 0, 0, 0] ++ d.ownMac ++ [0x88, 0xF7] ++ m
  | 1 =>
    let h : List Byte := [0x45, 0] ++ be 2 (20 + n) ++ [0, 0, 0, 0, 1, 17, 0, 0, 0, 0, 0, 0, 224, 0, 1, 129]
    [0x01, 0x00, 0x5E, 0x00, 0x01, 0x81] ++ d.ownMac ++ [0x08, 0x00] ++ patch h 10 (be 2 (inetSum h)) ++ udp ++ [0, 0] ++ m
  | 2 =>
    let dst : List Byte := [0xFF, 0x0E] ++ List.replicate 12 0 ++ [0x01, 0x81]
    [0x33, 0x33, 0x00, 0x00, 0x01, 0x81] ++ d.ownMac ++ [0x86, 0xDD] ++ [0x60, 0, 0, 0] ++ be 2 n ++ [17, 1] ++ d.ownIp ++
      dst ++ udp ++ be 2 (udp6Sum d.ownIp dst (udp ++ [0, 0] ++ m)) ++ m

/-- A PTP event message of the device's own has left: a Sync is followed by its Follow_Up, a Delay_Req gives t3. Its stamp
takes an entry of the queue and is consumed internally. -/
def Dev.ownSent (d : Dev) (p : PortId) (f : EgFrame) (t : Int) : Dev :=
  match f.own with
  | none => d
  | some ty =>
    let l := if p = 0 then d.tim.stamps0 else d.tim.stamps1
    if 64 ≤ l.length then (d.stampPut p 0 t).1
    else if ty = 0 then d.composed p (d.ptpFrame p false (followUp (ptpOf f.bytes) t)) none
    else d.setPtp p { d.ptpPort p with t3 := t }

/-- A frame of `len` bytes holds the port's transmit side for its length plus 20 bytes at the port's data rate (R307). -/
def Dev.txBusy (d : Dev) (p : PortId) (len : Nat) : Dev :=
  d.modPort p fun x => { x with busyUntil := d.tim.cyc + (len + 20) * 8 * cyclesPerUs / max 1 (d.rateMb p) }

/-- A frame starts on a port: tokens, stamps and the residence correction. -/
def Dev.txBegin (d : Dev) (p : PortId) (q : Nat) (f : EgFrame) : Dev :=
  let x := d.queue p q
  let d := if x.shapeOn then d.setQueue p q { x with tokens := x.tokens - 8 * d.counted p f } else d
  let t := d.egressStamp p
  let b := match f.resid with | some i => addResidence f.bytes (t - i) | none => f.bytes
  let d := if f.resid.isSome then d.bump Cnt.tcCorrected else d
  let d := (d.modPort p fun y => { y with sending := some (q, { f with bytes := b }) }).txBusy p f.len
  let d := match f.tsId with | some id => (d.stampPut p id t).1 | none => d
  d.ownSent p f t

/-- The frame in progress has ended. -/
def Dev.txEnd (d : Dev) (p : PortId) : Dev :=
  match (d.port p).sending with
  | none => d
  | some (q, f) =>
    let d := d.modPort p fun y => { y with sending := none }
    let d := d.out (.eth p (f.bytes ++ List.replicate (60 - f.bytes.length) 0) f.stomp)
    let d := d.bump (Cnt.qTx p q)
    let d := if f.stomp then d.bump (Cnt.txStomped p) else (d.bump (Cnt.txOk p)).bumpBy (Cnt.txBytes p) f.len
    d.copyEnd f.src true false

/-- A PAUSE frame (R293). -/
def Dev.pauseFrame (d : Dev) (quanta : Nat) : List Byte :=
  [0x01, 0x80, 0xC2, 0x00, 0x00, 0x01] ++ d.ownMac ++ [0x88, 0x08, 0x00, 0x01] ++ be 2 quanta ++ List.replicate 42 0

/-- A frame boundary: the frame in progress ends; a PAUSE frame that waits goes ahead of every queue; else the frame of the
highest-ranked eligible queue starts. -/
def Dev.boundary (d : Dev) (p : PortId) : Dev :=
  let d := d.txEnd p
  if !d.linkUp p then d
  else match (d.port p).pauseQ with
    | n :: t =>
      (((d.modPort p fun x => { x with pauseQ := t }).txBusy p 64).out (.eth p (d.pauseFrame n) false)).bump (Cnt.txPause p)
    | [] =>
      let d := (List.range 8).foldl (fun d q => d.gateDrop p q (d.queue p q).frames.length) d
      let o := d.chooseFrame p
      match o.2 with
      | none => o.1
      | some (q, f) =>
        let x := o.1.queue p q
        (o.1.setQueue p q { x with frames := x.frames.drop 1 }).txBegin p q f

/-- FRAME_BOUNDARY: it comes when the frame in progress has ended. -/
def Dev.frameBoundary (d : Dev) (p : PortId) : Dev := d.due (d.port p).busyUntil fun d => d.boundary p

/-! ## Shapers and gates as time passes (R309 to R313) -/

/-- The refill of one queue: TSH_SHAPE comes into force, and the bucket fills. -/
def Dev.refillQueue (d : Dev) (p : PortId) (q : Nat) : Dev :=
  let x := d.queue p q
  let cap : Int := 8 * orElse0 (d.fld (Reg.tshShape_burst p q)) 1
  let rate : Int := clampNat 1 10000 (d.fld (Reg.tshShape_rate p q))
  if !d.bit (Reg.tshShape_en p q) then d.setQueue p q { x with shapeOn := false, tokens := 0 }
  else if !x.shapeOn then d.setQueue p q { x with shapeOn := true, tokens := cap }
  else d.setQueue p q { x with tokens := min cap (x.tokens + rate) }

/-- SHAPER_REFILL, every 400 fabric cycles. -/
def Dev.shaperRefill (d : Dev) : Dev :=
  d.due (400 * (d.eth.refills + 1)) fun d =>
    let d := { d with eth := { d.eth with refills := d.eth.refills + 1 } }
    [(0 : PortId), 1].foldl (fun d p => (List.range 8).foldl (fun d q => d.refillQueue p q) d) d

/-- The admin list of a port as it stands (R310). -/
def Dev.adminList (d : Dev) (p : PortId) : GateList :=
  let n := clampNat 1 128 (d.fld (Reg.tshGclCfg_len p))
  ⟨(List.range n).map fun i => (byte (d.fld (Reg.tshGclEntry_gates p i)), max 1 (d.fld (Reg.tshGclEntry_duration p i))),
    clampNat 1000 1000000000 (d.fld (Reg.tshGclCycle_cycle p)),
    ((d.fld (Reg.tshGclBaseSecHi_sec p) : Int) * 4294967296 + d.fld (Reg.tshGclBaseSecLo_sec p)) * 1000000000 +
      d.fld (Reg.tshGclBaseNs_ns p), 0⟩

/-- The first cycle start of a list at or after `t`. -/
def GateList.startFrom (g : GateList) (t : Int) : Int :=
  if t ≤ g.base then g.base else g.base + (t - g.base + g.cycle - 1) / g.cycle * g.cycle

/-- COMMIT: the admin list waits for its first cycle start at least 10 µs on. Its entries, CYCLE and BASE are those of the
commit. -/
def Dev.gclCommit (d : Dev) (p : PortId) : Dev :=
  let g := d.adminList p
  (d.modPort p fun x => { x with pendGates := some { g with start := g.startFrom (d.tai + 10000) } }).raise
    (Reg.tshGclCfg_pending p)

/-- A waiting list comes into force once its start is reached. -/
def Dev.gatesDue (d : Dev) (p : PortId) : Dev :=
  match (d.port p).pendGates with
  | none => d
  | some g =>
    if d.tai < g.start then d
    else (d.modPort p fun x => { x with gates := some g, pendGates := none }).setBit (Reg.tshGclCfg_pending p) false

/-- The next instant at which an entry of a list changes. -/
def GateList.nextChange (g : GateList) (t : Int) : Int :=
  if t < g.base then g.base
  else
    let o := ((t - g.base) % g.cycle).toNat
    t - o + ((g.segs.find? fun s => decide (o < s.2.1)).map (·.2.1)).getD g.cycle

/-- GATE_ENTRY_CHANGE: the clock has reached the next change of a port's gates, unless the next slot tick comes first. -/
def Dev.gateEntryChange (d : Dev) (p : PortId) : Dev :=
  let a := (d.gates p).map fun g => g.nextChange d.tai
  let b := (d.port p).pendGates.map (·.start)
  let t := match a, b with
    | some x, some y => some (min x y)
    | some x, none => some x
    | none, y => y
  match t with
  | none => d
  | some t => (d.reachTai t).gatesDue p

end Sys2Proof.Machine
end

