-- ==== Sys2Proof/Machine/Ptp.lean ====
section
/-! DEFINITION. The PTP clock of chapter 07 (R230, Table 7.2): ordinary and boundary clock with the end-to-end delay
mechanism, and the default best-master selection. Message layouts are those of IEEE 1588-2019 (PRESUMED,
log entry 204). -/

namespace Sys2Proof.Machine

def ptpSync : Nat := 0
def ptpDelayReq : Nat := 1
def ptpFollowUp : Nat := 8
def ptpDelayResp : Nat := 9
def ptpAnnounce : Nat := 11

/-- Is PTP enabled on a port? -/
def Dev.ptpEn (d : Dev) (p : PortId) : Bool := d.cfgBit (if p = 0 then Reg.timPtpcfg_p0_en else Reg.timPtpcfg_p1_en)

/-- The device's clockIdentity: its MAC address as an EUI-64. -/
def Dev.clockId (d : Dev) : List Byte := d.ownMac.take 3 ++ [0xFF, 0xFE] ++ d.ownMac.drop 3
/-- The device's portIdentity. -/
def Dev.portId (d : Dev) (p : PortId) : List Byte := d.clockId ++ be 2 (p.val + 1)

/-- The time that a header's correctionField adds, in nanoseconds. -/
def ptpCorrection (m : List Byte) : Int := toSigned 64 (beAt m 8 8) / 65536
/-- A timestamp field in TAI nanoseconds. -/
def ptpTime (m : List Byte) (o : Nat) : Int := (beAt m o 6 : Int) * 1000000000 + beAt m (o + 6) 4

/-! ## Best master (default BMCA) -/

/-- The order of data sets: priority1, clock quality, priority2 and grandmaster identity, then steps removed, then the
sender. -/
def announceRank (m : List Byte) : Nat := (beAt m 47 14 * 65536 + beAt m 61 2) * 2 ^ 80 + beAt m 20 10
/-- The device's own data set: priorities 128, clockClass 248, accuracy 0xFE, variance 0xFFFF. -/
def Dev.ownSet (d : Dev) : List Byte := [128, 248, 0xFE, 0xFF, 0xFF, 128] ++ d.clockId
def Dev.ownRank (d : Dev) : Nat := ofBe d.ownSet * 65536 * 2 ^ 80

/-- The rank of the best master that a port hears. -/
def Dev.portRank (d : Dev) (p : PortId) : Option Nat := if d.ptpEn p then (d.ptpPort p).master.map announceRank else none

/-- The slave port: the one that hears the best master, if it beats the device's own data set where the device may itself be
master (BC_EN). -/
def Dev.slavePort (d : Dev) : Option PortId :=
  let best : Option (PortId × Nat) := match d.portRank 0, d.portRank 1 with
    | some a, some b => some (if b < a then (1, b) else (0, a))
    | some a, none => some (0, a)
    | none, some b => some (1, b)
    | none, none => none
  match best with
  | none => none
  | some (p, r) => if d.cfgBit Reg.timPtpcfg_bc_en && decide (d.ownRank ≤ r) then none else some p

/-- Does the best master's data set beat that of another port's master by topology alone: both lead to one grandmaster, and the
way over the other port is as long, or one step longer from a sender that this clock does not precede (default BMCA)? -/
def Dev.byTopology (d : Dev) (best other : List Byte) : Bool :=
  let a := beAt best 61 2
  let b := beAt other 61 2
  slice best 53 8 == slice other 53 8 && (a == b || (b == a + 1 && decide (beAt other 20 8 < ofBe d.clockId)))

/-- Is a port PASSIVE: the slave port's master beats its own by topology alone? -/
def Dev.passivePort (d : Dev) (p : PortId) : Bool :=
  match d.slavePort with
  | none => false
  | some q => q != p && match (d.ptpPort q).master, (d.ptpPort p).master with
    | some a, some b => d.byTopology a b
    | _, _ => false

/-- Is a port master: of a boundary clock, every enabled port but the slave port and a passive one? -/
def Dev.masterPort (d : Dev) (p : PortId) : Bool :=
  d.cfgBit Reg.timPtpcfg_bc_en && d.ptpEn p && d.slavePort != some p && !d.passivePort p

/-! ## Sending -/

/-- A message of the device's own: header and body; `corr` is its correctionField. -/
def Dev.ptpMsg (d : Dev) (p : PortId) (ty flags seq : Nat) (interval : Int) (corr body : List Byte) : List Byte :=
  [byte ty, 2] ++ be 2 (34 + body.length) ++ [byte (d.cfgFld Reg.timPtpcfg_domain), 0, byte flags, 0x08] ++
    corr ++ [0, 0, 0, 0] ++ d.portId p ++ be 2 seq ++
    [if ty = 0 then 0 else if ty = 1 then 1 else if ty = 9 then 3 else 5] ++ signedLe 1 interval ++ body

/-- A correctionField of 0. -/
def noCorr : List Byte := List.replicate 8 0

/-- Send a message of the device's own on a port: it enters PPL (R252), whose default puts it on queue Q7 (R307). -/
def Dev.ptpSend (d : Dev) (p : PortId) (m : List Byte) (own : Option Nat) : Dev :=
  d.composed p (d.ptpFrame p (decide (beAt m 0 1 % 16 < 4)) m) own

def Dev.logSync (d : Dev) : Int := clampInt (-4) 0 (toSigned 4 (d.cfgFld Reg.timPtpcfg_log_sync))
def Dev.logAnn (d : Dev) : Int := clampInt (-3) 2 (toSigned 4 (d.cfgFld Reg.timPtpcfg_log_ann))

/-- The body of an Announce: the grandmaster's data set, one step further away. -/
def Dev.announceBody (d : Dev) : List Byte :=
  let gm := match d.slavePort with
    | some p => match (d.ptpPort p).master with
      | some m => slice m 47 14 ++ be 2 (beAt m 61 2 + 1) ++ slice m 63 1
      | none => d.ownSet ++ [0, 0, 0xA0]
    | none => d.ownSet ++ [0, 0, 0xA0]
  List.replicate 10 0 ++ [0, 37, 0] ++ gm

/-- PTP_INTERVAL_EXPIRY: 0 Sync, 1 Announce, 2 Delay_Req. -/
def Dev.ptpInterval (d : Dev) (p : PortId) (msg : Fin 3) : Dev :=
  let x := d.ptpPort p
  match msg with
  | 0 =>
    if !d.masterPort p then d
    else
      let d := d.setPtp p { x with seqSync := x.seqSync + 1 }
      d.ptpSend p (d.ptpMsg p ptpSync 2 x.seqSync.toNat d.logSync noCorr (List.replicate 10 0)) (some 0)
  | 1 =>
    if !d.masterPort p then d
    else
      let d := d.setPtp p { x with seqAnn := x.seqAnn + 1 }
      d.ptpSend p (d.ptpMsg p ptpAnnounce 0 x.seqAnn.toNat d.logAnn noCorr d.announceBody) none
  | 2 =>
    if d.slavePort ≠ some p then d
    else
      let d := d.setPtp p { x with seqReq := x.seqReq + 1 }
      d.ptpSend p (d.ptpMsg p ptpDelayReq 0 (x.seqReq + 1).toNat 127 noCorr (List.replicate 10 0)) (some 1)

/-- The masters that a port may follow: those heard twice within four announce intervals (the foreign-master qualification of
the default BMCA, PRESUMED, log entry 204). -/
def Dev.qualified (d : Dev) (l : List (List Byte × List Int)) : List (List Byte) :=
  let window : Int := 1600000000 * 2 ^ (d.logAnn + 3).toNat / 8
  l.filterMap fun x => match x.2 with
    | [a, b] => if a - b ≤ window then some x.1 else none
    | _ => none

/-- The best of some masters. -/
def bestMaster (l : List (List Byte)) : Option (List Byte) :=
  l.foldl (fun (b : Option (List Byte)) m => match b with
    | some a => if announceRank m < announceRank a then some m else some a
    | none => some m) none

/-- A port follows the best of its masters; with another master than before its exchanges begin anew. -/
def Dev.chooseMaster (d : Dev) (p : PortId) (l : List (List Byte × List Int)) : Dev :=
  let x := d.ptpPort p
  let best := bestMaster (d.qualified l)
  let same := best.map (slice · 20 10) == x.master.map (slice · 20 10)
  d.setPtp p { x with
    foreign := l, master := best
    stepTwo := if same then x.stepTwo else none
    delay := if same then x.delay else none }

/-- ANNOUNCE_RECEIPT_TIMEOUT: the port's master is gone. -/
def Dev.announceTimeout (d : Dev) (p : PortId) : Dev :=
  let x := d.ptpPort p
  d.chooseMaster p (x.foreign.filter fun f => some (slice f.1 20 10) != x.master.map (slice · 20 10))

/-! ## Receiving -/

/-- The offset of a Sync whose t1 is known: device clock minus reference. With SRC = 2 it gives only the whole seconds of the
measurements at the edges of PPS_IN (R229). -/
def Dev.syncDone (d : Dev) (p : PortId) (t1 : Int) : Dev :=
  let x := d.ptpPort p
  let d := d.setPtp p { x with t1 := t1, stepTwo := none }
  let theta := x.t2 - t1 - x.delay.getD 0
  let id : BitVec 64 := match x.master with | some m => BitVec.ofNat 64 (beAt m 20 8) | none => 0
  if d.trackEn then d
  else if d.timeSrc = 1 then d.measure theta (some (p, id))
  else if d.timeSrc = 2 then { d with tim := { d.tim with ptpOfs := some theta } }
  else d

/-- Is a message from the port's master? -/
def Dev.fromMaster (d : Dev) (p : PortId) (m : List Byte) : Bool :=
  d.slavePort == some p && match (d.ptpPort p).master with
    | some a => slice a 20 10 == slice m 20 10
    | none => false

/-- An Announce, unless it is the device's own or comes from 255 steps away: the record of its sender, of at most five, and
the best master anew. -/
def Dev.takeAnnounce (d : Dev) (p : PortId) (m : List Byte) : Dev :=
  if slice m 20 8 = d.clockId ∨ 255 ≤ beAt m 61 2 then d
  else
    let l := (d.ptpPort p).foreign
    let mine (f : List Byte × List Int) : Bool := slice f.1 20 10 == slice m 20 10
    let before : List Int := match l.find? mine with | some f => f.2.take 1 | none => []
    d.chooseMaster p ((m, (d.tim.cyc : Int) :: before) :: (l.filter fun f => !mine f).take 4)

/-- The length of a message without TLVs. -/
def ptpFixed (ty : Nat) : Nat := if ty = ptpAnnounce then 64 else if ty = ptpDelayResp then 54 else 44

/-- Does the device support a message: of PTP version 2 and the default profile, in its domain, whole, without a TLV, without
the alternate-master and unicast flags, and, of an Announce, on the PTP timescale (R230, Table 7.2)? -/
def Dev.ptpSupported (d : Dev) (m : List Byte) : Bool :=
  let ty := beAt m 0 1 % 16
  decide (m.length ≥ ptpFixed ty) && beAt m 2 2 == ptpFixed ty && beAt m 0 1 / 16 == 0 && beAt m 1 1 % 16 == 2 &&
    beAt m 4 1 == d.cfgFld Reg.timPtpcfg_domain && beAt m 6 1 % 2 == 0 && beAt m 6 1 / 4 % 2 == 0 && beAt m 6 1 / 128 == 0 &&
    (ty == ptpSync || ty == ptpDelayReq || ty == ptpFollowUp || ty == ptpDelayResp || (ty == ptpAnnounce && beAt m 7 1 / 8 % 2 == 1))

/-- A supported message of a port at TIM, with its ingress stamp. -/
def Dev.ptpTake (d : Dev) (p : PortId) (m : List Byte) (stamp : Int) : Dev :=
  let ty := beAt m 0 1 % 16
  let x := d.ptpPort p
  if ty = ptpAnnounce then d.takeAnnounce p m
  else if ty = ptpSync then
    if !d.fromMaster p m then d
    else
      let d := d.setPtp p { x with t2 := stamp }
      if beAt m 6 1 / 2 % 2 = 1 then
        d.setPtp p { d.ptpPort p with stepTwo := some (beAt m 30 2, ptpCorrection m) }
      else d.syncDone p (ptpTime m 34 + ptpCorrection m)
  else if ty = ptpFollowUp then
    match x.stepTwo with
    | some (n, c) => if d.fromMaster p m && n == beAt m 30 2 then d.syncDone p (ptpTime m 34 + ptpCorrection m + c) else d
    | none => d
  else if ty = ptpDelayReq then
    if !d.masterPort p then d
    else
      d.ptpSend p (d.ptpMsg p ptpDelayResp 0 (beAt m 30 2) 0 (slice m 8 8) (ptpStamp stamp ++ slice m 20 10)) none
  else
    if !d.fromMaster p m ∨ slice m 44 10 ≠ d.portId p ∨ beAt m 30 2 ≠ x.seqReq.toNat then d
    else d.setPtp p { x with delay := some (((x.t2 - x.t1) + (ptpTime m 34 - ptpCorrection m - x.t3)) / 2) }

/-- A message at TIM: from port `p`, with its ingress stamp and its transport, which the port then uses itself. What
Table 7.2 does not list is discarded and counted. -/
def Dev.ptpReceive (d : Dev) (p : PortId) (m : List Byte) (stamp : Int) (trans : Fin 3) : Dev :=
  if !d.ptpEn p then d
  else if !d.ptpSupported m then d.bump Cnt.ptpIgnored
  else (d.setPtp p { d.ptpPort p with trans := trans }).ptpTake p m stamp

end Sys2Proof.Machine
end

