-- ==== Sys2Proof/Machine/Signal.lean ====
section
/-! DEFINITION. The waveform of chapter 02: what each symbol period carries on each subcarrier (R36, R39, Table 2.3, Table
2.8), the transmitted baseband signal with its cyclic prefix (R40), and the transforms of the receive chain. Numbers are
fixed-point (DESIGN CHOICE, log entry 176: the manual states no arithmetic precision). -/

namespace Sys2Proof.Machine

/-- A complex number of fixed-point parts. -/
abbrev Cplx := Int × Int

/-! ## Fixed-point trigonometry -/

/-- `n` terms of the series of cosine (k = 0) or sine (k = 1) after the term `t`; `x2` is the angle's square in units of
2^−40. -/
def taylor : Nat → Nat → Int → Int → Int
  | 0, _, _, _ => 0
  | n + 1, k, x2, t => t + taylor n (k + 2) x2 (-(t * x2 / 1099511627776) / (((k + 1) * (k + 2) : Nat) : Int))

/-- exp(j2πn/d) in units of 2^−30. -/
def cis (n : Int) (d : Nat) : Cplx :=
  let t := (n % (d : Int)).toNat * 1099511627776 / d
  let x : Int := ((t % 274877906944 * 6908435304715 / 1099511627776 : Nat) : Int)
  let x2 := x * x / 1099511627776
  let c := (taylor 10 0 x2 1099511627776 + 512) / 1024
  let s := (taylor 10 1 x2 x + 512) / 1024
  match t / 274877906944 with
  | 0 => (c, s)
  | 1 => (-s, c)
  | 2 => (-c, -s)
  | _ => (s, -c)

/-- Product, conjugate, sum, and the product with a factor in units of 2^−30. -/
def cmul (a b : Cplx) : Cplx := (a.1 * b.1 - a.2 * b.2, a.1 * b.2 + a.2 * b.1)
def cconj (a : Cplx) : Cplx := (a.1, -a.2)
def cadd (a b : Cplx) : Cplx := (a.1 + b.1, a.2 + b.2)
def cscale (n : Int) (a : Cplx) : Cplx := (n * a.1, n * a.2)
def cshift (a : Cplx) : Cplx := (a.1 / 1073741824, a.2 / 1073741824)
def crot (a w : Cplx) : Cplx := cshift (cmul a w)
def csum (l : List Cplx) : Cplx := l.foldl cadd (0, 0)
/-- The square of a magnitude. -/
def cnorm (a : Cplx) : Nat := (a.1 * a.1 + a.2 * a.2).toNat

/-- Integer square root: `f` bits from the highest. -/
def isqrtGo : Nat → Nat → Nat → Nat
  | 0, _, a => a
  | f + 1, n, a => let b := a + 2 ^ f; isqrtGo f n (if b * b ≤ n then b else a)
def isqrt (n : Nat) : Nat := isqrtGo (n.log2 / 2 + 1) n 0
/-- A magnitude. -/
def cabs (a : Cplx) : Nat := isqrt (cnorm a)

/-- The angle of a vector of the first quadrant in units of 2^−32 turn: `f` bits below `r`. -/
def argGo : Nat → Cplx → Nat → Nat
  | 0, _, r => r
  | f + 1, w, r =>
    let r' := r + 2 ^ f
    let c := cis r' 4294967296
    argGo f w (if r' < 1073741824 ∧ 0 ≤ w.2 * c.1 - w.1 * c.2 then r' else r)

/-- arg(z) in units of 2^−32 turn, from −2^31 to 2^31 − 1. -/
def argTurn (z : Cplx) : Int :=
  let q : Nat × Cplx :=
    if 0 < z.1 ∧ 0 ≤ z.2 then (0, z) else if z.1 ≤ 0 ∧ 0 < z.2 then (1, (z.2, -z.1))
    else if z.1 < 0 then (2, (-z.1, -z.2)) else (3, (-z.2, z.1))
  let t := if z = (0, 0) then 0 else q.1 * 1073741824 + argGo 30 q.2 0
  if t < 2147483648 then t else (t : Int) - 4294967296

/-! ## Symbol content (R36, R39, R43, Tables 2.3 and 2.8) -/

/-- The square of the inverse scale of a constellation of `n` bits (Table 2.8). -/
def conNorm (n : Nat) : Nat := match n with | 2 => 2 | 4 => 10 | 6 => 42 | 8 => 170 | _ => 1

/-- The symbol of a label (R54); an empty label is an off subcarrier, which carries 0. -/
def labelSym (l : List Bool) (boost : Bool) : Sym :=
  let p := constPoint l
  ⟨p.1, p.2, conNorm l.length, boost⟩

/-- C(k) at nominal amplitude: a pilot, and every subcarrier of CE (Table 2.3). -/
def refSym (c : Int) : Sym := ⟨c, 0, 1, false⟩

/-- The amplitude of a symbol in units of 2^−30. -/
def Sym.value (s : Sym) : Cplx :=
  let u : Int := isqrt ((if s.boost then 2 else 1) * 1152921504606846976 / s.norm)
  (s.re * u, s.im * u)

/-- One symbol on one subchannel: its used subcarriers with what they carry; `data` gives the data subcarriers' symbols. -/
def withPilots (mode : Fin 3) (s : Nat) (data : Nat → Sym) : List (Int × Sym) :=
  let ks := subchData mode s
  ((subchK mode s).zip (subchRef mode s)).map fun p =>
    (p.1, if isPilot p.1 then refSym p.2 else data (ks.findIdx (· == p.1)))

/-- SYNC: √2 × C(k) on even k, nothing on odd k (Table 2.3). -/
def syncContent (mode : Fin 3) (s : Nat) : List (Int × Sym) :=
  (((subchK mode s).zip (subchRef mode s)).filter fun p => p.1 % 2 == 0).map fun p => (p.1, ⟨p.2, 0, 1, true⟩)

/-- CE: C(k) on every used subcarrier (Table 2.3). -/
def ceContent (mode : Fin 3) (s : Nat) : List (Int × Sym) :=
  ((subchK mode s).zip (subchRef mode s)).map fun p => (p.1, refSym p.2)

/-- SIG: QPSK on the data subcarriers, C(k) on the pilots (R47, Table 2.3). -/
def sigContent (mode : Fin 3) (s : Nat) (sig : BitVec 24) : List (Int × Sym) :=
  let l := sigLabels sig
  withPilots mode s fun i => let b := l.getD i (false, false); labelSym [b.1, b.2] false

/-- The constellation labels of DATA symbol `n` of a coded stream, by 16 × member + i (R53, R75). -/
def dataLabels (codes : List (BitVec 4)) (coded : List Bool) (n : Nat) : List (List Bool) :=
  let sum := sumBits codes
  placeSymbol (codes.length / 16) (codes.map fun c => conBits (codeCon c)) ((coded.drop (n * sum)).take sum)

/-- DATA symbol `n` on member `m`: its labels under the map in force, C(k) on the pilots (R43, R53 to R55, Table 2.3). -/
def dataContent (mode : Fin 3) (s : Nat) (codes : List (BitVec 4)) (coded : List Bool) (m n : Nat) : List (Int × Sym) :=
  let l := dataLabels codes coded n
  withPilots mode s fun i =>
    labelSym (l.getD (16 * m + i) []) (codeBoost (codes.getD (16 * m + i) 0) == 1)

/-- ACK: the differential chain of R71 along the used subcarriers, pilots included. -/
def ackContent (mode : Fin 3) (s : Nat) (b : Byte) : List (Int × Sym) :=
  let ks := subchK mode s
  (ks.zip (ackChain b ks.length)).map fun p => (p.1, refSym p.2)

/-- The number of the DATA symbol in period `j` of slot `i` of a train (Table 2.4). -/
def dataIndex (i j : Nat) : Nat := 16 * i + j - 3

/-- What period `j` of slot `i` of a train of `l` slots carries on subchannel `s`, member `m` (Tables 2.3 and 2.4). AGAP and
TG carry nothing; the ACK symbol travels the other way. -/
def txContent (mode : Fin 3) (l i j s m : Nat) (sig : BitVec 24) (codes : List (BitVec 4)) (coded : List Bool) :
    List (Int × Sym) :=
  match periodUse l i j with
  | .sync => syncContent mode s
  | .ce => ceContent mode s
  | .sig => sigContent mode s sig
  | .data => dataContent mode s codes coded m (dataIndex i j)
  | .agap | .ack | .tg => []

/-! ## The transmitted signal (R35, R36, R40, Table 2.1) -/

/-- FFT size, sample rate in hertz, decimation from 65.536 MS/s and prefix samples of a mode (Table 2.1). -/
def fftSize (mode : Fin 3) : Nat := match mode with | 0 => 128 | 1 => 512 | 2 => 2048
def sampleRate (mode : Fin 3) : Nat := 8000 * fftSize mode
def decimation (mode : Fin 3) : Nat := 65536000 / sampleRate mode
def prefixSamples (mode : Fin 3) : Nat := fftSize mode / 4

/-- The symbol period: 156.25 µs in picoseconds, and in fabric cycles (R35). -/
def periodPs : Int := 156250000
def periodCycles : Nat := 62500
/-- The cyclic prefix, 31.25 µs in picoseconds (R35). -/
def prefixPs : Int := 31250000

/-- The frequency of subcarrier k of a channel (R36). -/
def subcarrierHz (centre : Nat) (k : Int) : Int := centre + 8000 * k

/-- The baseband signal `t` picoseconds after the start of a period: the sum over the used k of X_k × exp(j2π × k × 8 kHz ×
(t − 31.25 µs)) (R40), in units of 2^−30. -/
def baseband (x : List (Int × Sym)) (t : Int) : Cplx :=
  csum (x.map fun p => crot p.2.value (cis (p.1 * (t - prefixPs)) 125000000))

/-- The samples of one period at the mode's rate, prefix first (R40, Table 2.1). -/
def periodSamples (mode : Fin 3) (x : List (Int × Sym)) : List Cplx :=
  (List.range (fftSize mode + prefixSamples mode)).map fun (n : Nat) =>
    csum (x.map fun p => crot p.2.value (cis (p.1 * ((n : Int) - prefixSamples mode)) (fftSize mode)))

/-! ## Receive windows (R81, R87, R91) -/

/-- 10^6 × 10^(−g/20): the inverse of a gain of `g` dB, −60 to 20 (R87). -/
def gainInverse (g : Int) : Nat :=
  let y := (6000 - 50 * g).toNat
  pow10r (y % 1000) * 10 ^ (y / 1000) / 1000000000

/-- Scale every sample by the inverse of the gain that it was taken under (R87): the last part of a window by the present
gain, each earlier part by the gain before the step that ended it. A sample that clipped keeps its clipped value. Full scale
is 2^15 (DESIGN CHOICE, log entry 176). -/
def compensate (gains : List Int) (w : Samples) : List Cplx :=
  (w.reverse.zip ((List.range w.length).map fun i => gains.getD i (gains.getLastD 0))).reverse.flatMap fun p =>
    p.1.map (cscale (gainInverse p.2))

/-- One bin of a window of `n` samples whose first sample lies `ofs` samples after the instant of phase 0 of R40. -/
def dftBin (n : Nat) (ofs k : Int) (x : List Cplx) : Cplx :=
  cshift (csum (((List.range x.length).zip x).map fun p => cmul p.2 (cis (-(k * ((p.1 : Int) + ofs))) n)))

/-- Y_k of a window of 125 µs: it begins half-way through the cyclic prefix of its anchor (R81). -/
def windowBin (mode : Fin 3) (x : List Cplx) (k : Int) : Cplx :=
  dftBin (fftSize mode) (-(prefixSamples mode / 2 : Nat)) k x

/-- Z_k of the half-window from T0 + 46.875 µs to T0 + 109.375 µs (R91). Its phases are those of the conjugate signal, for
which the formula of R92 gives a late frame a positive e (R72; DEDUCED, log entry 177). -/
def halfBin (mode : Fin 3) (x : List Cplx) (k : Int) : Cplx :=
  cconj (dftBin (fftSize mode) (prefixSamples mode / 2 : Nat) k x)

/-- The level of a bin of `n` gain-compensated samples (Table 4.1: full scale is −70 dBm at a gain of 0 dB). -/
def binPower (n : Nat) (z : Cplx) : Nat := cnorm z * 10 ^ 32 / (n * 32768000000) ^ 2
def binLevel (n : Nat) (z : Cplx) : Cdb := ofLin (binPower n z)

end Sys2Proof.Machine
end

