-- ==== Sys2Proof/Machine/Viterbi.lean ====
section
/-! DEFINITION. The Viterbi decoder of R113 for the code of R51, and how soft bits stand for coded bits (R111): a positive
soft bit favours 0, and a position that was not received enters as 0. -/

namespace Sys2Proof.Machine

/-- Predecessors of a trellis state: both shift the newest bit, bit 5 of the state, in (R51). -/
def trellisPrev (s : Nat) : Nat × Nat := (2 * (s % 32), 2 * (s % 32) + 1)

/-- What a soft bit adds to the metric of a path on which its coded bit has this value. -/
def softGain (q : Int) (b : Bool) : Int := if b then -q else q

/-- The metric of the branch that enters state `s` from state `p`. -/
def branchGain (p s : Nat) (q : Int × Int) : Int :=
  let v := s / 32 * 64 + p
  softGain q.1 (parity7 (v &&& 0o133)) + softGain q.2 (parity7 (v &&& 0o171))

/-- The survivor of state `s` after one stage; of two equal metrics the even predecessor's (DESIGN CHOICE, log entry 178). -/
def survivorOf (paths : List VPath) (q : Int × Int) (s : Nat) : VPath :=
  let p := trellisPrev s
  let a := paths.getD p.1 default
  let b := paths.getD p.2 default
  let ma := a.metric + branchGain p.1 s q
  let mb := b.metric + branchGain p.2 s q
  if mb ≤ ma then ⟨ma, (s / 32 == 1) :: a.bits⟩ else ⟨mb, (s / 32 == 1) :: b.bits⟩

/-- The state with the largest metric, the lowest of equals. -/
def bestPath (paths : List VPath) : VPath :=
  paths.foldl (fun a p => if a.metric < p.metric then p else a) (paths.headD default)

/-- The traceback depth: a survivor memory of 120 stages (R113). -/
def tracebackDepth : Nat := 120

/-- One trellis stage: the oldest bit of the best path leaves a survivor memory that is full (R113). -/
def vitStage (v : VitState) (q : Int × Int) : VitState :=
  let paths := (List.range 64).map (survivorOf v.paths q)
  if v.depth < tracebackDepth then { v with paths := paths, depth := v.depth + 1 }
  else
    { v with
      paths := paths.map fun p => { p with bits := p.bits.take tracebackDepth }
      out := v.out ++ [(bestPath paths).bits.getLastD false] }

/-- The decoder before a DATA field: only the all-zero state is possible (R51). -/
def vitZero : VitState := ⟨(List.range 64).map fun s => ⟨if s = 0 then 0 else -1000000000000, []⟩, 0, []⟩
/-- The decoder before a tail-biting word: every state is equally possible. -/
def vitOpen : VitState := ⟨List.replicate 64 ⟨0, []⟩, 0, []⟩

/-- The final traceback of a DATA field, from the all-zero state that its tail and pad bits leave. -/
def vitFinish (v : VitState) : List Bool := v.out ++ (v.paths.getD 0 default).bits.reverse

/-- The pairs of soft bits of `n` stages from stage `i` of a punctured stream, and what is left of it: a punctured position
enters as 0 (R111). -/
def depuncture (pat : List (Bool × Bool)) : Nat → Nat → List Int → List (Int × Int) × List Int
  | 0, _, l => ([], l)
  | n + 1, i, l =>
    let p := pat.getD (i % pat.length) (false, false)
    let a := if p.1 then (l.headD 0, l.tail) else (0, l)
    let b := if p.2 then (a.2.headD 0, a.2.tail) else (0, a.2)
    let r := depuncture pat n (i + 1) b.2
    ((a.1, b.1) :: r.1, r.2)

/-- A tail-biting word of `n` bits decoded over three wraps; the middle `n` are output (Table 3.7). -/
def tailBite (n : Nat) (l : List (Int × Int)) : List Bool :=
  let v := (l ++ l ++ l).foldl vitStage vitOpen
  (((bestPath v.paths).bits.reverse).drop n).take n

/-- The 24 information bits of a SIG from the soft bits of its 32 coded bits (R47, Table 3.7). -/
def sigDecode (soft : List Int) : BitVec 24 :=
  BitVec.ofNat 24 (ofBitsMsb (tailBite 24 (depuncture (punctPattern 2) 24 0 soft).1))

/-- The 8 information bits of an ACK symbol from the soft values of its 16 coded bits (R71, Table 3.7). -/
def ackDecode (soft : List Int) : Byte :=
  BitVec.ofNat 8 (ofBitsMsb (tailBite 8 (depuncture (punctPattern 0) 8 0 soft).1))

/-- The MPDU bytes of decoded DATA bits: descrambled from the number of the transmission's first slot (R49, R50). -/
def dataBytes (slot : Nat) (bits : List Bool) : List Byte :=
  let l := scramble (scrambleSeed slot) bits
  (List.range (l.length / 8)).map fun i => byte (ofBitsMsb ((l.drop (8 * i)).take 8))

end Sys2Proof.Machine
end

