-- ==== Sys2Proof/Machine/Demap.lean ====
section
/-! DEFINITION. Channel estimate, pilots, demapping, soft bits and the jobs of the Viterbi bank (R75, R76, R83, R107 to
R115). -/

namespace Sys2Proof.Machine

/-! ## Channel estimate (R83, R107) -/

/-- e rounded to a multiple of 0.0625 µs (R83). -/
def roundE (e : Int) : Int := roundDiv e 62500 * 62500

/-- Turn bin k by the phase ramp that a delay of `t` picoseconds gives it, in the opposite sense. -/
def unramp (t k : Int) (z : Cplx) : Cplx := crot z (cis (k * t) 125000000)
/-- Turn bin k by the phase ramp of a delay of `t` picoseconds. -/
def reramp (t k : Int) (z : Cplx) : Cplx := crot z (cis (-(k * t)) 125000000)

/-- The taps of R107 at place `j` of a list: ¼, ½, ¼, and ⅔, ⅓ at the edges. -/
def smoothTap (l : List Cplx) (j : Nat) : Cplx :=
  let z' (i : Nat) : Cplx := l.getD i (0, 0)
  if j = 0 then let z := cadd (cscale 2 (z' 0)) (z' 1); (z.1 / 3, z.2 / 3)
  else if j + 1 = l.length then let z := cadd (cscale 2 (z' j)) (z' (j - 1)); (z.1 / 3, z.2 / 3)
  else let z := cadd (cadd (z' (j - 1)) (cscale 2 (z' j))) (z' (j + 1)); (z.1 / 4, z.2 / 4)

/-- H_k = Y_k / C(k) of a cell's used subcarriers with the ramp of `t` removed. -/
def rawEst (mode : Fin 3) (s : Nat) (bin : Int → Cplx) (t : Int) : List Cplx :=
  ((subchK mode s).zip (subchRef mode s)).map fun p => unramp t p.1 (cscale p.2 (bin p.1))

/-- The channel estimate of R107; `t` is e less the anchor. -/
def estChannel (mode : Fin 3) (s : Nat) (bin : Int → Cplx) (t : Int) : List Cplx :=
  let l := rawEst mode s bin t
  ((subchK mode s).zip (List.range l.length)).map fun p => reramp t p.1 (smoothTap l p.2)

/-- The sum of z_j times the conjugate of its successor. -/
def slopeSum : List Cplx → Cplx
  | a :: b :: t => cadd (cmul a (cconj b)) (slopeSum (b :: t))
  | _ => (0, 0)

/-- What the CE window adds to a time `t` measured before, in picoseconds: the phase slope that is left between neighbouring
subcarriers, 8 kHz apart (R83; DESIGN CHOICE, log entry 179: the manual names no method). -/
def ceResidual (mode : Fin 3) (s : Nat) (bin : Int → Cplx) (t : Int) : Int :=
  argTurn (slopeSum (rawEst mode s bin t)) * 125000000 / 4294967296

/-- H of a subcarrier of a cell. -/
def hOf (mode : Fin 3) (s : Nat) (h : List Cplx) (k : Int) : Cplx := h.getD ((subchK mode s).findIdx (· == k)) (0, 0)

/-! ## Pilots (R108) -/

/-- The pilots of a subchannel (R37). -/
def subchPilots (mode : Fin 3) (s : Nat) : List Int := (subchK mode s).filter isPilot

/-- The sum of the pilots' magnitudes in a window. -/
def pilotMag (mode : Fin 3) (s : Nat) (bin : Int → Cplx) : Nat :=
  (subchPilots mode s).foldl (fun a k => a + cabs (bin k)) 0

/-- The pilots of a window against C(k) and H_k: their common phase. -/
def pilotSum (mode : Fin 3) (s : Nat) (h : List Cplx) (bin : Int → Cplx) : Cplx :=
  csum ((((subchK mode s).zip (subchRef mode s)).filter fun p => isPilot p.1).map fun p =>
    cmul (cscale p.2 (bin p.1)) (cconj (hOf mode s h p.1)))

/-- A bin with the common phase `p` taken off, and its amplitude divided by the ratio of the pilots' mean magnitude `mag` to
that of the CE pilots (R108). -/
def pilotCorrect (p : Cplx) (mag ce : Nat) (z : Cplx) : Cplx :=
  let n : Int := cabs p * mag
  if n = 0 then z else let w := cscale ce (cmul z (cconj p)); (w.1 / n, w.2 / n)

/-- The carrier offset, in hertz, that turns the pilots from `a` to `b` in one symbol period of 156.25 µs (R108). -/
def pilotCfo (a b : Cplx) : Int := argTurn (cmul b (cconj a)) * 6400 / 4294967296

/-! ## Soft bits (R110, R111, R115) -/

/-- The squared distance of Y from H times the point of a label, the scale of Table 2.8 applied (R54, R111). -/
def labelDist (y h : Cplx) (l : List Bool) : Nat :=
  let p := constPoint l
  let u : Int := isqrt (1099511627776 / conNorm l.length)
  let w := cmul h (p.1 * u, p.2 * u)
  cnorm (y.1 - w.1 / 1048576, y.2 - w.2 / 1048576)

/-- The smaller of a minimum so far and a new value. -/
def minOf : Option Nat → Nat → Option Nat
  | none, x => some x
  | some a, x => some (min a x)

/-- The smallest distance over the labels of `n` bits whose bit `b` is `v` (R111). -/
def nearest (y h : Cplx) (n b : Nat) (v : Bool) : Nat :=
  ((((List.range (2 ^ n)).map (bitsMsb n)).filter fun l => l.getD b false == v).foldl
    (fun a l => minOf a (labelDist y h l)) none).getD 0

/-- q = clamp(round(2λ), −15, +15) with λ = (d1 − d0) × |H|² / N̂; both distances are from Y and H times the point, which is
|H|² times the distance from the equalised point (R111). Halves round away from zero (DESIGN CHOICE, log entry 180). `m` is
the number of samples of the window, `noise` the linear floor. -/
def softBit (m noise : Nat) (y h : Cplx) (n b : Nat) : Int :=
  let d1 : Int := nearest y h n b true
  let d0 : Int := nearest y h n b false
  let den : Int := ((m * 32768000000) ^ 2 * noise : Nat)
  if den = 0 then 0 else clampInt (-15) 15 (roundDiv (2 * (d1 - d0) * 10 ^ 32) den)

/-- H of a boosted subcarrier is multiplied by √2 (R110). -/
def boostH (boost : Bool) (h : Cplx) : Cplx :=
  if boost then (h.1 * 1518500250 / 1073741824, h.2 * 1518500250 / 1073741824) else h

/-- The soft bits of one subcarrier with a loading code; an off subcarrier has none. -/
def softCode (m noise : Nat) (y h : Cplx) (code : BitVec 4) : List Int :=
  let n := conBits (codeCon code)
  (List.range n).map fun b => softBit m noise y (boostH (codeBoost code == 1) h) n b

/-- In a clipped period every soft bit is halved, truncated toward 0 (R115). -/
def dampSoft (damp : Bool) (q : Int) : Int := if damp then q.tdiv 2 else q

/-- One symbol's soft bits of all members in the order in which R53 and R75 placed the coded bits; a member without soft
bits is erased and gives 0 (R76, R111). `mem` gives each member's soft bits by data subcarrier. -/
def interleaved (codes : List (BitVec 4)) (mem : Nat → List (List Int)) : List Int :=
  let bits := codes.map fun c => conBits (codeCon c)
  (List.range 8).flatMap fun j =>
    (((List.range (16 * (codes.length / 16))).map fun p => interPos (codes.length / 16) p).filter fun q =>
      decide (j < bits.getD (16 * q.1 + q.2) 0)).map fun q => ((mem q.1).getD q.2 []).getD j 0

/-! ## Receptions and their members (R74 to R77) -/

/-- A cell of a radio changes. -/
def Dev.modCell (d : Dev) (r : RadioId) (c : Cell) (f : Cell → Cell) : Dev :=
  d.modRadio r fun x => { x with cells := x.cells.map fun y => if y = c then f y else y }

/-- The members' cells of a grant, by member: radio of the table, channel, subchannel. -/
def Dev.grantMembers (d : Dev) (r : RadioId) (c : Cell) : List (Nat × Nat × Nat) :=
  if c.stripe = 1 then [(r.val, c.chan, c.subch)]
  else
    let t := d.sch.active
    let slot := slotOf c.firstS
    match (List.range 3).findSome? fun y =>
        let w := rowAt t y slot
        if w.chan.toNat = c.chan then w.cellOn c.subch else none with
    | none => [(r.val, c.chan, c.subch)]
    | some e =>
      let l := (stripeMembers t slot e).map fun x => (x.2.2.member.toNat, x.1, x.2.1.chan.toNat, x.2.2.subch.toNat)
      [0, 1, 2].filterMap fun m => (l.find? fun x => x.1 == m).map (·.2)

/-- The subchannel cell of a reception that begins in slot count `s` on a channel, on the radio that holds it. -/
def Dev.cellOn (d : Dev) (chan subch : Nat) (s : Int) : Option (RadioId × Cell) :=
  radios.findSome? fun y => ((d.radio y).cells.find? fun x =>
    x.chan == chan && x.subch == subch && x.firstS == s && x.kind != .none).map fun x => (y, x)

/-- The cells of a reception on all radios, by member: radio and cell. A member whose radio took no reception has none. -/
def Dev.rxGroup (d : Dev) (r : RadioId) (c : Cell) : List (RadioId × Cell) :=
  if c.kind = .mesh then
    ((d.radio r).cells.filter fun x => x.kind == .mesh && x.firstS == c.firstS).map fun x => (r, x)
  else if c.stripe = 1 then [(r, c)]
  else (d.grantMembers r c).filterMap fun m => d.cellOn m.2.1 m.2.2 c.firstS

/-- The members of a reception that its decoder takes soft bits from: their SIG has passed (R76, R112). -/
def Dev.rxPass (d : Dev) (r : RadioId) (c : Cell) : List (RadioId × Cell) :=
  (d.rxGroup r c).filter fun p => p.2.state == .data

/-- How the Viterbi bank names a reception: radio and subchannel of its member 0, and its first slot. -/
def Dev.rxKey (d : Dev) (r : RadioId) (c : Cell) : RadioId × Nat × Int :=
  if c.kind = .mesh then (r, 0, c.firstS)
  else match d.grantMembers r c with
    | m :: _ => (Fin.ofNat 3 m.1, m.2.2, c.firstS)
    | [] => (r, c.subch, c.firstS)

/-! ## The Viterbi bank (R113, Table 3.7) -/

/-- The record of a reception; a new one starts in the all-zero state (R51). -/
def Bank.recOf (b : Bank) (key : RadioId × Nat × Int) (train : Nat) : VitRec :=
  (b.recs.find? fun x => (x.radio, x.subch, x.firstS) == key).getD ⟨key.1, key.2.1, key.2.2, train, vitZero, [], 0⟩

/-- Store a reception's record. -/
def Bank.putRec (b : Bank) (x : VitRec) : Bank :=
  { b with recs := x :: b.recs.filter fun y => (y.radio, y.subch, y.firstS) != (x.radio, x.subch, x.firstS) }

/-- Information bits that one more DATA symbol completes (R52): the stages of its job. -/
def jobStages (x : VitRec) (sumb : Nat) (rate : BitVec 2) : Nat :=
  capacity ((x.syms + 1) * sumb) rate - capacity (x.syms * sumb) rate

/-- The DATA job of one symbol: its stages run, and the survivor state moves on with the reception. -/
def dataJob (x : VitRec) (sumb : Nat) (rate : BitVec 2) (soft : List Int) : VitRec :=
  let o := depuncture (punctPattern rate) (jobStages x sumb rate) (capacity (x.syms * sumb) rate) (x.left ++ soft)
  { x with st := o.1.foldl vitStage x.st, left := o.2, syms := x.syms + 1 }

/-- The cost of a job in fabric cycles, at the bound of Table 3.7. -/
def Bank.cost (b : Bank) : VitWork → Nat
  | .sig _ => 76
  | .data key train sumb rate _ => (jobStages (b.recOf key train) sumb rate + 1) / 2 + 40

/-- The engine that takes the next job: the one that is free first, of equals the first (R113; DESIGN CHOICE, log entry 178). -/
def firstFree (free : List Int) : Nat := free.findIdx fun x => free.all fun y => decide (x ≤ y)

/-- From the close of a window to its demap at the bounds of Table 3.8, in fabric cycles: FFT 8 µs, demap 6 µs. -/
def demapCycles : Int := 5600

/-- A free engine takes a job: it starts once the window is demapped and the engine is free. -/
def Bank.dispatch (b : Bank) (j : VitJob) : Bank :=
  let e := firstFree b.free
  { b with free := b.free.set e (max (b.free.getD e 0) (j.close + demapCycles) + b.cost j.work) }

/-- Jobs run in the order of the closing time of their window, ties by radio and then by subchannel (R113). -/
def VitJob.before (a b : VitJob) : Bool :=
  decide (a.close < b.close) || (a.close == b.close &&
    (decide (a.radio.val < b.radio.val) || (a.radio == b.radio && decide (a.subch ≤ b.subch))))

/-- Put a job in its place. -/
def insJob (j : VitJob) : List VitJob → List VitJob
  | [] => [j]
  | x :: t => if x.before j then x :: insJob j t else j :: x :: t

def Dev.addJob (d : Dev) (j : VitJob) : Dev := { d with vit := { d.vit with jobs := insJob j d.vit.jobs } }

/-- One job runs on a free engine: a SIG is decoded into its cell, or a reception's decoder takes one symbol. -/
def Dev.runJob (d : Dev) (j : VitJob) : Dev :=
  let d := { d with vit := d.vit.dispatch j }
  match j.work with
  | .sig soft =>
    let v := sigDecode soft
    d.modRadio j.radio fun x => { x with
      cells := x.cells.map fun (c : Cell) => if c.subch = j.subch ∧ c.state = .acq then { c with sig := v } else c }
  | .data key train sumb rate soft => { d with vit := d.vit.putRec (dataJob (d.vit.recOf key train) sumb rate soft) }

/-- The jobs of windows that closed before `t`, or all of them, run. -/
def Dev.runJobs (d : Dev) (t : Option Int) : Dev :=
  let due (j : VitJob) : Bool := match t with | some t => decide (j.close < t) | none => true
  let l := d.vit.jobs.filter due
  l.foldl Dev.runJob { d with vit := { d.vit with jobs := d.vit.jobs.filter fun j => !due j } }

/-- The bytes that the bank has decoded for a reception (R49, R50, R113). -/
def Dev.rxBytes (d : Dev) (r : RadioId) (c : Cell) : List Byte :=
  dataBytes (slotOf c.firstS) (vitFinish (d.vit.recOf (d.rxKey r c) c.train).st)

/-- Receptions whose last slot is over leave the bank. -/
def Dev.endRecs (d : Dev) : Dev :=
  { d with vit := { d.vit with recs := d.vit.recs.filter fun x => decide (d.tim.slotS < x.firstS + x.train) } }

/-! ## Receive windows (R81, R82, R103 to R115) -/

/-- The slot that a radio receives: the one whose acquisition opened last. Before its tick it is the slot that comes next. -/
def Radio.rxSlot (x : Radio) (s : Int) : Int := x.rxS.getD s
def Dev.rxSlot (d : Dev) (r : RadioId) : Int := (d.radio r).rxSlot d.tim.slotS

/-- What a window of a period of slot `s` carries for a cell that holds a reception. -/
def Cell.useIn (c : Cell) (s : Int) (period : Nat) : PeriodUse := periodUse c.train (s - c.firstS).toNat period

/-- Does a cell use the windows of an anchor in a period of slot `s` (R81, R82)? -/
def Cell.usesWindow (c : Cell) (s : Int) (period : Nat) (anchor : Int) : Bool :=
  (c.state == .acq || c.state == .data) && c.anchor == anchor &&
    (match c.useIn s period with | .sync | .ce | .sig | .data => true | .agap | .ack | .tg => false)

/-- Is a data subcarrier of a window a quiet observation (Table 3.6)? A MESH row received from the peer is treated as an
uplink slot (DESIGN CHOICE, log entry 181). -/
def Dev.quietBin (d : Dev) (r : RadioId) (w : WindowObs) (subch i : Nat) : Bool :=
  let x := d.radio r
  let s := d.rxSlot r
  let agap := w.period == 13 && !x.cells.any fun c => c.state == .data && decide (0 < c.anchor)
  let free := w.anchor == 0 && (decide (w.period ≤ 12) || agap)
  match x.cells.find? fun c => c.subch == subch with
  | none => free
  | some c =>
    match c.state with
    | .idle => free
    | .data =>
      (c.useIn s w.period == .data && w.anchor == c.anchor && codeCon (c.map.codes.getD (16 * c.member + i) 2) == 0) ||
        (w.period == 13 && w.anchor == 0 && agap && decide (c.firstS + c.train = s + 1))
    | _ => false

/-- The quiet observations of a window: floor key and level. A period in which the radio transmits or retunes gives none. -/
def Dev.quietOf (d : Dev) (r : RadioId) (chan : Nat) (mode : Fin 3) (w : WindowObs) (bin : Int → Cplx) : List (Nat × Cdb) :=
  if d.paEn r || (d.radio r).target.isSome then []
  else (List.range (modeSubch mode)).flatMap fun s =>
    ((List.range 16).filter fun i => d.quietBin r w s i).map fun i =>
      (floorKey chan s i, binLevel (fftSize mode) (bin ((subchData mode s).getD i 0)))

/-- A clipped period marks the receptions whose SIG or DATA it carries (R114). -/
def Dev.markClipped (d : Dev) (r : RadioId) (period : Nat) : Dev :=
  let s := d.rxSlot r
  d.modRadio r fun x => { x with cells := x.cells.map fun (c : Cell) =>
    let use := c.useIn s period
    if (c.state = .acq ∨ c.state = .data) ∧ (use = .sig ∨ use = .data) then { c with clipped := true } else c }

/-- The CE window of a cell: e is refined, the channel estimated and the gains g_i measured (R83, R107, R109). The window shows
the arrival with the external delay `ext` that e leaves out (R246), in picoseconds. -/
def Cell.takeCe (c : Cell) (mode : Fin 3) (bin : Int → Cplx) (ext : Int) : Cell :=
  let a := c.anchor - ext
  let e := roundE (c.e + ceResidual mode c.subch bin (c.e - a))
  let h := estChannel mode c.subch bin (e - a)
  { c with
    e := e, chanEst := h, cePilot := pilotMag mode c.subch bin
    gains := (subchData mode c.subch).map fun k => binLevel (fftSize mode) (hOf mode c.subch h k) }

/-- The soft bits of a SIG: coded bits 2p and 2p + 1 on data subcarrier 5p mod 16, as QPSK (R47). -/
def Dev.sigSoft (d : Dev) (r : RadioId) (c : Cell) (mode : Fin 3) (bin : Int → Cplx) (damp : Bool) : List Int :=
  (List.range 16).flatMap fun p =>
    let i := 5 * p % 16
    let k := (subchData mode c.subch).getD i 0
    (softCode (fftSize mode) (linOf (d.nhat r c.chan c.subch i)) (bin k) (hOf mode c.subch c.chanEst k) 4).map (dampSoft damp)

/-- The soft bits of a DATA symbol on a cell, by data subcarrier, under the map selected for it (R108, R110, R111). -/
def Dev.dataSoft (d : Dev) (r : RadioId) (c : Cell) (mode : Fin 3) (bin : Int → Cplx) (damp : Bool) : List (List Int) :=
  let p := pilotSum mode c.subch c.chanEst bin
  let mag := pilotMag mode c.subch bin
  (List.range 16).map fun i =>
    let k := (subchData mode c.subch).getD i 0
    (softCode (fftSize mode) (linOf (d.nhat r c.chan c.subch i)) (pilotCorrect p mag c.cePilot (bin k))
      (hOf mode c.subch c.chanEst k) (c.map.codes.getD (16 * c.member + i) 0)).map (dampSoft damp)

/-- A DATA window of a cell: its soft bits wait for their job, and its pilots track the carrier offset (R108). -/
def Cell.takeData (c : Cell) (soft : List (List Int)) (p : Cplx) : Cell :=
  { c with
    soft := c.soft ++ [soft], pilot := some p
    cfo := match c.pilot with | some q => pilotCfo q p | none => c.cfo }

/-- A symbol of which every member that passed has been demapped becomes a job, and its soft bits leave the cells (R112,
R113). -/
def Dev.symbolJob (d : Dev) (r : RadioId) (c : Cell) (close : Int) : Dev :=
  let g := d.rxPass r c
  match g with
  | [] => d
  | (r1, c1) :: _ =>
    if g.any fun p => p.2.soft.isEmpty then d
    else
      let mem (m : Nat) : List (List Int) := match g.find? fun p => p.2.member == m with | some p => p.2.soft.headD [] | none => []
      let d := g.foldl (fun d p => d.modCell p.1 p.2 fun x => { x with soft := x.soft.tail }) d
      d.addJob ⟨close, r1, c1.subch, .data (d.rxKey r1 c1) c1.train (sumBits c1.map.codes) (sigRate c1.sig)
        (interleaved c1.map.codes mem)⟩

/-- TIM_RF_EXTDLY.RX in picoseconds (R246). -/
def Dev.extDelayRx (d : Dev) (r : RadioId) : Int := 1000 * (d.fld (Reg.timRfExtdly_rx r) : Int)

/-- The fixed receive path from the ball to the sample, decimation filter included, in picoseconds (Table 7.5). -/
def pathPs (mode : Fin 3) : Int := match mode with | 0 => 23787500 | 1 => 6209375 | 2 => 1814844

/-- One cell's part of a window. -/
def Dev.cellWindow (d : Dev) (r : RadioId) (mode : Fin 3) (w : WindowObs) (bin : Int → Cplx) (damp : Bool) (close : Int)
    (subch : Nat) : Dev :=
  let s := d.rxSlot r
  match (d.radio r).cells.find? fun c => c.subch == subch && c.usesWindow s w.period w.anchor with
  | none => d
  | some c =>
    match c.useIn s w.period with
    | .ce => d.modCell r c fun x => x.takeCe mode bin (d.extDelayRx r)
    | .sig => if c.state = .acq then d.addJob ⟨close, r, subch, .sig (d.sigSoft r c mode bin damp)⟩ else d
    | .data =>
      if c.state = .data then
        let soft := d.dataSoft r c mode bin damp
        let c' := c.takeData soft (pilotSum mode c.subch c.chanEst bin)
        (d.modCell r c fun _ => c').symbolJob r c' close
      else d
    | _ => d

/-- A radio demaps up to 64 cells per symbol period (R110). Of more cells on an anchor's window the first 64 by subchannel are
demapped (DESIGN CHOICE, log entry 200: the manual does not name them). -/
def maxDemap : Nat := 64

/-- Put a number into a rising list. -/
def insNat : List Nat → Nat → List Nat
  | [], n => [n]
  | x :: t, n => if n < x then n :: x :: t else x :: insNat t n

/-- When a window of slot `s` closes, in fabric cycles: 140.625 µs after the start of its period, its anchor later (R81), and the
receive path later (R246). -/
def windowEnd (s : Int) (mode : Fin 3) (w : WindowObs) : Int :=
  s * 1000000 + (w.period * periodPs + 140625000 + w.anchor + pathPs mode) / 2500

/-- Quiet observations wait while every sample so far held one code; else they move the floors (R104, R491). -/
def Dev.flushQuiet (d : Dev) (r : RadioId) : Dev :=
  if (d.radio r).stuck then d
  else
    let l := (d.radio r).quiet
    l.foldl (fun d p => d.observe r p.1 p.2) (d.modRadio r fun x => { x with quiet := [] })

/-- The window is transformed, its quiet bins observed, and its cells' part handed to the decoder (R87, R103, R107 to
R115). -/
def Dev.takeWindow (d : Dev) (r : RadioId) (chan : Nat) (mode : Fin 3) (w : WindowObs) (clipped : Bool) : Dev :=
  let s := d.rxSlot r
  let close := windowEnd s mode w
  let d := d.runJobs (some close)
  let x := compensate ((d.radio r).gain :: (d.radio r).gainHist) w.samples
  let bin := windowBin mode x
  let q := if clipped || w.attack then [] else d.quietOf r chan mode w bin
  let subs := (((d.radio r).cells.filter fun c => c.usesWindow s w.period w.anchor).map (·.subch)).foldl insNat [] |>.take maxDemap
  let damp := clipped && d.cfgBit (Reg.bbpRxcfg_clip_damp r)
  let d := subs.foldl (fun d s => d.cellWindow r mode w bin damp close s) d
  (d.modRadio r fun y => { y with quiet := y.quiet ++ q }).flushQuiet r

end Sys2Proof.Machine
end

