-- ==== Sys2Proof/Machine/Maps.lean ====
section
/-! DEFINITION. Loading maps at work: channel gains, SNR, recompute, issue and confirmation (R58 to R65, R109, R185 to
R189), for sensors and for Mladol links (R209). -/

namespace Sys2Proof.Machine

/-- AIR_LMCFG and AIR_FLOORCFG in force: as the recompute that began last found them written (R65). -/
def Dev.lmMargin (d : Dev) : Cdb := 25 * d.cfgFld Reg.airLmcfg_margin
def Dev.lmSlack (d : Dev) : Cdb := 25 * d.cfgFld Reg.airLmcfg_margin - 25 * d.cfgFld Reg.airLmcfg_hyst
def Dev.lmPersist (d : Dev) : Nat := orElse0 (d.cfgFld Reg.airLmcfg_persist) 1
def Dev.floorRate (d : Dev) : BitVec 2 := BitVec.ofNat 2 (d.cfgFld Reg.airFloorcfg_floor_rate)

/-- Channel and subchannel of an anchor. -/
def anchorCell (a : BitVec 16) : Nat × Nat := (a.toNat / 128, a.toNat % 128)

/-- The floor BPSK map of `m` members at rate ½ (R64). -/
def bpskHalf (m : Nat) : LoadMap := floorMap false m 0

/-- G ← G + (g − G) / 4 in linear power; the first sets it (R109). -/
def mixGain (old : Option Cdb) (g : Cdb) : Option Cdb :=
  some (match old with | none => g | some x => blend x g 4)

/-- Update one member's 16 gains in a list of 16 per member. -/
def mixMember (l : List (Option Cdb)) (m : Nat) (g : List Cdb) : List (Option Cdb) :=
  ((List.range l.length).map fun k =>
    if k / 16 = m then (match g[k % 16]? with | some x => mixGain (l.getD k none) x | none => l.getD k none)
    else l.getD k none)

/-- The gains of a sensor, one per data subcarrier of its anchors. -/
def SensorCtx.allGains (x : SensorCtx) : List (Option Cdb) :=
  (List.range (16 * x.anchors.length)).map fun k => x.gains.getD k none

/-- SNR_i of a sensor over its anchors, with the noise floors of the given radios; none while a gain is missing (R60). -/
def Dev.sensorSnr (d : Dev) (x : SensorCtx) (rs : List RadioId) : Option (List (List Cdb)) :=
  if x.anchors = [] ∨ x.allGains.any (·.isNone) then none
  else some ((List.range x.anchors.length).map fun m =>
    let c := anchorCell (x.anchors.getD m 0)
    let r := rs.getD m 0
    (List.range 16).map fun i => ((x.allGains.getD (16 * m + i) none).getD 0) - d.nhat r c.1 c.2 i)

/-- Is the mean SNR at least FLOOR_SNR (R59)? -/
def Dev.floorQpsk (d : Dev) (snr : List Cdb) : Bool := meanAtLeast snr (25 * d.cfgFld Reg.airFloorcfg_floor_snr)

/-- Does a new map's metric exceed the confirmed one's by GAIN_PCT % (R62)? -/
def Dev.mapGains (d : Dev) (new conf : LoadMap) : Bool :=
  let n := metric12 new.codes new.rate
  let c := metric12 conf.codes conf.rate
  decide (c < n) && decide (c * (100 + d.cfgFld Reg.airLmcfg_gain_pct) ≤ n * 100)

/-- The confirmed map's codes; at join the floor BPSK map of the sensor's members (R189). -/
def fullMap (m : LoadMap) (members : Nat) : LoadMap := if m.codes = [] then { bpskHalf members with version := m.version } else m

/-- The version after a map's (R62). Version 15 is followed by 1: no LOADMAP carries version 0 (R189; DEDUCED, log entry 26). -/
def nextVersion (m : LoadMap) : BitVec 4 := if m.version = 15 then 1 else m.version + 1

/-- What a recompute decides: the map's owner keeps the newest map, and may issue it. -/
def Dev.judgeMap (d : Dev) (conf : LoadMap) (pend : Option LoadMap) (persist : Nat) (force : Bool) (new : LoadMap)
    (snr : List Cdb) : Nat × Option LoadMap :=
  let p := if d.mapGains new conf then persist + 1 else 0
  let issue := pend.isNone && (!mapSafe conf d.lmSlack snr || decide (d.lmPersist ≤ p) || force)
  (if issue then 0 else p, if issue then some { new with version := nextVersion conf } else none)

/-- A LOADMAP for a version of a sensor goes to a worker (R187). -/
def Dev.queueLoadmap (d : Dev) (sidx : Nat) (m : LoadMap) : Dev := d.createDev sidx (.loadmap sidx m)

/-- Issue a sensor's map if the conditions of R62 hold for it. -/
def Dev.tryIssue (d : Dev) (sidx : Nat) (new : LoadMap) (snr : List Cdb) : Dev :=
  let x := d.sensor sidx
  let j := d.judgeMap (fullMap x.confirmed x.anchors.length) x.pendMap x.persist x.issueNext new snr
  match j.2 with
  | some m =>
    (d.setSensor sidx { x with pendMap := some m, newest := none, persist := 0, issueNext := false }).queueLoadmap sidx m
  | none => d.setSensor sidx { x with persist := j.1, newest := if x.pendMap.isSome then some new else none }

/-- The recompute of R62 for a frame whose members came on these radios. A write to AIR_LMCFG or AIR_FLOORCFG applies from
here on (R65). -/
def Dev.recompute (d : Dev) (sidx : Nat) : Dev :=
  let d := d.applyBoundary .recompute
  let x := d.sensor sidx
  match d.sensorSnr x x.radios with
  | none => d
  | some snr =>
    let q := d.floorQpsk snr.flatten
    let d := d.setSensor sidx { x with floorQ := q }
    d.tryIssue sidx (computeMap 0 q d.lmMargin snr) snr.flatten

/-- May the newest map that waited for a confirmation be issued against the map that is confirmed now: the run of gaining
recomputes starts anew with it (R62)? -/
def Dev.issuesNewest (d : Dev) (conf new : LoadMap) (snr : List Cdb) : Bool :=
  !mapSafe conf d.lmSlack snr || (d.mapGains new conf && decide (d.lmPersist ≤ 1))

/-- A pending version becomes confirmed; the newest map that waited is issued if it still should be (R58, R62). -/
def Dev.confirmMap (d : Dev) (sidx : Nat) (version : BitVec 4) : Dev :=
  let x := d.sensor sidx
  match x.pendMap with
  | none => d
  | some p =>
    if p.version ≠ version then d
    else
      let d := (d.setSensor sidx { x with
        confirmed := p, pendMap := none, lm := none, lmWait := false, newest := none, persist := 0 }).bump Cnt.lmConfirmed
      match x.newest, d.sensorSnr x x.radios with
      | some n, some snr =>
        if d.issuesNewest p n snr.flatten then
          let m := { n with version := nextVersion p }
          (d.modSensor sidx fun y => { y with pendMap := some m }).queueLoadmap sidx m
        else if d.mapGains n p then d.modSensor sidx fun y => { y with persist := 1 }
        else d
      | _, _ => d

/-- The newest version that the device holds for a sensor (Table 2.5). -/
def SensorCtx.newestVersion (x : SensorCtx) : BitVec 4 :=
  match x.pendMap with | some p => p.version | none => x.confirmed.version

/-- The SNR of the downlink check: every SNR_i 6 dB less while the port of a member is backed off (R63, R146). -/
def Dev.downlinkSnr (d : Dev) (x : SensorCtx) (rs : List RadioId) : Option (List Cdb) :=
  let back := (List.range x.anchors.length).any fun m => d.backedOff (rs.getD m 0) (anchorCell (x.anchors.getD m 0)).1
  (d.sensorSnr x rs).map fun l => l.flatten.map fun s => if back then s - 600 else s

/-- The map with which a downlink goes out on the given radios (R63): codes, MCS and LMV. `onAnchors` says whether the
cell lies on the sensor's anchors. -/
def Dev.downlinkMap (d : Dev) (x : SensorCtx) (rs : List RadioId) (onAnchors : Bool) (members : Nat) :
    List (BitVec 4) × BitVec 4 × BitVec 4 :=
  let floor : List (BitVec 4) × BitVec 4 × BitVec 4 :=
    ((floorMap x.floorQ members 0).codes, BitVec.ofNat 4 ((if x.floorQ then 12 else 8) + d.floorRate.toNat), x.newestVersion)
  if x.confirmed.version = 0 ∨ !onAnchors then floor
  else match d.downlinkSnr x rs with
    | none => floor
    | some snr =>
      let m := x.confirmed
      if mapSafe m d.lmSlack snr then (m.codes, BitVec.ofNat 4 m.rate.toNat, m.version)
      else if mapSafe m.reduced d.lmSlack snr then (m.reduced.codes, BitVec.ofNat 4 (4 + m.rate.toNat), m.version)
      else floor

/-! ## Link maps (R209) -/

/-- The codes of a link map on every data subcarrier of its `m` subchannels: one code per subchannel, floor BPSK before
the first map. -/
def linkCodes (x : LoadMap) (m : Nat) : List (BitVec 4) :=
  (List.range m).flatMap fun s => List.replicate 16 (x.codes.getD s 2)

/-- The SNR of each subchannel: the lowest SNR_i among its data subcarriers. -/
def Dev.linkSnr (d : Dev) (k : Link) (r : RadioId) (chan m : Nat) : Option (List Cdb) :=
  let l := (List.range m).map fun s =>
    ((List.range 16).foldl (fun (a : Option Cdb) i =>
      match k.gains.getD (16 * s + i) none, a with
      | none, _ => none
      | some g, none => if i = 0 then some (g - d.nhat r chan s i) else none
      | some g, some b => some (min b (g - d.nhat r chan s i))) none)
  if l = [] ∨ l.any (·.isNone) then none else some (l.map fun x => x.getD 0)

/-- The link map of R209: one code per subchannel as R61 computes it, none boosted; a subchannel that R61 would leave off
carries BPSK. -/
def linkMapOf (q : Bool) (margin : Cdb) (snr : List Cdb) : LoadMap :=
  let con (rate : BitVec 2) : List Nat := snr.map fun x => bestCon (x - margin) rate
  let metric (rate : BitVec 2) : Nat := (con rate).foldl (fun a c => a + conBits c) 0 * rate12 rate
  let best := [1, 2, 3].foldl (fun (b : BitVec 2) r => if metric b < metric r then r else b) 0
  if metric best = 0 then ⟨0, q, 0, snr.map fun _ => if q then 4 else 2⟩
  else ⟨0, q, best, (con best).map fun c => BitVec.ofNat 4 (2 * max 1 c)⟩

/-- The recompute of a link's map after a frame; FLOOR of the device's own frames on the link follows the same SNR (R59,
R209). -/
def Dev.recomputeLink (d : Dev) (l : Nat) (r : RadioId) (chan m : Nat) : Dev :=
  let d := d.applyBoundary .recompute
  let k := d.link l
  match d.linkSnr k r chan m with
  | none => d
  | some snr =>
    let q := d.floorQpsk snr
    let k := { k with peerMap := { k.peerMap with floorQ := q }, rxOn := some (r, chan) }
    let new := linkMapOf q d.lmMargin snr
    let conf : LoadMap := if k.confirmed.codes = [] then ⟨0, false, 0, snr.map fun _ => 2⟩ else k.confirmed
    let j := d.judgeMap conf k.pendMap k.persist false new snr
    match j.2 with
    | some x =>
      (d.setLink l { k with pendMap := some x, newest := none, persist := 0 }).createDev l (.linkmap l x)
    | none => d.setLink l { k with persist := j.1, newest := if k.pendMap.isSome then some new else none }

/-- A pending link map becomes confirmed, and the newest map that waited is issued as R62 says of a sensor's (R209). -/
def Dev.confirmLinkMap (d : Dev) (l : Nat) (version : BitVec 4) : Dev :=
  let k := d.link l
  match k.pendMap with
  | none => d
  | some p =>
    if p.version ≠ version then d
    else
      let d := (d.setLink l { k with confirmed := p, pendMap := none, newest := none, persist := 0 }).bump Cnt.lmConfirmed
      match k.newest, k.rxOn.bind fun x => d.linkSnr k x.1 x.2 p.codes.length with
      | some n, some snr =>
        if d.issuesNewest p n snr then
          let x := { n with version := nextVersion p }
          (d.modLink l fun y => { y with pendMap := some x }).createDev l (.linkmap l x)
        else if d.mapGains n p then d.modLink l fun y => { y with persist := 1 }
        else d
      | _, _ => d

/-- A LINKMAP that was dropped confirms nothing: its version is pending no more, and the next recompute may issue again
(DEDUCED, log entry 191). -/
def Dev.dropLinkMap (d : Dev) (l : Nat) (version : BitVec 4) : Dev :=
  d.modLink l fun k => if k.pendMap.map (·.version) = some version then { k with pendMap := none } else k

end Sys2Proof.Machine
end

