-- ==== Sys2Proof/Machine/Mesh.lean ====
section
/-! DEFINITION. Gateway-to-gateway links of chapter 06: the Mladol frame, link queues and rows, the parent link and its
states, floods and the Marl cache. -/

namespace Sys2Proof.Machine

/-! ## Links and rows (R202 to R205) -/

/-- The enabled link that a row's channel names: its number and whether the peer is the parent. -/
def Dev.linkOfChan (d : Dev) (chan : Nat) : Option (Nat × Bool) :=
  (d.links.find? fun x => x.2.1 == chan).map fun x => (x.1, x.2.2)

/-- Does this device transmit in row number `k` of a link (R204)? -/
def ownRowDir (parent : Bool) (k : Nat) : Bool := if parent then k % 2 == 1 else k % 2 == 0

/-- Subchannels of a channel. -/
def Dev.chanSubch (d : Dev) (chan : Nat) : Nat := match d.chan chan with | some c => modeSubch c.mode | none => 0

def Dev.gwId (d : Dev) : Word := d.reg Reg.schBcncfg
/-- ADDR of the device's own Mladol frames (R207). -/
def Dev.ownAddr (d : Dev) : Nat := d.gwId.toNat % 16777216
/-- PARENT_LOST of the device's own frames (R215, R219). -/
def Dev.parentLost (d : Dev) : Bool := decide (2 ≤ d.fld Reg.mshStat_state) || d.bit Reg.mshStat_up_lost
def Dev.linkRetryMax (d : Dev) (l : Nat) : Nat := d.cfgFld (Reg.mshLink_retry_max l)
/-- D in picoseconds. -/
def Dev.delayPs (d : Dev) : Int := d.fld Reg.mshDelay_d * 62500

/-- A peer violation (R222). -/
def Dev.peerViolation (d : Dev) (code counter l : Nat) (r : RadioId) (addr : Nat) : Dev :=
  ((d.bump counter).raise Reg.mshStat_violation).violation code l
    [(8, [byte l, byte r]), (12, le 4 addr)]

/-! ## The Mladol frame (R206, R207) -/

/-- Kinds of Table 6.2. -/
def mkLinkBeacon : Nat := 0
def mkData : Nat := 1
def mkLinkmap : Nat := 2
def mkFloodCtrl : Nat := 8
def mkFloodAlert : Nat := 9
def mkFloodFw : Nat := 10
def kindKnown (k : Nat) : Bool := k == 0 || k == 1 || k == 2 || k == 8 || k == 9 || k == 10
def kindFlood (k : Nat) : Bool := k == 8 || k == 9 || k == 10

/-- The class of a kind in the order of R210: 0 first. -/
def kindClass (k : Nat) : Nat :=
  if k = 0 then 0 else if k = 9 then 1 else if k = 2 then 2 else if k = 8 then 3 else if k = 1 then 4 else 5

/-- The Mladol header (Table 6.1). -/
def Dev.mladolHdr (d : Dev) (kind ttl : Nat) (origin : Word) (msgid : Nat) : List Byte :=
  [byte (kind * 16 + ttl % 16),
    byte (128 * d.parentLost.toNat + 64 * (d.servo == svLocked).toNat + d.fld Reg.mshStat_hop)] ++
    be 4 origin.toNat ++ be 2 msgid

/-- KEYIDX of a link's key. -/
def Dev.linkKidx (d : Dev) (l : Nat) : Nat := Sparse.get 0 d.kao.linkKidx l

/-- Draw the counter of a link's key; its transmit epoch is written with the first value of an epoch (R362). -/
def Dev.drawLink (d : Dev) (l : Nat) : Dev × Option Nat :=
  let o := d.drawC l
  match o.2 with
  | some c =>
    if c % 4194304 = 0 then
      ({ o.1 with boot := { o.1.boot with txEpoch := Sparse.put 0 o.1.boot.txEpoch l (BitVec.ofNat 26 (c / 4194304)) } }, o.2)
    else o
  | none => o

/-- Build and protect a Mladol MPDU for a link; none when its key is missing or exhausted. -/
def Dev.mladolMpdu (d : Dev) (l : Nat) (hdr body : List Byte) : Dev × Option (List Byte) :=
  let o := d.drawLink l
  match o.2 with
  | none => (o.1, none)
  | some c =>
    let d := o.1
    let parent := d.cfgBit (Reg.mshLink_role l)
    let k := d.linkKidx l
    let h : MpduHdr := {
      ftype := tMesh, ver := 0, sec := true, noack := false, keyidx := BitVec.ofNat 4 k, seq := byte c,
      addr := BitVec.ofNat 24 d.ownAddr, flags := BitVec.ofNat 16 (c / 256 % 16384), len := body.length + 30 }
    let clear := h.bytes ++ hdr
    let s := d.seal l (nonceC (if parent then 0x03 else 0x02) d.ownAddr c k) (ccmAad clear 8) body
    (s.1, some (withCrc (clear ++ s.2)))

/-- Put a message into a link's queue (R210, R211). -/
def Dev.linkEnqueue (d : Dev) (l kind ttl : Nat) (origin : Word) (msgid : Nat) (body : List Byte)
    (mapVer : Option (BitVec 4)) : Dev :=
  let lost (d : Dev) : Dev := match mapVer with | some v => d.dropLinkMap l v | none => d
  if 2052 < body.length + 30 then lost (d.bump Cnt.linkNofit)
  else if 256 ≤ (d.link l).queue.length then lost ((d.bump Cnt.linkQdrop).raise Reg.mshStat_qdrop)
  else
    let o := d.mladolMpdu l (d.mladolHdr kind ttl origin msgid) body
    match o.2 with
    | none => lost o.1
    | some m =>
      let x : LinkMpdu := ⟨kindClass kind, m, m.getD 2 0, 0, 0, o.1.curS, false, mapVer⟩
      o.1.modLink l fun k => { k with queue := k.queue ++ [x] }

/-! ## Sending a row (R209 to R211) -/

/-- The map for a transmission on a link: the peer's newest map if it is safe, reduced if that is, else the floor map
(R63, R146, R209): codes, MCS and LMV. -/
def Dev.linkTxMap (d : Dev) (l : Nat) (r : RadioId) (chan m : Nat) : List (BitVec 4) × BitVec 4 × BitVec 4 :=
  let k := d.link l
  let p := k.peerMap
  let floor : List (BitVec 4) × BitVec 4 × BitVec 4 :=
    ((floorMap p.floorQ m 0).codes, BitVec.ofNat 4 ((if p.floorQ then 12 else 8) + d.floorRate.toNat), p.version)
  if p.version = 0 then floor
  else match d.linkSnr k r chan m with
    | none => floor
    | some full =>
      let snr := if d.backedOff r chan then full.map (· - 600) else full
      if mapSafe p d.lmSlack snr then (linkCodes p m, BitVec.ofNat 4 p.rate.toNat, p.version)
      else if mapSafe p.reduced d.lmSlack snr then (linkCodes p.reduced m, BitVec.ofNat 4 (4 + p.rate.toNat), p.version)
      else floor

/-- The rate of an MCS. -/
def mcsRate (mcs : BitVec 4) : BitVec 2 := mcs.setWidth 2

/-- A part that fills a MESH row, with its coded stream (R49, R206). -/
def meshPart (l : Nat) (map : List (BitVec 4) × BitVec 4 × BitVec 4) (more : Bool) (mpdu : List Byte) (s : Int) : TxPart :=
  { what := .mesh l, subch := 255, train := 1, stripe := 1, member := 0, sig := mkSig map.2.1 map.2.2 0 1 more,
    mpdu := mpdu, codes := map.1, coded := dataCoded mpdu (slotOf s) 1 (sumBits map.1) (mcsRate map.2.1), firstS := s,
    ack := none }

/-- The LINK_BEACON of row 0 (Table 6.2), composed for slot `s`. -/
def Dev.linkBeacon (d : Dev) (l : Nat) (s : Int) : Dev × Option (List Byte) :=
  let k := d.link l
  let body := be 8 (s % 18446744073709551616).toNat ++ be 2 (k.childE % 65536).toNat ++ be 2 k.childSlot.toNat
  d.mladolMpdu l (d.mladolHdr mkLinkBeacon 0 d.gwId 0) body

/-- The queue head of a class. -/
def Link.headOf (k : Link) (cls : Nat) : Option LinkMpdu := k.queue.find? fun m => m.cls == cls
/-- Replace a queued MPDU. -/
def Link.replace (k : Link) (m x : LinkMpdu) : Link := { k with queue := k.queue.map fun y => if y = m then x else y }
/-- Drop a queued MPDU. -/
def Link.remove (k : Link) (m : LinkMpdu) : Link := { k with queue := k.queue.filter fun y => y != m }
/-- A queued MPDU leaves its queue unanswered; the version of a LINKMAP with it. -/
def Dev.linkLose (d : Dev) (l : Nat) (m : LinkMpdu) : Dev :=
  let d := d.modLink l fun k => k.remove m
  match m.mapVer with | some v => d.dropLinkMap l v | none => d

/-- Choose what a row in the device's own direction carries: the head of the highest class whose head fits (R211).
LINK_NOFIT counts a row once (Table 6.15); `counted` says that it has. -/
def Dev.chooseLink (d : Dev) (l : Nat) (r : RadioId) (chan m : Nat) (s : Int) (counted : Bool) :
    List Nat → Dev × Option TxPart
  | [] => (d, none)
  | c :: rest =>
    match (d.link l).headOf c with
    | none => d.chooseLink l r chan m s counted rest
    | some x =>
      if x.sent ∨ s - 1 ≤ x.enterS then d.chooseLink l r chan m s counted rest
      else
        let map := if c = 2 then ((bpskHalf m).codes, (8 : BitVec 4), (d.link l).peerMap.version) else d.linkTxMap l r chan m
        if mpduFits x.mpdu.length 1 (sumBits map.1) (mcsRate map.2.1) then
          let more := decide (1 < (d.link l).queue.length)
          (d.modLink l fun k => k.replace x { x with sent := true, noFit := 0 }, some (meshPart l map more x.mpdu s))
        else
          let d := if counted then d else d.bump Cnt.linkNofit
          let d := if d.linkRetryMax l < x.noFit + 1 then (d.linkLose l x).bump Cnt.linkDrop
            else d.modLink l fun k => k.replace x { x with noFit := x.noFit + 1 }
          d.chooseLink l r chan m s true rest

/-- Prepare a MESH row of slot `s` on a radio, in the slot before it (R211). A child's frame starts D before its tick
(R212). -/
def Dev.linkPrepare (d : Dev) (r : RadioId) (w : Row) (s : Int) : Dev :=
  match (d.viewAt s).linkOfChan w.chan.toNat with
  | none => d
  | some (l, parent) =>
    let idx := d.meshIndexAt w.chan.toNat s
    if !ownRowDir parent idx || (d.searchChan r w).isSome then d
    else
      let chan := d.airChan w
      let m := d.chanSubch chan
      let o := if idx = 0 then
          let b := d.linkBeacon l s
          (b.1, b.2.map fun x => meshPart l (b.1.linkTxMap l r chan m) (!(b.1.link l).queue.isEmpty) x s)
        else d.chooseLink l r chan m s false [1, 2, 3, 4, 5]
      match o.2 with
      | none => o.1
      | some p =>
        let lead := if parent then o.1.fld Reg.mshDelay_d else 0
        o.1.modRadio r fun x => { x with planned := x.planned ++ [⟨.mesh, chan, s, [p], [], [], none, lead⟩] }

/-- A link MPDU has gone on air, `lead` before its slot tick: a child keeps the D it used (R213). -/
def Dev.linkSent (d : Dev) (l : Nat) (p : TxPart) (lead : Nat) : Dev :=
  let d := d.bump Cnt.linkTx
  let d := match (d.link l).queue.find? fun x => x.mpdu == p.mpdu with
    | some x => if 0 < x.repeats then d.bump Cnt.linkRepeat else d
    | none => d
  if d.cfgBit (Reg.mshLink_role l) then
    d.modLink l fun k => { k with
      sentD := ((BitVec.ofNat 16 (p.firstS % 65536).toNat, lead) :: k.sentD).take 16 }
  else d

/-- The ACK symbol of a link's MPDU, none when it is missing (R210). -/
def Dev.linkAcked (d : Dev) (l : Nat) (p : TxPart) (code : Option Nat) : Dev :=
  match (d.link l).queue.find? fun x => x.mpdu == p.mpdu && x.sent with
  | none => d
  | some x =>
    match code with
    | some 0 | some 3 =>
      let d := d.modLink l fun k => k.remove x
      match x.mapVer with | some v => d.confirmLinkMap l v | none => d
    | some 2 => d.linkLose l x
    | _ =>
      if d.linkRetryMax l < x.repeats + 1 then (d.linkLose l x).bump Cnt.linkDrop
      else d.modLink l fun k => k.replace x
        { x with repeats := x.repeats + 1, sent := false, mpdu := setRetry x.mpdu }

/-! ## The parent link (R212 to R219) -/

def msNone : Nat := 0
def msTracking : Nat := 1
def msHoldover : Nat := 2
def msSearch : Nat := 3
def Dev.mshState (d : Dev) : Nat := d.fld Reg.mshStat_state

/-- The next valid MSH_PARCH entry after `i`, cyclically, whose channel is valid on the search radio (R217). -/
def Dev.nextParch (d : Dev) (i : Nat) : Nat :=
  match ((List.range 8).map fun k => (i + 1 + k) % 8).find? fun j =>
    d.cfgBit (Reg.mshParch_valid j) && d.entryValid d.msh.searchRadio (d.cfgFld (Reg.mshParch_chan j)) with
  | some j => j
  | none => i

/-- Change the parent link's state (Table 6.4); in HOLDOVER and SEARCH a locked servo goes to HOLDOVER (Table 7.3). -/
def Dev.setMsh (d : Dev) (s : Nat) : Dev :=
  if d.mshState = s then d
  else
    let d := d.setFld Reg.mshStat_state s
    let d := if 2 ≤ s then d.servoLoss else d
    let d := { d with msh := { d.msh with missed := 0, holdSfs := 0, dwellSfs := 0 } }
    if s = msHoldover then (d.bump Cnt.holdoverEntry).raise Reg.mshStat_holdover_ev
    else if s = msSearch then
      let i := d.fld Reg.mshStat_search_idx
      let ok := d.cfgBit (Reg.mshParch_valid i) && d.entryValid d.msh.searchRadio (d.cfgFld (Reg.mshParch_chan i))
      (d.bump Cnt.searchEntry).setFld Reg.mshStat_search_idx (if ok then i else d.nextParch i)
    else if s = msNone then (d.setFld Reg.mshStat_hop 0).setBit Reg.mshStat_up_lost false
    else d

/-- Does the device track a parent: TRACK_EN with a parent link enabled? -/
def Dev.tracks (d : Dev) : Bool := d.trackEn && d.parentLink.isSome

/-- The radio whose row of slot `s` carries the parent to the child on the parent link's channel. -/
def Dev.parentRow (d : Dev) (chan : Nat) (s : Int) : Option RadioId :=
  radios.find? fun r =>
    let w := d.rowCarried r s
    w.type == rowMesh && w.chan.toNat == chan && meshIndex d.sch.active chan (slotOf s) % 2 == 0

/-- A link beacon has been missed (R215). -/
def Dev.beaconMissed (d : Dev) : Dev :=
  let d := d.bump Cnt.lbcnMiss
  let n := d.msh.missed + 1
  let d := { d with msh := { d.msh with missed := n } }
  if d.mshState = msTracking ∧ 3 ≤ n then d.setMsh msHoldover else d

/-- The parent link's row of the slot that ended: the search radio (R217), and, while the device tracks, a missed link
beacon. -/
def Dev.parentRowEnded (d : Dev) (chan : Nat) (prev : Int) (r : RadioId) : Dev :=
  let d := if d.mshState = msSearch then d else { d with msh := { d.msh with searchRadio := r } }
  if d.mshState ≠ msNone ∧ meshIndex d.sch.active chan (slotOf prev) = 0 ∧ d.msh.lastRxS ≠ prev then d.beaconMissed else d

/-- The slot `prev` ends: the parent link's row in it (R215, R217). -/
def Dev.mshRow (d : Dev) (prev : Int) : Dev :=
  match d.parentLink with
  | none => d
  | some (_, chan) => match d.parentRow chan prev with
    | none => d
    | some r => d.parentRowEnded chan prev r

/-- The state that TRACK_EN and the parent link in force ask for (Table 6.4, R224). -/
def Dev.mshTick (d : Dev) : Dev :=
  if !d.tracks then d.setMsh msNone else if d.mshState = msNone then d.setMsh msSearch else d

/-- The parent link at a superframe boundary: HOLDOVER_LIMIT, the search dwell, and the channel of a rewritten link (R215,
R217); floods count anew (R220). -/
def Dev.mshBoundary (d : Dev) : Dev :=
  let d := { d with msh := { d.msh with
    links := d.msh.links.foldl (fun (t : Sparse Link) (p : Nat × Link) => Sparse.put emptyLink t p.1 { p.2 with newFloods := 0 }) [] } }
  let d := if d.msh.linkWritten then
      let d := { d with msh := { d.msh with linkWritten := false } }
      match d.parentLink with
      | some (_, c) => d.setFld Reg.mshStat_cur_chan c
      | none => d
    else d
  if d.mshState = msHoldover then
    let n := d.msh.holdSfs + 1
    let d := { d with msh := { d.msh with holdSfs := n } }
    if orElse0 (d.cfgFld Reg.mshCfg_holdover_limit) 1 ≤ n then d.setMsh msSearch else d
  else if d.mshState = msSearch then
    let n := d.msh.dwellSfs + 1
    if orElse0 (d.cfgFld Reg.mshCfg_search_dwell) 1 ≤ n then
      ({ d with msh := { d.msh with dwellSfs := 0 } }.setFld Reg.mshStat_search_idx
        (d.nextParch (d.fld Reg.mshStat_search_idx)))
    else { d with msh := { d.msh with dwellSfs := n } }
  else d

/-- The acquisition span of a MESH row in picoseconds about T0 (R82, R214 to R216): parent-to-child rows widen with the
time since the last passing frame, and child-to-parent rows of an unranged link reach 300 µs later. -/
def Dev.meshSpan (d : Dev) (r : RadioId) (l : Nat) (parent : Bool) (s : Int) : Int × Int :=
  if parent then
    if 2 ≤ d.mshState then
      let w : Int := min 1200000000 ((s - d.msh.lastRxS) * 50000)
      let lo : Int := -46875000 - w
      let cut : Int := if (d.rowCarried r (s - 1)).type = rowIdle then lo else max lo (-156250000)
      (cut, 46875000 + w)
    else (-46875000, 46875000)
  else if (d.link l).ranged then (-46875000, 46875000)
  else (-46875000, 346875000)

/-- A parent-to-child SIG passes in the row of slot `s`: the frame's arrival, less D, goes to the servo, once per row (R212;
the first subchannel's, DESIGN CHOICE, log entry 192). In the link beacon row it ends a run of missed beacons (R215). -/
def Dev.parentSig (d : Dev) (chan : Nat) (s e : Int) : Dev :=
  if d.msh.lastRxS = s then d
  else
    let missed := if meshIndex d.sch.active chan (slotOf s) = 0 then 0 else d.msh.missed
    let d := { d with msh := { d.msh with lastRxS := s, missed := missed } }
    if d.mshState = msTracking then d.measure (roundDiv (e - d.delayPs) 1000) none else d

/-- A child-to-parent SIG passes in the row of slot `s`: CHILD_E, of the mean arrival error of the subchannels whose SIG has
passed (R76, R206), and CHILD_SLOT (R213, R214). -/
def Dev.childSig (d : Dev) (l : Nat) (s e : Int) : Dev :=
  d.modLink l fun k => { k with
    ranged := true, childE := roundDiv e 62500, childSlot := BitVec.ofNat 16 (s % 65536).toNat }

/-- A link that becomes enabled at a boundary has not yet passed a frame (R214); `old` is the device before it. -/
def Dev.linksEnabled (d : Dev) (old : Dev) : Dev :=
  (List.range 8).foldl (fun d i =>
    if d.cfgBit (Reg.mshLink_en i) && !old.cfgBit (Reg.mshLink_en i) then d.modLink i fun k => { k with ranged := false }
    else d) d

/-- A child that reports PARENT_LOST while this device does not has lost this device: its frames after it has found the parent
again come as those of an unranged link (R214). -/
def Dev.childLost (d : Dev) (l : Nat) (m : List Byte) : Dev :=
  if !d.cfgBit (Reg.mshLink_role l) && (beAt m 11 1).testBit 7 && !d.parentLost then
    d.modLink l fun k => { k with ranged := false }
  else d

/-- In SEARCH a LINK_BEACON is accepted with a HOP below 15 and the ORIGIN of MSH_LINKPEER, or any while that is 0 (R217). -/
def Dev.searchAccepts (d : Dev) (l : Nat) (m : List Byte) : Bool :=
  let peer := d.cfgFld (Reg.mshLinkpeer_peer_id l)
  decide (beAt m 11 1 % 16 < 15) && (peer == 0 || peer == beAt m 12 4)

/-- A LINK_BEACON from the parent is accepted: HOP, PARENT_LOST, D, and outside TRACKING the reacquisition; `e` is the
frame's arrival after the tick of slot `s` as this device keeps it (R213, R217 to R219). A TIME_FORCE step that waits stays
(R236), and the acquisition step is then not scheduled. -/
def Dev.beaconAccepted (d : Dev) (l : Nat) (m body : List Byte) (s e : Int) : Dev :=
  let hop := beAt m 11 1 % 16
  let d := (d.setFld Reg.mshStat_hop (min 15 (hop + 1))).setBit Reg.mshStat_up_lost ((beAt m 11 1).testBit 7)
  let slot := BitVec.ofNat 16 (beAt body 10 2)
  let childE := toSigned 16 (beAt body 8 2)
  let d := match (d.link l).sentD.find? fun p => p.1 == slot with
    | some p => if slot = 0xFFFF then d
        else d.setFld Reg.mshDelay_d (clampInt 0 2400 ((p.2 : Int) + roundDiv childE 2)).toNat
    | none => d
  if d.mshState < 2 then { d with msh := { d.msh with parentSeen := some (BitVec.ofNat 32 (beAt m 12 4)) } }
  else
    let origin := BitVec.ofNat 32 (beAt m 12 4)
    let d := if d.mshState = msSearch ∧ d.msh.parentSeen ≠ some origin then d.setFld Reg.mshDelay_d 0 else d
    let step : Int := ((beAt body 0 8 : Int) - s) * 2500000 + roundDiv (d.delayPs - e) 1000
    let d := (d.setMsh msTracking).bump Cnt.reacquire
    let d := { d with
      msh := { d.msh with parentSeen := some origin, lastRxS := d.tim.slotS }
      tim := if d.forceWaits then d.tim else { d.tim with step := some ⟨step, none⟩, slew := 0 } }
    (d.raise Reg.mshStat_reacquired).event 0x0010 0 [(16, signedLe 8 step)]

/-! ## Receiving a frame (R208, R210, R365) -/

/-- Try the epochs RE to RE + 15 of a link on a frame (R362): the epoch that passes, and the plaintext. -/
def Dev.openMladol (d : Dev) (l : Nat) (m : List Byte) : Dev × Option (List Byte) :=
  let h := readHdr m
  let parent := d.cfgBit (Reg.mshLink_role l)
  let body := slice m 18 (h.len - 22)
  let re := (Sparse.get 0 d.boot.rxEpoch l).toNat
  let low := h.flags.toNat % 16384 * 256 + h.seq.toNat
  if (d.kslot l).isNone ∨ d.linkKidx l ≠ h.keyidx.toNat ∨ h.len < 30 then (d, none)
  else
    let try1 (k : Nat) : Option (Nat × List Byte) :=
      if 67108864 ≤ re + k then none
      else
        let o := ccmOpen (d.slotKey l) (nonceC (if parent then 0x02 else 0x03) h.addr.toNat ((re + k) * 4194304 + low) h.keyidx.toNat)
          (ccmAad m 8) body
        if o.2 then some (re + k, o.1) else none
    match (List.range 16).findSome? try1 with
    | none => (d.lanes false (16 * ccmBlocks 18 (body.length - 8)), none)
    | some (ep, p) =>
      let d := (d.lanes false ((ep - re + 1) * ccmBlocks 18 (body.length - 8))).bump Cnt.ccmOk
      ({ d with boot := { d.boot with rxEpoch := Sparse.put 0 d.boot.rxEpoch l (BitVec.ofNat 26 ep) } }, some p)

/-! ## Floods (R220, R221) -/

/-- Insert a pair at the front of the Marl cache, evicting the least recently used. -/
def Dev.marlInsert (d : Dev) (p : Word × BitVec 16) : Dev :=
  let l := p :: d.msh.marl.filter (· != p)
  if 65536 < l.length then { d with msh := { d.msh with marl := l.take 65536 } }.bump Cnt.marlEvict
  else { d with msh := { d.msh with marl := l } }

/-- Queue a flood on every enabled link but one. -/
def Dev.floodLinks (d : Dev) (except : Option Nat) (kind ttl : Nat) (origin : Word) (msgid : Nat) (body : List Byte) : Dev :=
  d.links.foldl (fun d x =>
    if except = some x.1 then d
    else
      let q := d.linkEnqueue x.1 kind ttl origin msgid body none
      if (d.link x.1).queue.length < (q.link x.1).queue.length then q.bump Cnt.floodFwd else q) d

/-- Deliver a new flood (Table 6.6): to the host, or a firmware chunk to the update engine. -/
def Dev.floodDeliver (d : Dev) (rx : Rx) (kind : Nat) (origin : Word) (plain : List Byte) : Dev :=
  let d := d.bump Cnt.floodRx
  d.createAir (origin.toNat % 1048576) (if kind = mkFloodFw then .fwChunk rx plain else .mesh rx plain)

/-- Handle a received flood (Table 6.6). -/
def Dev.floodHandle (d : Dev) (l : Nat) (rx : Rx) (plain : List Byte) : Dev :=
  let kind := beAt rx.mpdu 10 1 / 16
  let ttl := beAt rx.mpdu 10 1 % 16
  let origin := BitVec.ofNat 32 (beAt rx.mpdu 12 4)
  let msgid := beAt rx.mpdu 16 2
  let pair := (origin, BitVec.ofNat 16 msgid)
  let addr := (readHdr rx.mpdu).addr.toNat
  if origin = d.gwId then d.bump Cnt.floodOwn
  else if d.msh.marl.contains pair then (d.marlInsert pair).bump Cnt.floodDup
  else
    let d := d.marlInsert pair
    let max := d.cfgFld Reg.mshCfg_ttl_max
    let d := if max < ttl then d.peerViolation 0x20 Cnt.vTtlAbuse l rx.radio addr else d
    let ttl := min ttl max
    let d := d.floodDeliver rx kind origin plain
    let rate := d.cfgFld Reg.mshCfg_flood_rate
    let above := decide (rate ≠ 0) && decide (rate ≤ (d.link l).newFloods)
    let d := d.modLink l fun k => { k with newFloods := k.newFloods + 1 }
    if above then d.peerViolation 0x21 Cnt.vFloodRate l rx.radio addr
    else if ttl = 0 then d.bump Cnt.floodTtlEnd
    else d.floodLinks (some l) kind (ttl - 1) origin msgid plain

/-- The delivery stage of one received Mladol frame (R220, R365). -/
def Dev.meshDeliver (d : Dev) (rx : Rx) : Dev :=
  match rx.link with
  | none => d
  | some l =>
    let o := d.openMladol l rx.mpdu
    match o.2 with
    | none => o.1.peerViolation 0x24 Cnt.vLinkAuth l rx.radio (readHdr rx.mpdu).addr.toNat
    | some plain =>
      let d := o.1.childLost l rx.mpdu
      let kind := beAt rx.mpdu 10 1 / 16
      if kind = mkLinkBeacon then
        if d.parentLink.map (·.1) = some l ∧ d.tracks then
          if d.mshState = msSearch ∧ !d.searchAccepts l rx.mpdu then d
          else d.beaconAccepted l rx.mpdu plain rx.firstS rx.e
        else d
      else if kind = mkLinkmap then
        let b0 := beAt plain 0 1
        let m := d.chanSubch rx.chan
        let codes := (List.range m).map fun s =>
          let x := beAt plain (1 + s / 2) 1
          BitVec.ofNat 4 (if s % 2 = 0 then x / 16 else x)
        if codes.any fun c => decide (12 ≤ c.toNat) then d
        else d.modLink l fun k => { k with
          peerMap := { k.peerMap with version := BitVec.ofNat 4 (b0 / 16), rate := BitVec.ofNat 2 b0, codes := codes } }
      else if kind = mkData then d.createAir (beAt plain 12 4 / 4096) (.mesh rx plain)
      else d.floodHandle l rx plain

/-- Put a frame among frames in order of slot and then of radio, behind its equals. -/
def insRx (x : Rx) : List Rx → List Rx
  | [] => [x]
  | y :: t => if x.firstS < y.firstS ∨ (x.firstS = y.firstS ∧ x.radio.val < y.radio.val) then x :: y :: t else y :: insRx x t

/-- The delivery stage for the frames received two slots before (R18, R220), in ascending order of radio within a slot. -/
def Dev.deliverMesh (d : Dev) : Dev :=
  let due := d.msh.rxQ.filter fun x => decide (2 ≤ x.stage)
  let d := { d with msh := { d.msh with rxQ := d.msh.rxQ.filter fun x => decide (x.stage < 2) } }
  (due.foldl (fun l x => insRx x l) []).foldl Dev.meshDeliver d

end Sys2Proof.Machine
end

