-- ==== Sys2Proof/Machine/Tx.lean ====
section
/-! DEFINITION. Downlinks, beacons, bursts and the sensors' ACK symbols (chapters 02, 04 and 05). -/

namespace Sys2Proof.Machine

/-! ## Queues and completion (R177, R182) -/

def bcastAddr : BitVec 24 := 0xFFFFFF

/-- Change an entry of the queue it stands in. -/
def Dev.mapDl (d : Dev) (x : Downlink) (f : Downlink → Downlink) : Dev :=
  let g (l : List Downlink) : List Downlink := l.map fun y => if y = x then f y else y
  if x.ftype = tJoinRsp then { d with sch := { d.sch with jrsp := g d.sch.jrsp } }
  else if x.addr = bcastAddr then { d with sch := { d.sch with bcast := g d.sch.bcast } }
  else d.modSensor x.sidx fun s => { s with queue := g s.queue }

/-- Take an entry out of its queue. -/
def Dev.dropDl (d : Dev) (x : Downlink) : Dev :=
  let g (l : List Downlink) : List Downlink := l.filter fun y => y != x
  if x.ftype = tJoinRsp then { d with sch := { d.sch with jrsp := g d.sch.jrsp } }
  else if x.addr = bcastAddr then { d with sch := { d.sch with bcast := g d.sch.bcast } }
  else d.modSensor x.sidx fun s => { s with queue := g s.queue }

/-- A downlink completes with a status of Table 5.9: its result goes back to where it came from (R270, R417). -/
def Dev.dlFinish (d : Dev) (x : Downlink) (status : Nat) : Dev :=
  let d := if status = stTimeout then d.bump Cnt.dlTimeout
    else if status = stOverflow then (d.bump Cnt.dlQfull).raise Reg.schStat_dlq_full else d
  match x.origin with
  | .device => d
  | _ => d.createDev x.sidx (.result x (byte status))

/-- MPDUs in all downlink queues. -/
def Dev.dlTotal (d : Dev) : Nat :=
  d.sch.bcast.length + d.sch.jrsp.length + d.sch.sensors.foldl (fun a (p : Nat × SensorCtx) => a + p.2.queue.length) 0

/-- A protected downlink enters SCH (R177, R183, R195). -/
def Dev.dlEnter (d : Dev) (x : Downlink) : Dev :=
  let x := { x with enterS := d.curS, enterSf := d.curS / 512, sent := false, repeats := 0, noFit := 0, ver := none }
  if x.ftype = tJoinRsp then
    match d.sch.joins.find? fun j => j.sid == BitVec.ofNat 64 (beAt x.payload 0 8) with
    | none => d.dlFinish x stBadParam
    | some j =>
      if 65536 ≤ d.dlTotal then d.dlFinish x stOverflow
      else { d with sch := { d.sch with jrsp := d.sch.jrsp ++ [{ x with chan := j.chan }] } }
  else if x.addr = bcastAddr then
    if 65536 ≤ d.dlTotal then d.dlFinish x stOverflow
    else { d with sch := { d.sch with bcast := d.sch.bcast ++ [x] } }
  else if 65536 ≤ d.dlTotal ∨ d.qdepth ≤ (d.sensor x.sidx).queue.length then d.dlFinish x stOverflow
  else d.modSensor x.sidx fun s => { s with queue := s.queue ++ [x] }

/-- A protected LOADMAP enters SCH for its sensor, in place of an earlier one (R187). -/
def Dev.lmEnter (d : Dev) (sidx : Nat) (m : LoadMap) (mpdu : List Byte) : Dev :=
  d.modSensor sidx fun x => { x with lm := some ⟨m, mpdu, mpdu.getD 2 0, 0, false, d.curS⟩, lmWait := false }

/-- A LOADMAP that was not accepted waits LM_RESEND superframes (R187). -/
def Dev.lmHold (d : Dev) (sidx : Nat) : Dev :=
  d.modSensor sidx fun x => { x with lm := none, lmWait := true, lmSince := d.curS / 512 }

/-- After LM_RESEND superframes, the version that is still pending goes out again; a resent confirmed map likewise
(R187, R188). -/
def Dev.lmResendDue (d : Dev) (sidx : Nat) : Dev :=
  let x := d.sensor sidx
  if !x.lmWait || decide (d.tim.slotS / 512 < x.lmSince + d.lmResend) then d
  else
    let d := d.setSensor sidx { x with lmWait := false }
    d.queueLoadmap sidx (x.pendMap.getD x.confirmed)

/-- The entries of a list that have waited `n` superframes complete TIMEOUT. -/
def Dev.ageList (d : Dev) (n : Nat) (l : List Downlink) : Dev :=
  l.foldl (fun d x =>
    if !x.sent && decide (x.enterSf + n ≤ d.tim.slotS / 512) then (d.dropDl x).dlFinish x stTimeout else d) d

/-- DOWNLINK_AGE_TIMEOUT: AGE_MAX superframes have passed for a sensor's downlinks; flow key 0xF_FFFF stands for
broadcasts, and with them JOIN_RSP frames, which wait 32 superframes (R182, R183, R195). -/
def Dev.dlAge (d : Dev) (sidx : Nat) : Dev :=
  let d := d.ageList d.ageMax (d.sensor sidx).queue
  if sidx = 0xFFFFF then (d.ageList d.ageMax d.sch.bcast).ageList 32 d.sch.jrsp else d

/-! ## Beacons (R169, R170) -/

/-- A radio's row in a slot number under the present tables, remaps in force included. -/
def Dev.rowNow (d : Dev) (r : RadioId) (slot : Nat) : Row :=
  let d := { d with sch := { d.sch with remaps := d.sch.remaps.map fun (m : Remap) => { m with firstS := 0 } } }
  d.rowCarried r (d.tim.slotS / 512 * 512 + slot)

/-- Slot numbers after `last`, in the order of their first occurrence. -/
def slotsAfter (last : Nat) : List Nat := (List.range 512).map fun k => (last + 1 + k) % 512

/-- Put a cell before those with higher subchannels. -/
def insCell (c : CellEntry) : List CellEntry → List CellEntry
  | [] => [c]
  | x :: t => if c.subch.toNat < x.subch.toNat then c :: x :: t else x :: insCell c t

/-- The first `n` cells of a kind on a channel that begin after the slot `last`: slot and subchannel (Table 5.6). -/
def Dev.advertise (d : Dev) (kind : BitVec 3) (chan last n : Nat) : List Nat :=
  ((slotsAfter last).flatMap fun slot =>
    let cells := radios.flatMap fun r =>
      let w := d.rowNow r slot
      if w.type ≠ rowIdle ∧ w.chan.toNat = chan then w.cells.filter fun c => c.kind == kind else []
    (cells.foldl (fun l c => insCell c l) []).map fun c => slot * 128 + c.subch.toNat).take n

/-- Slots of the active tables with a beacon on a channel and subchannel. -/
def Dev.beaconSlots (d : Dev) (chan : Nat) (subch : BitVec 7) : List Nat :=
  (d.sch.active.filter fun p => p.2.type != rowIdle && p.2.chan.toNat == chan &&
    p.2.cells.any fun c => c.kind == ckBeacon && c.subch == subch).map fun p => p.1 % 512

/-- NEXT_SLOT and NEXT_SF of a beacon that begins in `slot` (R169). -/
def Dev.nextBeacon (d : Dev) (chan : Nat) (subch : BitVec 7) (slot : Nat) : Nat × Nat :=
  match (d.beaconSlots chan subch).foldl (fun (a : Option Nat) x =>
      if x ≤ slot then a else match a with | none => some x | some y => some (min x y)) none with
  | some x => (x, 0)
  | none => (slot, 1)

/-- The MODE code of a channel (0 N, 1 M, 2 W). -/
def Dev.chanMode (d : Dev) (chan : Nat) : Nat := match d.chan chan with | some c => c.mode.val | none => 0

/-- Four or two references, 0xFFFF where unused. -/
def refs (n : Nat) (l : List Nat) : List Byte := (List.range n).flatMap fun i => be 2 (l.getD i 0xFFFF)

/-- BO of a beacon of slot count `s`: a change at a superframe boundary, which the slot before it may have brought, appears no
earlier than in slot 3 (R22). -/
def Dev.beaconBo (d : Dev) (s : Int) : Nat :=
  if slotOf s = 1 ∨ slotOf s = 2 then d.sch.boPrev else d.fld Reg.schStat_bo

/-- The BEACON payload for a beacon that begins in slot count `s` (Table 5.6). -/
def Dev.beaconPayload (d : Dev) (chan : Nat) (subch : BitVec 7) (s : Int) : List Byte :=
  let slot := slotOf s
  let last := (slot + 3) % 512
  let nx := d.nextBeacon chan subch slot
  be 4 d.gwId.toNat ++ be 4 (hfOf s) ++ be 2 (sfOf s * 16 + d.beaconBo s) ++
    be 2 (slot * 128 + 64 * d.joinOpen.toNat + 32 * d.parentLost.toNat + 16 * (d.servo == svLocked).toNat) ++
    be 2 (chan * 128 + d.chanMode chan * 32) ++
    refs 4 (d.advertise ckRa chan last 4) ++ refs 2 (d.advertise ckJrsp chan last 2) ++
    be 2 (nx.1 * 128 + nx.2)

/-- Compose a BEACON (R169): SEQ counts the beacons composed for the channel. -/
def Dev.composeBeacon (d : Dev) (chan : Nat) (subch : BitVec 7) (s : Int) : Dev × List Byte :=
  let seq := Sparse.get 0 d.sch.bcnSeq chan
  let h : MpduHdr := {
    ftype := tBeacon, ver := 0, sec := false, noack := true, keyidx := 0, seq := seq, addr := bcastAddr, flags := 0,
    len := 42 }
  let m := mkMpdu h (d.beaconPayload chan subch s)
  ({ d with sch := { d.sch with bcnSeq := Sparse.put 0 d.sch.bcnSeq chan (seq + 1) } }, m)

/-! ## Preparing a row in the slot before it (R23, R63, R178) -/

/-- Add a part to the burst that a radio plans for slot `s`. -/
def Dev.addPart (d : Dev) (r : RadioId) (chan : Nat) (s : Int) (kind : BurstKind) (p : TxPart) : Dev :=
  d.modRadio r fun x =>
    if x.planned.any fun b => b.firstS == s && b.kind != .ack then
      { x with planned := x.planned.map fun (b : Burst) =>
          if b.firstS = s ∧ b.kind ≠ .ack then { b with parts := b.parts ++ [p], kind := if kind = .beacon then b.kind else kind } else b }
    else { x with planned := x.planned ++ [⟨kind, chan, s, [p], [], [], none, 0⟩] }

/-- The members of a downlink cell in slot `s`: the cell itself, or the cells of its stripe on all radios that can send,
by member. -/
def Dev.dlMembers (d : Dev) (r : RadioId) (w : Row) (c : CellEntry) (s : Int) : List (RadioId × Nat × CellEntry) :=
  if c.stripe = 1 then [(r, w.chan.toNat, c)]
  else
    let all := radios.flatMap fun y =>
      if !d.willRun y s then []
      else
        let v := d.rowCarried y s
        (v.used.filter fun x => x.kind == c.kind && x.train == c.train && x.stripe == c.stripe &&
          x.rotLog2 == c.rotLog2 && x.rotBase == c.rotBase).map fun x => (y, v.chan.toNat, x)
    [0, 1, 2].flatMap fun m => all.filter fun x => x.2.2.member.toNat == m

/-- Send one MPDU on the members of a cell, as a train of the length that its SIG names, with one coded stream (R49, R75). -/
def Dev.planParts (d : Dev) (what : TxWhat) (mem : List (RadioId × Nat × CellEntry)) (s : Int) (sig : BitVec 24)
    (mpdu : List Byte) (codes : List (BitVec 4)) : Dev :=
  let len := (sigTrain sig).toNat + 1
  let coded := dataCoded mpdu (slotOf s) len (sumBits codes) (sigRate sig)
  mem.foldl (fun d x =>
    d.addPart x.1 x.2.1 s (if what = .beacon then .beacon else .data) {
      what := what, subch := x.2.2.subch.toNat, train := len, stripe := x.2.2.stripe, member := x.2.2.member.toNat,
      sig := sig, mpdu := mpdu, codes := codes, coded := coded, firstS := s, ack := none }) d

/-- Is an entry eligible for a cell of slot `s` (R23)? -/
def eligible (x : Downlink) (s : Int) : Bool := !x.sent && decide (x.enterS < s - 1)

/-- A head that does not fit its cell (R178). -/
def Dev.noFitDl (d : Dev) (x : Downlink) : Dev :=
  let d := d.bump Cnt.dlNofit
  if d.nofitMax ≤ x.noFit + 1 then (d.dropDl x).dlFinish x stBadParam
  else d.mapDl x fun y => { y with noFit := y.noFit + 1 }

/-- A cell of the sensor `i`: the LOADMAP first where it can go, as a 4-slot train, else the queue head (R63, R177, R178,
R186). -/
def Dev.planOwner (d : Dev) (i : Nat) (mem : List (RadioId × Nat × CellEntry)) (c : CellEntry) (s : Int) : Dev :=
  let x := d.sensor i
  let n := mem.length
  let more (left : Nat) : Bool := decide (0 < left)
  let lm := match x.lm with
    | some m => if !m.sent && decide (m.enterS < s - 1) && decide (4 ≤ c.len) then some m else none
    | none => none
  match lm with
  | some m =>
    let d := d.setSensor i { x with lm := some { m with sent := true } }
    let sig := mkSig 8 x.newestVersion 3 c.stripe (more x.queue.length)
    d.planParts (.loadmap i) mem s sig m.mpdu (bpskHalf n).codes
  | none =>
    match x.queue with
    | [] => d
    | h :: t =>
      if !eligible h s then d
      else
        let cells := mem.map fun y => (y.2.1, y.2.2.subch.toNat)
        let map := d.downlinkMap x (mem.map (·.1)) (x.anchors.map anchorCell == cells) n
        if mpduFits h.mpdu.length c.len (sumBits map.1) (mcsRate map.2.1) then
          let d := d.mapDl h fun y => { y with sent := true, noFit := 0 }
          let sig := mkSig map.2.1 map.2.2 (BitVec.ofNat 4 (c.len - 1)) c.stripe (more (t.length + x.lm.toList.length))
          d.planParts (.head i) mem s sig h.mpdu map.1
        else d.noFitDl h

/-- A broadcast cell (R183). Its MORE is 0: R45 speaks of further data for a link, and a broadcast has none (DESIGN CHOICE, log
entry 194). -/
def Dev.planBcast (d : Dev) (mem : List (RadioId × Nat × CellEntry)) (c : CellEntry) (chan : Nat) (s : Int) : Dev :=
  match d.sch.bcast.find? fun x => x.chan == chan && eligible x s with
  | none => d
  | some x =>
    let map := bpskHalf mem.length
    if mpduFits x.mpdu.length c.len (sumBits map.codes) 0 then
      let d := d.mapDl x fun y => { y with sent := true, noFit := 0 }
      d.planParts .bcast mem s (mkSig 8 0 (BitVec.ofNat 4 (c.len - 1)) c.stripe false) x.mpdu map.codes
    else d.noFitDl x

/-- A JRSP cell: the first JOIN_RSP for the channel that fits (R195), with MORE = 0 (DESIGN CHOICE, log entry 194). Where none
fits, the cell is left empty and counts against the oldest (R178; DESIGN CHOICE, log entry 195). -/
def Dev.planJrsp (d : Dev) (mem : List (RadioId × Nat × CellEntry)) (c : CellEntry) (chan : Nat) (s : Int) : Dev :=
  match d.sch.jrsp.find? fun x => x.chan == chan && eligible x s && mpduFits x.mpdu.length c.len 16 0 with
  | none => match d.sch.jrsp.find? fun x => x.chan == chan && eligible x s with
    | some x => d.noFitDl x
    | none => d
  | some x =>
    let d := d.mapDl x fun y => { y with sent := true, noFit := 0 }
    d.planParts .jrsp mem s (mkSig 8 0 (BitVec.ofNat 4 (c.len - 1)) 1 false) x.mpdu (bpskHalf 1).codes

/-- What one cell of a DOWN row of slot `s` carries. A stripe is planned once, at its member 0, and whole or not at
all. -/
def Dev.planCell (d : Dev) (r : RadioId) (w : Row) (c : CellEntry) (s : Int) : Dev :=
  let chan := w.chan.toNat
  if c.kind = ckBeacon then
    let o := d.composeBeacon chan c.subch s
    o.1.planParts .beacon [(r, chan, c)] s (mkSig 8 0 3 1 false) o.2 (bpskHalf 1).codes
  else if c.kind = ckJrsp then d.planJrsp [(r, chan, c)] c chan s
  else if c.kind = ckDownlink then
    let mem := d.dlMembers r w c s
    if mem.length ≠ stripeCount c.stripe ∨ c.member ≠ 0 then d
    else if d.bcastAt c s then d.planBcast mem c chan s
    else match d.ownerAt c s with
      | some i => d.planOwner i mem c s
      | none => d
  else d

/-- A WAKE row: the oldest request for its channel (R197). -/
def Dev.planWake (d : Dev) (r : RadioId) (chan : Nat) (s : Int) : Dev :=
  match d.sch.wakeQ.find? fun x => x.chan == chan && !x.started && x.heldFor.isNone with
  | none => d
  | some x =>
    let d := { d with sch := { d.sch with wakeQ := d.sch.wakeQ.map fun y => if y = x then { y with started := true } else y } }
    d.modRadio r fun y => { y with planned := y.planned ++ [⟨.wake, chan, s, [], [], [], some x.code, 0⟩] }

/-- BOOT_REGION holds no code: nothing goes on air (R467). -/
def Dev.noRegion (d : Dev) : Bool := d.reg Reg.bootRegion == 0

/-- A cache entry of a sensor is the last used one of 65,536: the context cache holds that many of 128 bytes, the loading-map
cache of 4 MB as many of 64 bytes (Tables 1.7 and 1.8; which entry leaves, and 64 bytes, DESIGN CHOICE, log entry 206). -/
def touchLru (i : Nat) (l : List Nat) : List Nat := (i :: l.filter (· != i)).take 65536

/-- The context, the maps and the sensor entry of a sender granted in the next slot are fetched (R97, R160, R272). -/
def Dev.fetchOwner (d : Dev) (i : Nat) : Dev :=
  { d with sch := { d.sch with ctxCache := touchLru i d.sch.ctxCache, mapCache := touchLru i d.sch.mapCache } }.fetchSensor
    (d.sensor i).addr

/-- The owners of a row's uplink and downlink cells in slot `s` are fetched during the slot before. -/
def Dev.fetchRow (d : Dev) (w : Row) (s : Int) : Dev :=
  let v := d.viewAt s
  ((w.used.filter fun c => c.kind == ckUplink || c.kind == ckDownlink).filterMap fun c => v.cellOwner c (sfOf s)).foldl
    Dev.fetchOwner d

/-- Prepare a radio's row of slot `s`, in the slot before it. -/
def Dev.prepareRow (d : Dev) (s : Int) (r : RadioId) : Dev :=
  if d.noRegion || !d.willRun r s then d
  else
    let w := d.rowCarried r s
    let d := d.fetchRow w s
    if w.type = rowDown then w.used.foldl (fun d c => d.planCell r w c s) d
    else if w.type = rowMesh then d.linkPrepare r w s
    else if w.type = rowWake then d.planWake r w.chan.toNat s
    else d

/-! ## Bursts (R123, R132, R149, Table 4.4) -/

/-- A burst is abandoned (Table 4.4); `synth` tells SYNTH_NOT_READY from COEX_DENIED. A COEX_REQ asserted for it stays
asserted until a later burst or reception ends: the rule ties its fall to PA_EN, which has not risen (R149; DESIGN CHOICE, log
entry 196). -/
def Dev.abandon (d : Dev) (b : Burst) (synth : Bool) : Dev :=
  let d := b.parts.foldl Dev.releasePart d
  let d := if synth then d.recordFaultSeq (b.acked.filter fun a => !d.ackElsewhere a) else d
  match b.wake with
  | none => d
  | some w =>
    match d.sch.wakeQ.find? fun x => x.started && x.code == w && x.chan == b.chan with
    | none => d
    | some x =>
      { d with sch := { d.sch with wakeQ := d.sch.wakeQ.filter fun y => y != x } }.finish x.cmd
        (if synth then stSynthNotReady else stCoexDenied) 0

/-- Are two parts members of one downlink stripe? -/
def TxPart.mate (p q : TxPart) : Bool := p.stripe != 1 && p.stripe == q.stripe && p.mpdu == q.mpdu && p.firstS == q.firstS

/-- The burst that a radio sends next. -/
def Dev.nextBurst (d : Dev) (r : RadioId) : Option Burst := (d.radio r).planned.head?

/-- Do the next bursts of two radios share a stripe? -/
def Dev.stripeMates (d : Dev) (r y : RadioId) : Bool :=
  match d.nextBurst r, d.nextBurst y with
  | some a, some b => a.parts.any fun p => b.parts.any p.mate
  | _, _ => false

/-- The radios whose bursts one check instant tests: those that stripes join to `r` (R132). -/
def Dev.checkGroup (d : Dev) (r : RadioId) : List RadioId :=
  radios.filter fun y => y == r || d.stripeMates r y || radios.any fun z => d.stripeMates r z && d.stripeMates z y

/-! ## The trace of bursts (R512, Table 17.6) -/

/-- Byte 1 of a TX message. -/
def burstTraceCode (k : BurstKind) : Nat :=
  match k with
  | .data => 0
  | .ack => 1
  | .beacon => 2
  | .mesh => 3
  | .wake => 4

/-- The TX messages of a burst: one for each of its cells or ACK symbols, `code` 0 for what is sent and the status for what is
abandoned (DESIGN CHOICE, log entry 212: byte 3 names one subchannel). -/
def Dev.traceTx (d : Dev) (r : RadioId) (b : Burst) (code : Option TxPart → Nat) : Dev :=
  let one (d : Dev) (c sub : Nat) : Dev := d.traceRadio r 4 [byte r.val, byte (burstTraceCode b.kind), byte c, byte sub]
  let d := b.parts.foldl (fun d p => one d (code (some p)) p.subch) d
  let d := b.acks.foldl (fun d a => one d (code none) a.1) d
  if b.wake.isSome then one d (code none) 255 else d

/-- A radio's next burst has passed its check: without the parts of abandoned stripes it goes on air, if anything is left of
it. -/
def Dev.sendBurst (d : Dev) (r : RadioId) (b : Burst) (lost : List (TxPart × Nat)) : Dev :=
  let code (p : Option TxPart) : Nat := match p.bind fun p => lost.find? fun q => p.mate q.1 with | some q => q.2 | none => 0
  let d := d.traceTx r b code
  let b := { b with parts := b.parts.filter fun p => !lost.any fun q => p.mate q.1 }
  if b.parts = [] ∧ b.acks = [] ∧ b.wake = none then d
  else ((d.modRadio r fun x => { x with onAir := x.onAir ++ [b] }).drive r true false).bump (Cnt.txBurst r)

/-- One radio's part of a check: `o` holds its lock and its grant, `lost` the parts of the radios that fail, with
the status. Only a radio whose own check fails counts the abandoned burst (R132, R149). -/
def Dev.checkOne (d : Dev) (r : RadioId) (o : Bool × Bool) (lost : List (TxPart × Nat)) : Dev :=
  match (d.radio r).planned with
  | [] => d
  | b :: t =>
    let d := d.modRadio r fun x => { x with planned := t, checked := none }
    let l := d.lockSeen r o.1
    if !o.1 then
      let d := (((l.1.traceTx r b fun _ => stSynthNotReady).bump (Cnt.txSynthNotReady r)).raise (Reg.rfStat_synth_miss r)).abandon b true
      if l.2 then d.failRadio r 1 else d
    else if !o.2 then (((l.1.traceTx r b fun _ => stCoexDenied).bump (Cnt.coexDenied r)).raise (Reg.rfStat_coex_denied r)).abandon b false
    else l.1.sendBurst r b lost

/-- The check instant that a group shares: the earliest of its members (R132). -/
def Dev.groupInstant (d : Dev) (g : List RadioId) : Int :=
  match g.filterMap fun y => (d.nextBurst y).map (d.checkInstant y) with
  | [] => d.tai
  | t :: l => l.foldl min t

/-- The check of a group of radios, once every one has been tested: a stripe of which a member fails is abandoned whole
(R132). -/
def Dev.checkNow (d : Dev) (g : List RadioId) : Dev :=
  let res := g.filterMap fun y => (d.radio y).checked.map fun o => (y, o)
  let lost := (res.filter fun x => !x.2.1 || !x.2.2).flatMap fun x => match d.nextBurst x.1 with
    | some b => b.parts.map fun p => (p, if x.2.1 then stCoexDenied else stSynthNotReady)
    | none => []
  res.foldl (fun d x => d.checkOne x.1 x.2 lost) d

/-- No further burst goes out on an inhibited port (R147): it waits again, and the senders of its ACK symbols have their SEQ
recorded. -/
def Dev.portInhibited (d : Dev) (r : RadioId) (chan : Nat) : Bool :=
  d.bit (if d.chanHigh chan then Reg.rfStat_hb_inhibit r else Reg.rfStat_lb_inhibit r)

/-- The check instant of a radio's next burst (R132, R149): for a downlink stripe the same for all its members. A radio that
still calibrates resolves the held commands whose target slot the instant belongs to (R142). -/
def Dev.burstCheck (d : Dev) (r : RadioId) (lock gnt : Bool) : Dev :=
  if d.rfState r = rsCalibrating then d.resolveHeld r (some d.nextS) stBusy
  else match (d.radio r).planned with
    | [] => d
    | b :: t =>
      if !d.rfReadyRun r then d
      else if d.portInhibited r b.chan then
        let d := d.modRadio r fun x => { x with planned := t }
        (d.releaseBurst b).recordFaultSeq (b.acked.filter fun a => !d.ackElsewhere a)
      else
        let d := d.modRadio r fun x => { x with checked := some (lock, d.granted r gnt) }
        let g := d.checkGroup r
        if g.all fun y => (d.radio y).checked.isSome then (d.reachTai (d.groupInstant g)).checkNow g else d

/-- At a slot tick a check whose stripe has members that were not tested goes on without them. -/
def Dev.checkRest (d : Dev) : Dev :=
  radios.foldl (fun d r => if (d.radio r).checked.isSome then d.checkNow (d.checkGroup r) else d) d

/-! ## What a burst puts on air (R40, R78, R79, R246) -/

/-- The subchannels of a part and the member that each is: a Mladol part fills its channel. -/
def TxPart.cells (p : TxPart) (n : Nat) : List (Nat × Nat) :=
  if p.subch = 255 then (List.range n).map fun s => (s, s) else [(p.subch, p.member)]

/-- What a part carries in the symbol period `t` of its train. -/
def TxPart.content (p : TxPart) (mode : Fin 3) (t : Nat) : List (Int × Sym) :=
  if 16 * p.train ≤ t then []
  else (p.cells (modeSubch mode)).flatMap fun c => txContent mode p.train (t / 16) (t % 16) c.1 c.2 p.sig p.codes p.coded

/-- The symbol periods of a burst: those of its trains, and period 14 of its ACK symbols. -/
def Burst.periods (b : Burst) (mode : Fin 3) : List AirPeriod :=
  let last := b.parts.foldl (fun a p => max a p.train) 0
  let data := (List.range (16 * last)).map fun t => AirPeriod.mk t (b.parts.flatMap fun p => p.content mode t)
  let subs (a : Nat × Byte × Nat) : List Nat := if a.1 = 255 then List.range (modeSubch mode) else [a.1]
  let acks := b.acks.flatMap fun a => (subs a).flatMap fun s => ackContent mode s a.2.1
  (data.filter fun x => !x.content.isEmpty) ++ (if acks.isEmpty then [] else [⟨14, acks⟩])

/-- When a burst begins, in picoseconds from T0 of its first slot, at the transmit balls (R212, R246). -/
def Dev.airStart (d : Dev) (r : RadioId) (b : Burst) : Int :=
  -(1000 * (d.fld (Reg.timRfExtdly_tx r) : Int)) - 62500 * (b.lead : Int)

/-- A burst on air: its symbol periods, or the keying of a WAKE pattern. -/
def Dev.airOut (d : Dev) (r : RadioId) (b : Burst) : Output :=
  let sig := match d.chan b.chan with | some c => b.periods c.mode | none => []
  let keys := match b.wake with | some w => wakeBits w | none => []
  .air r (d.radio r).hz (d.txLevel r b.chan) (d.airStart r b) sig keys b

/-- Count what one part's transmission counts, and let it wait for its ACK symbols. -/
def Dev.partSent (d : Dev) (r : RadioId) (chan lead : Nat) (p : TxPart) : Dev :=
  let first := p.member == 0
  let wait (d : Dev) : Dev := d.modRadio r fun x => { x with await := x.await ++ [p] }
  let lmAgain (i : Nat) : Bool := (d.sensor i).lm.any fun m => m.mpdu == p.mpdu && decide (0 < m.repeats)
  let dl (l : List Downlink) (d : Dev) : Dev :=
    if !first then d
    else match l.find? fun x => x.mpdu == p.mpdu with
      | some x => if 0 < x.repeats then (d.bump Cnt.dlSent).bump Cnt.dlRepeat else d.bump Cnt.dlSent
      | none => d.bump Cnt.dlSent
  match p.what with
  | .head i => wait (dl (d.sensor i).queue d)
  | .jrsp => wait (dl d.sch.jrsp d)
  | .loadmap i =>
    let n (d : Dev) : Dev := if lmAgain i then d.bump Cnt.dlRepeat else d
    wait (if first then n ((d.bump Cnt.dlSent).bump Cnt.loadmapSent) else d)
  | .beacon => d.bump Cnt.beaconSent
  | .bcast =>
    if !first then d
    else match d.sch.bcast.find? fun x => x.mpdu == p.mpdu with
      | some x => ((d.bump Cnt.dlSent).dropDl x).dlFinish x stOk
      | none => d
  | .mesh l =>
    (d.linkSent l p lead).modRadio r fun x => { x with
      await := x.await ++ (List.range (d.chanSubch chan)).map fun s => { p with subch := s, member := s } }

/-- Count an ACK symbol sent for an uplink, once per uplink (Table 5.19). -/
def Dev.countAck (d : Dev) (a : Nat × Byte × Nat) : Dev :=
  if a.2.2 = 0 ∨ d.sch.ackSeen.contains a.2.2 then d
  else
    let d := { d with sch := { d.sch with ackSeen := a.2.2 :: d.sch.ackSeen } }
    match ackCode a.2.1 with
    | 1 => d.bump Cnt.ulNackRetry
    | 2 => d.bump Cnt.ulNackDrop
    | _ => d.bump Cnt.ulAck

/-- A WAKE pattern has ended: its command completes (R197). -/
def Dev.wakeSent (d : Dev) (b : Burst) : Dev :=
  match b.wake with
  | none => d
  | some w =>
    let d := d.bump Cnt.wakeSent
    match d.sch.wakeQ.find? fun x => x.started && x.code == w && x.chan == b.chan with
    | none => d
    | some x => { d with sch := { d.sch with wakeQ := d.sch.wakeQ.filter fun y => y != x } }.finish x.cmd stOk 0

/-- The oldest burst of a radio ends: PA_EN falls with the last of them, a retune that waited for it begins, and the antenna
and the chain are judged (R123, R130, R145, R148, R150, R491). With RX_REQ, COEX_REQ stays through period 14 of a downlink
slot. -/
def Dev.burstEnd (d : Dev) (r : RadioId) (fwd refl expected : Cdb) : Dev :=
  match (d.radio r).onAir with
  | [] => d
  | b :: t =>
    let d := d.reachTai (d.endInstant r b)
    let d := (d.out (d.airOut r b)).modRadio r fun x => { x with onAir := t }
    let d := b.parts.foldl (fun d p => d.partSent r b.chan b.lead p) d
    let d := (b.acks.foldl Dev.countAck d).wakeSent b
    let keep := d.cfgBit (Reg.rfCoexcfg_rx_req r) && b.kind != .ack && b.kind != .wake
    let d := if t = [] then
        let d := d.drive r false ((d.radio r).agc == .ackrx)
        (if keep then d else d.coexFall r).tuneAfter r
      else d
    (d.antennaCheck r b.chan fwd refl).txChainCheck r fwd expected

/-! ## ACK symbols from sensors (R116, R117, R180) -/

/-- The whole decibels of a gain: of two equally near steps the lower (R85). -/
def stepGain (x : Cdb) : Int := (x + 49) / 100
/-- The gain that puts a level at a level below full scale, within the radio's range (R85). -/
def gainFor (level below : Cdb) : Int := stepGain (-below - 7000 - level)
def clampGain (g : Int) : Int := clampInt (-60) 20 g
/-- TARGET, HEAD and ACK_HEAD (Table 3.10). -/
def Dev.agcTarget (d : Dev) (r : RadioId) : Cdb := 100 * clampNat 10 40 (d.cfgFld (Reg.bbpAgccfg_target r))
def Dev.agcHead (d : Dev) (r : RadioId) : Cdb := 100 * d.cfgFld (Reg.bbpAgccfg_head r)
def Dev.agcAckHead (d : Dev) (r : RadioId) : Cdb := 100 * d.cfgFld (Reg.bbpAgccfg_ack_head r)

/-- The sensors that owe an ACK symbol on a radio in this slot: their stored levels. -/
def Dev.owedLevels (d : Dev) (r : RadioId) : List Cdb :=
  ((d.radio r).await ++ (d.radio r).onAir.flatMap (·.parts)).filterMap fun p =>
    if p.firstS + p.train - 1 ≠ d.tim.slotS then none
    else match p.what with
      | .head i => (d.sensor i).level
      | .loadmap i => (d.sensor i).level
      | _ => none

/-- At the start of period 13 of a downlink slot: the gain for the ACK symbols owed, and LNA_EN (R116, R123). When no sensor with
a stored level owes one, the gain stays as it is (DESIGN CHOICE, log entry 197). -/
def Dev.ackrxPreset (d : Dev) (r : RadioId) : Dev :=
  let w := d.rowCarried r d.tim.slotS
  if !d.rfReadyRun r || w.type != rowDown && w.type != rowMesh then d
  else
    let l := d.owedLevels r
    let g := if l = [] then (d.radio r).gain
      else clampGain (gainFor (sumLevels l) (d.agcTarget r + d.agcHead r + d.agcAckHead r))
    let d := d.modRadio r fun x => { x with agc := .ackrx, gain := g, gainHist := [] }
    if d.paEn r then d else d.drive r false true

/-- A head downlink is answered (Table 5.8); the effect on air appears no earlier than four slots on (R22). -/
def Dev.dlAnswer (d : Dev) (x : Downlink) (code : Option Nat) : Dev :=
  let later (d : Dev) : Dev :=
    if x.ftype = tJoinRsp then d
    else d.modSensor x.sidx fun s =>
      { s with queue := s.queue.map fun (y : Downlink) => { y with enterS := max y.enterS (d.curS + 2) } }
  match code with
  | some 0 => ((d.bump Cnt.dlAccepted).dropDl x |> later).dlFinish x stOk
  | some 3 =>
    let d := (d.bump Cnt.dlAccepted).event 0x0004 0 [(12, le 4 x.sidx), (16, le 3 x.addr.toNat)]
    ((d.dropDl x) |> later).dlFinish x stOk
  | some 2 => ((d.bump Cnt.dlSensorDrop).dropDl x |> later).dlFinish x stNoResource
  | _ =>
    if d.retryMax < x.repeats + 1 then ((d.dropDl x) |> later).dlFinish x stTimeout
    else d.mapDl x fun y => { y with
      repeats := y.repeats + 1, sent := false, enterS := d.curS + 2, mpdu := setRetry y.mpdu }

/-- A LOADMAP is answered (R58, R187). -/
def Dev.lmAnswer (d : Dev) (i : Nat) (m : LmFrame) (code : Option Nat) : Dev :=
  match code with
  | some 0 | some 3 =>
    let d := d.bump Cnt.dlAccepted
    let d := if code = some 3 then d.event 0x0004 0 [(12, le 4 i), (16, le 3 (d.sensor i).addr.toNat)] else d
    let d := d.modSensor i fun x => { x with lm := none }
    d.confirmMap i m.map.version
  | some 2 => (d.bump Cnt.dlSensorDrop).lmHold i
  | _ =>
    if d.retryMax < m.repeats + 1 then d.lmHold i
    else d.modSensor i fun x => { x with
      lm := some { m with repeats := m.repeats + 1, sent := false, enterS := d.curS + 2, mpdu := setRetry m.mpdu } }

/-- The ACK symbols of one MPDU are all known: the lowest-numbered member whose symbol is present decides (R117). -/
def Dev.answer (d : Dev) (p : TxPart) (code : Option Nat) : Dev :=
  match p.what with
  | .head i => match (d.sensor i).queue.find? fun x => x.mpdu == p.mpdu && x.sent with
    | some x => d.dlAnswer x code
    | none => d
  | .jrsp => match d.sch.jrsp.find? fun x => x.mpdu == p.mpdu && x.sent with
    | some x => d.dlAnswer x code
    | none => d
  | .loadmap i => match (d.sensor i).lm with
    | some m => if m.mpdu = p.mpdu ∧ m.sent then d.lmAnswer i m code else d
    | none => d
  | .mesh l => d.linkAcked l p code
  | .beacon => d
  | .bcast => d

/-- The parts on all radios that wait for ACK symbols of the same MPDU. -/
def Dev.ackGroup (d : Dev) (p : TxPart) : List TxPart :=
  radios.flatMap fun r => (d.radio r).await.filter fun x => x.mpdu == p.mpdu && x.firstS == p.firstS && x.what == p.what

/-- The code of a group: of its lowest-numbered member present. -/
def groupCode (l : List TxPart) : Option Nat :=
  ((List.range 96).findSome? fun m => (l.find? fun x => x.member == m && (x.ack.getD none).isSome).bind fun x =>
    x.ack.getD none).map ackCode

/-- Decide an MPDU once every member's ACK symbol is known. -/
def Dev.settleAck (d : Dev) (p : TxPart) : Dev :=
  let g := d.ackGroup p
  if g = [] ∨ g.any (·.ack.isNone) then d
  else
    let d := radios.foldl (fun d r => d.modRadio r fun x => { x with
      await := x.await.filter fun y => !(y.mpdu == p.mpdu && y.firstS == p.firstS && y.what == p.what) }) d
    d.answer p (groupCode g)

/-- Hard decisions that disagree with the re-encoded byte (R117). -/
def ackErrors (hard : List Bool) (b : Byte) : Nat :=
  ((hard.zip (ackCoded b)).filter fun p => p.1 != p.2).length + (16 - hard.length)

/-- The 16 differential values of R71 by coded bit: adjacent used subcarriers compared, positive for 0. -/
def ackSoft (y : List Cplx) : List Int :=
  (List.range 16).map fun q =>
    let n := 1 + 5 * q % 16
    (cmul (y.getD n (0, 0)) (cconj (y.getD (n - 1) (0, 0)))).1

/-- Is an ACK symbol present: its energy above the noise floor by ACK_DET, and at most 2 of 16 hard decisions against the
re-encoded word (R117)? -/
def ackPresent (soft : List Int) (b : Byte) (energy thr : Cdb) : Bool :=
  decide (thr < energy) && decide (ackErrors (soft.map fun x => decide (x < 0)) b ≤ 2)

/-- A sensor's ACK symbol on a subchannel, from the grid window of period 14: decoded, and present or missing (R116, R117). The
cell's energy is the mean over its used subcarriers (DESIGN CHOICE, log entry 198). -/
def Dev.ackReceive (d : Dev) (r : RadioId) (subch : Nat) (w : Samples) : Dev :=
  match (d.radio r).await.find? fun p => p.subch == subch && p.ack.isNone && p.firstS + p.train - 1 == d.tim.slotS with
  | none => d
  | some p =>
    let chan := ((d.radio r).chan).getD 0
    match d.chan chan with
    | none => d
    | some c =>
      if !d.rfReadyRun r then d
      else
        let x := compensate ((d.radio r).gain :: (d.radio r).gainHist) w
        let y := (subchK c.mode subch).map (windowBin c.mode x)
        let n := fftSize c.mode
        let energy := ofLin (y.foldl (fun a z => a + binPower n z) 0 / y.length)
        let soft := ackSoft y
        let b := ackDecode soft
        let present := ackPresent soft b energy (d.noiseOf r chan subch + 100 * d.cfgFld (Reg.bbpRxcfg_ack_det r))
        let d := d.bump (if present then Cnt.ackRxOk r else Cnt.ackRxMiss r)
        let q := { p with ack := some (if present then some b else none) }
        (d.modRadio r fun x => { x with await := x.await.map fun y => if y = p then q else y }).settleAck q

/-- At the end of slot `s`, an ACK symbol that was not received is missing (R117). -/
def Dev.ackMissing (d : Dev) (s : Int) : Dev :=
  radios.foldl (fun d r =>
    ((d.radio r).await.filter fun p => p.ack.isNone && decide (p.firstS + p.train - 1 ≤ s)).foldl (fun d p =>
      let q := { p with ack := some none }
      ((d.bump (Cnt.ackRxMiss r)).modRadio r fun x => { x with await := x.await.map fun y => if y = p then q else y }).settleAck q) d) d

/-! ## Wake requests (R197) -/

/-- Requests that have waited AGE_MAX superframes complete TIMEOUT. -/
def Dev.wakeAge (d : Dev) : Dev :=
  let old := d.sch.wakeQ.filter fun w => !w.started && decide (w.sinceSf + d.ageMax ≤ d.tim.slotS / 512)
  let d := { d with sch := { d.sch with wakeQ := d.sch.wakeQ.filter fun w => !old.contains w } }
  old.foldl (fun d w => d.finish w.cmd stTimeout 0) d

end Sys2Proof.Machine
end

