-- ==== Sys2Proof/Machine/Rx.lean ====
section
/-! DEFINITION. The receive chain (chapter 03), the uplink exchange and its violations (chapter 05), and the decode and
context stage (R18). -/

namespace Sys2Proof.Machine

/-! ## Acquisition and gain (R81 to R91) -/

/-- The device is inside the slot whose acquisition opened last on the radio, or in the TG before it, and takes
reception (R133, R150). -/
def Dev.receives (d : Dev) (r : RadioId) : Bool :=
  d.rfReadyRun r && !(d.radio r).noRx &&
    ((d.radio r).rxS == some d.tim.slotS || (d.radio r).rxS == some (d.tim.slotS + 1))

/-- A reception of the radio continues from an earlier slot than the one whose acquisition opened last (R89). -/
def Radio.rxCont (x : Radio) : Bool :=
  match x.rxS with
  | none => false
  | some s => x.cells.any fun c => c.state == .data && decide (c.firstS < s) && decide (s < c.firstS + c.train)

/-- A cell that reception may begin in. -/
def newCell (kind : GrantKind) (owner link : Option Nat) (chan subch train : Nat) (stripe : BitVec 3) (member : Nat)
    (s : Int) : Cell :=
  { subch := subch, kind := kind, state := .idle, owner := owner, train := train, stripe := stripe, member := member,
    link := link, chan := chan, firstS := s, e := 0, anchor := 0, level := 0, sig := 0,
    map := ⟨0, false, 0, []⟩, lmStale := false, clipped := false, gains := [], chanEst := [], cePilot := 0, pilot := none,
    cfo := 0, soft := [], dlAtT0 := false, judged := false,
    crcOk := false }

/-- The cells granted for reception that begin in a row of slot `s` (Table 3.2, R160, R206). -/
def Dev.grantedCells (d : Dev) (w : Row) (s : Int) : List Cell :=
  if w.type = rowUp then
    w.used.filterMap fun c =>
      if c.kind = ckRa then some (newCell .ra none none w.chan.toNat c.subch.toNat c.len c.stripe c.member.toNat s)
      else if c.kind = ckUplink then
        (d.ownerAt c s).map fun i =>
          newCell .uplink (some i) none w.chan.toNat c.subch.toNat c.len c.stripe c.member.toNat s
      else none
  else
    match (d.viewAt s).linkOfChan w.chan.toNat with
    | none => []
    | some (l, _) =>
      let chan := d.airChan w
      (List.range (d.chanSubch chan)).map fun x => newCell .mesh none (some l) chan x 1 1 x s

/-- Does a radio receive in its row of slot `s`: an UP row, or a MESH row in the peer's direction? In SEARCH
the search receiver stands in place of windowed reception on the parent link's rows (Table 6.4). -/
def Dev.rxRow (d : Dev) (w : Row) (s : Int) : Bool :=
  if w.type = rowUp then true
  else if w.type = rowMesh then
    match (d.viewAt s).linkOfChan w.chan.toNat with
    | none => false
    | some (_, parent) => !ownRowDir parent (d.meshIndexAt w.chan.toNat s) && !(d.mshState == msSearch && d.parentRowOf w)
  else false

/-- The preset gain of R86. -/
def Dev.presetGain (d : Dev) (r : RadioId) : Int :=
  let x := d.radio r
  let lv := x.cells.filterMap fun c => if c.kind = .uplink then c.owner.bind fun i => (d.sensor i).level else none
  clampGain (if lv = [] then gainFor x.wbNoise (d.agcTarget r + 3000)
    else gainFor (sumLevels lv) (d.agcTarget r + d.agcHead r))

/-- What the previous uplink slot leaves: a slot in which every sample of every window held one code discards its quiet
observations and counts toward R491. -/
def Dev.closeRxSlot (d : Dev) (r : RadioId) : Dev :=
  let x := d.radio r
  if x.rxS.isNone || x.noRx then d
  else d.modRadio r fun y => { y with quiet := [], stuckRun := if y.stuck then y.stuckRun + 1 else 0 }

/-- No reception in the slot (R133, R150). A COEX_REQ asserted for it falls, since no reception is left to hold it (DEDUCED, log
entry 201). -/
def Dev.refuseRx (d : Dev) (r : RadioId) : Dev :=
  let d := d.modRadio r fun x => { x with noRx := true }
  if d.paEn r then d else d.coexFall r

/-- Acquisition opens on a radio for the slot that comes next (R86, R123, R133, R134, R150). -/
def Dev.acquisitionOpen (d : Dev) (r : RadioId) (lock gnt : Bool) (wbNoise : Cdb) : Dev :=
  let s := d.nextS
  let w := d.rowCarried r s
  if !d.willRun r s || !d.rxRow w s then d
  else
    let d := d.closeRxSlot r
    let d := d.raLost ((d.radio r).cells.filter fun c => decide (c.firstS + c.train ≤ s))
    let d := d.modRadio r fun x => { x with
      cells := x.cells.filter fun c => decide (s < c.firstS + c.train), rxS := some s, noRx := false, stuck := true,
      wbNoise := wbNoise, quiet := [], released := false, gainHist := [], coarse := none }
    let cont := (d.radio r).rxCont
    let o := if cont then (d, false) else d.lockSeen r lock
    let d := o.1
    if !cont && !lock then
      let d := ((d.bump (Cnt.rxSynthMiss r)).raise (Reg.rfStat_synth_miss r)).refuseRx r
      if o.2 then d.failRadio r 1 else d
    else if d.cfgBit (Reg.rfCoexcfg_rx_req r) && !d.granted r gnt then (d.bump (Cnt.coexRxDenied r)).refuseRx r
    else
      let new := d.grantedCells w s
      let d := d.modRadio r fun x => { x with cells := x.cells ++ new }
      let d := if cont then d
        else d.modRadio r fun x => { x with agc := .preset, passed := false, attacks := 0, pfrz := wbNoise }
      let d := if cont then d else d.modRadio r fun x => { x with gain := d.presetGain r }
      d.drive r (d.paEn r) true

/-- An attack sets the gain from one block's level and freezes it (R85, R90). The rise began 4 µs before its declaration
(R88): that is the coarse arrival time of R83. -/
def Dev.attack (d : Dev) (r : RadioId) (w : WbRise) : Dev :=
  let g := gainFor w.level (d.agcTarget r)
  let d := if clampGain g = g then d else d.raise (Reg.bbpRxstat_agc_limit r)
  d.modRadio r fun x => { x with
    agc := .frozen, gain := clampGain g, gainHist := x.gain :: x.gainHist, coarse := some (w.whenPs - 4000000),
    pfrz := w.level, attacks := x.attacks + 1 }

/-- RISE and CAPTURE_DB as they act (Table 3.9, R100). -/
def Dev.riseDb (d : Dev) (r : RadioId) : Cdb := 100 * max 2 (d.cfgFld (Reg.bbpDetcfg_rise r))
def Dev.captureDb (d : Dev) (r : RadioId) : Cdb := 100 * clampNat 3 12 (d.cfgFld (Reg.bbpCapcfg_capture_db r))
def Dev.capEn (d : Dev) (r : RadioId) : Bool := d.cfgBit (Reg.bbpCapcfg_cap_en r)

/-- The acquisition span of the slot that a radio receives, in picoseconds about T0 (R82, R214, R215). -/
def Dev.rowSpan (d : Dev) (r : RadioId) : Int × Int :=
  match (d.radio r).cells.findSome? (·.link) with
  | some l => d.meshSpan r l (d.cfgBit (Reg.mshLink_role l)) (d.rxSlot r)
  | none => (-46875000, 46875000)

/-- Is a rise declared within an acquisition span (R82)? -/
def riseIn (w : WbRise) (span : Int × Int) : Bool := decide (span.1 ≤ w.whenPs) && decide (w.whenPs ≤ span.2)
/-- Do both blocks of a rise exceed a level (R88)? -/
def riseAbove (w : WbRise) (x : Cdb) : Bool := decide (x < w.block0) && decide (x < w.block1)
/-- Do both blocks of a rise reach a level (R99)? -/
def riseReaches (w : WbRise) (x : Cdb) : Bool := decide (x ≤ w.block0) && decide (x ≤ w.block1)

/-- The AGC is released once no cell of the radio holds a reception beyond the end of the slot `last` (R90, R98): a
detection after which no cell passed is false. In a slot without an attack the release falls at the same moment, so that a
later rise of that slot is not evaluated (R99; DESIGN CHOICE, log entry 183). -/
def Dev.releaseCheck (d : Dev) (r : RadioId) (last : Bool) : Dev :=
  let x := d.radio r
  let holds := x.cells.any fun c =>
    (c.state == .acq || c.state == .data) && (!last || decide (d.rxSlot r + 1 < c.firstS + c.train))
  if holds || x.released then d
  else
    let d := if x.agc = .frozen ∧ !x.passed then
        (d.bump (Cnt.falseDet r)).raise (Reg.bbpRxstat_false_det r)
      else d
    let d := d.modRadio r fun y => { y with
      agc := .preset, gain := d.presetGain r, gainHist := y.gain :: y.gainHist, released := true }
    if d.cfgBit (Reg.rfCoexcfg_rx_req r) && !d.paEn r then d.coexFall r else d

/-- A rise after T0 + 46.875 µs restarts each pending cell in which it reaches CAPTURE_DB: the cell enters HOLD (Table
3.4). -/
def Dev.lateRestart (d : Dev) (r : RadioId) (hits : List (Cell × Cdb)) : Dev :=
  hits.foldl (fun d p =>
    (d.modCell r p.1 fun c => { c with state := .hold, level := p.2 }).bump (Cnt.captureRestart r)) d

/-- A later preamble (R99 to R102, Table 3.4). A rise that finds some cells before their SIG verdict and others in DATA
counts under the rows before the verdict only (DESIGN CHOICE, log entry 184). -/
def Dev.laterRise (d : Dev) (r : RadioId) (w : WbRise) (rises : List (Nat × Cdb)) : Dev :=
  let x := d.radio r
  let span := riseIn w (d.rowSpan r)
  if !d.receives r || x.released || !riseReaches w (x.pfrz + d.riseDb r) || (span && x.agc == .preset && !x.rxCont) then d
  else
    let d := d.raise (Reg.bbpRxstat_capture r)
    if span then
      if !x.rxCont && d.capEn r && decide (x.pfrz + d.captureDb r ≤ w.level) then
        (d.attack r w).bump (Cnt.captureRestart r)
      else d.bump (Cnt.captureLost r)
    else
      let pend := x.cells.filter fun c => c.state == .acq
      if pend ≠ [] then
        let hits := pend.filterMap fun c =>
          (rises.find? fun p => p.1 == c.subch && d.capEn r && decide (c.level + d.captureDb r ≤ p.2)).map fun p => (c, p.2)
        if hits = [] then d.bump (Cnt.captureLost r) else (d.lateRestart r hits).releaseCheck r false
      else if x.cells.any fun c => c.state == .data then d.bump (Cnt.captureLate r)
      else d.bump (Cnt.captureLost r)

/-- A wideband detection (R88): two consecutive blocks exceed the tracked noise level by RISE. It attacks where no gain is
frozen and no reception continues, else it is handled as a later preamble. -/
def Dev.wideband (d : Dev) (r : RadioId) (w : WbRise) : Dev :=
  let x := d.radio r
  if !d.receives r || x.released || !riseAbove w (x.wbNoise + d.riseDb r) then d
  else if riseIn w (d.rowSpan r) && x.agc == .preset && !x.rxCont then (d.attack r w).bump (Cnt.detRadio r)
  else d.laterRise r w []

/-! ## Sensor violations (R199) -/

/-- The party of a sensor violation: the sensor, the SID, or the unowned cell. -/
def violParty (radio : RadioId) (subch : Nat) (sidx : Option Nat) (sid : Option Nat) : Nat :=
  match sidx, sid with
  | some i, _ => 4 * i
  | none, some x => 4 * x + 1
  | none, none => 4 * (radio.val * 128 + subch) + 2

/-- Count a sensor violation and write its event, at most one per code and sensor, or per unowned cell, in a
superframe. -/
def Dev.sensorViolation (d : Dev) (code counter : Nat) (radio : RadioId) (subch : Nat) (sidx sid : Option Nat)
    (report : Bool) : Dev :=
  let d := (d.bump counter).raise Reg.schStat_violation
  let party := violParty radio subch sidx sid
  let key := (if party % 4 = 2 then 0 else code, party)
  if !report || d.sch.violSeen.contains key then d
  else { d with sch := { d.sch with violSeen := key :: d.sch.violSeen } }.event 0x0001 code
    [(8, [byte radio, byte subch]), (12, le 4 (sidx.getD 0)), (16, le 8 (sid.getD 0))]

/-! ## The SYNC evaluation (R82 to R84, R91 to R94) -/

/-- The even used subcarriers of a subchannel. -/
def evenK (mode : Fin 3) (c : Nat) : List Int := (subchK mode c).filter fun k => k % 2 == 0
/-- Their reference values C(k). -/
def evenRef (mode : Fin 3) (c : Nat) : List Int :=
  ((subchK mode c).zip (subchRef mode c)).filterMap fun p => if p.1 % 2 = 0 then some p.2 else none

/-- P of R92: the sum of Z_k C(k) times the conjugate of its successor. -/
def syncP : List (Int × Int) → Int × Int
  | a :: b :: t =>
    let p := syncP (b :: t)
    (p.1 + a.1 * b.1 + a.2 * b.2, p.2 + a.2 * b.1 - a.1 * b.2)
  | _ => (0, 0)

/-- Does rho reach SYNC_THR / 256 (R92)? -/
def rhoPass (mode : Fin 3) (c : Nat) (bins : List (Int × Int)) (thr : Nat) : Bool :=
  let z := (bins.zip (evenRef mode c)).map fun p => (p.1.1 * p.2, p.1.2 * p.2)
  let p := syncP z
  let q : Int := z.foldl (fun (a : Int) x => a + x.1 * x.1 + x.2 * x.2) 0
  decide (bins.length = (evenK mode c).length) && decide (0 < q) &&
    decide ((thr : Int) * thr * (q * q) ≤ 65536 * (p.1 * p.1 + p.2 * p.2))

/-- noise(c) of R92: the mean floor over the subchannel's even data subcarriers. -/
def Dev.evenNoise (d : Dev) (r : RadioId) (chan subch : Nat) (mode : Fin 3) : Cdb :=
  let ks := subchData mode subch
  meanLevel (((List.range 16).filter fun i => ks.getD i 1 % 2 == 0).map fun i => d.nhat r chan subch i)

/-- What the SYNC evaluation of one subchannel computes (R92): the bins Z_k on its even used subcarriers in ascending order,
the level, and e in picoseconds. -/
structure SyncEval where
  subch : Nat
  bins  : List Cplx
  level : Cdb
  ePs   : Int
  deriving DecidableEq, Repr

/-- −arg(P) / (2π × 16 kHz) in picoseconds, which repeats every 62.5 µs, at the repetition nearest to the coarse time (R83,
R92). -/
def fineArrival (p : Cplx) (coarse : Int) : Int :=
  let e := -(argTurn p * 62500000 / 4294967296)
  coarse + ((e - coarse + 31250000) % 62500000 - 31250000)

/-- How far after T0 + 46.875 µs the half-window of an evaluation lies: a frame of a widened span has it shifted by its coarse
arrival (R214; DESIGN CHOICE, log entry 177). -/
def halfShift (coarse : Int) : Int := if coarse.natAbs ≤ 46875000 then 0 else coarse

/-- The evaluation of subchannel `s` on gain-compensated samples of the half-window. Without a wideband detection the coarse
time is the slot tick (DESIGN CHOICE, log entry 177). -/
def syncEvalOf (mode : Fin 3) (x : List Cplx) (coarse : Int) (s : Nat) : SyncEval :=
  let z := (evenK mode s).map fun k => halfBin mode x k
  let q := (z.zip (evenRef mode s)).map fun p => (p.1.1 * p.2, p.1.2 * p.2)
  let n := fftSize mode / 2
  ⟨s, z, ofLin (z.foldl (fun a y => a + binPower n y) 0 / z.length), halfShift coarse + fineArrival (syncP q) (coarse - halfShift coarse)⟩

/-- Does an evaluation pass (R92)? -/
def Dev.syncPass (d : Dev) (r : RadioId) (chan : Nat) (v : SyncEval) : Bool :=
  match d.chan chan with
  | none => false
  | some c =>
    decide (v.subch < modeSubch c.mode) && rhoPass c.mode v.subch v.bins (d.cfgFld (Reg.bbpDetcfg_sync_thr r)) &&
      decide (d.evenNoise r chan v.subch c.mode + 50 * d.cfgFld (Reg.bbpDetcfg_cell_min r) ≤ v.level)

/-- The anchor nearest to e, in picoseconds (R82). -/
def anchorOf (e : Int) : Int := if e < -15625000 then -31250000 else if 15625000 < e then 31250000 else 0

/-- Where a cell's windows lie: on the nearest anchor, or, for a frame of a widened span, shifted by its measured arrival (R82,
R214; for a frame of the parent beyond ±46.875 µs DEDUCED, log entry 202). -/
def Dev.windowShift (d : Dev) (c : Cell) (e : Int) : Int :=
  let unranged := match c.link with
    | some l => !d.cfgBit (Reg.mshLink_role l) && !(d.link l).ranged
    | none => false
  if unranged || decide (46875000 < e.natAbs) then e else anchorOf e

/-- A granted sensor's arrival error beyond 15.625 µs (R84, R185, R242). -/
def Dev.timingOut (d : Dev) (r : RadioId) (c : Cell) : Dev :=
  let d := (d.bump (Cnt.timingOut r)).raise (Reg.bbpRxstat_timing_out r)
  d.sensorViolation 0x14 Cnt.vTiming r c.subch c.owner none (d.tim.timingHold == 0)

/-- One granted cell passes its evaluation (Table 3.2). -/
def Dev.cellPass (d : Dev) (r : RadioId) (c : Cell) (e : Int) (level : Cdb) : Dev :=
  let ranged := match c.link with
    | some l => !d.cfgBit (Reg.mshLink_role l) && (d.link l).ranged
    | none => false
  let out := decide (15625000 < e.natAbs) && (c.kind == .uplink || ranged)
  let hold := out && !d.cfgBit (Reg.bbpDetcfg_off_sched r)
  let c' := { c with state := if hold then .hold else .acq, e := e, anchor := d.windowShift c e, level := level }
  let d := (d.modCell r c fun _ => c').bump (Cnt.syncCell r)
  let d := if c.kind = .ra then { d with sch := { d.sch with raB := d.sch.raB + 1 } }.bump Cnt.raBusy else d
  if !out then d
  else if c.kind = .uplink then d.timingOut r c
  else (d.bump (Cnt.timingOut r)).raise (Reg.bbpRxstat_timing_out r)

/-- A SYNC passes in a subchannel that is not granted: HOLD, not decoded (R94). -/
def Dev.ungrantedPass (d : Dev) (r : RadioId) (chan : Nat) (v : SyncEval) (e : Int) : Dev :=
  let c := { newCell .none none none chan v.subch 1 1 0 (d.rxSlot r) with
    state := .hold, e := e, anchor := anchorOf e, level := v.level }
  let d := d.modRadio r fun x => { x with cells := x.cells ++ [c] }
  let d := (d.bump (Cnt.ungranted r)).raise (Reg.bbpRxstat_ungranted r)
  d.sensorViolation 0x10 Cnt.vOutOfGrant r v.subch none none true

/-- Is e within the acquisition span of a cell (R82, R214, R215)? -/
def Dev.inSpan (d : Dev) (r : RadioId) (c : Option Cell) (e : Int) : Bool :=
  let span := match c.bind (·.link) with
    | some l => d.meshSpan r l (d.cfgBit (Reg.mshLink_role l)) (d.rxSlot r)
    | none => (-46875000, 46875000)
  decide (span.1 ≤ e) && decide (e ≤ span.2)

/-- Evaluate one subchannel; e is the arrival at the antenna side of the external front end (R246). -/
def Dev.evalOne (d : Dev) (r : RadioId) (chan : Nat) (v : SyncEval) : Dev :=
  let e := roundE (v.ePs - d.extDelayRx r)
  match (d.radio r).cells.find? fun c => c.subch == v.subch with
  | none => if d.inSpan r none e && d.syncPass r chan v then d.ungrantedPass r chan v e else d
  | some c =>
    if decide (c.firstS ≠ d.rxSlot r) || c.state != .idle || !d.inSpan r (some c) e || !d.syncPass r c.chan v then d
    else d.cellPass r c e v.level

/-- A ranged child's frame beyond 15.625 µs: LINK_TIMING, once per row, with the ADDR of the last frame accepted from the peer,
or MSH_LINKPEER's before the first (R222; DESIGN CHOICE, log entry 203). -/
def Dev.linkTiming (d : Dev) (r : RadioId) : Dev :=
  match (d.radio r).cells.find? fun c => c.kind == .mesh && c.firstS == d.rxSlot r && c.state != .idle &&
      decide (15625000 < c.e.natAbs) with
  | none => d
  | some c => match c.link with
    | none => d
    | some l =>
      if d.cfgBit (Reg.mshLink_role l) || !(d.link l).ranged then d
      else
        let peer := d.cfgFld (Reg.mshLinkpeer_peer_id l) % 16777216
        d.peerViolation 0x23 Cnt.vLinkTiming l r (match (d.link l).peerAddr with | some a => a.toNat | none => peer)

/-- At T0 + 115 µs, every subchannel of the radio has been evaluated (R91 to R94). -/
def Dev.syncEvaluation (d : Dev) (r : RadioId) (half : Samples) : Dev :=
  if !d.receives r then d
  else
    let chan := d.airChan (d.rowCarried r (d.rxSlot r))
    let l := match d.chan chan with
      | none => []
      | some c =>
        let x := compensate ((d.radio r).gain :: (d.radio r).gainHist) half
        (List.range (modeSubch c.mode)).map (syncEvalOf c.mode x ((d.radio r).coarse.getD 0))
    ((l.foldl (fun d v => d.evalOne r chan v) d).linkTiming r).releaseCheck r false

/-! ## The SIG verdict (R58, R95, R96) -/

/-- The map with which a reception is decoded, and whether it counts as LM_STALE (R58, R206). -/
def Dev.rxMap (d : Dev) (r : RadioId) (c : Cell) (sig : BitVec 24) : LoadMap × Bool :=
  match c.kind, c.owner, c.link with
  | .uplink, some i, _ =>
    let x := d.sensor i
    let mem := d.grantMembers r c
    let on := x.anchors.map anchorCell == mem.map fun m => m.2
    selectMap x.floorQ (fullMap x.confirmed mem.length) x.pendMap sig on mem.length
  | .mesh, _, some l =>
    let k := d.link l
    let m := d.chanSubch c.chan
    let full (y : LoadMap) : LoadMap := { y with codes := linkCodes y m }
    selectMap k.confirmed.floorQ (full k.confirmed) (k.pendMap.map full) sig true m
  | _, _, _ => (floorMap false 1 (sigRate sig), false)

/-- Do the fields of a SIG agree with the grant (Table 3.3)? -/
def sigAgrees (c : Cell) (sig : BitVec 24) : Bool :=
  (sigTrain sig).toNat + 1 == c.train && sigStripe sig == c.stripe && (c.kind != .ra || sigMcs sig == 8)

/-- The mean arrival error of the cells of a row whose SIG has passed (R76). -/
def Dev.rowArrival (d : Dev) (r : RadioId) (c : Cell) : Int :=
  let l := (d.radio r).cells.filter fun x => x.kind == .mesh && x.firstS == c.firstS && x.state == .data
  roundDiv (l.foldl (fun (a : Int) x => a + x.e) 0) (max 1 l.length : Nat)

/-- A passing SIG. -/
def Dev.sigPassed (d : Dev) (r : RadioId) (c : Cell) (sig : BitVec 24) : Dev :=
  let m := d.rxMap r c sig
  let d := (d.modCell r c fun x => { x with state := .data, sig := sig, map := m.1, lmStale := m.2 }).bump
    (Cnt.sigPass r)
  let d := d.modRadio r fun x => { x with passed := true }
  match c.link with
  | none => d
  | some l =>
    if d.cfgBit (Reg.mshLink_role l) then
      match d.parentLink with
      | some (p, chan) => if d.trackEn ∧ p = l then d.parentSig chan c.firstS c.e else d
      | none => d
    else d.childSig l c.firstS (d.rowArrival r c)

/-- The RX message of a reception (Table 17.6): `result` is its byte 2, `ack` the CODE of the ACK symbol that goes out. Byte 7 holds
MCS above LMV, as the SIG does (DESIGN CHOICE, log entry 212). -/
def Dev.traceRx (d : Dev) (r : RadioId) (c : Cell) (result : Nat) (clipped : Bool) (ack : Option Nat) (e : Int) : Dev :=
  let flags := clipped.toNat + (match ack with | some k => 2 + 4 * (k % 4) | none => 0) + (if c.stripe = 1 then 0 else 16)
  let sig := if result = 1 ∨ result = 3 then 0 else (c.sig.extractLsb' 16 8).toNat
  d.traceRadio r 3 ([byte r.val, byte c.subch, byte result, byte flags] ++ le 2 (roundDiv e 62500 % 65536).toNat ++
    [BitVec.ofInt 8 (clampInt (-128) 127 (roundDiv c.level 100)), byte sig])

/-- A SIG has failed: the cell enters HOLD. A clipped reception of which no member is left counts as CLIPPED here (R114). -/
def Dev.sigFailed (d : Dev) (r : RadioId) (c : Cell) (counter result : Nat) : Dev :=
  let d := (d.modCell r c fun x => { x with state := .hold, judged := true }).bump counter
  let d := d.traceRx r c result c.clipped none c.e
  if c.clipped && (d.rxGroup r c).all fun p => p.2.state != .acq && p.2.state != .data then
    (d.bump (Cnt.clipped r)).raise (Reg.bbpRxstat_clip r)
  else d

/-- A cell's SIG verdict, on what the bank has decoded from its period-2 window (R47, R95). Of a cell in HOLD it is only traced. -/
def Dev.sigVerdict (d : Dev) (r : RadioId) (subch : Nat) : Dev :=
  let d := d.runJobs none
  match (d.radio r).cells.find? fun c =>
      c.subch == subch && (c.state == .acq || c.state == .hold && !c.judged) && c.firstS == d.rxSlot r with
  | none => d
  | some c =>
    if !d.receives r then d
    else if c.state = .hold then (d.modCell r c fun x => { x with judged := true }).traceRx r c 3 c.clipped none c.e
    else
      let d :=
        if !sigPasses c.sig then d.sigFailed r c (Cnt.sigFail r) 1
        else if !sigAgrees c c.sig then
          let d := d.sigFailed r c (Cnt.sigMismatch r) 2
          if c.kind = .mesh then d else d.sensorViolation 0x10 Cnt.vOutOfGrant r subch c.owner none true
        else d.sigPassed r c c.sig
      d.releaseCheck r false

/-! ## Receive windows (R81, R114, R491) -/

/-- Is a window one that the device takes: the grid window of every period, and another anchor's where a cell uses it (R81)? -/
def Dev.windowTaken (d : Dev) (r : RadioId) (w : WindowObs) : Bool :=
  d.receives r &&
    (w.anchor == 0 || (d.radio r).cells.any fun c => c.usesWindow (d.rxSlot r) w.period w.anchor)

/-- A receive window closes. -/
def Dev.windowClose (d : Dev) (r : RadioId) (w : WindowObs) : Dev :=
  if !d.windowTaken r w then d
  else
    let d := d.modRadio r fun x => { x with stuck := x.stuck && w.stuck }
    let clipped := decide (orElse0 (d.cfgFld (Reg.bbpRxcfg_clip_min r)) 1 ≤ w.clip)
    let d := if clipped then d.markClipped r w.period else d
    let chan := d.airChan (d.rowCarried r (d.rxSlot r))
    let d := match d.chan chan with | some c => d.takeWindow r chan c.mode w clipped | none => d
    if w.period = 12 ∧ w.anchor = 0 then d.releaseCheck r true else d

/-- The receive chain fails in the fourth consecutive stuck slot (R491). -/
def Dev.stuckSlot (d : Dev) (r : RadioId) : Dev :=
  let x := d.radio r
  if d.receives r && x.rxS == some d.tim.slotS && x.stuck && decide (3 ≤ x.stuckRun) then
    (d.reachTai (d.tickTai d.tim.slotS + 2203125)).failRadio r 5
  else d

/-! ## Verdicts (R67, R73, R76, R77, R112, Table 5.7) -/

/-- The header and CRC32 outcome of a reception (R67, Table 3.15). -/
inductive RxOutcome where
  | pass | crcFail | badLen | badVer | badType
  deriving DecidableEq, Repr

def judge (m : List Byte) (train : Nat) (map : LoadMap) (sig : BitVec 24) : RxOutcome :=
  let h := readHdr m
  if h.len < 14 ∨ 2052 < h.len ∨ !mpduFits h.len train (sumBits map.codes) (sigRate sig) then .badLen
  else if h.ver ≠ 0 then .badVer
  else if typeReserved h.ftype then .badType
  else if crcPasses m h.len then .pass else .crcFail

/-- The counter of an outcome. -/
def RxOutcome.counter (o : RxOutcome) (r : Nat) : Nat :=
  match o with
  | .pass => Cnt.crcPass r
  | .crcFail => Cnt.crcFail r
  | .badLen => Cnt.hdrLenErr r
  | .badVer => Cnt.hdrVerErr r
  | .badType => Cnt.hdrTypeErr r

/-- A JOIN_REQ against JOIN_OPEN and the join table (R193): the ACK code, and whether it is accepted. -/
def Dev.judgeJoin (d : Dev) (r : RadioId) (c : Cell) (payload : List Byte) : Dev × Nat × Bool :=
  let sid := BitVec.ofNat 64 (ofBe (fit 8 payload))
  let nonce := BitVec.ofNat 16 (ofBe (fit 2 (payload.drop 9)))
  let f := (d.tim.slotS / 512).toNat
  if !d.joinOpen then (d.bump Cnt.joinClosed, 2, false)
  else
    let others := d.sch.joins.filter fun j => j.sid != sid
    let e : JoinEntry := { sid := sid, nonce := nonce, chan := c.chan, sf := f, refusals := 0 }
    let accept : Dev × Nat × Bool :=
      ({ d with sch := { d.sch with joins := (e :: others).take 1024 } }, 0, true)
    match d.sch.joins.find? (fun j => j.sid == sid) with
    | none => accept
    | some j =>
      if f < j.sf + d.joinGap then
        let n := j.refusals + 1
        let d := { d with sch := { d.sch with joins := { j with refusals := n } :: others } }.bump Cnt.joinRepeat
        (if 3 ≤ n then d.sensorViolation 0x15 Cnt.vJoinFlood r c.subch none (some sid.toNat) true else d, 2, false)
      else accept

/-- The sensor entry of a cell's owner as the verdict looks it up; none when it is absent or fails parity (R173, R273). -/
def Dev.ownerEntry (d : Dev) (owner : Option Nat) : Dev × Option SensorEntry :=
  match owner with
  | none => (d, none)
  | some i =>
    let o := d.sensorLookup (d.sensor i).addr
    (o.1, o.2.filter fun e => e.sidx == i)

/-- An accepted uplink whose owner has no usable sensor entry goes to PPL_ULDEF (R173). -/
def Dev.noEntry (d : Dev) (c : Cell) : Bool := c.kind == .uplink && (d.ownerEntry c.owner).2.isNone

/-- The answer to an uplink whose CRC32 passed (Table 5.7): the ACK code, and whether it is accepted. -/
def Dev.judgeUplink (d : Dev) (r : RadioId) (c : Cell) (m : List Byte) : Dev × Nat × Bool :=
  let h := readHdr m
  if c.kind = .ra then
    if h.ftype ≠ tJoinReq then (d.sensorViolation 0x12 Cnt.vWrongType r c.subch none none true, 2, false)
    else d.judgeJoin r c (mpduPayload m h.len)
  else if h.ftype ≠ tDataUp then (d.sensorViolation 0x12 Cnt.vWrongType r c.subch c.owner none true, 2, false)
  else
    let o := d.ownerEntry c.owner
    let d := o.1
    let bad := match o.2 with
      | some e => e.addr != h.addr
      | none => false
    if bad then (d.sensorViolation 0x11 Cnt.vAddrMismatch r c.subch c.owner none true, 2, false)
    else (d, if c.dlAtT0 then 3 else 0, true)

/-- The answer to a Mladol frame whose CRC32 passed (R208, R210): the ACK code, and whether it is a new frame. -/
def Dev.judgeMesh (d : Dev) (r : RadioId) (l : Nat) (m : List Byte) : Dev × Nat × Bool :=
  let h := readHdr m
  let peer := d.cfgFld (Reg.mshLinkpeer_peer_id l)
  if h.ftype ≠ tMesh ∨ !kindKnown (beAt m 10 1 / 16) then (d, 2, false)
  else if peer ≠ 0 ∧ h.addr.toNat ≠ peer % 16777216 then (d.peerViolation 0x22 Cnt.vPeerUnknown l r h.addr.toNat, 2, false)
  else if flagRetry h ∧ (d.link l).lastRxSeq = some h.seq then (d, 0, false)
  else ((d.modLink l fun k => { k with lastRxSeq := some h.seq, peerAddr := some h.addr }).bump Cnt.linkRxOk, 0, true)

/-- FAULT_SEQ of an accepted uplink's sender (R495): whether the frame is a RECOVERY. -/
def Dev.checkRecovery (d : Dev) (owner : Option Nat) (h : MpduHdr) : Dev × Bool :=
  match owner with
  | none => (d, false)
  | some i => match (d.sensor i).faultSeq with
    | none => (d, false)
    | some q =>
      let hit := flagRetry h && h.seq == q
      let d := d.modSensor i fun x => { x with faultSeq := none }
      (if hit then d.bump Cnt.ulRecovery else d, hit)

/-- An ACK symbol joins the burst that a radio sends in period 14 of the present slot. -/
def Dev.addAck (d : Dev) (r : RadioId) (chan : Nat) (a : Nat × Byte × Nat) (acked : List (Nat × Byte)) : Dev :=
  let s := d.tim.slotS
  d.modRadio r fun x =>
    if x.planned.any fun b => b.kind == .ack && b.firstS == s then
      { x with planned := x.planned.map fun (b : Burst) =>
          if b.kind = .ack ∧ b.firstS = s then { b with acks := b.acks ++ [a], acked := b.acked ++ acked } else b }
    else { x with planned := ⟨.ack, chan, s, [], [a], acked, none, 0⟩ :: x.planned }

/-- The radio that carries a member's row in the present slot. -/
def Dev.memberRadio (d : Dev) (chan subch : Nat) : Option RadioId :=
  radios.find? fun y => let w := d.rowCarried y d.tim.slotS; w.chan.toNat == chan && (w.cellOn subch).isSome

/-- Where the ACK symbols of a decoded reception go: every member that the STRIPE mask names, whether or not its radio took
the member's reception, but no radio that takes no reception in the slot (R73, R77, R133, R150). -/
def Dev.ackMembers (d : Dev) (r : RadioId) (c : Cell) : List (RadioId × Nat × Nat) :=
  if c.stripe = 1 then [(r, c.chan, c.subch)].filter fun p => d.receives p.1
  else (d.grantMembers r c).filterMap fun m => match d.memberRadio m.2.1 m.2.2 with
    | some y => if d.receives y then some (y, m.2) else none
    | none => none

/-- The ACK symbols of a decoded reception, with one CODE and TCORR on each (R73, R77, R467). -/
def Dev.sendAcks (d : Dev) (r : RadioId) (c : Cell) (code : Nat) (tcorr : Int) (acked : List (Nat × Byte)) : Dev :=
  if d.noRegion then d
  else if c.kind = .mesh then d.addAck r c.chan (255, mkAck code 0, 0) []
  else
    let id := match c.owner with | some i => 4096 + i | none => r.val * 128 + c.subch + 1
    (d.ackMembers r c).foldl (fun d p => d.addAck p.1 p.2.1 (p.2.2, mkAck code tcorr, id) acked) d

/-- Mark the cells of a reception judged. -/
def Dev.markJudged (d : Dev) (g : List (RadioId × Cell)) (ok : Bool) : Dev :=
  g.foldl (fun d p => d.modCell p.1 p.2 fun c => { c with judged := true, crcOk := ok }) d

/-- Members that contribute erasures (R76, R112). -/
def Dev.countErased (d : Dev) (r : RadioId) (c : Cell) (g : List (RadioId × Cell)) : Dev :=
  if c.kind = .mesh then d.bumpBy (Cnt.stripeErased r) (g.filter fun p => p.2.state != .data).length
  else if c.stripe = 1 then d
  else ([0, 1, 2].filter fun m => c.stripe.getLsbD m).foldl (fun d m =>
    match g.find? fun p => p.2.member == m with
    | some p => if p.2.state = .data then d else d.bump (Cnt.stripeErased p.1)
    | none => match (d.grantMembers r c)[m]? with
      | some x => d.bump (Cnt.stripeErased x.1)
      | none => d) d

/-- The answer of Table 5.7 or R208 to a judged reception, with what it leaves behind: the ACK code if any, and whether
it is accepted. -/
def Dev.answerRx (d : Dev) (r : RadioId) (c : Cell) (o : RxOutcome) (m : List Byte) : Dev × Option Nat × Bool :=
  match o with
  | .crcFail => (if c.kind = .mesh then d.bump Cnt.linkCrcFail else d, some 1, false)
  | .pass =>
    let a := match c.link with
      | some l => d.judgeMesh r l m
      | none => d.judgeUplink r c m
    (a.1, some a.2.1, a.2.2)
  | _ => (d, none, false)

/-- A pending version that a frame with a good CRC32 names becomes confirmed (R58). -/
def Dev.confirmRx (d : Dev) (c : Cell) (sig : BitVec 24) : Dev :=
  match c.owner, c.link with
  | some i, _ => d.confirmMap i (sigLmv sig)
  | none, some l => d.confirmLinkMap l (sigLmv sig)
  | none, none => d

/-- The flags and counters of a reception on its lowest-numbered passing member (R112, R114). -/
def Dev.countRx (d : Dev) (r : RadioId) (c : Cell) (clipped : Bool) (o : RxOutcome) : Dev :=
  let d := d.bump (o.counter r)
  let d := if clipped then (d.bump (Cnt.clipped r)).raise (Reg.bbpRxstat_clip r) else d
  if c.lmStale then
    let d := d.bump (Cnt.lmStale r)
    if c.kind = .uplink then d.sensorViolation 0x13 Cnt.vStaleMap r c.subch c.owner none true else d
  else d

/-- Has the CRC32 of a frame with a valid LEN passed, whatever its VERSION and TYPE (R58)? -/
def crcGood (o : RxOutcome) (mpdu : List Byte) : Bool := o != .badLen && crcPasses mpdu (readHdr mpdu).len

/-- The sum of the members' arrival errors, and how many members there are (R76). -/
def sumE (pass : List (RadioId × Cell)) : Int := pass.foldl (fun a p => a + p.2.e) 0

/-- Byte 2 of the RX message at a CRC32 verdict. -/
def RxOutcome.traceCode (o : RxOutcome) : Nat :=
  match o with
  | .pass => 6
  | .crcFail => 5
  | _ => 4

/-- Does an ACK symbol answer a reception on some radio (R69, R467)? -/
def Dev.acked (d : Dev) (r : RadioId) (c : Cell) (noack : Bool) (code : Option Nat) : Option Nat :=
  if noack || d.noRegion || c.kind != .mesh && (d.ackMembers r c).isEmpty then none else code

/-- Judge a reception whose passing members agree (R73, R76, Table 5.7). TCORR follows the mean arrival error of the members
that passed; every other use takes the mean rounded to 0.0625 µs (R83). -/
def Dev.judgeRx (d : Dev) (r : RadioId) (c : Cell) (g pass : List (RadioId × Cell)) (mpdu : List Byte) : Dev :=
  let o := judge mpdu c.train c.map c.sig
  let h := readHdr mpdu
  let m := mpdu.take h.len
  let e := roundDiv (sumE pass) (62500 * (max 1 pass.length : Nat)) * 62500
  let clipped := g.any fun p => p.2.clipped
  let d := (d.countErased r c g).markJudged g (o == .pass)
  let d := d.countRx r c clipped o
  let d := if crcGood o mpdu then d.confirmRx c c.sig else d
  let none' := d.noEntry c
  let a := d.answerRx r c o m
  let acc := a.2.2
  let d := if acc && c.kind != .mesh && flagRetry h then a.1.bump Cnt.ulRetryRx else a.1
  let d := if acc && c.kind != .mesh && sigMore c.sig then d.bump Cnt.ulMore else d
  let v := if acc && c.kind != .mesh then d.checkRecovery c.owner h else (d, false)
  let d := v.1
  let d := match a.2.1 with
    | some code =>
      if h.noack then d
      else d.sendAcks r c code (tcorrMean (sumE pass) (max 1 pass.length))
        (if acc then (match c.owner with | some i => [(i, h.seq)] | none => []) else [])
    | none => d
  let d := d.traceRx r c o.traceCode clipped (d.acked r c h.noack a.2.1) e
  let rx : Rx := {
    radio := r, chan := c.chan, subch := c.subch, firstS := c.firstS, sidx := c.owner,
    link := c.link, sig := c.sig, mpdu := m, e := e, cfo := c.cfo, level := c.level, clipped := clipped,
    lmStale := c.lmStale, recovery := v.2, members := max 1 (if c.kind = .mesh then 1 else stripeCount c.stripe),
    crcOk := o == .pass, accepted := acc, uldef := none',
    mem := pass.map fun p => (p.2.member, p.1, p.2.chan, p.2.subch, p.2.gains),
    cell0 := match d.grantMembers r c with | x :: _ => x.2 | [] => (c.chan, c.subch), stage := 0 }
  let d := { d with decodeQ := d.decodeQ ++ [rx] }
  if acc && c.kind == .mesh then { d with msh := { d.msh with rxQ := d.msh.rxQ ++ [rx] } } else d

/-- The passing members disagree: the stripe is discarded (R76, R112). -/
def Dev.disagree (d : Dev) (r : RadioId) (g : List (RadioId × Cell)) : Dev :=
  let d := (d.bump (Cnt.stripeDisagree r)).markJudged g false
  if g.any fun p => p.2.clipped then (d.bump (Cnt.clipped r)).raise (Reg.bbpRxstat_clip r) else d

/-- The CRC32 verdict of a reception, named by one of its cells, on the bytes that the Viterbi bank has decoded (R67, R68,
R113). -/
def Dev.crcVerdict (d : Dev) (r : RadioId) (subch : Nat) : Dev :=
  let d := d.runJobs none
  match (d.radio r).cells.find? fun c => c.subch == subch && c.state == .data && !c.judged &&
      decide (c.firstS + c.train = d.rxSlot r + 1) with
  | none => d
  | some c0 =>
    if !d.rfReadyRun r then d
    else
      let g := d.rxGroup r c0
      let pass := g.filter fun p => p.2.state == .data
      match pass with
      | [] => d
      | (r1, c1) :: _ =>
        if pass.any fun p => p.2.sig != c1.sig then d.disagree r1 g
        else d.judgeRx r1 c1 g pass (d.rxBytes r1 c1)

/-! ## Decode and context (R18, R62, R109, R185, R188, R480) -/

/-- A member of a frame and the sensor's anchors: update its gains and note the radio. -/
def SensorCtx.takeMember (x : SensorCtx) (m : Nat × RadioId × Nat × Nat × List Cdb) : SensorCtx :=
  match (List.range x.anchors.length).find? fun k => anchorCell (x.anchors.getD k 0) == (m.2.2.1, m.2.2.2.1) with
  | none => x
  | some k => { x with
      gains := mixMember x.allGains k m.2.2.2.2
      radios := (List.range x.anchors.length).map fun j => if j = k then m.2.1 else x.radios.getD j 0 }

/-- The sender's context after a reception whose SIG passed. -/
def Dev.takeContext (d : Dev) (i : Nat) (rx : Rx) : Dev :=
  let d := d.modSensor i fun x => { rx.mem.foldl SensorCtx.takeMember x with level := some rx.level, e := rx.e, cfo := rx.cfo }
  let d := d.recompute i
  let x := d.sensor i
  if rx.lmStale ∧ x.pendMap.isNone ∧ x.confirmed.version ≠ 0 then d.queueLoadmap i x.confirmed else d

/-- A link's gains after a frame, and its map (R209). -/
def Dev.takeLinkContext (d : Dev) (l : Nat) (rx : Rx) : Dev :=
  let m := d.chanSubch rx.chan
  let d := d.modLink l fun k =>
    let g := (List.range (16 * m)).map fun j => k.gains.getD j none
    { k with gains := rx.mem.foldl (fun (g : List (Option Cdb)) p => mixMember g p.1 p.2.2.2.2) g }
  d.recomputeLink l rx.radio rx.chan m

/-- The flow key of an uplink: its sensor index, or SID[19:0] of a JOIN_REQ (Table 10.1). -/
def Rx.flowKey (rx : Rx) : Nat :=
  match rx.sidx with
  | some i => i
  | none => ofBe (fit 8 (mpduPayload rx.mpdu (readHdr rx.mpdu).len)) % 1048576

/-- One reception in the decode and context stage. -/
def Dev.decodeOne (d : Dev) (rx : Rx) : Dev :=
  match rx.link with
  | some l => d.takeLinkContext l rx
  | none =>
    let d := match rx.sidx with | some i => d.takeContext i rx | none => d
    if !rx.accepted then d
    else if d.boot.paused then { d with boot := { d.boot with hold := d.boot.hold ++ [rx] } }
    else d.createAir rx.flowKey (.uplink rx)

/-- The receptions whose verdict fell before the last slot tick are decoded, in the order of their verdicts. -/
def Dev.decodeStage (d : Dev) : Dev :=
  let due := d.decodeQ.filter fun x => decide (1 ≤ x.stage)
  due.foldl Dev.decodeOne { d with decodeQ := d.decodeQ.filter fun x => !due.contains x }

/-- A slot tick moves the receptions on their way through the pipeline by one stage (R18). -/
def Dev.ageRx (d : Dev) : Dev :=
  let next (x : Rx) : Rx := { x with stage := x.stage + 1 }
  { d with decodeQ := d.decodeQ.map next, msh := { d.msh with rxQ := d.msh.rxQ.map next } }

/-! ## The search receiver (R217)

The search receiver places its windows at the SYNC that it acquires, wherever that begins. It does not know the number of the
slot that scrambled the frame, so it takes the one seed of 127 under which the CRC32 passes; and it sends no ACK symbol
(DESIGN CHOICE, log entry 199: the manual describes neither). -/

/-- The cells of the SYNC that the search receiver finds: the subchannels whose evaluation passes. -/
def Dev.searchCells (d : Dev) (r : RadioId) (l chan : Nat) (mode : Fin 3) (half : Samples) (arrival : Int) : List Cell :=
  let x := compensate [(d.radio r).gain] half
  (List.range (modeSubch mode)).filterMap fun s =>
    let v := syncEvalOf mode x 0 s
    if d.syncPass r chan v then
      some { newCell .mesh none (some l) chan s 1 1 s d.tim.slotS with
        state := .acq, e := roundE (arrival + v.ePs - d.extDelayRx r), anchor := arrival, level := v.level }
    else none

/-- One window of a searched frame. -/
def Dev.searchWindow (d : Dev) (r : RadioId) (mode : Fin 3) (arrival : Int) (period : Nat) (w : Samples) : Dev :=
  let o : WindowObs := ⟨period, arrival, 0, false, false, w⟩
  let bin := windowBin mode (compensate [(d.radio r).gain] w)
  let subs := (d.radio r).cells.map (·.subch)
  (subs.foldl (fun d s => d.cellWindow r mode o bin false (windowEnd d.tim.slotS mode o) s) d).runJobs none

/-- The SIG verdicts of a searched frame. -/
def Dev.searchSigs (d : Dev) (r : RadioId) : Dev :=
  ((d.radio r).cells).foldl (fun d c =>
    if sigPasses c.sig && sigAgrees c c.sig then
      let m := d.rxMap r c c.sig
      d.modCell r c fun x => { x with state := .data, map := m.1 }
    else d.modCell r c fun x => { x with state := .hold }) d

/-- The frame whose CRC32 passes under one of the 127 seeds of the scrambler (R50). -/
def searchFrame (bits : List Bool) : Option (List Byte) :=
  (List.range 127).findSome? fun s =>
    let m := dataBytes s bits
    let h := readHdr m
    if 14 ≤ h.len ∧ h.len ≤ m.length ∧ crcPasses m h.len then some (m.take h.len) else none

/-- A frame found in SEARCH with its arrival `e`: a LINK_BEACON that R217 accepts ends the search (R218, R222, R225). -/
def Dev.searchFound (d : Dev) (r : RadioId) (l chan : Nat) (m : List Byte) (e : Int) : Dev :=
  let h := readHdr m
  if h.ftype ≠ tMesh ∨ beAt m 10 1 / 16 ≠ mkLinkBeacon ∨ d.searchAccepts l m = false then d
  else
    let o := d.openMladol l m
    match o.2 with
    | none => o.1.peerViolation 0x24 Cnt.vLinkAuth l r h.addr.toNat
    | some body =>
      let d := (o.1.bump Cnt.linkRxOk).modLink l fun k => { k with lastRxSeq := some h.seq, peerAddr := some h.addr }
      (d.setFld Reg.mshStat_cur_chan chan).beaconAccepted l m body d.tim.slotS e

/-- What the search receiver decodes of a frame: its cells, CE and SIG windows, and the DATA windows of the cells whose SIG
passes. -/
def Dev.searchRun (d : Dev) (r : RadioId) (l chan : Nat) (mode : Fin 3) (arrival : Int) (half : Samples)
    (windows : List Samples) : Dev :=
  let cells := d.searchCells r l chan mode half arrival
  let d := d.modRadio r fun x => { x with cells := cells }
  let d := ((List.range 2).zip windows).foldl (fun d p => d.searchWindow r mode arrival (p.1 + 1) p.2) d
  let d := d.searchSigs r
  (((List.range 12).zip windows).drop 2).foldl (fun d p => d.searchWindow r mode arrival (p.1 + 1) p.2) d

/-- The search receiver acquires a frame on MSH_PARCH[SEARCH_IDX], `arrival` picoseconds after the present tick: the half-window
of its SYNC, and the windows of its periods 1 to 12. -/
def Dev.searchSync (d : Dev) (r : RadioId) (arrival : Int) (half : Samples) (windows : List Samples) : Dev :=
  match d.searchChan r (d.rowCarried r d.tim.slotS), d.parentLink with
  | some chan, some (l, _) =>
    match d.chan chan with
    | none => d
    | some c =>
      if !d.rfReadyRun r || !d.tracks then d
      else
        let d1 := d.searchRun r l chan c.mode arrival half windows
        match (d1.radio r).cells.filter fun x => x.state == .data with
        | [] => d
        | x :: t =>
          let e := roundE (roundDiv ((x :: t).foldl (fun (a : Int) y => a + y.e) 0) ((x :: t).length : Nat))
          match searchFrame (vitFinish (d1.vit.recOf (d1.rxKey r x) x.train).st) with
          | none => (d.bump Cnt.linkCrcFail).traceRx r x 5 false none e
          | some m => (d.traceRx r x 6 false none e).searchFound r l chan m e
  | _, _ => d

end Sys2Proof.Machine
end

