-- ==== Sys2Proof/Machine/Ppl.lean ====
section
/-! DEFINITION. The message pipeline of chapter 08: rulesets, the message key, patterns, load spreading, the default decision,
routing, bridging, encapsulations, and the delivery of each copy. -/

namespace Sys2Proof.Machine

/-! ## Messages -/

/-- What PPL takes a message to be: its source class and index (Table 8.1), the version it holds, its arrival stamp, who
waits when a copy finds no room, and its bytes: a frame, an encapsulation with its payload, or a flood. -/
inductive MsgForm where
  | frame | bluane | flood
  deriving DecidableEq, Repr

structure Msg where
  cls   : Nat
  idx   : Nat
  ver   : Nat
  stamp : Int
  src   : FrameSrc
  form  : MsgForm
  bytes : List Byte
  sidx  : Option Nat
  deriving DecidableEq, Repr

/-- The parts of the message key that a source fills (Table 8.3). -/
structure MsgKey where
  cls   : Nat
  idx   : Nat
  vidO  : Nat
  vidI  : Nat
  tags  : Nat
  dmac  : Nat
  l3    : Nat
  etype : Nat
  proto : Nat
  tc    : Nat
  sport : Nat
  dport : Nat
  dcls  : Nat
  pcls  : Nat
  group : Nat
  frag  : Bool
  xdeep : Bool
  deriving DecidableEq, Repr

def MsgKey.bits (k : MsgKey) : BitVec 128 :=
  BitVec.ofNat 128 (k.cls % 16 * 2 ^ 124 + k.idx % 16 * 2 ^ 120 + k.vidO % 4096 * 2 ^ 108 + k.vidI % 4096 * 2 ^ 96 +
    k.tags % 4 * 2 ^ 94 + k.dmac % 4 * 2 ^ 92 + k.l3 % 16 * 2 ^ 88 + k.etype % 65536 * 2 ^ 72 + k.proto % 256 * 2 ^ 64 +
    k.tc % 256 * 2 ^ 56 + k.sport % 65536 * 2 ^ 40 + k.dport % 65536 * 2 ^ 24 + k.dcls % 4 * 2 ^ 22 +
    k.pcls % 64 * 2 ^ 16 + k.group % 256 * 2 ^ 8 + k.frag.toNat * 128 + k.xdeep.toNat * 64)

/-! ## Encapsulation header (Table 8.9) -/

structure Encap where
  ver   : Nat
  kind  : Nat
  flags : Byte
  plen  : Nat
  gw    : Nat
  addr  : BitVec 24
  seq   : Byte
  sidx  : Nat
  aport : Byte
  radio : Nat
  memb  : Nat
  chan  : Nat
  subch : Nat
  mcs   : Nat
  lmv   : Nat
  level : Int
  e     : Int
  tag   : BitVec 16
  sec   : Nat
  ns    : Nat
  deriving DecidableEq, Repr

def Encap.bytes (h : Encap) : List Byte :=
  [byte (h.ver * 16 + h.kind), h.flags] ++ be 2 h.plen ++ be 4 h.gw ++ be 3 h.addr.toNat ++ [h.seq] ++
    be 4 (h.sidx % 1048576 * 4096 + h.aport.toNat * 16 + h.radio % 4 * 4 + h.memb % 4) ++
    be 2 (h.chan % 512 * 128 + h.subch % 128) ++ [byte (h.mcs * 16 + h.lmv)] ++ signedLe 1 h.level ++
    be 2 (h.e % 65536).toNat ++ be 2 h.tag.toNat ++ be 6 h.sec ++ be 4 h.ns ++ [0, 0]

def readEncap (b : List Byte) : Encap :=
  { ver := beAt b 0 1 / 16, kind := beAt b 0 1 % 16, flags := byte (beAt b 1 1), plen := beAt b 2 2, gw := beAt b 4 4,
    addr := BitVec.ofNat 24 (beAt b 8 3), seq := byte (beAt b 11 1), sidx := beAt b 12 4 / 4096,
    aport := byte (beAt b 12 4 / 16), radio := beAt b 15 1 / 4 % 4, memb := beAt b 15 1 % 4, chan := beAt b 16 2 / 128,
    subch := beAt b 16 2 % 128, mcs := beAt b 18 1 / 16, lmv := beAt b 18 1 % 16, level := toSigned 8 (beAt b 19 1),
    e := toSigned 16 (beAt b 20 2), tag := BitVec.ofNat 16 (beAt b 22 2), sec := beAt b 24 6, ns := beAt b 30 4 }

def ekUplink : Nat := 1
def ekDownlink : Nat := 2
def ekJoin : Nat := 3
def ekResult : Nat := 4

/-- Is an encapsulation an uplink or JOIN_REQ, which UL_ENCAP counts? -/
def isUplink (b : List Byte) : Bool := beAt b 0 1 % 16 == ekUplink || beAt b 0 1 % 16 == ekJoin

/-- The header of a downlink of the device (DOWNLINK, DL_RESULT): the fields from RADIO to NS_TAI are 0, but for CHAN of a
broadcast. -/
def Dev.downEncap (d : Dev) (kind : Nat) (x : Downlink) (plen : Nat) : List Byte :=
  Encap.bytes
    { ver := 1, kind := kind, flags := byte x.sec.toNat, plen := plen, gw := d.gwId.toNat, addr := x.addr, seq := x.seq,
      sidx := x.sidx, aport := x.aport, radio := 0, memb := 0,
      chan := if kind = ekDownlink ∧ x.addr = bcastAddr then x.chan else 0,
      subch := 0, mcs := 0, lmv := 0, level := 0, e := 0, tag := x.tag, sec := 0, ns := 0 }

/-! ## Rulesets (R256 to R258) -/

def emptyRuleset : Ruleset := ⟨[], [], [], List.replicate 40 0, []⟩
def emptyPattern : Pattern := ⟨0, List.replicate 16 0, List.replicate 16 0⟩
def Dev.curVer (d : Dev) : Nat := d.fld Reg.pplVerstat_cur
def Dev.ruleset (d : Dev) (v : Nat) : Ruleset := Sparse.get emptyRuleset d.fwd.versions v

/-- Does a pattern lie at the head of these bytes? -/
def patHere (p : Pattern) (b : List Byte) : Bool :=
  decide (p.len ≤ b.length) && (List.range p.len).all fun i =>
    (b.getD i 0 &&& p.mask.getD i 0) == (p.value.getD i 0 &&& p.mask.getD i 0)

/-- Does a pattern hit somewhere in a payload (R256)? -/
def patSearch (p : Pattern) : List Byte → Bool
  | [] => false
  | a :: t => patHere p (a :: t) || patSearch p t
def Ruleset.hit (r : Ruleset) (i : Nat) (payload : List Byte) : Bool :=
  let p := Sparse.get emptyPattern r.patterns i
  decide (0 < p.len) && patSearch p (payload.take 256)

/-- Does a rule match (R258)? -/
def Ruleset.matchRule (r : Ruleset) (x : Rule) (k : BitVec 128) (payload : List Byte) : Bool :=
  (k &&& x.mask) == (x.key &&& x.mask) &&
    (!x.cond.getLsbD 7 || (r.hit (x.cond.toNat % 64) payload != x.cond.getLsbD 6))

/-- The first matching rule. -/
def Ruleset.first (r : Ruleset) (k : BitVec 128) (payload : List Byte) : Option (Nat × BitVec 64) :=
  r.rules.findSome? fun p => match p.2 with
    | some x => if r.matchRule x k payload then some (p.1, x.action) else none
    | none => none

/-- Fields of a rule action (Table 8.4). -/
def actVerdict (a : BitVec 64) : Nat := bitsAt a.toNat 61 3
def actIndex (a : BitVec 64) : Nat := bitsAt a.toNat 55 6
def actTcEn (a : BitVec 64) : Bool := a.getLsbD 54
def actTc (a : BitVec 64) : Nat := bitsAt a.toNat 51 3
def actNoLearn (a : BitVec 64) : Bool := a.getLsbD 50
def actMirror (a : BitVec 64) : Bool := a.getLsbD 49
def actMirrorRing (a : BitVec 64) : Nat := bitsAt a.toNat 45 4
def actCntEn (a : BitVec 64) : Bool := a.getLsbD 44
def actCounter (a : BitVec 64) : Nat := bitsAt a.toNat 37 7

/-- Classify a message: rule number (0xFFFF for none) and action; its rule counter counts. -/
def Dev.classify (d : Dev) (ver : Nat) (k : MsgKey) (payload : List Byte) : Dev × Nat × BitVec 64 :=
  match (d.ruleset ver).first k.bits payload with
  | none => (d, 0xFFFF, 0)
  | some (n, a) => (if actCntEn a then d.bump (Cnt.rule (actCounter a)) else d, n, a)

/-! ## Load spreading (R263, R264) -/

/-- The Toeplitz hash with a cyclic key of 320 bits; `key` is rotated one bit per input bit. -/
def toeplitz : Nat → Nat → List Bool → Nat
  | _, h, [] => h
  | key, h, b :: t =>
    toeplitz ((key * 2) % 2 ^ 320 + key / 2 ^ 319) (if b then h ^^^ (key / 2 ^ 288) else h) t

/-- The fields that a message offers to the hash, in the order of R263. -/
structure HashIn where
  sip   : List Byte
  dip   : List Byte
  sport : List Byte
  dport : List Byte
  proto : List Byte
  vid   : List Byte
  sidx  : List Byte
  deriving DecidableEq, Repr

/-- A target: RING, PORT and queue, SERVER, LINK (Table 8.4, R264). -/
inductive Target where
  | ring (n : Nat) | port (p q : Nat) | server (n : Nat) | link (l : Nat)
  deriving DecidableEq, Repr

def Dev.ctrlRing (d : Dev) : Nat := d.fld Reg.pplCfg_ctrl_ring

/-- An indirection entry as a target. -/
def Dev.indirTarget (d : Dev) (e : Half) : Target :=
  let k := e.toNat / 8192
  let i := e.toNat % 8192
  if k = 0 ∧ i ≤ 15 then .ring i
  else if k = 1 ∧ i < 24 ∧ (i / 8 < 2 ∨ d.pairOn) then .port (i / 8) (i % 8)
  else if k = 2 ∧ i ≤ 63 then .server i
  else if k = 3 ∧ i ≤ 7 then .link i
  else .ring d.ctrlRing

/-- The target of a hash profile. -/
def Dev.hashTarget (d : Dev) (ver prof : Nat) (h : HashIn) : Target :=
  let r := d.ruleset ver
  let p := Sparse.get 0 r.profiles prof
  let use (i : Nat) (b : List Byte) : List Byte := if p.getLsbD i then b else []
  let inp := use 0 h.sip ++ use 1 h.dip ++ use 2 h.sport ++ use 3 h.dport ++ use 4 h.proto ++ use 5 h.vid ++ use 6 h.sidx
  d.indirTarget (Sparse.get 0 r.indir (toeplitz (ofBe r.hashKey) 0 (bytesBits inp) % 512))

/-- The target that a verdict names; none for FORWARD and DROP. An INDEX out of range, or port 2 without a pair, goes to
CTRL_RING. -/
def Dev.verdictTarget (d : Dev) (ver : Nat) (a : BitVec 64) (h : HashIn) : Option Target :=
  let i := actIndex a
  match actVerdict a with
  | 2 => some (if i ≤ 15 then .ring i else .ring d.ctrlRing)
  | 3 => some (if i < 2 ∨ (i = 2 ∧ d.pairOn = true) then .port i 0 else .ring d.ctrlRing)
  | 4 => some (if i ≤ 3 then d.hashTarget ver i h else .ring d.ctrlRing)
  | 5 => some (.server i)
  | 6 => some (if i ≤ 7 then .link i else .ring d.ctrlRing)
  | _ => none

/-- The target of a sensor entry's UL_KIND or of PPL_ULDEF; PARENT is the parent link. -/
def Dev.kindTarget (d : Dev) (ver kind i : Nat) (h : HashIn) : Target :=
  if kind = 2 then .server i
  else if kind = 3 then (if i ≤ 3 then d.hashTarget ver i h else .ring d.ctrlRing)
  else if kind = 4 then (match d.parentLink with | some (l, _) => .link l | none => .ring d.ctrlRing)
  else if i ≤ 15 then .ring i else .ring d.ctrlRing
def Dev.uldef (d : Dev) (ver : Nat) (h : HashIn) : Target :=
  let k := d.fld Reg.pplUldef_kind
  d.kindTarget ver (if 2 ≤ k ∧ k ≤ 4 then k else 1) (d.fld Reg.pplUldef_index) h
def Dev.sensorTarget (d : Dev) (ver : Nat) (e : Option SensorEntry) (h : HashIn) : Target :=
  match e with
  | none => d.uldef ver h
  | some x => if x.ulKind = 0 ∨ 5 ≤ x.ulKind.toNat then d.uldef ver h
    else d.kindTarget ver x.ulKind.toNat x.ulIndex.toNat h

/-! ## Copies -/

/-- A message as it goes to a host ring (Table 13.9). -/
def Msg.toRing (m : Msg) (reason rule : Nat) : RxMsg :=
  { kind := match m.form with | .frame => 0 | .bluane => 1 | .flood => 2
    flags := match m.form with | .bluane => byte (beAt m.bytes 1 1) | _ => 0
    src := byte (m.cls * 16 + m.idx), reason := reason, rule := rule,
    sec := (m.stamp / 1000000000 % 4294967296).toNat, ns := (m.stamp % 1000000000).toNat, ver := m.ver, bytes := m.bytes }

/-- The member that a frame's flow selects (R300): bit 0 of the CRC32 over the MAC addresses, VID, IP addresses and ports. -/
def framePick (b : List Byte) : PortId :=
  let p := parseFrame b
  let ports := match p.l4 with | some 17 => be 2 p.sport ++ be 2 p.dport | some 6 => be 2 p.sport ++ be 2 p.dport | _ => []
  BitVec.ofNat 1 (crc32 (be 6 p.smac ++ be 6 p.dmac ++ be 2 p.vidO ++ p.src ++ p.dst ++ ports)) |>.toFin

/-- A frame for an egress queue. -/
def Msg.egress (m : Msg) (b : List Byte) (bounded : Bool) : EgFrame :=
  ⟨b, m.src, m.ver, framePick b, bounded, .shared, none, none, none, false, false, false, false⟩

/-- A copy for a ring that terminates there: one with a bad L3 header is dropped (R255). -/
def Dev.ringCopy (d : Dev) (m : Msg) (n reason rule : Nat) : Dev × List Deliver :=
  if m.form = .frame ∧ !l3Good m.bytes (parseFrame m.bytes) then (d.bump Cnt.dropL3Err, [])
  else (d, [.ring n (m.toRing reason rule)])

/-! ## Routing (R266) -/

inductive RouteAns where
  | ok (e : Ip6Entry) | nhMiss | noRoute
  deriving DecidableEq, Repr

/-- The exact entry for a destination; `first` is the destination's own lookup. A prefix entry that is DIRECT looks the
destination up again, any other its next hop. -/
def Dev.routeFrom (d : Dev) (dst : List Byte) (first : Option Ip6Entry) (pfx : Option PfxEntry) : Dev × RouteAns :=
  match first, pfx with
  | some e, _ => (d, .ok e)
  | none, none => (d.bump Cnt.noRoute, .noRoute)
  | none, some p =>
    let o := d.ip6Lookup (if p.direct then BitVec.ofNat 128 (ofBe dst) else p.nextHop)
    match o.2 with
    | some (_, e) => (o.1, .ok e)
    | none => (o.1.bump Cnt.nhMiss, .nhMiss)

/-- The lookups of an IPv6 destination: exact and prefix. -/
def Dev.lookups (d : Dev) (dst : List Byte) : Dev × Option Ip6Entry × Option PfxEntry :=
  let a := BitVec.ofNat 128 (ofBe dst)
  let x := d.ip6Lookup a
  let p := x.1.pfxLookup a
  (p.1, x.2.map (·.2), p.2)

/-- The Ethernet header that routing writes: the entry's NEXT_MAC and VID, and PPL_MAC. A tag is written for a VID other
than 0. -/
def Dev.routedHeader (d : Dev) (e : Ip6Entry) : List Byte :=
  be 6 e.nextMac.toNat ++ d.ownMac ++ (if e.vid = 0 then [] else [0x81, 0x00] ++ be 2 e.vid.toNat)

/-- A routed frame: MAC addresses, outer VID and hop limit rewritten. -/
def Dev.rewrite (d : Dev) (b : List Byte) (p : Parsed) (e : Ip6Entry) : List Byte :=
  let b := patch b (p.l3off + 7) [byte (p.hops - 1)]
  if p.tags = 0 then d.routedHeader e ++ b.drop 12
  else be 6 e.nextMac.toNat ++ d.ownMac ++ slice b 12 2 ++ be 2 (beAt b 14 2 / 4096 * 4096 + e.vid.toNat) ++ b.drop 16

/-! ## Datagrams of the device (R268) -/

/-- The IPv6/UDP packet of an encapsulation. -/
def Dev.datagram (d : Dev) (dst : List Byte) (port : Nat) (body : List Byte) : List Byte :=
  let n := 8 + body.length
  let hops := orElse0 (d.fld Reg.pplBue_hops) 1
  let udp := be 2 (d.fld Reg.pplBue_port) ++ be 2 port ++ be 2 n
  let sum := udp6Sum d.ownIp dst (udp ++ [0, 0] ++ body)
  [0x60, 0, 0, 0] ++ be 2 n ++ [17, byte hops] ++ d.ownIp ++ dst ++ udp ++ be 2 sum ++ body

/-- The egress queue of an encapsulation. -/
def Dev.encapQueue (d : Dev) (a : BitVec 64) (body : List Byte) : Nat :=
  if actTcEn a then actTc a else if (beAt body 1 1).testBit 6 then 7 else d.fld Reg.pplBue_queue

/-- Send an encapsulation as a datagram to an address and port. -/
def Dev.sendDatagram (d : Dev) (m : Msg) (a : BitVec 64) (rule : Nat) (dst : List Byte) (port : Nat) : Dev × List Deliver :=
  let l := d.lookups dst
  let r := l.1.routeFrom dst l.2.1 l.2.2
  let d := r.1
  match r.2 with
  | .nhMiss => (d, [.ring d.ctrlRing (m.toRing 2 rule)])
  | .noRoute => (d, [.ring d.ctrlRing (m.toRing 3 rule)])
  | .ok e =>
    let b := d.routedHeader e ++ [0x86, 0xDD] ++ d.datagram dst port m.bytes
    if e.toRing then (d, [.ring e.ring.toNat { m.toRing 0 rule with kind := 0, flags := 0, bytes := b }])
    else if 2 ≤ e.port.toNat ∧ d.pairOn = false then (d, [.ring d.ctrlRing (m.toRing 0 rule)])
    else
      let pick : PortId := (BitVec.ofNat 1 (crc32 (be 4 (beAt m.bytes 12 4 / 4096)))).toFin
      let f := { m.egress b true with pick := pick, encap := isUplink m.bytes }
      (d.bump Cnt.routed, [.port e.port.toNat (d.encapQueue a m.bytes) f])

/-! ## Bluane messages and floods -/

/-- Carry out a target on a Bluane message or a flood. What has no form for a target goes to CTRL_RING. -/
def Dev.bluaneTo (d : Dev) (m : Msg) (a : BitVec 64) (rule : Nat) (t : Target) : Dev × List Deliver :=
  let ctrl : List Deliver := [.ring d.ctrlRing (m.toRing 0 rule)]
  match t with
  | .ring n => (d, [.ring n (m.toRing 0 rule)])
  | .port _ _ => (d, ctrl)
  | .server n =>
    if m.form ≠ .bluane then (d, ctrl)
    else
      let o := d.serverLookup n
      match o.2 with
      | none => (o.1, [.ring d.ctrlRing (m.toRing 5 rule)])
      | some s => o.1.sendDatagram m a rule (be 16 s.addr.toNat) s.port.toNat
  | .link l =>
    if m.form = .bluane ∧ (d.links.any fun x => x.1 == l) then (d, [.link l m.bytes]) else (d, ctrl)

/-- The hash fields of a Bluane message: only its sensor index. -/
def bluaneHash (sidx : Option Nat) : HashIn :=
  ⟨[], [], [], [], [], [], match sidx with | some i => be 4 (i % 1048576) | none => []⟩

/-- The key of a Bluane message or flood without an Ethernet header. -/
def bluaneKey (m : Msg) (group : Nat) : MsgKey :=
  let h := readEncap m.bytes
  let bl := m.form = .bluane
  { cls := m.cls, idx := m.idx, vidO := 0, vidI := 0, tags := 0, dmac := 0,
    l3 := if m.cls = 2 ∨ m.cls = 3 then 4 else 0, etype := 0, proto := 0,
    tc := if bl ∧ h.flags.getLsbD 6 then 128 else 0, sport := if bl then h.aport.toNat else 0, dport := 0, dcls := 3, pcls := 0,
    group := group, frag := false, xdeep := false }

/-- A mirror copy (Table 8.4). -/
def mirrorOf (m : Msg) (a : BitVec 64) (rule : Nat) : List Deliver :=
  if actMirror a then [.ring (actMirrorRing a) (m.toRing 4 rule)] else []

/-! ## Terminating an encapsulation (Table 8.10) -/

/-- The downlink that a DOWNLINK encapsulation or descriptor asks for; its frame type is a value the manual does not give. -/
def mkDownlink (origin : DlOrigin) (h : Encap) (payload head : List Byte) (sidx keyidx ver : Nat) : Downlink :=
  let ty := Config.dlType head
  { origin := origin, ftype := if ty = 0 then tDataDown else if ty = 1 then tGrant else tJoinRsp, addr := h.addr,
    sidx := sidx, aport := h.aport, sec := h.flags.getLsbD 0, keyidx := keyidx, chan := h.chan, tag := h.tag,
    payload := payload, seq := h.seq, mpdu := [], repeats := 0, noFit := 0, sent := false, enterS := 0, enterSf := 0,
    ver := some ver }

/-- Table 8.10 counts encapsulations; a descriptor of a TX ring is none. -/
def Dev.bumpEncap (d : Dev) (o : DlOrigin) (counter : Nat) : Dev :=
  match o with | .ring _ _ _ => d | _ => d.bump counter

/-- A downlink that is refused at once: DL_RESULT, or the descriptor's completion, with BAD_PARAM. -/
def Dev.refuseDl (d : Dev) (x : Downlink) : Dev × List Deliver :=
  match x.origin with
  | .ring r i e => (d.txDone r i e stBadParam 0, [])
  | _ => (d.dlFinish x stBadParam, [])

/-- A DOWNLINK whose header is in order. `entry` is the sensor table's answer. A JOIN_RSP is addressed by its SID (R195): one of
a TX ring needs no entry, while Table 8.10 asks one of an encapsulation before it may be sent locally. -/
def Dev.takeDownlink (d : Dev) (m : Msg) (x : Downlink) (entry : Option SensorEntry) : Dev × List Deliver :=
  let max := if x.sec then 2030 else 2038
  if max < x.payload.length then (d.bumpEncap x.origin Cnt.dropBueErr).refuseDl x
  else if x.addr = bcastAddr then
    if x.sec || !d.chanValid x.chan then (d.bumpEncap x.origin Cnt.dropBueErr).refuseDl x
    else (d.bumpEncap x.origin Cnt.dlDecap, [.item 0xFFFFF (.downlink { x with sidx := 0xFFFFF, ftype := tDataDown })])
  else
    let joinRsp : List Deliver := [.item (beAt x.payload 0 8 % 1048576) (.downlink { x with sidx := 0 })]
    match entry with
    | none => match x.ftype == tJoinRsp, x.origin with
      | true, .ring _ _ _ => (d, joinRsp)
      | _, _ => (d.bump Cnt.sensorMiss).refuseDl x
    | some e =>
      if e.dlLink then (d.bumpEncap x.origin Cnt.dlDecap, [.link e.link.toNat m.bytes])
      else if x.ftype = tJoinRsp then (d.bumpEncap x.origin Cnt.dlDecap, joinRsp)
      else (d.bumpEncap x.origin Cnt.dlDecap, [.item e.sidx (.downlink { x with sidx := e.sidx })])

/-- A received encapsulation that PPL terminates (Table 8.10): from Ethernet only DOWNLINK is allowed. -/
def Dev.terminate (d : Dev) (m : Msg) (plenGood : Bool) (origin : DlOrigin) (entry : Option SensorEntry) :
    Dev × List Deliver :=
  let h := readEncap m.bytes
  if h.ver ≠ 1 ∨ h.kind ≠ ekDownlink ∨ !plenGood then (d.bump Cnt.dropBueErr, [])
  else
    d.takeDownlink m (mkDownlink origin h (m.bytes.drop 36) (m.bytes.take 36) 0 0 m.ver) entry

/-! ## Messages from the air, from links, and from the device (R265) -/

/-- Enter PPL: the message is counted and takes the current version (R252). -/
def Dev.pplEnter (d : Dev) : Dev × Nat := (d.bump Cnt.pplIn, d.curVer)

/-- What classification makes of a message: its rule and action, the mirror copy, and the copies that the verdict makes; none
where the default decision applies. -/
structure Ruled where
  rule   : Nat
  action : BitVec 64
  mirror : List Deliver
  copies : Option (List Deliver)

/-- Classify a message without an Ethernet header; `target` carries a verdict's target out. -/
def Dev.pplRule (d : Dev) (m : Msg) (group : Nat) (payload : List Byte)
    (target : Dev → BitVec 64 → Nat → Target → Dev × List Deliver) : Dev × Ruled :=
  let c := d.classify m.ver (bluaneKey m group) payload
  let d := c.1
  let rule := c.2.1
  let a := c.2.2
  let mirror := mirrorOf m a rule
  if actVerdict a = 1 then (d.bump Cnt.dropRule, ⟨rule, a, mirror, some []⟩)
  else match d.verdictTarget m.ver a (bluaneHash m.sidx) with
    | some t => let o := target d a rule t; (o.1, ⟨rule, a, mirror, some o.2⟩)
    | none => (d, ⟨rule, a, mirror, none⟩)

/-- Classify a Bluane message or flood; `k` makes the copies where the verdict is FORWARD. -/
def Dev.pplBluane (d : Dev) (m : Msg) (group : Nat) (payload : List Byte) (k : Dev → BitVec 64 → Nat → Dev × List Deliver) :
    Dev × List Deliver :=
  let c := d.pplRule m group payload fun d a rule t => d.bluaneTo m a rule t
  match c.2.copies with
  | some l => (c.1, c.2.mirror ++ l)
  | none => let o := k c.1 c.2.action c.2.rule; (o.1, c.2.mirror ++ o.2)

/-- GROUP of a sensor entry. -/
def groupOf (e : Option SensorEntry) : Nat := match e with | some x => x.group.toNat | none => 0

/-- An uplink or JOIN_REQ that a worker hands over (Table 8.5); with `uldef` its sender has no usable entry, and PPL_ULDEF
routes it (R173). -/
def Dev.pplAir (d : Dev) (m : Msg) (uldef : Bool) : Dev × List Deliver :=
  let o := d.pplEnter
  let m := { m with ver := o.2 }
  let h := readEncap m.bytes
  let e := if h.kind = ekJoin ∨ uldef then (o.1, none) else o.1.sensorLookup h.addr
  e.1.pplBluane m (groupOf e.2) (m.bytes.drop 36) fun d a rule =>
    if h.kind = ekJoin then d.bluaneTo m a rule (.ring d.ctrlRing)
    else d.bluaneTo m a rule (d.sensorTarget m.ver e.2 (bluaneHash m.sidx))

/-- A DATA body of a Mladol link (Table 8.5, Table 8.10): its payload for the patterns is the whole body (R256). -/
def Dev.pplMesh (d : Dev) (m : Msg) : Dev × List Deliver :=
  let o := d.pplEnter
  let m := { m with ver := o.2 }
  let h := readEncap m.bytes
  let e := if h.kind = ekJoin ∨ h.addr = bcastAddr then (o.1, none) else o.1.sensorLookup h.addr
  let good := decide (36 ≤ m.bytes.length) && h.plen == m.bytes.length - 36
  e.1.pplBluane m (groupOf e.2) m.bytes fun d a rule =>
    if h.kind = ekDownlink then (d.bump Cnt.terminated).terminate m good (.link) e.2
    else if h.ver ≠ 1 ∨ h.kind = 0 ∨ 4 < h.kind ∨ !good then (d.bump Cnt.dropBueErr, [])
    else d.bluaneTo m a rule (d.uldef m.ver (bluaneHash m.sidx))

/-- A flood body for the host. -/
def Dev.pplFlood (d : Dev) (m : Msg) : Dev × List Deliver :=
  let o := d.pplEnter
  let m := { m with ver := o.2 }
  o.1.pplBluane m 0 (m.bytes.drop 8) fun d a rule => d.bluaneTo m a rule (.ring d.ctrlRing)

/-- The body of a FLOOD_FW: its copies, and whether the default decision hands it to the update engine. -/
def Dev.pplFloodFw (d : Dev) (m : Msg) : Dev × List Deliver × Bool :=
  let o := d.pplEnter
  let m := { m with ver := o.2 }
  let c := o.1.pplRule m 0 (m.bytes.drop 8) fun d a rule t => d.bluaneTo m a rule t
  (c.1, c.2.mirror ++ c.2.copies.getD [], c.2.copies.isNone)

/-- A DL_RESULT of the device (R270). -/
def Dev.pplResult (d : Dev) (m : Msg) (origin : DlOrigin) : Dev × List Deliver :=
  let o := d.pplEnter
  let m := { m with ver := o.2 }
  o.1.pplBluane m 0 (m.bytes.drop 36) fun d a rule =>
    match origin with
    | .eth src port => d.sendDatagram m a rule (be 16 src.toNat) port.toNat
    | _ => d.bluaneTo m a rule (d.uldef m.ver (bluaneHash m.sidx))

/-- A downlink descriptor of a TX ring, as its encapsulation. -/
def Dev.pplDownlink (d : Dev) (m : Msg) (x : Downlink) : Dev × List Deliver :=
  let o := d.pplEnter
  let m := { m with ver := o.2 }
  let e := if x.addr = bcastAddr ∨ x.ftype = tJoinRsp then (o.1, none) else o.1.sensorLookup x.addr
  e.1.pplBluane m 0 x.payload fun d _ _ => d.takeDownlink m { x with ver := some m.ver } e.2

/-! ## Ethernet frames (R265 to R267, R274) -/

/-- The port index of an ingress port: 2 with the pair formed. -/
def Dev.logical (d : Dev) (p : PortId) : Nat := if d.pairOn then 2 else p.val

/-- DMAC class of Table 8.3. -/
def Dev.dmacClass (d : Dev) (mac : Nat) : Nat :=
  if mac = ofBe d.ownMac then 0 else if mac = 0xFFFFFFFFFFFF then 1 else if (mac / 2 ^ 40) % 2 = 1 then 2 else 3

/-- The hash fields of a frame (R263). -/
def frameHash (p : Parsed) : HashIn :=
  let ip := p.l3 = 1 ∨ p.l3 = 2
  let ports := p.l4 = some 17 ∨ p.l4 = some 6
  { sip := if ip then p.src else [], dip := if ip then p.dst else [], sport := if ports then be 2 p.sport else [],
    dport := if ports then be 2 p.dport else [], proto := if ip then [byte p.proto] else [],
    vid := if 0 < p.tags then be 2 p.vidO else [], sidx := [] }

/-- Does a frame carry an encapsulation: IPv6 to PPL_OWNIP, UDP to PPL_BUE.PORT (Table 8.2)? -/
def Dev.hasEncap (d : Dev) (p : Parsed) : Bool :=
  p.l3 == 2 && p.dst == d.ownIp && p.l4 == some 17 && p.dport == d.fld Reg.pplBue_port

/-- Is a frame an encapsulation that the device terminates: one to its own MAC? -/
def Dev.isEncap (d : Dev) (p : Parsed) : Bool := d.dmacClass p.dmac == 0 && d.hasEncap p

/-- The payload that the patterns search: what follows the last header recognised (R254). -/
def Dev.payloadOf (d : Dev) (b : List Byte) (p : Parsed) : List Byte :=
  b.drop (if d.hasEncap p ∧ p.l4off + 8 + 36 ≤ b.length then p.l4off + 8 + 36 else p.pay)

/-- The key of a frame. -/
def Dev.frameKey (d : Dev) (m : Msg) (p : Parsed) (dcls pcls : Nat) (enc : Option (Encap × Nat)) : MsgKey :=
  let k : MsgKey :=
    { cls := m.cls, idx := m.idx, vidO := p.vidO, vidI := p.vidI, tags := p.tags, dmac := d.dmacClass p.dmac, l3 := p.l3,
      etype := p.etype, proto := p.proto, tc := p.tc, sport := p.sport, dport := p.dport, dcls := dcls, pcls := pcls,
      group := 0, frag := p.frag, xdeep := p.xdeep }
  match enc with
  | none => k
  | some (h, group) => { k with l3 := 4, etype := 0, tc := if h.flags.getLsbD 6 then 128 else 0, sport := h.aport.toNat,
                                dport := 0, group := group }

/-- The egress frame of a copy that keeps the frame as it is. A PTP event message that the transparent clock forwards takes
its residence time. -/
def Dev.bridgeFrame (d : Dev) (m : Msg) (p : Parsed) (bounded : Bool) : EgFrame :=
  let f := m.egress m.bytes bounded
  match p.ptpOff with
  | none => f
  | some o =>
    let event := decide (beAt m.bytes o 1 % 16 < 4)
    match m.src with
    | .eth _ => if event && d.cfgBit Reg.timPtpcfg_tc_en then { f with resid := some m.stamp } else f
    | _ => f

/-- The queue of a copy without a rule's TC: Q0. -/
def frameQueue (a : BitVec 64) : Nat := if actTcEn a then actTc a else 0

/-- The ports other than the ingress port. A HOST frame with LOOKUP has no ingress port: it leaves on both, or on the pair. -/
def Dev.others (d : Dev) (inPort : Option PortId) : List Nat :=
  match inPort with
  | none => if d.pairOn then [2] else [0, 1]
  | some p => if d.pairOn then [] else [(otherPort p).val]

/-- Copies of a frame on ports. -/
def Dev.toPorts (d : Dev) (m : Msg) (p : Parsed) (a : BitVec 64) (bounded : Bool) (l : List Nat) : List Deliver :=
  l.map fun x => .port x (frameQueue a) (d.bridgeFrame m p bounded)

/-- Bridge a frame (R267). -/
def Dev.bridge (d : Dev) (m : Msg) (p : Parsed) (a : BitVec 64) (rule : Nat) (inPort : Option PortId) :
    Dev × List Deliver :=
  let bounded := m.cls == 1
  let o := d.macLookup (BitVec.ofNat 48 p.dmac) (BitVec.ofNat 12 p.vidO)
  let d := o.1
  match o.2 with
  | none =>
    let l := d.others inPort
    if l = [] then (d.bump Cnt.dropSamePort, []) else (d.bump Cnt.bridged, d.toPorts m p a bounded l)
  | some (_, e) =>
    if e.port = 3 then d.ringCopy m d.ctrlRing 0 rule
    else
      let x := if d.pairOn then 2 else e.port.toNat
      if x = 2 ∧ d.pairOn = false then d.ringCopy m d.ctrlRing 0 rule
      else if inPort.map d.logical = some x then (d.bump Cnt.dropSamePort, [])
      else (d.bump Cnt.bridged, d.toPorts m p a bounded [x])

/-- Route a frame (R266). -/
def Dev.route (d : Dev) (m : Msg) (p : Parsed) (a : BitVec 64) (rule : Nat) (exact : Option Ip6Entry)
    (pfx : Option PfxEntry) : Dev × List Deliver :=
  if !l3Good m.bytes p then (d.bump Cnt.dropL3Err, [])
  else if p.hops ≤ 1 then (d.bump Cnt.hoplimit, [.ring d.ctrlRing (m.toRing 1 rule)])
  else
    let r := d.routeFrom p.dst exact pfx
    let d := r.1
    match r.2 with
    | .nhMiss => (d, [.ring d.ctrlRing (m.toRing 2 rule)])
    | .noRoute => (d, [.ring d.ctrlRing (m.toRing 3 rule)])
    | .ok e =>
      if e.toRing then (d, [.ring e.ring.toNat (m.toRing 0 rule)])
      else
        let x := if d.pairOn then 2 else e.port.toNat
        if x = 2 ∧ d.pairOn = false then (d, [.ring d.ctrlRing (m.toRing 0 rule)])
        else (d.bump Cnt.routed, [.port x (frameQueue a) (m.egress (d.rewrite m.bytes p e) true)])

/-- The encapsulation that a frame carries: header and payload of its UDP datagram. -/
def encapBody (b : List Byte) (p : Parsed) : List Byte := slice b (p.l4off + 8) (beAt b (p.l4off + 4) 2 - 8)

/-- The default decision for a frame (Table 8.5). A broadcast or multicast frame of the formed pair that does not go to the host
has the pair as its only port, and R267 drops it there (DEDUCED, log entry 209). -/
def Dev.frameDefault (d : Dev) (m : Msg) (p : Parsed) (a : BitVec 64) (rule : Nat) (inPort : Option PortId)
    (exact : Option Ip6Entry) (pfx : Option PfxEntry) (entry : Option SensorEntry) : Dev × List Deliver :=
  let own := d.dmacClass p.dmac
  match (if own = 0 ∨ own = 2 then p.ptpOff else none) with
  | some o =>
    if !l3Good m.bytes p then (d.bump Cnt.dropL3Err, [])
    else
      let tc : List Deliver :=
        if own = 2 && d.cfgBit Reg.timPtpcfg_tc_en then d.toPorts m p a (m.cls == 1) (d.others inPort) else []
      (d, .tim (inPort.getD 0) (m.bytes.drop o) m.stamp p.trans :: tc)
  | none =>
    if d.isEncap p then
      if !l3Good m.bytes p then (d.bump Cnt.dropL3Err, [])
      else
        let b := encapBody m.bytes p
        let good := decide (36 ≤ b.length) && (readEncap b).plen == b.length - 36
        (d.bump Cnt.terminated).terminate
          { m with form := .bluane, bytes := b, sidx := entry.map (·.sidx) } good
          (.eth (BitVec.ofNat 128 (ofBe p.src)) (BitVec.ofNat 16 p.sport)) entry
    else if own = 0 then
      if p.l3 = 2 ∧ p.dst ≠ d.ownIp ∧ d.bit Reg.pplCfg_route_en then d.route m p a rule exact pfx
      else d.ringCopy m d.ctrlRing 0 rule
    else if own = 3 then d.bridge m p a rule inPort
    else
      let ring := if d.bit Reg.pplCfg_bcast_host then d.ringCopy m d.ctrlRing 0 rule else (d, [])
      let l := ring.1.others inPort
      let d := if l = [] ∧ !d.bit Reg.pplCfg_bcast_host then ring.1.bump Cnt.dropSamePort else ring.1
      (d, d.toPorts m p a (m.cls == 1) l ++ ring.2)

/-- Carry out a target on a frame; a frame has no form for a server or a link and goes to CTRL_RING. -/
def Dev.frameTo (d : Dev) (m : Msg) (p : Parsed) (a : BitVec 64) (rule : Nat) (t : Target) : Dev × List Deliver :=
  match t with
  | .ring n => d.ringCopy m n 0 rule
  | .port x q =>
    let q := if actTcEn a then actTc a else q
    (d, [.port x q (d.bridgeFrame m p (m.cls == 1))])
  | .server _ => d.ringCopy m d.ctrlRing 0 rule
  | .link _ => d.ringCopy m d.ctrlRing 0 rule

/-- Learn from a frame (R274); a table in which the host writes the same key in this cycle learns nothing (R277). -/
def Dev.learn (d : Dev) (p : Parsed) (port : PortId) (hostMac hostIp6 : Bool) : Dev :=
  let x := BitVec.ofNat 2 (d.logical port)
  let mac := BitVec.ofNat 48 p.smac
  let vid := BitVec.ofNat 12 p.vidO
  let d := if hostMac then d else d.learnMac mac vid x
  if p.l3 = 2 then
    let a := ofBe p.src
    if hostIp6 ∨ a = 0 ∨ beAt p.src 0 1 = 0xFF then d else d.learnIp6 (BitVec.ofNat 128 a) mac vid x
  else d

/-- A frame in PPL: parsed, searched, looked up, classified, and given its copies; `named` is a HOST descriptor's port and
queue, and `learn` what the tables learn from it. -/
def Dev.pplFrame (d : Dev) (m : Msg) (inPort : Option PortId) (named : Option (Nat × Nat)) (learn : Dev → Parsed → Dev) :
    Dev × List Deliver :=
  let o := d.pplEnter
  let d := o.1
  let m := { m with ver := o.2 }
  let p := parseFrame m.bytes
  let d := if p.xdeep then d.bump Cnt.xdeep else d
  let l := if p.l3 = 2 then d.lookups p.dst else (d, none, none)
  let d := l.1
  let dcls := if p.l3 ≠ 2 then 3 else if p.dst = d.ownIp then 0 else if l.2.1.isSome then 1 else if l.2.2.isSome then 2 else 3
  let pcls := match l.2.2 with | some x => x.cls.toNat | none => 0
  let isEnc := named.isNone && d.isEncap p && !p.xdeep
  let h := readEncap (encapBody m.bytes p)
  let e := if isEnc && h.addr != bcastAddr then d.sensorLookup h.addr else (d, none)
  let d := e.1
  let key := d.frameKey m p dcls pcls (if isEnc then some (h, groupOf e.2) else none)
  let c := d.classify m.ver key (d.payloadOf m.bytes p)
  let d := c.1
  let rule := c.2.1
  let a := c.2.2
  let d := if actNoLearn a then d else learn d p
  let hash := if isEnc then { frameHash p with sidx := be 4 (h.sidx % 1048576) } else frameHash p
  let out : Dev × List Deliver :=
    if actVerdict a = 1 then (d.bump Cnt.dropRule, [])
    else match d.verdictTarget m.ver a hash with
      | some t =>
        if isEnc ∧ !l3Good m.bytes p then (d.bump Cnt.dropL3Err, [])
        else if isEnc then d.bluaneTo { m with form := .bluane, bytes := encapBody m.bytes p, sidx := e.2.map (·.sidx) } a rule t
        else d.frameTo m p a rule t
      | none => match named with
        | some (x, q) => (d, [.port x (if actTcEn a then actTc a else q) (d.bridgeFrame m p true)])
        | none => d.frameDefault m p a rule inPort l.2.1 l.2.2 e.2
  (out.1, mirrorOf m a rule ++ out.2)

/-! ## Delivery of the copies (R260, R278, Table 9.4, Table 10.2) -/

/-- Is a copy a mirror copy? -/
def Deliver.mirror (x : Deliver) : Bool := match x with | .ring _ m => m.reason == 4 | _ => false
/-- Does a copy count toward a FRAME descriptor's completion? -/
def Deliver.counts (x : Deliver) : Bool := match x with | .item _ _ => false | _ => !x.mirror

/-- Deliver one copy: false when it has to wait where it is. -/
def Dev.deliverOne (d : Dev) (src : FrameSrc) (x : Deliver) : Dev × Bool :=
  match x with
  | .port p q f => d.enqueue p q f
  | .ring n m =>
    let o := d.rxWrite n m
    if x.mirror then (o.1, true)
    else
      let d := if o.2 then o.1.bump Cnt.terminated else o.1
      let d := if o.2 && m.kind == 1 && isUplink m.bytes then d.bump Cnt.ulEncap else d
      let d := if o.2 && m.kind == 1 && m.src.toNat / 16 == 2 && beAt m.bytes 0 1 % 16 == ekJoin then d.bump Cnt.joinAccepted else d
      (d.copyEnd src o.2 false, true)
  | .item key w =>
    let from' : ItemSrc := match src with | .eth p => .eth p | .host r _ _ => .host r | .air => .air
    match d.create from' key w with
    | some d => (d, true)
    | none => match src with
      | .air => ((d.noItem.raise Reg.tskStat_air_drop).bump Cnt.dropAir, true)
      | _ => (d.noItem, false)
  | .link l body =>
    let n := (d.link l).queue.length
    let d := d.linkEnqueue l mkData 0 d.gwId 0 body none
    let ok := decide (n < (d.link l).queue.length)
    let d := if ok && isUplink body then d.bump Cnt.ulEncap else d
    (d.copyEnd src ok false, true)
  | .tim p m stamp tr => (((d.bump Cnt.terminated).ptpReceive p m stamp tr).copyEnd src true false, true)

/-- Deliver copies in order until one has to wait: those that remain. -/
def Dev.deliverAll (d : Dev) (src : FrameSrc) : List Deliver → Dev × List Deliver
  | [] => (d, [])
  | x :: t =>
    let o := d.deliverOne src x
    if o.2 then o.1.deliverAll src t else (o.1, x :: t)

/-- Deliver the copies of a message that never waits: from AIR, MLADOL or DEVICE. -/
def Dev.deliverAir (d : Dev) (l : List Deliver) : Dev := (d.deliverAll .air l).1

/-- Microseconds since a fabric cycle. -/
def Dev.usSince (d : Dev) (t : Int) : Nat := (((d.tim.cyc : Int) - t) / 400).toNat

/-- Take frames out of a port's ingress buffer as their copies find room (R290, Table 10.2). -/
def Dev.pumpIn (p : PortId) : Nat → Dev → Dev
  | 0, d => d
  | n + 1, d =>
    match (d.port p).inBuf with
    | [] => d
    | f :: t =>
      let o := d.deliverAll f.src f.todo
      if o.2 = [] then
        let d := match (o.1.port p).stallFrom with
          | some s => (o.1.bumpBy Cnt.stallEthUs (o.1.usSince s)).modPort p fun x => { x with stallFrom := none }
          | none => o.1
        Dev.pumpIn p n (d.modPort p fun x => { x with inBuf := t })
      else
        let item := match o.2 with | .item _ _ :: _ => true | _ => false
        o.1.modPort p fun x => { x with
          inBuf := { f with todo := o.2 } :: t
          stallFrom := if item then some (x.stallFrom.getD d.tim.cyc) else none }

/-- Retry the copies that wait on the TX rings. -/
def Dev.pumpTx (d : Dev) : Dev :=
  let l := d.hif.txWait
  l.foldl (fun d w =>
    let src : FrameSrc := .host w.ring w.index w.epoch
    let o := d.deliverAll src w.todo
    if o.2 = [] then
      (match w.todo with | .item _ _ :: _ => o.1.bumpBy Cnt.stallHostUs (o.1.usSince w.since) | _ => o.1)
    else { o.1 with hif := { o.1.hif with txWait := o.1.hif.txWait ++ [{ w with todo := o.2 }] } })
    { d with hif := { d.hif with txWait := [] } }

/-- Retry everything that waits for room or for an item. -/
def Dev.pump (d : Dev) : Dev :=
  let d := Dev.pumpIn 0 (d.eth.p0.inBuf.length + 1) d
  (Dev.pumpIn 1 (d.eth.p1.inBuf.length + 1) d).pumpTx

/-! ## Messages of the device's own PTP clock (R252, R307) -/

/-- A PTP message of the device's own enters PPL: its default is queue Q7 of the port that TIM names. -/
def Dev.sendOwn (d : Dev) (x : PortId × List Byte × Option Nat) : Dev :=
  let o := d.pplEnter
  let b := x.2.1
  let p := parseFrame b
  let m : Msg := ⟨4, 0, o.2, d.tai, .air, .frame, b, none⟩
  let own (f : EgFrame) : EgFrame := { f with own := x.2.2 }
  let c := o.1.pplRule m 0 (b.drop p.pay) fun d a rule t => d.frameTo m p a rule t
  let l : List Deliver := match c.2.copies with
    | some l => l.map fun y => match y with | .port n q f => .port n q (own f) | y => y
    | none =>
      let q := if actTcEn c.2.action then actTc c.2.action else 7
      [.port x.1.val q { own (m.egress b false) with pick := x.1 }]
  c.1.deliverAir (c.2.mirror ++ l)

/-- What the clock has composed in this step enters PPL. -/
def Dev.sendComposed (d : Dev) : Dev :=
  d.tim.compose.foldl Dev.sendOwn { d with tim := { d.tim with compose := [] } }

/-! ## Versions held (R260) -/

def Deliver.vers (x : Deliver) : List Nat :=
  match x with
  | .port _ _ f => [f.ver]
  | .ring _ m => [m.ver]
  | .item _ (.downlink x) => x.ver.toList
  | _ => []
def EthPort.vers (x : EthPort) : List Nat :=
  (x.inBuf.flatMap fun f => f.ver :: f.todo.flatMap Deliver.vers) ++
    (x.queues.flatMap fun (q : Nat × EgQueue) => q.2.frames.map (·.ver)) ++
    (match x.sending with | some s => [s.2.ver] | none => [])
/-- The versions that messages hold: in ingress buffers, egress queues, waiting on TX rings, and in downlink items. -/
def Dev.heldVers (d : Dev) : List Nat :=
  d.eth.p0.vers ++ d.eth.p1.vers ++ (d.hif.txWait.flatMap fun w => w.ver :: w.todo.flatMap Deliver.vers) ++
    d.tsk.items.flatMap fun i => match i.work with | .downlink x => x.ver.toList | _ => []
def Dev.held (d : Dev) (v : Nat) : Bool := d.heldVers.contains v
/-- PPL_VERSTAT.HELD. -/
def Dev.heldMask (d : Dev) : Nat := (List.range 16).foldl (fun a v => if d.held v then a + 2 ^ v else a) 0
def Dev.showHeld (d : Dev) : Dev := d.setFld Reg.pplVerstat_held d.heldMask

/-! ## Ruleset commands (R259, R261) -/

/-- A free version slot: not current, and held by no message. -/
def Dev.freeSlot (d : Dev) : Option Nat := (List.range 16).find? fun v => v != d.curVer && !d.held v

/-- Fabric cycles that a commit copies: 40 µs, the most that R259 allows (DESIGN CHOICE, log entry 208). -/
def copyCycles : Nat := 16000

/-- A commit begins to copy the staging area into slot `v`. -/
def Dev.beginCopy (d : Dev) (c : Cmd) (v : Nat) : Dev :=
  { d with fwd := { d.fwd with copying := some (c, v, d.reg Reg.pplGen + 1, d.tim.cyc + copyCycles) } }.setBit
    Reg.pplVerstat_copying true

/-- The copy of a commit has ended once its cycles have passed: its slot becomes current, and the command completes. -/
def Dev.copyDone (d : Dev) : Dev :=
  match d.fwd.copying with
  | none => d
  | some (c, v, g, t) =>
    if d.tim.cyc < t then d
    else
      let d := { d with fwd := { d.fwd with
        versions := Sparse.put emptyRuleset d.fwd.versions v d.fwd.staging
        gens := Sparse.put 0 d.fwd.gens v g, copying := none } }
      let d := ((d.setFld Reg.pplVerstat_cur v).setBit Reg.pplVerstat_copying false).setReg Reg.pplGen g
      (d.bump Cnt.verCommit).complete c stOk (v + g.toNat * 4294967296)

end Sys2Proof.Machine
end

