-- ==== Sys2Proof/Machine/Reset.lean ====
section
/-! DEFINITION. The resets of the device (R457, R499, R500, R506), FAULT_LOCK (R441), and which blocks run in which device
state. -/

namespace Sys2Proof.Machine

/-! ## What runs -/

/-- Are the rails up and is the main die out of reset? -/
def Dev.mainUp (d : Dev) : Bool :=
  !d.pwr.porLow && !d.pwr.sysLow && d.pwr.seq.isNone && !d.pwr.restart &&
    (d.devState == dsBoot || d.devState == dsStandalone || d.devState == dsHosted)

/-- Does the firmware run: the device operates, and the rails are up? -/
def Dev.firmwareUp (d : Dev) : Bool := d.mainUp && d.operating

/-- Does the Silt domain run: it has power, and POR_N is high? -/
def Dev.siltUp (d : Dev) : Bool := (d.pwr.vinUp || d.pwr.extSupply) && !d.pwr.porLow

/-! ## Resets -/

/-- The content of the flash and the fuses: it outlives every reset. -/
def Boot.flash (b : Boot) : Boot :=
  { initBoot with
    keyHash := b.keyHash, flashMB := b.flashMB, bankA := b.bankA, bankB := b.bankB, applied := b.applied, activeB := b.activeB,
    txEpoch := b.txEpoch, rxEpoch := b.rxEpoch, lastWrap := b.lastWrap, msgBase := b.msgBase, prof0 := b.prof0,
    prof1 := b.prof1, map0 := b.map0, map1 := b.map1, chunks := b.chunks, stageId := b.stageId }

/-- Everything at its power-on value but the flash, the supply, and what the device has put out so far. -/
def Dev.porCore (d : Dev) : Dev :=
  { initDev with
    outs := d.outs, freeCtr := d.freeCtr, boot := d.boot.flash,
    pwr := { initPwr with vinUp := d.pwr.vinUp, extSupply := d.pwr.extSupply, silt := d.pwr.silt }
    pins := { initPins with perstN := d.pins.perstN }
    obs := { initObs with testEn := d.obs.testEn } }

/-- Registers that SYS_RST_N leaves unchanged: PWR, the wake registers of MSH and CLK_XO32K (R457, R533). -/
def silent (a : Nat) : Bool := (0x10000 ≤ a && a < 0x20000) || a == Reg.mshWakecodeA || a == Reg.mshWakecodeB || a == Reg.mshWakefreq ||
  a == Reg.clkXo32k

/-- The main die outside the Silt domain returns to its power-on values; the PWR registers, the wake registers, the counters
and the sampled straps stay (R457). -/
def Dev.sysCore (d : Dev) : Dev :=
  let p := d.pwr
  let strap := d.fld Reg.bootStat_strap
  let d' : Dev := { d.porCore with
    regs := d.regs.filter fun x => silent x.1
    eff := d.eff.filter fun x => silent x.1
    counters := d.counters
    pwr := { p with
      seq := none, restart := false, entering := none, armed := false, leanCmd := none, activeCmd := none,
      woken := [], stalled := [], coldBoot := false } }
  (d'.setFld Reg.bootStat_strap strap).setFld Reg.pwrState_state 0

/-- FAULT_LOCK (R441): rails in the SENTINEL condition, every wake source ignored. -/
def Dev.faultLock (d : Dev) : Dev :=
  let d := ((d.bump Cnt.faultLockEntry).raise Reg.pwrAonStatus_locked).setFld Reg.hifStat_dev_state dsFaultLock
  { d with pwr := { d.pwr with seq := none, restart := false, entering := none, armed := false } }

/-- Fault resets of the last 3,600 s by the Silt timer (R500). -/
def Dev.recentResets (d : Dev) : List Nat := d.pwr.resetAt.filter fun t => decide (d.pwr.silt < t + 3600000000000)

/-- A fault reset with its cause; the fifth within 3,600 s locks instead (R499, R500). -/
def Dev.faultReset (d : Dev) (cause : Nat) : Dev :=
  let d := d.setFld Reg.pwrFltCause_cause cause
  let l := d.recentResets
  if 4 ≤ l.length then
    let d := d.faultLock
    { d with pwr := { d.pwr with coldBoot := true } }
  else
    let d := (d.bump Cnt.faultReset).sysCore
    let d := { d with pwr := { d.pwr with resetAt := l ++ [d.pwr.silt], faultBoot := some cause } }
    d.setFld Reg.pwrFltCause_resets (l.length + 1)

end Sys2Proof.Machine
end

