-- ==== Sys2Proof/Machine/Tsk.lean ====
section
/-! DEFINITION. The work of chapter 10: what a worker computes for each class, ordered release, delay lists, and the worker
watchdog. -/

namespace Sys2Proof.Machine

/-! ## Uplinks (R246, R268, R359, R363, R364) -/

/-- The arrival stamp T0 + e in TAI nanoseconds (R246). -/
def Dev.arrival (d : Dev) (rx : Rx) : Int := d.tickTai rx.firstS + roundDiv rx.e 1000

/-- A worker reads a payload: the plaintext and AUTH_FAIL; none while its key waits for a slot (R348). A request that
completes FAULT is repeated once (R357). -/
def Dev.openUplink (d : Dev) (rx : Rx) (h : MpduHdr) : Dev × Option (List Byte × Bool) :=
  let body := mpduPayload rx.mpdu h.len
  match h.sec, rx.sidx with
  | false, _ => (d, some (body, false))
  | true, none => (d.bump Cnt.noKey, some (body, true))
  | true, some i =>
    let k := d.loadKey i h.keyidx.toNat
    let k := match k.2 with | .corrupt => k.1.loadKey i h.keyidx.toNat | _ => k
    match k.2 with
    | .noEntry => (k.1.bump Cnt.noKey, some (body, true))
    | .corrupt => (k.1, some (body, true))
    | .wait => (k.1, none)
    | .ok n =>
      let o := k.1.unseal n (nonceUp h.addr.toNat rx.firstS rx.cell0.1 rx.cell0.2) (ccmAad rx.mpdu 0) body
      (if o.2.2 then o.1 else o.1.bump Cnt.authFail, some (o.2.1, !o.2.2))

/-- The encapsulation of an uplink or JOIN_REQ (Table 8.9). -/
def Dev.upEncap (d : Dev) (rx : Rx) (h : MpduHdr) (plain : List Byte) (bad : Bool) : List Byte :=
  let t := d.arrival rx
  let join := rx.sidx.isNone
  let fl := 128 * (flagRetry h).toNat + 64 * (flagAlert h).toNat + 32 * (sigMore rx.sig).toNat + 16 * rx.clipped.toNat +
    8 * rx.recovery.toNat + 4 * bad.toNat + 2 * rx.lmStale.toNat + h.sec.toNat
  Encap.bytes
    { ver := 1, kind := if join then ekJoin else ekUplink, flags := byte fl, plen := plain.length, gw := d.gwId.toNat,
      addr := if join then 0 else h.addr, seq := h.seq, sidx := rx.sidx.getD 0, aport := byte h.flags.toNat,
      radio := rx.radio.val, memb := rx.members - 1, chan := rx.chan, subch := rx.subch, mcs := (sigMcs rx.sig).toNat,
      lmv := (sigLmv rx.sig).toNat, level := clampInt (-128) 127 (roundDiv rx.level 100), e := rx.e / 62500, tag := 0,
      sec := (t / 1000000000 % 281474976710656).toNat, ns := (t % 1000000000).toNat } ++ plain

/-! ## Downlinks and LOADMAPs (R186, R359 to R361) -/

/-- Contexts that hold the last SEQ of broadcasts and of JOIN_RSP frames, beyond every sensor index. -/
def seqBcast : Nat := 1048576
def seqJoin : Nat := 1048577
/-- Where the last SEQ of a downlink's destination is kept. -/
def Downlink.seqKey (x : Downlink) : Nat :=
  if x.ftype = tJoinRsp then seqJoin else if x.addr = bcastAddr then seqBcast else x.sidx

/-- A downlink's MPDU header; LEN is computed from `n` payload bytes. -/
def Downlink.hdr (x : Downlink) (n : Nat) : MpduHdr :=
  { ftype := x.ftype, ver := 0, sec := x.sec, noack := x.addr == bcastAddr, keyidx := (if x.sec then BitVec.ofNat 4 x.keyidx else 0),
    seq := x.seq, addr := x.addr, flags := BitVec.ofNat 16 x.aport.toNat, len := n + 14 }

/-- What drawing a counter and sealing gives. -/
inductive SealAns where
  | ok (m : List Byte) (seq : Byte) | failed (status : Nat) | wait

/-- Protect a frame under a sensor's key: C is drawn, and SEQ is C[7:0] (R361). -/
def Dev.sealFor (d : Dev) (sidx keyidx : Nat) (h : MpduHdr) (plain : List Byte) : Dev × SealAns :=
  let k := d.loadKey sidx keyidx
  let k := match k.2 with | .corrupt => k.1.loadKey sidx keyidx | _ => k
  match k.2 with
  | .noEntry => (k.1, .failed stNoResource)
  | .corrupt => (k.1, .failed stFault)
  | .wait => (k.1, .wait)
  | .ok n =>
    let c := k.1.drawC n
    match c.2 with
    | none => (c.1, .failed stCounterExhausted)
    | some v =>
      let h := { h with sec := true, keyidx := BitVec.ofNat 4 keyidx, seq := byte v, len := plain.length + 22 }
      let s := c.1.seal n (nonceC 0x01 h.addr.toNat v keyidx) (ccmAad h.bytes 0) plain
      (s.1, .ok (withCrc (h.bytes ++ s.2)) (byte v))

/-- A worker prepares a downlink: the item's output is the MPDU for SCH, or the result of a refusal. -/
def Dev.prepareDl (d : Dev) (x : Downlink) : Dev × Option Work :=
  let x := if x.ftype = tJoinRsp then { x with sec := false } else x
  if x.sec then
    let o := d.sealFor x.sidx x.keyidx (x.hdr 0) x.payload
    match o.2 with
    | .wait => (o.1, none)
    | .failed st => (o.1, some (.result x (byte st)))
    | .ok m q => (o.1.modSensor x.seqKey fun s => { s with dlSeq := q }, some (.downlink { x with mpdu := m, seq := q }))
  else
    let x := { x with seq := (d.sensor x.seqKey).dlSeq + 1 }
    (d.modSensor x.seqKey fun s => { s with dlSeq := x.seq },
      some (.downlink { x with mpdu := mkMpdu (x.hdr x.payload.length) x.payload }))

/-- The lowest KEYIDX that a sensor's record holds. -/
def Dev.lowestKey (d : Dev) (sidx : Nat) : Option Nat :=
  match d.keyRec sidx 0, d.keyRec sidx 1 with
  | some a, some b => some (min a.keyidx b.keyidx)
  | some a, none => some a.keyidx
  | none, some b => some b.keyidx
  | none, none => none

/-- A worker protects a LOADMAP (R186); without a usable key the version stays pending (R187). -/
def Dev.prepareLm (d : Dev) (sidx : Nat) (m : LoadMap) : Dev × Option Work :=
  match d.lowestKey sidx with
  | none => (d.lmHold sidx, some .nothing)
  | some k =>
    let x := d.sensor sidx
    let h : MpduHdr := {
      ftype := tLoadmap, ver := 0, sec := true, noack := false, keyidx := BitVec.ofNat 4 k, seq := 0,
      addr := x.addr, flags := 0, len := 0 }
    let o := d.sealFor sidx k h (loadMapRecord (fullMap m x.anchors.length) x.anchors)
    match o.2 with
    | .wait => (o.1, none)
    | .failed _ => (o.1.lmHold sidx, some .nothing)
    | .ok b q => (o.1.modSensor sidx fun s => { s with dlSeq := q }, some (.lmReady sidx m b))

/-! ## What a worker makes of an item -/

/-- The staged output of an item's work; none while a key waits for a slot. -/
def Dev.doWork (d : Dev) (w : Work) : Dev × Option Work :=
  match w with
  | .uplink rx =>
    let h := readHdr rx.mpdu
    let o := d.openUplink rx h
    match o.2 with
    | none => (o.1, none)
    | some (p, bad) => (o.1, some (.message rx.radio rx.sidx (o.1.arrival rx) rx.uldef (o.1.upEncap rx h p bad)))
  | .downlink x => d.prepareDl x
  | .loadmap i m => d.prepareLm i m
  | w => (d, some w)

/-! ## Release (R325) -/

/-- A message of source AIR, MLADOL or DEVICE on its way into PPL. -/
def bluaneMsg (cls idx : Nat) (stamp : Int) (form : MsgForm) (bytes : List Byte) (sidx : Option Nat) : Msg :=
  ⟨cls, idx, 0, stamp, .air, form, bytes, sidx⟩

/-- The body of a LINKMAP: version and rate, then one code per subchannel. -/
def linkMapBody (m : LoadMap) : List Byte :=
  byte (m.version.toNat * 16 + m.rate.toNat) ::
    (List.range ((m.codes.length + 1) / 2)).map fun i =>
      byte ((m.codes.getD (2 * i) 0).toNat * 16 + (m.codes.getD (2 * i + 1) 0).toNat)

/-- The result of a downlink goes back to where it came from (R270, R417). -/
def Dev.giveResult (d : Dev) (x : Downlink) (status : Byte) : Dev :=
  match x.origin with
  | .ring r i e => d.txDone r i e status.toNat x.seq
  | .device => d
  | o =>
    let m := bluaneMsg 4 0 d.tai .bluane (d.downEncap ekResult x 1 ++ [status]) (some x.sidx)
    let p := d.pplResult m o
    p.1.deliverAir p.2

/-- Hand a Mladol DATA body or flood to PPL (Table 8.1). -/
def Dev.giveMesh (d : Dev) (rx : Rx) (body : List Byte) : Dev :=
  let l := rx.link.getD 0
  if kindFlood (beAt rx.mpdu 10 1 / 16) then
    let m := bluaneMsg 3 l (d.arrival rx) .flood (slice rx.mpdu 10 8 ++ body) none
    let p := d.pplFlood m
    p.1.deliverAir p.2
  else
    let m := bluaneMsg 3 l (d.arrival rx) .bluane body (some (beAt body 12 4 / 4096))
    let p := d.pplMesh m
    p.1.deliverAir p.2

/-- Hand the body of a FLOOD_FW to PPL, and by its default decision to the update engine (Table 8.5). -/
def Dev.giveChunk (d : Dev) (chunk : Dev → List Byte → Dev) (rx : Rx) (body : List Byte) : Dev :=
  let p := d.pplFloodFw (bluaneMsg 3 (rx.link.getD 0) (d.arrival rx) .flood (slice rx.mpdu 10 8 ++ body) none)
  let d := p.1.deliverAir p.2.1
  if p.2.2 then chunk d body else d

/-- A LOADMAP enters SCH unless its version is no longer the one to send (R187, R188). -/
def Dev.giveLm (d : Dev) (i : Nat) (m : LoadMap) (mpdu : List Byte) : Dev :=
  let x := d.sensor i
  if x.pendMap.getD x.confirmed = m then d.lmEnter i m mpdu else d

/-- Release hands an item's output to its destination; `chunk` takes a firmware chunk. -/
def Dev.giveOutput (d : Dev) (chunk : Dev → List Byte → Dev) (w : Work) : Dev :=
  match w with
  | .message r i t u b =>
    let p := d.pplAir (bluaneMsg 2 r.val t .bluane b i) u
    p.1.deliverAir p.2
  | .mesh rx body => d.giveMesh rx body
  | .downlink x => if x.mpdu = [] then d else d.dlEnter x
  | .lmReady i m b => d.giveLm i m b
  | .linkmap l m => d.linkEnqueue l mkLinkmap 0 d.gwId 0 (linkMapBody m) (some m.version)
  | .result x st => d.giveResult x st
  | .fwChunk rx b => d.giveChunk chunk rx b
  | _ => d

/-- Has an item its place in its flow's order: is it neither in a delay list nor waiting for its stage (R18, R326)? -/
def Item.placed (i : Item) : Bool := !i.staged && (match i.state with | .delayed _ _ => false | _ => true)

/-- May an item be released: completed, and no earlier item of its tag is held (R325, R326)? -/
def Dev.releasable (d : Dev) (i : Item) : Bool :=
  i.state == .done && (i.tag.isNone || !d.tsk.items.any fun j => j.tag == i.tag && decide (j.order < i.order) && j.placed)

/-- Free an item. -/
def Dev.freeItem (d : Dev) (id : Nat) : Dev :=
  ({ d with tsk := { d.tsk with items := d.tsk.items.filter fun j => j.id != id } }.bump Cnt.itemReleased).showLevel

/-- Release every item that may be released. -/
def Dev.releaseAll (chunk : Dev → List Byte → Dev) : Nat → Dev → Dev
  | 0, d => d
  | n + 1, d =>
    match d.tsk.items.find? fun i => d.releasable i with
    | none => d
    | some i => Dev.releaseAll chunk n ((d.freeItem i.id).giveOutput chunk i.work)

/-- Set an item's fields. -/
def Dev.mapItem (d : Dev) (id : Nat) (f : Item → Item) : Dev :=
  { d with tsk := { d.tsk with items := d.tsk.items.map fun (j : Item) => if j.id = id then f j else j } }

/-- The item that a worker runs. -/
def Dev.runningItem (d : Dev) (w : WorkerId) : Option Item := d.tsk.items.find? fun i => i.state == .running w

/-- A worker completes its item (R325). -/
def Dev.itemComplete (d : Dev) (chunk : Dev → List Byte → Dev) (w : WorkerId) : Dev :=
  match d.runningItem w with
  | none => d
  | some i =>
    let o := d.doWork i.work
    match o.2 with
    | none => o.1
    | some out =>
      let d := (o.1.mapItem i.id fun (j : Item) => { j with state := .done, work := out }).setFld (Reg.tskWstat_state w) 0
      Dev.releaseAll chunk d.tsk.items.length d

/-- A worker asks for work, unless it runs an item, is in reset or retired (R322). -/
def Dev.workerAsk (d : Dev) (w : WorkerId) : Dev :=
  if (d.runningItem w).isSome ∨ 2 ≤ d.fld (Reg.tskWstat_state w) then d else d.ask w

/-! ## Delay lists (R326 to R328) -/

/-- Firmware posts an item to a delay list. -/
def Dev.delayPost (d : Dev) (l : Fin 8) (delay key : Nat) : Dev :=
  match d.poolFor .device with
  | none =>
    let d := (d.noItem.raise Reg.tskStat_dev_defer).bump Cnt.deferDev
    { d with tsk := { d.tsk with deferred := d.tsk.deferred ++ [(.timer, key)] } }
  | some p => (d.newItem p key .timer (some (l, d.tsk.dtick + max 1 delay))).bump Cnt.delayPosted

/-- One item of a delay list falls due (R327). -/
def Dev.itemDue (d : Dev) (i : Item) : Dev := (d.bump Cnt.delayDue).becomeReady i

/-- Fabric cycles in a delay tick: 39.0625 µs (R327). -/
def delayTickCycles : Nat := 15625

/-- A delay tick falls due every 15,625 fabric cycles from power-on reset, when the slot tick comes with the first of them
(R328): list 0 first, and within a list the order of due ticks and posting. -/
def Dev.delayTick (d : Dev) : Dev :=
  d.due (delayTickCycles * (d.tsk.dtick + 1)) fun d =>
  let n := d.tsk.dtick + 1
  let d := { d with tsk := { d.tsk with dtick := n } }
  let due (l : Nat) : List Item := d.tsk.items.filter fun i => match i.state with
    | .delayed k t => k.val == l && decide (t ≤ n)
    | _ => false
  ((List.range 8).flatMap due).foldl Dev.itemDue d

/-! ## The watchdog (R329 to R332) -/

/-- DATA of a worker event: worker, class and flow tag. -/
def workerData (w : WorkerId) (i : Item) : List (Nat × List Byte) :=
  [(8, [byte w.val]), (9, [byte i.cls.val]), (10, le 2 (match i.tag with | some t => t.toNat | none => 0))]

/-- A worker has tripped: RETIRE trips within a superframe retire it. -/
def Dev.tripWorker (d : Dev) (w : WorkerId) : Dev :=
  let n := d.fld (Reg.tskWstat_hangs w)
  let d := (d.setFld (Reg.tskWstat_state w) 2).setFld (Reg.tskWstat_hangs w) (min 255 (n + 1))
  let d := { d with tsk := { d.tsk with hangs := w :: d.tsk.hangs } }
  let r := d.cfgFld Reg.tskWdcfg_retire
  if r ≠ 0 ∧ r ≤ (d.tsk.hangs.filter (· == w)).length then
    (((d.setFld (Reg.tskWstat_state w) 3).bump Cnt.workerRetired).raise Reg.tskStat_retired).event 0x000A 0 [(8, [byte w.val])]
  else d

/-- An item has tripped a second worker: its place is released without output. -/
def Dev.abandonItem (d : Dev) (chunk : Dev → List Byte → Dev) (w : WorkerId) (i : Item) : Dev :=
  let d := ((d.bump Cnt.itemAbandon).raise Reg.tskStat_abandon).event 0x0009 0 (workerData w i)
  let d := d.freeItem i.id
  Dev.releaseAll chunk d.tsk.items.length d

/-- The watchdog's limit in fabric cycles: TSK_WDCFG.LIMIT microseconds, at least 50 (Table 10.9). -/
def Dev.watchdogCycles (d : Dev) : Nat := cyclesPerUs * max 50 (d.cfgFld Reg.tskWdcfg_limit)

/-- The watchdog fires on a worker when its item has run for LIMIT microseconds. A completion in that cycle has come first
(R331): the worker then runs no item. -/
def Dev.watchdogFire (d : Dev) (chunk : Dev → List Byte → Dev) (w : WorkerId) : Dev :=
  match d.runningItem w with
  | none => d
  | some i =>
    d.due (i.since + d.watchdogCycles) fun d =>
    let d := ((d.bump Cnt.wdFire).raise Reg.tskStat_wd_fire).event 0x0008 0 (workerData w i)
    let d := d.tripWorker w
    if i.excluded.any (· != w) then d.abandonItem chunk w i
    else
      let i' := { i with state := ItemState.ready, excluded := w :: i.excluded }
      ({ d with tsk := { d.tsk with items := i' :: d.tsk.items.filter fun j => j.id != i.id } }).offer i'

/-- A reset worker comes out of reset and asks for work. -/
def Dev.workerResetDone (d : Dev) (w : WorkerId) : Dev :=
  if d.fld (Reg.tskWstat_state w) = 2 then (d.setFld (Reg.tskWstat_state w) 0).ask w else d

end Sys2Proof.Machine
end

