-- ==== Sys2Proof/Machine/Boot.lean ====
section
/-! DEFINITION. Images, containers, the update engine and the change of firmware (chapter 15). -/

namespace Sys2Proof.Machine

/-! ## Images (R462) -/

def imgSchema (b : List Byte) : Nat := beAt b 6 2
def imgBuild (b : List Byte) : Nat := beAt b 8 4
def imgStage (b : List Byte) : Nat := beAt b 12 4
def imgMain (b : List Byte) : Nat := beAt b 16 4
/-- The length of the whole image that a header announces. -/
def imgLen (b : List Byte) : Nat := 256 + imgStage b + imgMain b

/-- Is a public key the one whose hash is fused, and does a signature verify under it? -/
def signedBy (keyHash : BitVec 256) (pub sig msg : List Byte) : Bool :=
  ofBe (sha256 pub) == keyHash.toNat && ecdsaOk pub sig msg

/-- Is an image accepted? It must fit a bank of 12 MB, with a boot stage of at most 1 MB. -/
def imageOk (keyHash : BitVec 256) (b : List Byte) : Bool :=
  decide (imgStage b ≤ 1048576) && decide (imgLen b ≤ 12582912) && decide (imgLen b ≤ b.length) &&
    signedBy keyHash (slice b 96 64) (slice b 160 64) (b.take 160) &&
    sha256 (slice b 256 (imgStage b)) == slice b 32 32 &&
    sha256 (slice b (256 + imgStage b) (imgMain b)) == slice b 64 32

def Dev.imageOk (d : Dev) (b : List Byte) : Bool := Machine.imageOk d.boot.keyHash b
/-- The content of a bank; `true` is bank B. -/
def Dev.bank (d : Dev) (b : Bool) : List Byte := if b then d.boot.bankB else d.boot.bankA
def Dev.setBank (d : Dev) (b : Bool) (img : List Byte) : Dev :=
  if b then { d with boot := { d.boot with bankB := img } } else { d with boot := { d.boot with bankA := img } }

/-! ## Staging (R461, R474 to R476) -/

/-- The container limit in chunks. -/
def Dev.chunkLimit (d : Dev) : Nat := min 65536 ((d.boot.flashMB * 1048576 - 0x1840000) / 512)

/-- A chunk of the staging area; an erased byte reads 0xFF. -/
def Dev.chunk (d : Dev) (i : Nat) : List Byte :=
  let b : List Byte := Sparse.get [] d.boot.chunks i
  b ++ List.replicate (512 - b.length) 0xFF
def Dev.setChunk (d : Dev) (i : Nat) (b : List Byte) : Dev :=
  { d with boot := { d.boot with chunks := Sparse.put [] d.boot.chunks i b } }

/-- Is a container header authentic (R471)? -/
def Dev.headerOk (d : Dev) (h : List Byte) : Bool := signedBy d.boot.keyHash (slice h 120 64) (slice h 184 64) (h.take 120)
/-- Is the header of the staged container in the staging area? -/
def Dev.headerStaged (d : Dev) : Bool := d.boot.marked.contains 0

/-- Insert into a rising list. -/
def insertNat (n : Nat) : List Nat → List Nat
  | [] => [n]
  | m :: t => if n < m then n :: m :: t else if n = m then m :: t else m :: insertNat n t

/-- Is every chunk of the staged container marked? -/
def Dev.staged (d : Dev) : Bool :=
  match d.boot.stageId with | some (_, last) => d.boot.marked.length == last + 1 | none => false

def updEmpty : Nat := 0
def updReceiving : Nat := 1
def updComplete : Nat := 2
def updApplied : Nat := 3

/-- BOOT_UPD_STAT.RECEIVED and BOOT_UPD_MISS. -/
def Dev.showUpd (d : Dev) : Dev :=
  let d := d.setFld Reg.bootUpdStat_received d.boot.marked.length
  match d.boot.stageId with
  | none => (d.setFld Reg.bootUpdMiss_none 1).setFld Reg.bootUpdMiss_chunk 0
  | some (_, last) =>
    match (List.range (last + 1)).find? fun i => !d.boot.marked.contains i with
    | none => (d.setFld Reg.bootUpdMiss_none 1).setFld Reg.bootUpdMiss_chunk 0
    | some i => (d.setFld Reg.bootUpdMiss_none 0).setFld Reg.bootUpdMiss_chunk i

/-- Write the bitmap to the older flash copy (R475). -/
def Dev.persist (d : Dev) : Dev :=
  let seq (m : Option (Nat × List Nat)) : Nat := match m with | some x => x.1 | none => 0
  let n := max (seq d.boot.map0) (seq d.boot.map1) + 1
  let m := some (n, d.boot.marked)
  let b := { d.boot with sincePersist := 0 }
  let b := if seq d.boot.map0 ≤ seq d.boot.map1 then { b with map0 := m } else { b with map1 := m }
  { d with boot := b }.bump Cnt.bitmapPersist

/-- The bitmap that a boot resumes from: the newer copy. -/
def Boot.resumed (b : Boot) : List Nat :=
  match b.map0, b.map1 with
  | some x, some y => if x.1 < y.1 then y.2 else x.2
  | some x, none => x.2
  | none, some y => y.2
  | none, none => []

/-- The staging area restarts, empty or with a container; the bitmap copies of the former one are void. -/
def Dev.restage (d : Dev) (id : Option (Word × Nat)) : Dev :=
  let d := { d with boot := { d.boot with
    chunks := [], marked := [], sincePersist := 0, map0 := none, map1 := none, stageId := id } }
  (d.setFld Reg.bootUpdStat_state (if id.isSome then updReceiving else updEmpty)).showUpd

/-- Issue a command from the local host. -/
def Dev.queueLocal (d : Dev) (c : Instr) : Dev :=
  { d with boot := { d.boot with localCmds := d.boot.localCmds ++ [(none, c)] } }

/-- Header fields of the local host's own commands. -/
def noHdr : CmdHdr := ⟨0, 0⟩

/-- The container is complete: FW_STAGED, and FW_APPLY from the local host with AUTO_APPLY. -/
def Dev.stageComplete (d : Dev) : Dev :=
  let d := (d.persist.setFld Reg.bootUpdStat_state updComplete).event 0x0032 0
    [(12, le 4 (beAt (d.chunk 0) 8 4)), (16, le 4 d.boot.marked.length)]
  if d.devState = dsStandalone ∧ d.boot.autoApply then d.queueLocal (.fwApply noHdr) else d

/-- Mark a chunk. -/
def Dev.mark (d : Dev) (i : Nat) : Dev :=
  if d.boot.marked.contains i then d
  else
    let d := { d with boot := { d.boot with marked := insertNat i d.boot.marked, sincePersist := d.boot.sincePersist + 1 } }
    let d := d.showUpd
    if d.staged then d.stageComplete else if 64 ≤ d.boot.sincePersist then d.persist else d

/-- Store and mark a chunk (FW_CHUNK_NEW). -/
def Dev.storeChunk (d : Dev) (i : Nat) (b : List Byte) : Dev := ((d.setChunk i b).bump Cnt.fwChunkNew).mark i

/-- A chunk reaches the update engine (R473, Table 15.5). -/
def Dev.fwChunk (d : Dev) (body : List Byte) : Dev :=
  let id := BitVec.ofNat 32 (beAt body 0 4)
  let i := beAt body 4 2
  let last := beAt body 6 2
  let b := slice body 8 512
  let fresh := some (id, last)
  if d.boot.applying.isSome ∨ b.length < 512 ∨ last < i ∨ d.chunkLimit ≤ last then d.bump Cnt.fwChunkOther
  else if d.boot.stageId.isNone then (d.restage fresh).storeChunk i b
  else if d.boot.stageId = fresh then
    if i = 0 ∧ d.headerOk b = false then (d.restage none).bump Cnt.fwChunkBad
    else if d.boot.marked.contains i then d.bump Cnt.fwChunkDup
    else d.storeChunk i b
  else if i = 0 ∧ d.headerOk b = true ∧ (d.headerStaged = false ∨ beAt (d.chunk 0) 8 4 < beAt b 8 4) then
    (d.restage fresh).storeChunk 0 b
  else d.bump Cnt.fwChunkOther

/-- Write a block's bytes into the staging area from chunk `i` on, its first byte at offset `o` of that chunk; whole chunks
are marked. -/
def Dev.writeBlock (d : Dev) (i o : Nat) (b : List Byte) : Nat → Dev
  | 0 => d
  | n + 1 =>
    if b = [] then d
    else
      let p := b.take (512 - o)
      let d := d.setChunk i (patch (d.chunk i) o p)
      let d := if p.length = 512 then d.mark i else d
      d.writeBlock (i + 1) 0 (b.drop (512 - o)) n

/-- FW_BLOCK (R476). -/
def Dev.fwBlock (d : Dev) (c : Cmd) (offset len addr : Nat) (data : HostRead) : Dev :=
  if d.boot.applying.isSome then d.refuseState c 0xFF
  else if len = 0 ∨ 4096 < len ∨ addr = 0 ∨ d.chunkLimit * 512 < offset + len then d.complete c stBadParam 0
  else
    match data with
    | .err => d.cmdDmaError c
    | .ok raw =>
      let b := fit len raw
      let last (d : Dev) : Nat := match d.boot.stageId with | some x => x.2 | none => 0
      if offset = 0 then
        let n := beAt b 6 2
        if len < 248 ∨ d.headerOk b = false ∨ d.chunkLimit ≤ n ∨ (n + 1) * 512 < len then d.complete c stBadParam 0
        else
          let d := d.restage (some (BitVec.ofNat 32 (beAt b 48 4), n))
          (d.writeBlock 0 0 b 9).complete c stOk 0
      else if d.headerStaged ∧ (last d + 1) * 512 < offset + len then d.complete c stBadParam 0
      else (d.writeBlock (offset / 512) (offset % 512) b 9).complete c stOk 0

/-! ## Applying (R472, R477) -/

/-- Bytes of a bank of 12 MB: what an image leaves free is erased. -/
def bankSlice (img : List Byte) (src len : Nat) : List Byte :=
  let b := slice img src len
  b ++ List.replicate (len - b.length) 0xFF

/-- Execute the body of a container: the image it builds, or none when it is not well formed. Without a base there is no
COPY (R472). -/
def runBody (base : Option (List Byte)) : Nat → List Byte → List Byte → Option (List Byte)
  | 0, _, _ => none
  | n + 1, b, out =>
    match b with
    | [] => none
    | op :: t =>
      if op = 0 then some out
      else if op = 1 then
        let src := beAt t 0 4
        let len := beAt t 4 3
        match base with
        | none => none
        | some img =>
          if 12582912 < src + len ∨ t.length < 7 then none else runBody base n (t.drop 7) (out ++ bankSlice img src len)
      else if op = 2 then
        let len := beAt t 0 2
        if len = 0 ∨ t.length < 2 + len then none else runBody base n (t.drop (2 + len)) (out ++ slice t 2 len)
      else if op = 3 then
        if t.length < 4 then none
        else runBody base n (t.drop 4) (out ++ List.replicate (beAt t 1 3) (byte (beAt t 0 1)))
      else none

/-- FW_APPLY: the container must be complete, and no activation pending. -/
def Dev.fwApply (d : Dev) (c : Cmd) : Dev :=
  if d.boot.applying.isSome then (d.complete c stBusy 0).bump Cnt.fwApplyFail
  else if !d.staged || d.boot.activation.isSome then (d.refuseState c 0xFF).bump Cnt.fwApplyFail
  else
    let d := d.startLong c 0 0
    { d with boot := { d.boot with applying := some c } }

/-- What FW_APPLY finds: the image to place in the inactive bank, or the status of its failure; and whether the bank has been
erased. -/
def Dev.applyResult (d : Dev) (flashError : Bool) : Nat × Bool × List Byte :=
  let h := d.chunk 0
  let n := d.boot.marked.length
  let body := (List.range (n - 1)).flatMap fun i => d.chunk (i + 1)
  let active := d.bank d.boot.activeB
  let noBase := slice h 16 32 == List.replicate 32 0
  if !d.headerOk h || sha256 body != slice h 88 32 then (stAuthFail, false, [])
  else if !noBase && sha256 (active.take (imgLen active)) != slice h 16 32 then (stVersion, false, [])
  else if flashError then (stFault, true, [])
  else
    match runBody (if noBase then none else some active) (body.length + 1) body [] with
    | none => (stAuthFail, true, [])
    | some img =>
      if img.length != beAt h 80 4 || sha256 img != slice h 48 32 || !d.imageOk img then (stAuthFail, true, img)
      else (stOk, true, img)

/-- FW_APPLY ends. -/
def Dev.fwApplyDone (d : Dev) (flashError : Bool) : Dev :=
  match d.boot.applying with
  | none => d
  | some c =>
    let r := d.applyResult flashError
    let d := { d with boot := { d.boot with applying := none } }
    let d := if r.2.1 then
        let d := d.setBank (!d.boot.activeB) r.2.2
        { d with boot := { d.boot with applied := r.1 == stOk } }
      else d
    if r.1 = stOk then
      let d := (d.progress c.opcode 100 (d.boot.marked.length - 1)).setFld Reg.bootUpdStat_state updApplied
      let d := (d.bump Cnt.fwApplyOk).finish c stOk 0
      if d.devState == dsStandalone && d.boot.autoActivate && d.boot.autoApply then d.queueLocal (.fwActivate noHdr 0) else d
    else (d.bump Cnt.fwApplyFail).finish c r.1 0

/-! ## The profile (R465, R466) -/

/-- Is a profile copy valid? -/
def profileOk (b : List Byte) : Bool :=
  leAt b 0 2 == 0xA310 && decide (16 ≤ leAt b 4 4) && decide (leAt b 4 4 ≤ 65536) && decide (leAt b 4 4 ≤ b.length) &&
    crc32 (slice b 16 (leAt b 4 4 - 16)) == leAt b 12 4

/-- The records of a profile from offset `o`: type and value. -/
def profileRecs : Nat → List Byte → List (Nat × List Byte)
  | 0, _ => []
  | n + 1, b =>
    if b.length < 4 then []
    else
      let len := leAt b 2 2
      (leAt b 0 2, slice b 4 len) :: profileRecs n (b.drop (4 + (len + 3) / 4 * 4))
def recordsOf (b : List Byte) : List (Nat × List Byte) := profileRecs 16384 (slice b 16 (leAt b 4 4 - 16))

def recRegion : Nat := 1
def recDram : Nat := 2
def recReg : Nat := 3
def recCommand : Nat := 4
def recLinkkey : Nat := 5
def recUpdate : Nat := 6

/-- GEN of a copy, 0 for one that is not valid. -/
def profGenOf (b : List Byte) : Nat := if profileOk b then leAt b 8 4 else 0

/-- Write a profile over the older copy with GEN set to the newer copy's GEN + 1. -/
def Dev.storeProfile (d : Dev) (b : List Byte) : Dev :=
  let g0 := profGenOf d.boot.prof0
  let g1 := profGenOf d.boot.prof1
  let first := if profileOk d.boot.prof0 then (profileOk d.boot.prof1 && decide (g0 < g1)) else true
  let b := patch b 8 (le 4 (max g0 g1 + 1))
  (if first then { d with boot := { d.boot with prof0 := b } } else { d with boot := { d.boot with prof1 := b } }).bump
    Cnt.profileWrite

/-- The value of the last record of a type. -/
def recordOf (b : List Byte) (ty : Nat) : Option (List Byte) := ((recordsOf b).filter fun r => r.1 == ty).getLast?.map (·.2)

/-- PROFILE_WRITE: checked, stored, and its REGION record loaded at once. -/
def Dev.profileWrite (d : Dev) (c : Cmd) (buf : Buf) : Dev :=
  if d.boot.applying.isSome then d.refuseState c 0xFF
  else if buf.addr = 0 ∨ buf.len = 0 ∨ 65536 < buf.len.toNat then d.complete c stBadParam 0
  else
    match buf.data with
    | .err => d.cmdDmaError c
    | .ok raw =>
      let b := fit buf.len.toNat raw
      if !profileOk b then d.complete c stBadParam 0
      else
        let d := d.storeProfile b
        let d := match recordOf b recRegion with
          | some v => d.setFld Reg.bootRegion_code (leAt v 0 2)
          | none => d
        d.complete c stOk 0

/-! ## Activation (R478 to R482) -/

/-- The superframe boundary that a command accepted now can take: the next one, or the one after during slot 511 (R28). -/
def Dev.nextBoundary (d : Dev) : Int :=
  let n := (d.tim.slotS / 512 + 1) * 512
  if d.slot = 511 then n + 512 else n

/-- The first boundary at least 400 ms away. -/
def Dev.actTarget (d : Dev) : Int :=
  let n := d.nextBoundary
  if d.tickTai n < d.tai + 400000000 then n + 512 else n

/-- FW_ACTIVATE. -/
def Dev.fwActivate (d : Dev) (c : Cmd) (reset : Bool) : Dev :=
  let img := d.bank (!d.boot.activeB)
  if d.boot.activation.isSome then d.complete c stBusy 0
  else if !d.boot.applied || d.boot.applying.isSome || d.fld Reg.tskCcstat_stby != 3 then d.refuseState c 0xFF
  else if !reset && (match d.boot.profile with | some p => p.1.toNat != imgSchema img | none => false) then
    d.complete c stVersion 0
  else
    let t := d.actTarget
    let d := (d.startLong c (sfOf t) 0).raise Reg.bootUpdStat_act_pend
    { d with boot := { d.boot with activation := some ⟨c, t, reset, false⟩ } }

/-- At a superframe boundary: the change of firmware begins, or moves to the next boundary while the standby is not READY. -/
def Dev.actBoundary (d : Dev) : Dev :=
  match d.boot.activation with
  | none => d
  | some a =>
    if a.begun || decide (d.tim.slotS < a.target) then d
    else if d.fld Reg.tskCcstat_stby = 3 ∧ d.tsk.takeover.isNone then
      { d with boot := { d.boot with paused := true, activation := some { a with begun := true, target := d.tim.slotS } } }
    else { d with boot := { d.boot with activation := some { a with target := d.tim.slotS + 512 } } }

/-- The pause ends: dispatch resumes, and the held receptions become items in arrival order (R480). -/
def Dev.resume (d : Dev) : Dev :=
  let l := d.boot.hold
  let n := d.tsk.nextId
  let d := { d with boot := { d.boot with paused := false, hold := [] } }
  let d := l.foldl (fun d rx => d.createAir rx.flowKey (.uplink rx)) d
  ((d.tsk.items.filter fun i => i.staged && decide (n ≤ i.id)).foldl Dev.becomeReady d).dispatchAll

/-- The standby's firmware is gone: the pair is reset and tested. -/
def Dev.testStandby (d : Dev) : Dev :=
  { d with tsk := { d.tsk with testing := true } }.setFld Reg.tskCcstat_stby 1

/-- The event of an activation's end. -/
def Dev.activatedEvent (d : Dev) (code pauseUs : Nat) : Dev :=
  d.event 0x0033 code [(8, [byte d.boot.activeB.toNat]), (12, le 4 (d.reg Reg.bootBuild).toNat), (16, le 4 pauseUs)]

/-- An empty profile of a schema, written over the older copy (R482). -/
def Dev.resetProfile (d : Dev) (schema : Nat) : Dev :=
  d.storeProfile (le 2 0xA310 ++ le 2 schema ++ le 4 16 ++ le 4 0 ++ le 4 (crc32 []))

/-- The new pair is active: the boot record names the new bank, and delivery and command fetch resume. -/
def Dev.actResume (d : Dev) (pauseUs : Nat) : Dev :=
  match d.boot.activation with
  | none => d
  | some a =>
    if !a.begun then d
    else
      let b := !d.boot.activeB
      let img := d.bank b
      let d := { d with boot := { d.boot with
        activeB := b, applied := false, activation := none, schema := BitVec.ofNat 16 (imgSchema img) } }
      let d := ((d.restage none).setBit Reg.bootStat_bank b).setReg Reg.bootBuild (BitVec.ofNat 32 (imgBuild img))
      let d := (d.setBit Reg.bootUpdStat_act_pend false).setBit Reg.tskCcstat_active (!d.bit Reg.tskCcstat_active)
      let d := if a.reset then d.resetProfile (imgSchema img) else d
      let d := d.testStandby.resume
      ((d.bump Cnt.fwActivated).activatedEvent 0 pauseUs).finish a.cmd stOk (sfOf a.target)

/-- The activation is abandoned: the previous pair resumes the old firmware (R481). -/
def Dev.actAbandon (d : Dev) (pauseUs : Nat) : Dev :=
  match d.boot.activation with
  | none => d
  | some a =>
    if !a.begun then d
    else
      let d := { d with boot := { d.boot with activation := none } }.setBit Reg.bootUpdStat_act_pend false
      let d := d.testStandby.resume
      ((d.bump Cnt.fwActivateFail).activatedEvent 1 pauseUs).finish a.cmd stFault 0

/-- ACTIVATION_RESUME: the new pair is active `us` microseconds after T0 of the boundary. -/
def Dev.resumeAt (d : Dev) (us : Nat) : Dev :=
  match d.boot.activation with
  | none => d
  | some a => if !a.begun then d else d.dueTai (d.tickTai a.target + 1000 * us) fun d => d.actResume us

/-- ACTIVATION_ABANDON: `us` microseconds after T0 of the boundary, and not before 110 ms (R481), the new pair is not active. -/
def Dev.abandonAt (d : Dev) (us : Nat) : Dev :=
  match d.boot.activation with
  | none => d
  | some a => if !a.begun || decide (us < 110000) then d else d.dueTai (d.tickTai a.target + 1000 * us) fun d => d.actAbandon us

/-! ## Control pairs (R333 to R338) -/

/-- The standby pair starts to take over: every output of the failed pair is blocked. -/
def Dev.startTakeover (d : Dev) (cause : Nat) : Dev := { d with tsk := { d.tsk with takeover := some (byte cause) } }

/-- During the pause, the pause so far in microseconds. -/
def Dev.pauseUs (d : Dev) (a : Activation) : Nat := ((d.tai - d.tickTai a.target) / 1000).toNat

/-- The active pair has faulted (R335, R481, R499). In an activation pause, before the final checkpoint 0.5 ms after T0, it is
a takeover and the activation moves to the next boundary; later it is the new pair that faults, and the activation is
abandoned. -/
def Dev.pairFault (d : Dev) (cause : Nat) : Dev :=
  let d := if cause = 1 then d.bump Cnt.ccLockstep else if cause = 2 then d.bump Cnt.ccHeartbeat else d
  let plain (d : Dev) : Dev :=
    if d.fld Reg.tskCcstat_stby = 3 ∧ d.tsk.takeover.isNone then d.startTakeover cause else d.faultReset 1
  match d.boot.activation with
  | none => plain d
  | some a =>
    if !a.begun then plain d
    else if d.pauseUs a < 500 then
      let d := { d with boot := { d.boot with activation := some { a with begun := false, target := a.target + 512 } } }
      plain d.resume
    else d.actAbandon (d.pauseUs a)

/-- Commands fetched since the checkpoint whose final completion is not written, but for CC_SWITCH itself: the new pair
executes them again, with the effect of one execution (Table 10.4). -/
def Dev.reexec (d : Dev) : Nat :=
  (d.tsk.journal.filter fun c => d.tsk.ccSwitch != some c && !d.hif.written.contains (.compl c.idx true)).length

/-- What the new pair may put out again of what the failed one had put out since the checkpoint: an event entry with
RECOVERY, or a flood with its MSGID (Table 10.4). Which of them it repeats is a free value. -/
def Dev.repeatOne (d : Dev) (w : Written) : Dev :=
  let again := Config.freeNat d.freeCtr % 2 == 1
  let d := { d with freeCtr := d.freeCtr + 1 }
  match again, w with
  | true, .event e =>
    let e := patch e 2 [(e.getD 2 0) ||| 64]
    { d with hif := { d.hif with eventQ := d.hif.eventQ ++ [e] } }.bump Cnt.ccEventRepeat
  | true, .flood kind ttl id b => d.floodLinks none kind ttl d.gwId id.toNat b
  | _, _ => d

/-- The standby pair has replayed the journal and becomes active; its own journal starts from here. -/
def Dev.takeoverDone (d : Dev) : Dev :=
  match d.tsk.takeover with
  | none => d
  | some cause =>
    let n := d.reexec
    let sw := d.tsk.ccSwitch
    let l := d.hif.written
    let d := { d with
      tsk := { d.tsk with takeover := none, ccSwitch := none, journal := [] }
      hif := { d.hif with written := [] } }
    let d := l.foldl Dev.repeatOne d
    let b := !d.bit Reg.tskCcstat_active
    let d := (d.setBit Reg.tskCcstat_active b).setFld Reg.tskCcstat_takeovers (min 255 (d.fld Reg.tskCcstat_takeovers + 1))
    let d := (d.raise Reg.tskCcstat_takeover).testStandby
    let d := (d.bump Cnt.ccTakeover).bumpBy Cnt.ccCmdReexec n
    let d := d.event 0x000B cause.toNat [(8, [byte b.toNat]), (9, [byte (d.fld Reg.tskCcstat_stby)])]
    let d := if cause.toNat ≤ 2 then
        d.faultEvent 2 (!b).toNat
      else d
    match sw with
    | some c => d.finish c stOk 0
    | none => d

/-- CC_SWITCH: legal while the standby is READY. -/
def Dev.ccSwitchCmd (d : Dev) (c : Cmd) : Dev :=
  if d.fld Reg.tskCcstat_stby ≠ 3 ∨ d.tsk.takeover.isSome then d.refuseState c 0xFF
  else
    let d := d.startDeferred c
    { d with tsk := { d.tsk with ccSwitch := some c } }.startTakeover 3

/-- A reset pair has finished its self-test: it loads the checkpoint and is READY, or stays OFFLINE. -/
def Dev.pairTested (d : Dev) (pass : Bool) : Dev :=
  if !d.tsk.testing then d
  else
    let d := { d with tsk := { d.tsk with testing := false } }
    if pass then d.setFld Reg.tskCcstat_stby 3
    else (d.setFld Reg.tskCcstat_stby 0).raise Reg.tskCcstat_pair_fault

/-- The entries of the journal (R334): commands fetched, completions and events written, floods originated. -/
def Dev.journalLength (d : Dev) : Nat := d.tsk.journal.length + d.hif.written.length

/-- The active pair takes a checkpoint: its journal starts again (R334). -/
def Dev.checkpoint (d : Dev) : Dev :=
  { d with tsk := { d.tsk with journal := [] }, hif := { d.hif with written := [] } }

end Sys2Proof.Machine
end

