-- ==== Sys2Proof/Machine/Dram.lean ====
section
/-! DEFINITION. The DRAM controller of chapter 12: ports and ordering, the nibble code and poison, the error log, the recovery
of parity errors, urgency, refresh, training and the scrubber. -/

namespace Sys2Proof.Machine

/-! ## Ports and ordering (R384 to R386) -/

/-- Number of the queue of a request's bank. -/
def bankQueue (r : DramReq) : Nat := r.rank.toNat * 16 + r.bg.toNat * 4 + r.bank.toNat

/-- MAX_INFL as it acts (Table 12.12). -/
def Dev.maxInfl (d : Dev) (k : Nat) : Nat :=
  let v := clampNat 1 192 (d.fld (Reg.dmcPortcfg_max_infl k))
  if k = 0 then max 64 v else v

/-- May one more request of a port enter: within its own limit, 256 in all, and 64 kept for port 0? -/
def Dev.portRoom (d : Dev) (k : Nat) : Bool :=
  let own := (d.dmc.reqs.filter fun r => r.port.val == k).length
  let p0 := (d.dmc.reqs.filter fun r => r.port.val == 0).length
  decide (own < d.maxInfl k) && decide (d.dmc.reqs.length < 256) &&
    (k == 0 || decide (d.dmc.reqs.length + (64 - p0) < 256))

def Dev.retryBuf (d : Dev) (rank : Bool) : List DramReq := if rank then d.dmc.retry1 else d.dmc.retry0
def Dev.setRetry (d : Dev) (rank : Bool) (l : List DramReq) : Dev :=
  if rank then { d with dmc := { d.dmc with retry1 := l } } else { d with dmc := { d.dmc with retry0 := l } }

/-- Issue a request: in the Full configuration it enters its rank's retry buffer, or waits while the buffer holds 64 (R379). -/
def Dev.issue (d : Dev) (r : DramReq) : Dev :=
  if !d.fullConf then d
  else if (d.retryBuf r.rank).length < 64 then d.setRetry r.rank (d.retryBuf r.rank ++ [r])
  else { d with dmc := { d.dmc with unissued := d.dmc.unissued ++ [r.id] } }

/-- The writes pending in a bank queue. -/
def Dev.pendingWrites (d : Dev) (q : Nat) : List DramReq := d.dmc.reqs.filter fun r => r.write && bankQueue r == q

/-- The in-order mode of a bank queue: the writes that it waits for, if it is in that mode. -/
def Dev.inorderOf (d : Dev) (q : Nat) : Option (List Nat) := (d.dmc.inorder.find? fun x => x.1 == q).map (·.2)

/-- A request enters: a read whose row matches a pending write of its bank switches the bank queue to in-order mode until
every write pending now has retired (R385). -/
def Dev.admitReq (d : Dev) (r : DramReq) : Dev :=
  let q := bankQueue r
  let ws := d.pendingWrites q
  let d := if !r.write && ws.any fun w => w.row == r.row then
      let d := if (d.inorderOf q).isNone then d.bump Cnt.inorderEntry else d
      { d with dmc := { d.dmc with inorder := (q, ws.map (·.id)) :: d.dmc.inorder.filter fun x => x.1 != q } }
    else d
  { d with dmc := { d.dmc with
    reqs := d.dmc.reqs ++ [r], admitted := Sparse.put 0 d.dmc.admitted r.id d.tim.cyc } }.issue r

/-- A request arrives: a port at its limit waits, and so does a later request of that port (R386). -/
def Dev.arrive (d : Dev) (r : DramReq) : Dev :=
  if d.portRoom r.port && !(d.dmc.waiting.any fun w => w.port == r.port) then d.admitReq r
  else { d with dmc := { d.dmc with waiting := d.dmc.waiting ++ [r] } }

/-- Requests that waited enter as room allows, in their order. -/
def Dev.admitWaiting (d : Dev) : Dev :=
  let l := d.dmc.waiting
  l.foldl Dev.arrive { d with dmc := { d.dmc with waiting := [] } }

/-- The requests that have arrived since the last event at DMC. -/
def Dev.arriveAll (d : Dev) (l : List DramReq) : Dev := l.foldl Dev.arrive d

/-- May a request complete before those that arrived ahead of it (R384, R385)? -/
def Dev.inOrder (d : Dev) (r : DramReq) : Bool :=
  let earlier := d.dmc.reqs.takeWhile fun x => x.id != r.id
  !(d.dmc.unissued.contains r.id) && earlier.all fun e =>
    !(e.block == r.block && (e.write || r.write || e.port == r.port)) &&
      !(bankQueue e == bankQueue r && (d.inorderOf (bankQueue r)).isSome)

/-- TARGET as it acts, in nanoseconds (Table 12.12). -/
def Dev.dmcTarget (d : Dev) (k : Nat) : Nat := max 100 (d.fld (Reg.dmcPortcfg_target k))

/-- Urgency of an age against a target. -/
def urgencyOf (age target : Nat) : Nat :=
  if 4 * age < 2 * target then 0 else if 4 * age < 3 * target then 1 else if age < target then 2 else 3

/-- The fabric cycle at which the oldest request in flight of a port was admitted; none without one. -/
def Dev.oldestReq (d : Dev) (k : Nat) : Option Nat :=
  (d.dmc.reqs.find? fun r => r.port.val == k).map fun r => Sparse.get 0 d.dmc.admitted r.id

/-- The urgency of a port now, from the age of its oldest request in flight at 2.5 ns a cycle; 0 without one (R387). -/
def Dev.urgencyNow (d : Dev) (k : Nat) : Nat :=
  match d.oldestReq k with
  | none => 0
  | some c => urgencyOf (5 * (d.tim.cyc - c)) (2 * d.dmcTarget k)

/-- A port takes the urgency of its oldest request; reaching 3 counts (R387). -/
def Dev.showUrgency (d : Dev) (k : Nat) : Dev :=
  let u := d.urgencyNow k
  let old := Sparse.get 0 d.dmc.urgency k
  let d := { d with dmc := { d.dmc with urgency := Sparse.put 0 d.dmc.urgency k u } }
  if u = 3 ∧ old ≠ 3 then d.bump (Cnt.lateP k) else d

/-- A request leaves: a write that retires may end a bank queue's in-order mode, and waiting requests enter. -/
def Dev.leaveReq (d : Dev) (r : DramReq) : Dev :=
  let io := d.dmc.inorder.map fun (x : Nat × List Nat) => (x.1, x.2.filter (· != r.id))
  let d := { d with dmc := { d.dmc with
    reqs := d.dmc.reqs.filter (fun x => x.id != r.id), unissued := d.dmc.unissued.filter (· != r.id),
    inorder := io.filter fun x => !x.2.isEmpty, admitted := Sparse.put 0 d.dmc.admitted r.id 0 } }
  (d.showUrgency r.port).admitWaiting

/-! ## The error log (R378) -/

def logUeRead : Nat := 1
def logUeRmw : Nat := 2
def logUeScrub : Nat := 3
def logCaReplay : Nat := 4
def logReplayFail : Nat := 5
def logCaParity : Nat := 6

/-- DMC_ERRLOG_INFO of an entry. -/
def logInfo (ty port rank bg bank nibB nibA : Nat) : Nat :=
  ty * 2 ^ 28 + port * 2 ^ 24 + rank * 2 ^ 20 + bg * 2 ^ 18 + bank * 2 ^ 16 + nibB * 2 ^ 5 + nibA

/-- Write an entry at WR_PTR; answers its number. -/
def Dev.errLog (d : Dev) (block info count : Nat) : Dev × Nat :=
  let i := d.fld Reg.dmcErrstat_wr_ptr
  let d := if d.bit (Reg.dmcErrlogCnt_valid i) then (d.raise Reg.dmcErrstat_ovf).bump Cnt.errlogOvf else d
  let d := d.setReg (Reg.dmcErrlogAddr i) (BitVec.ofNat 32 block)
  let d := d.setReg (Reg.dmcErrlogInfo i) (BitVec.ofNat 32 info)
  let d := d.setReg (Reg.dmcErrlogTime i) (BitVec.ofNat 32 (d.sf * 2 ^ 20 + d.slot))
  let d := d.setReg (Reg.dmcErrlogCnt i) (BitVec.ofNat 32 (2 ^ 31 + min 511 count))
  (d.setFld Reg.dmcErrstat_wr_ptr ((i + 1) % 16), i)

/-- A parity entry. -/
def Dev.parityLog (d : Dev) (ty : Nat) (rank : Bool) (count : Nat) : Dev :=
  (d.errLog 0 (logInfo ty 0 rank.toNat 0 0 31 31) count).1

/-- A data error entry with its DRAM_ERROR event. -/
def Dev.dataError (d : Dev) (ty port : Nat) (rank : Bool) (bg bank block nibB nibA : Nat) : Dev :=
  let info := logInfo ty port rank.toNat bg bank nibB nibA
  let e := d.errLog block info 0
  e.1.event 0x0006 ty [(8, [byte e.2]), (12, le 4 block), (16, le 4 info)]

/-! ## What an error response does (Table 12.3) -/

/-- The message of an item is lost; a downlink completes FAULT. -/
def Dev.loseItem (d : Dev) (id : Nat) : Dev :=
  if d.tsk.items.any fun i => i.id == id then
    (d.mapItem id fun (i : Item) => { i with work := match i.work with
      | .downlink x => Work.result x (byte stFault)
      | .result x s => Work.result x s
      | _ => Work.nothing }).bump Cnt.dropDramUe
  else d

/-- The first spilled frame of a queue is dropped. -/
def Dev.loseSpilled (d : Dev) (p : PortId) (q : Nat) : Dev :=
  match (d.queue p q).frames.find? fun f => f.part == .spill with
  | none => d
  | some f =>
    let l := (d.queue p q).frames
    let d := d.setQueue p q { d.queue p q with frames := l.takeWhile (· != f) ++ (l.dropWhile (· != f)).drop 1 }
    (d.bump Cnt.dropDramUe).copyEnd f.src false false

/-- The head of a link queue is discarded. -/
def Dev.loseLinkMpdu (d : Dev) (l : Nat) : Dev :=
  match (d.link l).queue with
  | [] => d
  | _ :: t => ((d.modLink l fun k => { k with queue := t }).bump Cnt.linkDrop).bump Cnt.dropDramUe

/-- The downlink at the head of a sensor's queue completes FAULT. -/
def Dev.loseDownlink (d : Dev) (i : Nat) : Dev :=
  match (d.sensor i).queue with
  | [] => d
  | x :: _ => (d.dlFinish x stFault).bump Cnt.dropDramUe

/-- The requests that wait for a key complete FAULT, as after an unwrap failure (R347). -/
def Dev.loseKey (d : Dev) (sidx keyidx : Nat) : Dev :=
  let mine (w : KaoWait) : Bool := w.1.sidx.toNat == sidx && w.1.keyidx.toNat == keyidx
  let l := d.kao.waitKey.filter mine
  let d := { d with kao := { d.kao with waitKey := d.kao.waitKey.filter fun w => !mine w } }
  (l.foldl (fun d w => d.kaoFail w.2 stFault) (d.keyCorrupt sidx keyidx)).kaoMove

/-- An error response to a read, at the port that asked. -/
def Dev.readLost (d : Dev) (u : DramUse) : Dev :=
  match u with
  | .other => d
  | .sensorContext i => d.modSensor i fun x =>
      { x with confirmed := noMap, pendMap := none, newest := none, persist := 0, gains := [], level := none }
  | .rotation i => { d with dmc := { d.dmc with rotLost := i :: d.dmc.rotLost } }
  | .noiseFloor r c s k => d.modRadio r fun x => { x with floors := Sparse.put none x.floors (floorKey c s k) none }
  | .spilledFrame p q => d.loseSpilled p q
  | .sensorEntry k => d.setSensorAt k none
  | .staticCopy t k =>
    match t with
    | 0 => { d with fwd := { d.fwd with lostMac := Sparse.put none d.fwd.lostMac k none } }
    | 1 => { d with fwd := { d.fwd with lostIp6 := Sparse.put none d.fwd.lostIp6 k none } }
    | 4 => { d with fwd := { d.fwd with lostSrv := Sparse.put none d.fwd.lostSrv k none } }
    | _ => d
  | .itemBuffer id => d.loseItem id
  | .downlinkBuffer i => d.loseDownlink i
  | .commandBuffer tag =>
    match d.hif.runs.find? fun r => r.cmd.hdr.tag == tag with
    | some r => d.finish r.cmd stFault 0
    | none => d
  | .keyRecord s k => d.loseKey s.toNat k.toNat
  | .firmware => d
  | .linkMpdu l => d.loseLinkMpdu l

/-! ## Reads and writes (R372 to R375) -/

/-- What the check of a codeword gives: no error found, an error of one nibble corrected, or an uncorrectable error with its
failing nibbles, 31 where unknown. -/
inductive Checked where
  | clean
  | fixed (n : Nat)
  | bad (a b : Nat)
  deriving DecidableEq, Repr

/-- The nibble that a line carries in a beat (R373). -/
def nibbleOf (beat : Bool) (line : Fin 40) : Nat := 10 * beat.toNat + line.val / 4

/-- The nibbles of a codeword that hold an error. -/
def badNibbles (c : Codeword) : List Nat := (List.range 20).filter fun n => c.any fun x => nibbleOf x.1 x.2 == n

/-- The check of a codeword (R373): an error in one nibble is corrected and one in two is detected; one in more may be
detected, corrected wrongly or missed, which is free. -/
def checkWord (c : Codeword) (k : Nat) : Checked :=
  match badNibbles c with
  | [] => .clean
  | [a] => .fixed a
  | [a, b] => .bad a b
  | a :: _ => match Config.freeNat k % 3 with | 0 => .clean | 1 => .fixed a | _ => .bad 31 31

/-- The checks of a read's codewords. -/
def Dev.checkWords (d : Dev) (l : List Codeword) : Dev × List Checked :=
  ({ d with freeCtr := d.freeCtr + (l.filter fun c => decide (3 ≤ (badNibbles c).length)).length },
    l.zipIdx.map fun x => checkWord x.1 (d.freeCtr + x.2))

/-- Uncorrectable codewords of a read, with the nibbles of the first. A poisoned block decodes as uncorrectable throughout. -/
def badWords (l : List Checked) : List (Nat × Nat) :=
  l.filterMap fun c => match c with | .bad a b => some (a, b) | _ => none
/-- Codewords that the code corrects. -/
def fixedWords (l : List Checked) : Nat := (l.filter fun c => match c with | .fixed _ => true | _ => false).length

/-- Corrected errors are counted (R374). The corrected block is written back: the array of blocks holds the data as written, so
it stays. -/
def Dev.corrections (d : Dev) (l : List Checked) : Dev :=
  if fixedWords l = 0 then d else (d.bumpBy Cnt.ce (fixedWords l)).raise Reg.dmcStat_ce

/-- More than 64 uncorrectable reads in a superframe set DRAM_LOST (Table 16.4). -/
def Dev.countLost (d : Dev) : Dev :=
  let n := d.dmc.ueThisSf + 1
  let d := { d with dmc := { d.dmc with ueThisSf := n } }
  if n = 65 then (d.raise Reg.glbFault_dram_lost).bump Cnt.dramLost else d

/-- The requests complete once the data of a read has been checked (R374); a read-modify-write goes on as a write, or leaves
the block poisoned (R375). -/
def Dev.readDone (d : Dev) (r : DramReq) (words : List Codeword) : Dev :=
  let o := d.checkWords words
  let l := o.2
  let d := o.1
  let poisoned := d.dmc.poison.contains r.block.toNat
  let bad := if poisoned then List.replicate 4 (31, 31) else badWords l
  let d := d.bump Cnt.rdBlocks
  let d := if r.write then d.bump Cnt.rmw else d
  let d := if poisoned then d else d.corrections l
  match bad with
  | [] =>
    if r.write then
      { d with dmc := { d.dmc with
        reqs := d.dmc.reqs.map fun (x : DramReq) => if x.id = r.id then { x with whole := true } else x } }
    else d.leaveReq r
  | (a, b) :: _ =>
    let d := ((d.bumpBy Cnt.ue bad.length).raise Reg.dmcStat_ue).countLost
    let d := d.dataError (if r.write then logUeRmw else logUeRead) r.port r.rank r.bg.toNat r.bank.toNat r.block.toNat b a
    if r.write then
      let k := r.block.toNat
      let d := { d with dmc := { d.dmc with poison := k :: d.dmc.poison.filter (· != k) } }
      (d.bump Cnt.wrBlocks).leaveReq r
    else (d.leaveReq r).readLost r.use

/-- A DRAM read completes. -/
def Dev.dramReadDone (d : Dev) (arrived : List DramReq) (id : Nat) (l : List Codeword) : Dev :=
  let d := d.arriveAll arrived
  match d.dmc.reqs.find? fun r => r.id == id with
  | none => d
  | some r =>
    if (r.write && r.whole) || !d.inOrder r || d.dmc.recovery.any (·.low) then d else d.readDone r l

/-- A write retires to the DRAM. -/
def Dev.dramWriteRetire (d : Dev) (arrived : List DramReq) (id : Nat) : Dev :=
  let d := d.arriveAll arrived
  match d.dmc.reqs.find? fun r => r.id == id with
  | none => d
  | some r =>
    if !r.write || !r.whole || !d.inOrder r || d.dmc.recovery.any (·.low) then d
    else
      let k := r.block.toNat
      let d := { d with dmc := { d.dmc with
        blocks := Sparse.put 0 d.dmc.blocks k r.data, poison := d.dmc.poison.filter (· != k) } }
      (d.bump Cnt.wrBlocks).leaveReq r

/-! ## Command/address parity (R379 to R382) -/

/-- Every command in flight is answered with an error response. An error response to a write leaves the block's content
undefined: a free value (R381). -/
def Dev.failInFlight (d : Dev) : Dev :=
  let l := d.dmc.reqs
  let d := { d with dmc := { d.dmc with reqs := [], unissued := [], retry0 := [], retry1 := [], inorder := [], urgency := [] } }
  let d := l.foldl (fun d r =>
    if r.write then
      { d with freeCtr := d.freeCtr + 1, dmc := { d.dmc with
        blocks := Sparse.put 0 d.dmc.blocks r.block.toNat (BitVec.ofNat 256 (Config.freeNat d.freeCtr)) } }
    else d.readLost r.use) d
  ((d.bump Cnt.caFail).raise Reg.dmcStat_ca_fail).admitWaiting

/-- ALERT_N falls. -/
def Dev.alertFall (d : Dev) (arrived : List DramReq) (rank : Bool) : Dev :=
  let d := (d.arriveAll arrived).bump Cnt.caAlert
  let n := d.dmc.reqs.length
  if !d.fullConf then
    let d := (d.parityLog logCaParity rank n).failInFlight
    { d with dmc := { d.dmc with recovery := some ⟨rank, 3, true, 0⟩ } }
  else
    let k := match d.dmc.recovery with | some r => r.alerts + 1 | none => 1
    if 3 ≤ k then
      let d := (d.parityLog logReplayFail rank n).failInFlight
      { d with dmc := { d.dmc with recovery := some ⟨rank, 3, true, 0⟩ } }
    else { d with dmc := { d.dmc with recovery := some ⟨rank, k, true, 0⟩ } }

/-- ALERT_N rises: the parity status is cleared, the banks are precharged, and the retry buffer is replayed. -/
def Dev.alertRise (d : Dev) : Dev :=
  match d.dmc.recovery with
  | none => d
  | some r =>
    if !r.low then d
    else if 3 ≤ r.alerts then { d with dmc := { d.dmc with recovery := none } }
    else
      let n := (d.retryBuf r.rank).length
      let d := ((d.bumpBy Cnt.caReplayedCmds n).raise Reg.dmcStat_replay).parityLog logCaReplay r.rank n
      { d with dmc := { d.dmc with recovery := if n = 0 then none else some { r with low := false, left := n } } }

/-- The oldest entry of a rank's retry buffer is confirmed; a request that waited for room is issued. -/
def Dev.retryRetire (d : Dev) (rank : Bool) : Dev :=
  match d.retryBuf rank with
  | [] => d
  | _ :: t =>
    let d := d.setRetry rank t
    let d := match d.dmc.recovery with
      | some r => if r.rank = rank ∧ !r.low then
          { d with dmc := { d.dmc with recovery := if r.left ≤ 1 then none else some { r with left := r.left - 1 } } }
        else d
      | none => d
    match d.dmc.reqs.find? fun r => r.rank == rank && d.dmc.unissued.contains r.id with
    | some r => { d with dmc := { d.dmc with unissued := d.dmc.unissued.filter (· != r.id) } }.setRetry rank (t ++ [r])
    | none => d

/-! ## Urgency and refresh (R387, R388) -/

/-- Fabric cycles until a request reaches an urgency: 50, 75 and 100 % of TARGET for 1, 2 and 3. -/
def urgencyCycles (target u : Nat) : Nat := (target * (u + 1) + 9) / 10

/-- A port's oldest request in flight reaches the next threshold of urgency. -/
def Dev.urgencyChange (d : Dev) (arrived : List DramReq) (k : Fin 8) : Dev :=
  let d := d.arriveAll arrived
  match d.oldestReq k with
  | none => d
  | some c => d.due (c + urgencyCycles (d.dmcTarget k) (min 3 (Sparse.get 0 d.dmc.urgency k + 1))) fun d => d.showUrgency k

/-! ## Training (R390 to R394) -/

def tempDiffNat (a b : Nat) : Nat := (toSigned 8 a - toSigned 8 b).natAbs
def Dev.calDt (d : Dev) : Nat := orElse0 (d.cfgFld Reg.dmcCalcfg_cal_dt) 1

/-- Start a retraining run, unless one is in progress. -/
def Dev.startTrain (d : Dev) : Dev :=
  match d.dmc.run with
  | some _ => d
  | none => { d with dmc := { d.dmc with run := some ⟨byte (d.fld Reg.dmcTemp_now), false, none, []⟩ } }.setFld
      Reg.dmcStat_train 1

/-- At the tick of slot 0 the PHY temperature is read (R391). -/
def Dev.readPhyTemp (d : Dev) (t : Byte) : Dev :=
  let d := d.setFld Reg.dmcTemp_now t.toNat
  if d.cfgBit Reg.dmcCalcfg_auto_en && decide (d.calDt < tempDiffNat t.toNat (d.fld Reg.dmcTemp_last)) then d.startTrain else d

/-- The run ends with a status for the commands that wait for it. -/
def Dev.endTrain (d : Dev) (run : TrainRun) (status : Nat) : Dev :=
  let d := { d with dmc := { d.dmc with run := none } }.setFld Reg.dmcStat_train 0
  run.joined.foldl (fun d c => d.finish c status 0) d

/-- A run has measured how far each lane's centre has moved (R392, R393). -/
def Dev.retrainMeasured (d : Dev) (shifts : List Int) : Dev :=
  match d.dmc.run with
  | none => d
  | some run =>
    if run.result.isSome then d
    else if shifts.any fun x => decide (16 < x.natAbs) then
      let d := (d.raise Reg.dmcStat_train_suspect).bump Cnt.trainSuspect
      if run.suspect then (d.event 0x0011 1 []).endTrain run Config.trainFail.val
      else { d with dmc := { d.dmc with run := some { run with suspect := true } } }
    else
      let ranks := if d.fullConf then [false, true] else [false]
      { d with dmc := { d.dmc with run := some { run with result := some (shifts, ranks) } } }.setFld Reg.dmcStat_train 2

/-- Each lane's new centre is taken. -/
def addTaps : List Int → List Int → List Int
  | [], l => l
  | l, [] => l
  | a :: l, b :: m => (a + b) :: addTaps l m

/-- A refresh of a rank applies a result that waits for it, unless a parity recovery runs (R383, R392). -/
def Dev.applyTrain (d : Dev) (rank : Bool) : Dev :=
  match d.dmc.run with
  | none => d
  | some run =>
    match run.result with
    | none => d
    | some (shifts, ranks) =>
      if d.dmc.recovery.isSome || !ranks.contains rank then d
      else
        let left := ranks.filter (· != rank)
        if left = [] then
          let d := { d with dmc := { d.dmc with taps := addTaps d.dmc.taps shifts } }
          let d := ((d.raise Reg.dmcStat_train_applied).bump Cnt.retrainRun).setFld Reg.dmcTemp_last run.temp.toNat
          d.endTrain run stOk
        else { d with dmc := { d.dmc with run := some { run with result := some (shifts, left) } } }

/-- Fabric cycles of a refresh interval: 7.8 µs, or 3.9 µs with REF_2X (R371). -/
def Dev.refreshCycles (d : Dev) : Nat := if d.bit Reg.dmcCfg_ref_2x then 1560 else 3120

/-- A refresh interval of a rank expires: postponed while a port is at urgency 3, at most 4 times (R388). -/
def Dev.refresh (d : Dev) (rank : Bool) : Dev :=
  let c := (if rank then d.dmc.refFrom1 else d.dmc.refFrom0) + d.refreshCycles
  d.due c fun d =>
  let d := { d with dmc := { d.dmc with
    refFrom0 := if rank then d.dmc.refFrom0 else c, refFrom1 := if rank then c else d.dmc.refFrom1 } }
  let n := if rank then d.dmc.postponed1 else d.dmc.postponed0
  let set (d : Dev) (v : Nat) : Dev :=
    if rank then { d with dmc := { d.dmc with postponed1 := v } } else { d with dmc := { d.dmc with postponed0 := v } }
  if d.dmc.urgency.any (fun x => x.2 == 3) && decide (n < 4) then (set d (n + 1)).bump Cnt.refPostponed
  else (set d 0).applyTrain rank

/-- DRAM_TRAIN starts a run, or joins the one in progress (R391). -/
def Dev.dramTrain (d : Dev) (c : Cmd) : Dev :=
  let d := (d.startLong c 0 0).startTrain
  match d.dmc.run with
  | some run => { d with dmc := { d.dmc with run := some { run with joined := run.joined ++ [c] } } }
  | none => d

/-- On leaving self-refresh, a run is completed and applied when the temperature has moved (R394). How far it moves each
lane's centre is a free value. -/
def Dev.wakeTrain (d : Dev) : Dev :=
  if d.calDt < tempDiffNat (d.fld Reg.dmcTemp_now) (d.fld Reg.dmcTemp_last) then
    let d := { d with freeCtr := d.freeCtr + 1, dmc := { d.dmc with taps := addTaps d.dmc.taps (Config.laneShifts d.freeCtr) } }
    ((d.raise Reg.dmcStat_train_applied).bump Cnt.retrainRun).setFld Reg.dmcTemp_last (d.fld Reg.dmcTemp_now)
  else d

/-! ## The patrol scrubber (R376) -/

/-- Blocks in the areas of Table 12.6. -/
def Dev.areaBlocks (d : Dev) : Nat := if d.fullConf then (641 * 4 + 3) * 8192 + 256 else (365 * 4 + 3) * 8192 + 128

/-- Fabric cycles from one visit of the scrubber to the next: HOURS hours, 0 acting as 1, over the blocks of the areas. -/
def Dev.scrubCycles (d : Dev) : Nat := orElse0 (d.cfgFld Reg.dmcScrubcfg_hours) 1 * 3600 * cyclesPerS / d.areaBlocks

/-- The scrubber visits a block when its interval ends, unless a port's write to it is pending; it visits the block again after that write. -/
def Dev.scrubVisit (d : Dev) (block : BitVec 29) (words : List Codeword) : Dev :=
  let c := d.dmc.scrubFrom + d.scrubCycles
  d.due c fun d =>
  let d := { d with dmc := { d.dmc with scrubFrom := c } }.applyBoundary .scrub
  let o := d.checkWords words
  let l := o.2
  if !d.cfgBit Reg.dmcScrubcfg_en || d.dmc.reqs.any fun r => r.write && r.block == block then d
  else
    let d := o.1
    let poisoned := d.dmc.poison.contains block.toNat
    let bad := if poisoned then [(31, 31)] else badWords l
    let d := if poisoned then d else d.corrections l
    let d := match bad with
      | [] => d
      | (a, b) :: _ =>
        ((d.raise Reg.dmcStat_ue).bump Cnt.ueScrub).dataError logUeScrub 0 false 0 0 block.toNat b a
    let n := d.dmc.scrubPos + 1
    if d.areaBlocks ≤ n then { d with dmc := { d.dmc with scrubPos := 0 } }.bump Cnt.scrubPass
    else { d with dmc := { d.dmc with scrubPos := n } }

end Sys2Proof.Machine
end

