-- ==== Sys2Proof/Machine/Eth.lean ====
section
/-! DEFINITION. The Ethernet ports of chapter 09: reception, cut-through, pause, links, the link pair and its steps, MDIO. -/

namespace Sys2Proof.Machine

/-! ## Pause (R293 to R298) -/

/-- Ingress buffer occupancy in bytes. -/
def Dev.occ (d : Dev) (p : PortId) : Nat := (d.port p).inBuf.foldl (fun a f => a + f.len) 0
def Dev.highPct (d : Dev) (p : PortId) : Nat := clampNat 30 95 (d.fld (Reg.ethPausecfg_high_pct p))
def Dev.high (d : Dev) (p : PortId) : Nat := 524288 * d.highPct p / 100
def Dev.low (d : Dev) (p : PortId) : Nat := 524288 * min (d.fld (Reg.ethPausecfg_low_pct p)) (d.highPct p - 25) / 100

/-- XON: when occupancy reaches HIGH, XOFF with a full pause. -/
def Dev.xoffCheck (d : Dev) (p : PortId) : Dev :=
  if !d.bit (Reg.ethPausecfg_tx_en p) || d.bit (Reg.ethStat_xoff p) || decide (d.occ p < d.high p) then d
  else
    let d := (d.raise (Reg.ethStat_xoff p)).bump (Cnt.xoffEntry p)
    d.modPort p fun x => { x with pauseQ := x.pauseQ ++ [2048], xoffIntervals := 0, xoffFrom := d.tim.cyc }

/-- Fabric cycles of a number of pause quanta of 512 bit times at the port's rate. -/
def Dev.quantaCycles (d : Dev) (p : PortId) (n : Nat) : Nat := n * 512 * cyclesPerUs / max 1 (d.rateMb p)

/-- The controller at the start of an interval in XOFF (R294); the interval of 2,048 quanta begins there. -/
def Dev.controlPause (d : Dev) (p : PortId) : Dev :=
  let d := d.modPort p fun x => { x with xoffFrom := d.tim.cyc }
  if !d.bit (Reg.ethPausecfg_tx_en p) then d.setBit (Reg.ethStat_xoff p) false
  else if d.occ p ≤ d.low p then
    (d.setBit (Reg.ethStat_xoff p) false).modPort p fun x => { x with pauseQ := x.pauseQ ++ [0] }
  else
    let q := (roundDiv ((2048 : Int) * (min (d.high p - d.low p) (d.occ p - d.low p) : Nat))
      ((max 1 (d.high p - d.low p) : Nat) : Int)).toNat
    d.modPort p fun x => { x with pauseQ := x.pauseQ ++ [q], xoffIntervals := min 2 (x.xoffIntervals + 1) }

/-- PAUSE_INTERVAL: in XOFF, 2,048 quanta after the last interval began. -/
def Dev.pauseInterval (d : Dev) (p : PortId) : Dev :=
  if !d.bit (Reg.ethStat_xoff p) then d
  else d.due ((d.port p).xoffFrom + d.quantaCycles p 2048) fun d => d.controlPause p

/-- PAUSED_US for the part of a received pause that has passed. -/
def Dev.countPaused (d : Dev) (p : PortId) : Dev :=
  if d.paused p then d.bumpBy (Cnt.pausedUs p) (d.usSince (d.port p).pauseFrom) else d

/-- A received PAUSE frame (R297): it replaces the time remaining. -/
def Dev.takePause (d : Dev) (p : PortId) (quanta : Nat) : Dev :=
  let d := d.bump (Cnt.rxPause p)
  if !d.bit (Reg.ethPausecfg_rx_en p) || d.bit (Reg.ethStat_storm p) then d
  else
    let d := d.countPaused p
    let d := d.modPort p fun x => { x with
      pauseLeft := quanta, pauseFrom := d.tim.cyc, heldFrom := if d.paused p then x.heldFrom else d.tim.cyc }
    d.setBit (Reg.ethStat_paused p) (quanta != 0)

/-- PAUSE_EXPIRY: the quanta have passed. -/
def Dev.pauseExpiry (d : Dev) (p : PortId) : Dev :=
  let n := d.quantaCycles p (d.port p).pauseLeft
  if !d.paused p then d
  else d.due ((d.port p).pauseFrom.toNat + n) fun d =>
    ((d.bumpBy (Cnt.pausedUs p) (n / cyclesPerUs)).setBit (Reg.ethStat_paused p) false).modPort p fun x =>
      { x with pauseLeft := 0 }

/-- PAUSE_STORM: received pause has held the port for STORM_MS without a gap (R298). -/
def Dev.pauseStorm (d : Dev) (p : PortId) : Dev :=
  if !d.paused p ∨ d.fld (Reg.ethPausecfg_storm_ms p) = 0 then d
  else d.due ((d.port p).heldFrom + d.fld (Reg.ethPausecfg_storm_ms p) * cyclesPerMs) fun d =>
    let d := ((d.countPaused p).setBit (Reg.ethStat_paused p) false).raise (Reg.ethStat_storm p)
    let d := d.modPort p fun x => { x with pauseLeft := 0, stormFrom := d.tim.cyc }
    (d.bump (Cnt.vPauseStorm p)).violation 0x40 p [(8, [byte p])]

/-- STORM_END, one second after the storm was declared. -/
def Dev.stormEnd (d : Dev) (p : PortId) : Dev :=
  if !d.bit (Reg.ethStat_storm p) then d
  else d.due ((d.port p).stormFrom + cyclesPerS) fun d => d.setBit (Reg.ethStat_storm p) false

/-! ## Reception (R285, R286, R291, R292, R296) -/

/-- The FCS of a frame (IEEE 802.3): the CRC32 with each byte least significant bit first, reflected. -/
def ethFcs (b : List Byte) : Nat :=
  let bits := b.flatMap fun x => (bitsMsb 8 x.toNat).reverse
  ofBitsMsb ((bitsMsb 32 (bits.foldl (crcBit 32 0x04C11DB7) 0xFFFFFFFF ^^^ 0xFFFFFFFF)).reverse)

/-- The cause of Table 9.2 under which a frame is dropped. -/
def Dev.rxCause (d : Dev) (p : PortId) (f : EthRx) : Option Nat :=
  let n := f.bytes.length + 4
  if n < 64 then some (Cnt.rxRunt p)
  else if d.maxLen p < n then some (Cnt.rxOversize p)
  else if f.codeErr then some (Cnt.rxCodeErr p)
  else if f.fcs.toNat ≠ ethFcs f.bytes then some (Cnt.rxFcsErr p)
  else if beAt f.bytes 12 2 = 0x8808 ∧ beAt f.bytes 14 2 ≠ 1 then some (Cnt.rxCtrlOther p)
  else none

/-- The length that the guard band assumes for a frame: that of its IP header, or MAXLEN. -/
def Dev.assumedLen (d : Dev) (p : PortId) (b : List Byte) : Nat :=
  let x := parseFrame b
  if x.l3 = 1 then x.l3off + beAt b (x.l3off + 2) 2 + 4
  else if x.l3 = 2 then x.l3off + 40 + beAt b (x.l3off + 4) 2 + 4
  else d.maxLen p

/-- The cut-through conditions of R291 for a frame from `p` whose only copy is for port `x`, queue `q`. -/
def Dev.cutsThrough (d : Dev) (p : PortId) (x q : Nat) (f : EgFrame) : Bool :=
  let o := d.outPort x f.pick
  let y := d.queue o q
  let held := match d.eth.moving with | some m => m.dest == o && f.pick == m.flow | none => false
  (d.port p).inBuf.isEmpty && d.linkUp o && y.frames.isEmpty && (d.port o).sending.isNone && !d.paused o && !held &&
    (!y.shapeOn || decide (0 ≤ y.tokens)) && d.endsWithin o (d.assumedLen o f.bytes) (d.gateLeft o q) &&
    decide (d.rateMb o ≤ d.rateMb p) && !(f.bounded && decide (d.maxLen o < f.bytes.length + 4))

/-- Cut a frame through; `bad` when it fails on ingress, and the egress frame ends with an inverted FCS. -/
def Dev.cutThrough (d : Dev) (x q : Nat) (f : EgFrame) (bad : Bool) : Dev :=
  let o := d.outPort x f.pick
  (d.bump (Cnt.cutThrough o)).txBegin o q { f with stomp := bad }

/-- A frame in PPL as a message of source ETH; its ingress stamp is the device clock with TIM_ETH_INCORR added (R243). -/
def Dev.ethMsg (d : Dev) (p : PortId) (f : EthRx) : Msg :=
  { cls := 0, idx := p, ver := d.curVer, stamp := d.corrected (d.signedFld (Reg.timEthIncorr_corr p)), src := .eth p, form := .frame, bytes := f.bytes, sidx := none }

/-- A good frame: classified, cut through or stored, and moved on as its copies find room. -/
def Dev.goodFrame (d : Dev) (p : PortId) (f : EthRx) : Dev :=
  let n := f.bytes.length + 4
  if 524288 < d.occ p + n then
    let d := d.bump (Cnt.dropInFull p)
    if 2 ≤ (d.port p).xoffIntervals ∧ d.bit (Reg.ethStat_xoff p) then
      (d.bump (Cnt.vPauseIgnored p)).violation 0x41 p [(8, [byte p])]
    else d
  else
    let d := (d.bump (Cnt.rxOk p)).bumpBy (Cnt.rxBytes p) n
    let ver := d.curVer
    let o := d.pplFrame (d.ethMsg p f) (some p) none fun d x => d.learn x p f.hostMac f.hostIp6
    let d := o.1
    let store (d : Dev) : Dev :=
      let d := d.modPort p fun x => { x with inBuf := x.inBuf ++ [⟨n, ver, .eth p, o.2⟩] }
      (Dev.pumpIn p ((d.port p).inBuf.length + 1) d).xoffCheck p
    match o.2 with
    | [.port x q g] => if d.cutsThrough p x q g then d.cutThrough x q g false else store d
    | _ => store d

/-- Does a frame's classification complete before its end: has it more than 256 payload bytes (R253)? -/
def Dev.classifiedEarly (d : Dev) (b : List Byte) : Bool := decide (256 < (d.payloadOf b (parseFrame b)).length)

/-- A bad frame: counted under its cause. One whose classification was complete before its end may have been cut through
meanwhile, and its egress frame then ends with an inverted FCS (R292); in every other case its way through PPL leaves no trace
(DEDUCED, log entry 211). -/
def Dev.badFrame (d : Dev) (p : PortId) (f : EthRx) (cause : Nat) : Dev :=
  let d := d.bump cause
  let g := if cause = Cnt.rxOversize p then { f with bytes := f.bytes.take (d.maxLen p - 3) } else f
  if cause = Cnt.rxRunt p ∨ cause = Cnt.rxCtrlOther p ∨ d.classifiedEarly g.bytes = false then d
  else
    let o := d.pplFrame (d.ethMsg p g) (some p) none fun d _ => d
    match o.2 with
    | [.port x q y] => if o.1.cutsThrough p x q y then o.1.cutThrough x q y true else d
    | _ => d

/-- FRAME_RECEIVED. -/
def Dev.frameReceived (d : Dev) (p : PortId) (f : EthRx) : Dev :=
  if !d.linkUp p then d
  else match d.rxCause p f with
    | some c => d.badFrame p f c
    | none =>
      if beAt f.bytes 12 2 = 0x8808 ∧ f.bytes.length = 60 then d.takePause p (beAt f.bytes 16 2) else d.goodFrame p f

/-! ## The pair: flow moves (R301, R302, R304) -/

/-- Frames of a port that a flow move waits for. -/
def Dev.markedOn (d : Dev) (p : PortId) : Bool :=
  (d.port p).queues.any (fun (q : Nat × EgQueue) => q.2.frames.any fun f => f.marked) ||
    (match (d.port p).sending with | some s => s.2.marked | none => false)

/-- Change every frame of a port. -/
def Dev.mapFrames (d : Dev) (p : PortId) (f : EgFrame → EgFrame) : Dev :=
  d.modPort p fun x => { x with
    queues := x.queues.foldl (fun (t : Sparse EgQueue) (q : Nat × EgQueue) =>
      Sparse.put emptyQueue t q.1 { q.2 with frames := q.2.frames.map f }) []
    sending := x.sending.map fun s => (s.1, f s.2) }

def Dev.setModeOf (d : Dev) (p : PortId) (m : Nat) : Dev := d.setFld (Reg.ethCfg_mode p) m

/-- The port's link is lost: what Table 9.11 shows, LINK_DOWN and the ETH_LINK event (R282, R283). -/
def Dev.linkLost (d : Dev) (p : PortId) : Dev :=
  if !d.linkUp p then d
  else
    let d := (d.countPaused p).setReg (Reg.ethStat p) (d.reg (Reg.ethStat p) &&& 0x0000004C)
    let d := d.modPort p fun x => { x with pauseLeft := 0, pauseQ := [], xoffIntervals := 0, busyUntil := d.tim.cyc }
    ((d.raise (Reg.ethStat_link_chg p)).bump (Cnt.linkDown p)).event 0x0013 0 [(8, [byte p, 0])]

/-- A flow move is over: held frames may go. -/
def Dev.moveOver (d : Dev) : Dev :=
  let clear (f : EgFrame) : EgFrame := { f with held := false, marked := false }
  let d := (d.mapFrames 0 clear).mapFrames 1 clear
  { d with eth := { d.eth with moving := none } }

/-- Start to move the flows that select `flow` to member `to` (R301): the other member's frames are marked. -/
def Dev.startMove (d : Dev) (dest flow : PortId) : Dev :=
  let d := d.mapFrames (otherPort dest) fun f => { f with marked := true }
  { d with eth := { d.eth with moving := some ⟨dest, flow⟩ } }

/-- A frame that a down port drops. -/
def Dev.flushPort (d : Dev) (p : PortId) : Dev :=
  let sent := match (d.port p).sending with | some s => [s.2] | none => []
  let l := sent ++ (d.port p).queues.flatMap fun (q : Nat × EgQueue) => q.2.frames
  let d := d.modPort p fun x => { x with
    sending := none
    queues := x.queues.foldl (fun (t : Sparse EgQueue) (q : Nat × EgQueue) =>
      Sparse.put emptyQueue t q.1 { q.2 with frames := [], deficit := 0 }) [] }
  l.foldl (fun d f => (d.bump (Cnt.dropLinkDown p)).copyEnd f.src false false) d

/-- The pair may just have ended; `was` says whether it stood before. A move in progress ends with it, and a port that is down
and no member any more drops its frames (R283). -/
def Dev.pairEnded (d : Dev) (was : Bool) : Dev :=
  if !was || d.pairOn then d
  else [(0 : PortId), 1].foldl (fun d p => if d.linkUp p then d else d.flushPort p) d.moveOver

/-- The step is over: a write to ETH_PAIRCFG made meanwhile takes effect (R315). -/
def Dev.stepOver (d : Dev) : Dev :=
  { d with eth := { d.eth with pairStep := none, pairCfg := none, below := 0 } }.pairEnded d.pairOn

/-- The drained member announces: Remote Fault for 10 ms (Table 9.6). -/
def Dev.announce (d : Dev) (s : PairStep) : Dev :=
  { d with eth := { d.eth with pairStep := some { s with phase := .announce, since := d.tim.cyc } } }.out (.remoteFault s.member)

/-- Start one member's step: drain. -/
def Dev.startStep (d : Dev) (p : PortId) (newMode : Nat) : Dev :=
  let s : PairStep := ⟨p, .drain, newMode, d.fld (Reg.ethCfg_mode p), d.tim.cyc⟩
  let d := { d with eth := { d.eth with pairStep := some s, pairCfg := some d.pairWord } }
  let d := d.startMove (otherPort p) p
  if d.markedOn p then d else d.moveOver.announce s

/-- The flows are back on a member that has stepped: the second member's step starts, or the step is over. -/
def Dev.stepReturned (d : Dev) (s : PairStep) : Dev := if s.member = 1 then d.startStep 0 s.newMode else d.stepOver

/-- A flow move has completed: what follows in a step. -/
def Dev.moveDone (d : Dev) : Dev :=
  let d := d.moveOver
  match d.eth.pairStep with
  | none => d
  | some s => match s.phase with
    | .drain => d.announce s
    | .back => d.stepReturned s
    | _ => d

/-- FLOW_MOVE_COMPLETE. -/
def Dev.flowMoveComplete (d : Dev) : Dev :=
  match d.eth.moving with
  | none => d
  | some m => if d.markedOn (otherPort m.dest) then d else d.moveDone

/-- PAIR_STEP_CHANGE, 10 ms after Announce: MODE changes and the link restarts. -/
def Dev.pairStepChange (d : Dev) : Dev :=
  match d.eth.pairStep with
  | none => d
  | some s =>
    if s.phase ≠ .announce then d
    else d.due (s.since + 10 * cyclesPerMs) fun d =>
      let d := (d.linkLost s.member).setModeOf s.member s.newMode
      { d with eth := { d.eth with pairStep := some { s with phase := .change, since := d.tim.cyc } } }

/-- PAIR_STEP_TIMEOUT, 100 ms after Change (R306). -/
def Dev.pairStepTimeout (d : Dev) : Dev :=
  match d.eth.pairStep with
  | none => d
  | some s =>
    if s.phase ≠ .change then d
    else d.due (s.since + 100 * cyclesPerMs) fun d =>
      let d := ((d.setModeOf s.member s.oldMode).raise (Reg.ethStat_rate_fail s.member)).setBit Reg.ethPaircfg_step_en false
      d.stepOver

/-- The decision at the end of a load window of these data bits in each direction (R303). -/
def Dev.judgeLoad (d : Dev) (rx tx : Nat) : Dev :=
  let w := d.pairWord
  let mode := d.fld (Reg.ethCfg_mode 0)
  let load := max rx tx
  if Reg.ethPaircfg_en.of w = 0 ∨ Reg.ethPaircfg_step_en.of w = 0 ∨ d.eth.pairStep.isSome ∨ d.eth.moving.isSome ∨
      mode = 0 ∨ 3 < mode ∨ d.fld (Reg.ethCfg_mode 1) ≠ mode ∨ !d.linkUp 0 ∨ !d.linkUp 1 then d
  else
    let cap := 2 * modeRate mode * 1000000
    let lower := 2 * modeRate (mode + 1) * 1000000
    let n := if mode < 3 ∧ load * 100 < Reg.ethPaircfg_down_pct.of w * lower then d.eth.below + 1 else 0
    let d := { d with eth := { d.eth with below := n } }
    if 1 < mode ∧ Reg.ethPaircfg_up_pct.of w * cap < load * 100 then d.startStep 1 (mode - 1)
    else if mode < 3 ∧ orElse0 (Reg.ethPaircfg_hold_s.of w) 1 ≤ n then d.startStep 1 (mode + 1)
    else d

/-- LOAD_WINDOW: a window of one second ends. -/
def Dev.loadWindow (d : Dev) (rx tx : Nat) : Dev :=
  d.due (d.eth.loadFrom + cyclesPerS) fun d => { d with eth := { d.eth with loadFrom := d.tim.cyc } }.judgeLoad rx tx

/-- A failed member's frames go to the heads of the other member's queues, the frame it was sending first (R302). -/
def Dev.memberFailover (d : Dev) (p : PortId) : Dev :=
  let o := otherPort p
  let clear (f : EgFrame) : EgFrame := { f with held := false, marked := false }
  let sent := (d.port p).sending
  let d := (List.range 8).foldl (fun d q =>
    let head := match sent with | some (k, f) => if k = q then [f] else [] | none => []
    let l := (head ++ (d.queue p q).frames).map clear
    (d.setQueue o q { d.queue o q with frames := l ++ (d.queue o q).frames }).setQueue p q
      { d.queue p q with frames := [] }) d
  let d := (d.modPort p fun x => { x with sending := none }).moveOver
  (d.bump Cnt.linkFailover).faultEvent 5 p

/-- A step meets a failure: the stepping member goes back to its previous MODE when the other fails, and a stepping member
that fails while it drains has nothing more to drain (R306). -/
def Dev.stepFailure (d : Dev) (p : PortId) : Dev :=
  match d.eth.pairStep with
  | none => d
  | some s =>
    if s.member ≠ p then
      (if s.phase = .change then d.setModeOf s.member s.oldMode else d).stepOver
    else if s.phase = .drain then d.announce s
    else if s.phase = .back then d.stepOver
    else d

/-- LINK_DOWN (R282, R283, R302). -/
def Dev.linkDown (d : Dev) (p : PortId) : Dev :=
  if !d.linkUp p then d
  else
    let d := d.linkLost p
    if d.pairOn then (d.memberFailover p).stepFailure p else d.flushPort p

/-- The MODE of a port as it acts. -/
def Dev.modeOf (d : Dev) (p : PortId) : Nat := let m := d.fld (Reg.ethCfg_mode p); if m ≤ 4 then m else 0

/-- LINK_UP (R282, Table 9.6). In LEAN a port in MODE 1 or 2 stays off (Table 14.4). -/
def Dev.linkIsUp (d : Dev) (p : PortId) : Dev :=
  let m := d.modeOf p
  if d.linkUp p ∨ m = 0 ∨ (m ≤ 2 ∧ d.fld Reg.pwrState_state = 1) then d
  else
    let d := ((d.raise (Reg.ethStat_link p)).setFld (Reg.ethStat_rate p) m).setBit (Reg.ethStat_an_done p) (decide (3 ≤ m))
    let d := d.event 0x0013 0 [(8, [byte p, byte m])]
    if !d.pairOn then d
    else
      let back (d : Dev) : Dev :=
        let d := d.startMove p p
        if d.markedOn (otherPort p) then d else d.moveDone
      match d.eth.pairStep with
      | none => back d
      | some s =>
        if s.member = p ∧ s.phase = .change then
          back ({ d with eth := { d.eth with pairStep := some { s with phase := .back } } }.bump (Cnt.rateStep p))
        else d

/-- A write to ETH_CFG has changed MODE: the port restarts (R283). -/
def Dev.modeWritten (d : Dev) (p : PortId) (old : Nat) : Dev :=
  if d.fld (Reg.ethCfg_mode p) = old ∨ !d.linkUp p then d else d.linkDown p

/-! ## MDIO (R284) -/

/-- MDIO_START: a write of ETH_MDIO while it is not busy. -/
def Dev.mdioStart (d : Dev) (v : Word) : Dev :=
  if d.bit Reg.ethMdio_busy then d
  else
    let w := (v &&& 0xFFFCFFFF) ||| (d.reg Reg.ethMdio &&& 0x00010000)
    let d := d.setReg Reg.ethMdio w
    if !v.getLsbD 31 then d
    else
      let op := v.toNat / 2 ^ 28 % 4
      let rd := decide (2 ≤ op)
      { d with eth := { d.eth with mdioRead := rd } }.out (.mdio v)

/-- MDIO_FRAME_DONE. -/
def Dev.mdioDone (d : Dev) (ack : Bool) (data : BitVec 16) : Dev :=
  if !d.bit Reg.ethMdio_busy then d
  else
    let d := d.setBit Reg.ethMdio_busy false
    if d.eth.mdioRead then (d.setBit Reg.ethMdio_noack (!ack)).setFld Reg.ethMdio_data data.toNat else d

end Sys2Proof.Machine
end

