-- ==== Sys2Proof/Machine/Hif.lean ====
section
/-! DEFINITION. The host interface of chapter 13: the doorbell page, ring enables, the move between STANDALONE and HOSTED, TX
descriptors, moderated interrupts and the survey. -/

namespace Sys2Proof.Machine

/-! ## The doorbell page (R402 to R404) -/

/-- Offset, in words, of a ring's doorbell word. -/
def doorbellWord (i : Nat) : Nat := if i < 3 then i else i + 16

/-- The rings of Table 13.2. -/
def ringNumbers : List Nat := (List.range 48).filter ringExists

/-- The highest host index that is valid for a ring: the device's own index for the rings that it fills; for the others, as
many entries beyond the oldest that it still owns as the ring holds. -/
def Dev.ringLimit (d : Dev) (i : Nat) : Nat :=
  let r := d.ring i
  if i = 1 ∨ i = 2 then r.dev else r.back.foldl min r.dev + d.ringSize i

/-- A poll shows the host index of a ring; for an RX ring the new descriptors are read. -/
def Dev.pollRing (d : Dev) (i v : Nat) (posts : List RxPost) : Dev :=
  let r := d.ring i
  if !d.ringLive i then d
  else if v < r.host ∨ d.ringLimit i < v then
    ((d.haltRing i).bump Cnt.vRingIndex).violation 0x50 i [(8, [byte i])]
  else if i < 32 then d.setRing i { r with host := v }
  else
    let n := v - r.host
    let new := posts.take n ++ List.replicate (n - posts.length) ⟨0, 0, 0, 0⟩
    d.setRing i { r with host := v, posts := r.posts ++ new }

/-- Polls in a slot: DIV, at least 1 and at most 256 (Table 13.15). -/
def Dev.pollsPerSlot (d : Dev) : Nat := clampNat 1 256 (d.cfgFld Reg.hifDbPoll_div)

/-- DOORBELL_POLL: one read of the page, poll j of a slot at T0 + j × 2,500 µs / DIV; with an external host only, and not
before the slot tick that follows its attachment (R403, R423, R425). -/
def Dev.doorbellPoll (d : Dev) (p : PollRead) : Dev :=
  if !d.mainUp || !d.hosted || d.hif.attachDue || decide (d.pollsPerSlot ≤ d.hif.polls) then d
  else d.dueTai (d.tickTai d.tim.slotS + (2500000 * d.hif.polls + d.pollsPerSlot - 1 : Nat) / d.pollsPerSlot) fun d =>
    let d := { d with hif := { d.hif with polls := d.hif.polls + 1 } }
    ringNumbers.foldl (fun d i =>
      d.pollRing i (p.words.getD (doorbellWord i) 0).toNat (p.posts.filter fun x => x.ring.val + 32 == i)) (d.bump Cnt.dbPoll)

/-! ## Ring registers (R401) -/

/-- Bits of a ring's registers that a write changes while EN is 1: EN, IRQ_EN and MOD_US. -/
def ringLiveMask : Word := 0x8000BF00

/-- A write to HIF_RING_CFG[i]; `v` is the register as the write would leave it. A ring that EN enables starts at index 0. -/
def Dev.ringCfgWrite (d : Dev) (i : Nat) (v : Word) : Dev :=
  let a := Reg.hifRingCfg i
  let old := d.reg a
  if old.getLsbD 31 then d.setReg a ((old &&& ~~~ringLiveMask) ||| (v &&& ringLiveMask))
  else
    let d := d.setReg a v
    if v.getLsbD 31 then (d.setRing i emptyRing).setFld (Reg.hifRingStat_idx i) 0 else d

/-! ## MSI-X (R407) -/

/-- The moderation delay of a ring has passed. -/
def Dev.moderationExpiry (d : Dev) (i : Nat) : Dev :=
  if !(d.ring i).modWait || !d.mainUp then d
  else d.due ((d.ring i).modFrom + cyclesPerUs * d.fld (Reg.hifRingCfg_mod_us i)) fun d =>
    (d.setRing i { d.ring i with modWait := false }).msix (d.fld (Reg.hifRingCfg_vector i))

/-- A vector that is no longer masked and is pending is sent. -/
def Dev.msixUnmasked (d : Dev) (v : Nat) : Dev :=
  let pba := d.reg (Reg.msixPba 0)
  if pba.getLsbD v && !(d.reg (Reg.msixTable v 3)).getLsbD 0 then
    (d.setReg (Reg.msixPba 0) (pba &&& ~~~((1 : Word) <<< v))).msix v
  else d

/-! ## The survey (R415, R469) -/

/-- SPECTRUM_SURVEY's opcode. -/
def opSurvey : Half := 0x001A

/-- The local host's survey stops (R469). -/
def Dev.stopLocalSurvey (d : Dev) : Dev :=
  match d.hif.survey with
  | none => d
  | some s =>
    if !s.fromLocal then d
    else { d with hif := { d.hif with
      survey := none, runs := d.hif.runs.filter fun (r : Running) => r.cmd.opcode != opSurvey } }

/-- The mode code of a channel index. -/
def Dev.surveyMode (d : Dev) (i : Nat) : Nat := match d.chan i with | some c => c.mode.val | none => 0

/-- A survey record (Table 13.7). -/
def Dev.surveyRecord (d : Dev) (r : RadioId) (i : Nat) (noise : List Byte) : List Byte :=
  let n := match d.chan i with | some c => modeSubch c.mode | none => 0
  le 2 i ++ [byte r.val, byte (d.surveyMode i)] ++ fit n noise ++ List.replicate (96 - n) 0x80

/-- SURVEY_BUSY of a record of the standalone survey: some subchannel above −110 dBm. -/
def Dev.surveyBusy (d : Dev) (i : Nat) (rec : List Byte) : Dev :=
  let n := match d.chan i with | some c => modeSubch c.mode | none => 0
  if i ≤ 157 ∧ ((slice rec 4 n).any fun b => b != 0x80 && decide (-110 < toSigned 8 b.toNat)) then d.bump (Cnt.surveyBusy i)
  else d

/-- The survey is over. -/
def Dev.surveyEnd (d : Dev) (s : Survey) : Dev :=
  let d := { d with hif := { d.hif with survey := none } }
  let d := if s.fromLocal then d.bump Cnt.surveyPass else d
  match d.runningOp opSurvey with
  | some r => d.finish r.cmd stOk 0
  | none => d

/-- At a superframe boundary: a dwell that ends gives its record, unless its radio has left READY and RUNNING. -/
def Dev.surveyBoundary (d : Dev) (noise : List Byte) : Dev :=
  match d.hif.survey with
  | none => d
  | some s =>
    if 1 < s.left then { d with hif := { d.hif with survey := some { s with left := s.left - 1 } } }
    else match s.todo with
      | [] => d.surveyEnd s
      | (r, i) :: t =>
        let ok := d.rfReadyRun r
        let rec' := d.surveyRecord r i noise
        let d := if ok then d.hostWrite (s.buf.toNat + 100 * s.recs) rec' else d
        let d := if ok && s.fromLocal then d.surveyBusy i rec' else d
        let s := { s with todo := t, left := s.dwell, recs := s.recs + ok.toNat }
        let d := { d with hif := { d.hif with survey := some s } }
        let d := d.progress opSurvey (100 * s.recs / (s.recs + t.length + (if ok then 0 else 1))) s.recs
        if t = [] then d.surveyEnd s else d

/-- SPECTRUM_SURVEY (R411, R412, R415). The first dwell begins at the next superframe boundary. -/
def Dev.surveyCmd (d : Dev) (c : Cmd) (mask first count dwell : Nat) (buf : Buf) : Dev :=
  let named := radios.filter fun r => mask.testBit r.val && d.rfReadyRun r
  let todo := named.flatMap fun r => ((List.range count).map (first + ·)).filterMap fun i =>
    if d.entryValid r i then some (r, i) else none
  if 512 < first + count ∨ 511 < first ∨ dwell = 0 ∨ buf.addr = 0 then d.complete c stBadParam 0
  else if named = [] then d.refuseState c 0xFF
  else if buf.len.toNat < 100 * todo.length then d.complete c stBadParam 0
  else d.longOr c fun d =>
    let s : Survey := ⟨todo, dwell, buf.addr, dwell + 1, 0, !d.hosted⟩
    let d := { d.startLong c 0 0 with hif := { (d.startLong c 0 0).hif with survey := some s } }
    if todo = [] then d.surveyEnd s else d

/-! ## STANDALONE and HOSTED (R423, R424) -/

/-- The local host issues nothing more of what it had in mind. -/
def Dev.dropLocal (d : Dev) : Dev :=
  let d := { d.stopLocalSurvey with boot := { d.stopLocalSurvey.boot with
    localCmds := [], localCur := none, localEnd := none, surveyLoop := false } }
  (d.modPort 0 fun x => { x with tryMode := none }).modPort 1 fun x => { x with tryMode := none }

/-- STANDALONE to HOSTED. -/
def Dev.attach (d : Dev) : Dev :=
  let d := d.dropLocal
  let d := ((d.setFld Reg.hifStat_dev_state dsHosted).setBit Reg.hifStat_link_up true).bump Cnt.hostAttach
  { d with hif := { d.hif with epoch := d.hif.epoch + 1, attachDue := true } }

/-- HOSTED to STANDALONE; `lost` when PERST_N or the link ends it. -/
def Dev.leaveHosted (d : Dev) (lost : Bool) : Dev :=
  if !d.hosted then d
  else
    let d := (d.setFld Reg.hifStat_dev_state dsStandalone).bump Cnt.hostDetach
    let d := if lost then d.raise Reg.hifStat_link_down else d
    { d with hif := { d.hif with epoch := d.hif.epoch + 1, attachDue := false, complQ := [] } }

/-- A write to HIF_CTRL: HOST_EN attaches the host when the doorbell base and the command and completion rings are set up,
and clearing it detaches. -/
def Dev.hifCtrlWrite (d : Dev) (v : Word) : Dev :=
  let d := d.setReg Reg.hifCtrl (v &&& 1)
  if !v.getLsbD 0 then d.leaveHosted false
  else if d.devState = dsStandalone ∧ (d.reg Reg.hifDbBaseLo ≠ 0 ∨ d.reg Reg.hifDbBaseHi ≠ 0) ∧ d.ringEn 0 ∧ d.ringEn 1 then
    d.attach
  else d

/-! ## TX descriptors (R416, R417) -/

/-- Ask for a stamp of a copy that leaves on a port. -/
def Deliver.stamped (x : Deliver) (id : BitVec 16) : Deliver :=
  match x with | .port p q f => .port p q { f with tsId := some id } | y => y

/-- Deliver the copies of a descriptor's message; what finds no room waits on the ring. -/
def Dev.txDeliver (d : Dev) (t k ver : Nat) (l : List Deliver) : Dev :=
  let epoch := d.hif.epoch
  let o := d.deliverAll (.host t k epoch) l
  if o.2 = [] then o.1
  else { o.1 with hif := { o.1.hif with txWait := o.1.hif.txWait ++ [⟨t, k, epoch, ver, o.2, o.1.tim.cyc⟩] } }

/-- A FRAME descriptor enters PPL. -/
def Dev.txFrame (d : Dev) (t k : Nat) (port queue : Nat) (ts : Option (BitVec 16)) (bytes : List Byte) : Dev :=
  let epoch := d.hif.epoch
  let ver := d.curVer
  let m : Msg :=
    { cls := 1, idx := t, ver := ver, stamp := d.tai, src := .host t k epoch, form := .frame, bytes := bytes, sidx := none }
  let o := d.pplFrame m none (if port = 3 then none else some (port, queue)) fun d _ => d
  let l := match ts with | some id => o.2.map fun x => x.stamped id | none => o.2
  let n := (l.filter Deliver.counts).length
  let item := l.any fun x => match x with | .item _ _ => true | _ => false
  let d := if n = 0 then o.1.txDone t k epoch (if item then stOk else stNoResource) 0 else o.1.txStart t k n
  d.txDeliver t k ver l

/-- A DOWNLINK descriptor enters PPL as its encapsulation. -/
def Dev.txDownlink (d : Dev) (t k : Nat) (desc payload : List Byte) : Dev :=
  let epoch := d.hif.epoch
  let ver := d.curVer
  let w := leAt desc 12 4
  let h : Encap :=
    { ver := 1, kind := ekDownlink, flags := byte ((leAt desc 10 1).testBit 2).toNat, plen := payload.length, gw := 0,
      addr := BitVec.ofNat 24 (w / 256), seq := 0, sidx := 0, aport := byte w, radio := 0, memb := 0,
      chan := leAt desc 16 2 / 128, subch := 0, mcs := 0, lmv := 0, level := 0, e := 0, tag := 0, sec := 0, ns := 0 }
  let x := mkDownlink (.ring t k epoch) h payload desc 0 (leAt desc 11 1 % 16) ver
  let m : Msg :=
    { cls := 1, idx := t, ver := ver, stamp := d.tai, src := .host t k epoch, form := .bluane,
      bytes := d.downEncap ekDownlink x payload.length ++ payload, sidx := none }
  let open' (d : Dev) : Bool := (d.ring (16 + t)).back.contains k
  let o := d.pplDownlink m x
  let item := o.2.any fun x => match x with | .item _ _ => true | _ => false
  let n := (o.2.filter Deliver.counts).length
  let d := if item || !open' o.1 then o.1
    else if n = 0 then o.1.txDone t k epoch stNoResource 0 else o.1.txStart t k n
  d.txDeliver t k ver o.2

/-- Is a descriptor in order (Table 13.8, Table 13.11)? -/
def Dev.txOk (d : Dev) (desc : List Byte) : Bool :=
  let kind := leAt desc 10 1 / 16
  let len := leAt desc 8 2
  let port := leAt desc 11 1 / 64
  let maxLen := if port = 0 then d.maxLen 0 else if port = 1 then d.maxLen 1 else max (d.maxLen 0) (d.maxLen 1)
  leAt desc 0 8 != 0 &&
    (if kind = 0 then decide (1 ≤ len) && decide (len + 4 ≤ maxLen) && (port != 2 || d.pairOn)
     else kind == 1 && decide (len ≤ if (leAt desc 10 1).testBit 2 then 2030 else 2038))

/-- TX_DESCRIPTOR: the device fetches the next descriptor of TX ring `t`. An external host's must have been published, and
none is fetched while an earlier one waits for room or for an item. -/
def Dev.txDescriptor (d : Dev) (t : Fin 16) (desc : List Byte) (payload : HostRead) : Dev :=
  let i := 16 + t.val
  let ready := if d.hosted then d.ringLive i && decide ((d.ring i).dev < (d.ring i).host) else true
  if d.hif.fetchStop || !ready || (d.hif.txWait.any fun w => w.ring == t.val) then d
  else
    let k := if d.hosted then (d.ring i).dev else d.hif.localIdx
    let d := if d.hosted then
        (d.setRingDev i (k + 1)).setRing i { (d.ring i) with dev := k + 1, back := (d.ring i).back ++ [k] }
      else { d with hif := { d.hif with localIdx := k + 1 } }
    if !d.txOk desc then (d.txDone t k d.hif.epoch stBadParam 0).txViolation t
    else match payload with
      | .err => d.ringDmaError i
      | .ok b =>
        let b := fit (leAt desc 8 2) b
        if leAt desc 10 1 / 16 = 0 then
          d.txFrame t k (leAt desc 11 1 / 64) (leAt desc 11 1 % 8)
            (if (leAt desc 10 1).testBit 3 then some (BitVec.ofNat 16 (leAt desc 12 4 / 65536)) else none) b
        else d.txDownlink t k desc b

/-! ## Further events -/

/-- STATUS_WORD_UPDATE: a running long operation's status word is written again (R414). -/
def Dev.statusUpdate (d : Dev) (op : Half) : Dev :=
  match d.runningOp op with
  | none => d
  | some r =>
    let s := d.writeStatus r stInProgress
    { s.2 with hif := { s.2.hif with runs := s.2.hif.runs.map fun x => if x.cmd = r.cmd then s.1 else x } }

/-- DMA_ERROR of a ring in use. -/
def Dev.dmaError (d : Dev) (i : Nat) : Dev :=
  if d.hosted && d.mainUp && ringExists i && d.ringLive i then d.ringDmaError i else d

end Sys2Proof.Machine
end

