-- ==== Sys2Proof/Machine/HostCmd.lean ====
section
/-! DEFINITION. The host commands of Table 13.5 that set up channels, the schedule, radios, sensors, floods, time, rulesets and
forwarding tables. Each takes the fetched command and its parameters. -/

namespace Sys2Proof.Machine

/-- A command with a host buffer: address 0 is refused, a failed read completes FAULT, and a buffer shorter than the
command needs is refused (R412, R413). -/
def Dev.withBuf (d : Dev) (c : Cmd) (buf : Buf) (need : Nat) (k : Dev → List Byte → Dev) : Dev :=
  if buf.addr = 0 ∨ buf.len.toNat < need then d.complete c stBadParam 0
  else match buf.data with
    | .err => d.cmdDmaError c
    | .ok b => k d (b.take buf.len.toNat)

/-- `n` little-endian records of `size` bytes. -/
def records (size : Nat) : Nat → List Byte → List (List Byte)
  | 0, _ => []
  | n + 1, b => fit size (b.take size) :: records size n (b.drop size)

/-- The state that a CMD_STATE event shows for a named radio. -/
def Dev.refuseRadio (d : Dev) (c : Cmd) (r : RadioId) : Dev := d.refuseState c (d.rfState r)

/-- A command that names a radio in byte P0. -/
def Dev.withRadio (d : Dev) (c : Cmd) (r : Nat) (k : Dev → RadioId → Dev) : Dev :=
  match r with
  | 0 => k d 0
  | 1 => k d 1
  | 2 => k d 2
  | _ => d.complete c stBadParam 0

/-! ## Channels (R126, R127) -/

/-- What one radio has to build for an index that has been configured: a radio in READY or RUNNING at once, one in
CALIBRATING after its sweep. -/
def Dev.needEntry (d : Dev) (i : Nat) (changed : Bool) (r : RadioId) : Dev :=
  let x := d.radio r
  if d.rfReadyRun r then
    if d.entryValid r i || x.buildQ.contains i then d else d.setRadio r { x with buildQ := x.buildQ ++ [i] }
  else match x.sweep with
    | some s =>
      if changed && !s.changed.contains i then d.setRadio r { x with sweep := some { s with changed := s.changed ++ [i] } } else d
    | none => d

/-- CHAN_CONFIG. -/
def Dev.chanConfig (d : Dev) (c : Cmd) (p : ChanParams) : Dev :=
  let i := p.index.toNat
  let mode? : Option (Fin 3) := match p.mode.toNat with | 0 => some 0 | 1 => some 1 | 2 => some 2 | _ => none
  match mode? with
  | none => d.complete c stBadParam 0
  | some mode =>
    if 511 < i ∨ 63 < p.txTrim.toNat ∨ 4 < p.tuneN.toNat ∨ !freqFits p.freq.toNat mode then d.complete c stBadParam 0
    else if (d.sch.active.any fun x => x.2.uses i) || d.sch.pending.any fun x => x.2.uses i then d.refuseState c 0xFF
    else d.longOr c fun d =>
      let tune := ([p.tune0, p.tune1, p.tune2, p.tune3].take p.tuneN.toNat).map fun w => w.setWidth 24
      let changed := match d.chan i with | some o => o.freq != p.freq || o.mode != mode | none => true
      let d := { d with chans := Sparse.put none d.chans i (some ⟨p.freq, mode, p.txTrim.toNat, tune⟩) }
      let d := if changed then ((d.clearEntry 0 i).clearEntry 1 i).clearEntry 2 i else d
      let d := d.startLong c 0 i
      (radios.foldl (fun d r => d.needEntry i changed r) d).chanCheck

/-! ## The schedule (R162 to R168) -/

/-- SCHED_WRITE, once the copy of R164 is over. -/
def Dev.schedWriteNow (d : Dev) (c : Cmd) (radio first count : Nat) (buf : Buf) : Dev :=
  d.withRadio c radio fun d r =>
    if 511 < first ∨ 512 < first + count then d.complete c stBadParam 0
    else if d.bit Reg.schCommit_pending then d.refuseRadio c r
    else d.withBuf c buf 0 fun d b =>
      match readRows count b with
      | none => d.complete c stBadParam 0
      | some rows =>
        let t := (rows.zipIdx).foldl (fun (t : Sparse Row) (x : Row × Nat) =>
          Sparse.put emptyRow t (r.val * 512 + first + x.2) x.1) d.sch.pending
        { d with sch := { d.sch with pending := t } }.complete c stOk 0

/-- SCHED_WRITE: one that arrives during the copy is held. -/
def Dev.schedWrite (d : Dev) (c : Cmd) (radio first count : Nat) (buf : Buf) : Dev :=
  if d.sch.copying then { d with sch := { d.sch with held := d.sch.held ++ [(c, radio, first, count, buf)] } }
  else d.schedWriteNow c radio first count buf

/-- The copy into the pending buffer has ended: held commands go on. -/
def Dev.tableCopyDone (d : Dev) : Dev :=
  if !d.sch.copying then d
  else
    let l := d.sch.held
    l.foldl (fun d x => d.schedWriteNow x.1 x.2.1 x.2.2.1 x.2.2.2.1 x.2.2.2.2)
      { d with sch := { d.sch with copying := false, held := [] } }

/-- ROT_WRITE. -/
def Dev.rotWrite (d : Dev) (c : Cmd) (first count : Nat) (buf : Buf) : Dev :=
  if count = 0 ∨ 4096 < count ∨ d.rotSize < first + count then d.complete c stBadParam 0
  else d.withBuf c buf (4 * count) fun d b =>
    if 65536 < d.sch.staged.length + count then d.complete c stBusy 0
    else
      let l := (records 4 count b).zipIdx.map fun x => (first + x.2, BitVec.ofNat 32 (ofLe x.1))
      { d with sch := { d.sch with staged := d.sch.staged ++ l } }.complete c stOk 0

/-- The first failure of Table 5.4, as a status; none when the commit is accepted. -/
def Dev.commitFailure (d : Dev) (protect : Bool) : Option Nat :=
  let t := d.sch.pending
  if !d.tableLegal t then some stBadParam
  else if !d.tableChannels t then some stState
  else if tableTransmits t && d.noRegion then some stState
  else if protect && !admitted t then some stNoResource
  else none

/-- SCHEDULE_COMMIT. -/
def Dev.scheduleCommit (d : Dev) (c : Cmd) : Dev :=
  let protect := d.bit Reg.schAdmcfg_protected
  if d.bit Reg.schCommit_pending then d.complete c stBusy 0
  else match d.commitFailure protect with
    | some s => if s = stState then d.refuseState c 0xFF else d.complete c s 0
    | none =>
      let b := d.nextBoundary / 512
      let d := { d with sch := { d.sch with target := b, protPend := protect } }
      ((d.raise Reg.schCommit_pending).setFld Reg.schCommit_target_sf (sfOf (b * 512))).complete c stOk (sfOf (b * 512))

/-! ## Radios (R137, R147, R151, R152) -/

/-- In LEAN at most one radio is not OFF (Table 14.4). -/
def Dev.leanFull (d : Dev) : Bool := d.fld Reg.pwrState_state == 1 && radios.any fun r => d.rfState r != rsOff

/-- RF_ENABLE: OFF to IDLE, and at once to CALIBRATING. -/
def Dev.rfEnable (d : Dev) (c : Cmd) (radio : Nat) : Dev :=
  d.withRadio c radio fun d r =>
    if d.rfState r ≠ rsOff ∨ d.leanFull = true then d.refuseRadio c r
    else ((d.setRf r rsIdle 4).startSweep r none 4).complete c stOk 0

/-- RF_DISABLE: a sweep in progress stops, and its results are discarded. -/
def Dev.rfDisable (d : Dev) (c : Cmd) (radio : Nat) : Dev :=
  d.withRadio c radio fun d r =>
    if d.rfState r = rsOff ∨ d.rfState r = rsRunning then d.refuseRadio c r
    else
      let sweep := (d.radio r).sweep
      let d := d.modRadio r fun x => { x with sweep := none, tempRun := none, calDone := false, buildQ := [], chan := none }
      let d := ((d.setRf r rsOff 4).drive r false false).setBit (Reg.rfStat_lock r) false
      let d := d.resolveHeld r none stBusy
      let d := match sweep with
        | some s => (match s.cmd with | some x => d.finishState x rsOff | none => d)
        | none => d
      d.chanCheck.complete c stOk 0

/-- RF_RESET: FAILED to IDLE, and at once to CALIBRATING. -/
def Dev.rfReset (d : Dev) (c : Cmd) (radio : Nat) : Dev :=
  d.withRadio c radio fun d r =>
    if d.rfState r ≠ rsFailed then d.refuseRadio c r
    else ((d.setRf r rsIdle 4).startSweep r none 4).complete c stOk 0

/-- RF_CAL_SWEEP. -/
def Dev.rfCalSweep (d : Dev) (c : Cmd) (radio : Nat) : Dev :=
  d.withRadio c radio fun d r =>
    if d.rfState r ≠ rsReady then d.refuseRadio c r
    else d.longOr c fun d => (d.startLong c 0 0).startSweep r (some c) 4

/-- RF_ANT_ENABLE: it takes effect at the next superframe boundary. -/
def Dev.rfAntEnable (d : Dev) (c : Cmd) (radio : Nat) (ports : Byte) : Dev :=
  d.withRadio c radio fun d r =>
    if d.inhibited r &&& (ports.toNat % 4) = 0 then d.refuseRadio c r
    else
      let d := d.startDeferred c
      { d with sch := { d.sch with antEnable := d.sch.antEnable ++ [(c, r, ports.setWidth 2)] } }

/-- At a superframe boundary RF_ANT_ENABLE ends its inhibits, and the remaps for them with it. -/
def Dev.antBoundary (d : Dev) : Dev :=
  let l := d.sch.antEnable
  l.foldl (fun d x =>
    let r := x.2.1
    let low := x.2.2.getLsbD 0
    let high := x.2.2.getLsbD 1
    let d := if low then d.setBit (Reg.rfStat_lb_inhibit r) false else d
    let d := if high then d.setBit (Reg.rfStat_hb_inhibit r) false else d
    let d := d.modRadio r fun y => { y with
      lowVswr := if low then ⟨0, 0, 0⟩ else y.lowVswr
      highVswr := if high then ⟨0, 0, 0⟩ else y.highVswr }
    let d := { d with sch := { d.sch with remaps := d.sch.remaps.map fun (m : Remap) =>
      if m.radio = r ∧ m.ports ≠ 0 ∧ m.ports &&& ~~~x.2.2 = 0 then { m with ending := true } else m } }
    d.finish x.1 stOk 0) { d with sch := { d.sch with antEnable := [] } }

/-! ## Wake requests (R142, R197) -/

/-- The next WAKE row on a channel that a request made now can take, and its radio: slot counts `s` to `s + n`. -/
def Dev.nextWakeRow (d : Dev) (chan : Nat) : Nat → Int → Option (Int × RadioId)
  | 0, _ => none
  | n + 1, s =>
    match radios.find? fun r => (d.rowCarried r s).type == rowWake && (d.rowCarried r s).chan.toNat == chan with
    | some r => some (s, r)
    | none => d.nextWakeRow chan n (s + 1)

/-- WAKE_SEND. While the radio of its target slot calibrates, it is held when the sweep ends before that slot's check instant,
which lies in the slot before (R142). -/
def Dev.wakeSend (d : Dev) (c : Cmd) (chan : Nat) (code : BitVec 32) : Dev :=
  if 511 < chan ∨ code = 0 ∨ code = 0xFFFFFFFF then d.complete c stBadParam 0
  else if d.noRegion ∨ !d.chanValid chan then d.refuseState c 0xFF
  else if 64 ≤ d.sch.wakeQ.length then d.complete c stOverflow 0
  else
    let add (held : Option (RadioId × Int)) : Dev :=
      let d := d.startDeferred c
      { d with sch := { d.sch with wakeQ := d.sch.wakeQ ++ [⟨c, chan, code, d.curS / 512, held, false⟩] } }
    match d.nextWakeRow chan 512 (d.curS + 2) with
    | none => add none
    | some (s, r) =>
      match (d.radio r).sweep with
      | none => add none
      | some w => if w.ends < s then add (some (r, s)) else d.complete c stBusy 0

/-! ## Sensors (R109, R189, R271, R272) -/

/-- The anchors that a SENSOR_SET names. -/
def sensorAnchors (p : SensorParams) : List (BitVec 16) := [p.anchor0, p.anchor1, p.anchor2].take (p.members.toNat + 1)

/-- The sensor's context after SENSOR_SET: a new sensor starts as at join; new anchors reset the gains and bring a new map
version after the first reception on them. -/
def Dev.setContext (d : Dev) (p : SensorParams) : Dev :=
  let i := p.sidx.toNat
  let x := d.sensor i
  let a := sensorAnchors p
  if x.anchors = [] ∨ x.addr ≠ p.addr then d.setSensor i { emptySensor with addr := p.addr, anchors := a, queue := x.queue }
  else if x.anchors = a then d
  else d.setSensor i { x with anchors := a, gains := [], radios := [], persist := 0, issueNext := true }

/-- SENSOR_SET. -/
def Dev.sensorSet (d : Dev) (c : Cmd) (p : SensorParams) : Dev :=
  if d.maxSensors ≤ p.sidx.toNat then d.complete c stBadParam 0
  else if !p.write.getLsbD 0 then
    match d.sensorIndex p.addr with
    | none => d.complete c stBadParam 0
    | some k => (d.setSensorAt k none).showFill.complete c stOk 0
  else if 7 < p.ulKind.toNat ∨ 63 < p.ulIndex.toNat ∨ 2 < p.members.toNat then d.complete c stBadParam 0
  else
    let e : SensorEntry :=
      { addr := p.addr, sidx := p.sidx.toNat, group := p.group, ulKind := p.ulKind.setWidth 3, ulIndex := p.ulIndex.setWidth 6,
        dlLink := p.dl.getLsbD 0, link := p.dl.extractLsb' 1 3 }
    match d.sensorInsert e with
    | none => (d.raise Reg.fwdStat_ins_fail).complete c stNoResource 0
    | some d => (d.showFill.setContext p).complete c stOk 0

/-! ## Floods (R221, R473) -/

/-- Take the next MSGID; the boot record's base follows every 1,024 of them. -/
def Dev.nextMsgid (d : Dev) : BitVec 16 × Dev :=
  let id := d.msh.msgid
  let base := if id = d.boot.msgBase + 1024 then id else d.boot.msgBase
  (id, { d with msh := { d.msh with msgid := id + 1 }, boot := { d.boot with msgBase := base } })

/-- MESH_FLOOD: a firmware chunk also goes to the device's own update engine. -/
def Dev.meshFlood (d : Dev) (c : Cmd) (kind ttl : Nat) (buf : Buf) : Dev :=
  if !kindFlood kind ∨ d.cfgFld Reg.mshCfg_ttl_max < ttl then d.complete c stBadParam 0
  else d.withBuf c buf 0 fun d b =>
    let n := d.nextMsgid
    let d := n.2.marlInsert (d.gwId, n.1)
    let d := (d.floodLinks none kind ttl d.gwId n.1.toNat b).record (.flood kind ttl n.1 b)
    (if kind = mkFloodFw then d.fwChunk b else d).complete c stOk n.1.toNat

/-! ## Time (R236) -/

/-- TIME_FORCE ACCEPT: the source's measurements are used again (R233). -/
def Dev.timeAccept (d : Dev) (c : Cmd) : Dev :=
  if d.forceWaits then d.complete c stBusy 0
  else if !d.tim.blocked then d.refuseState c 0xFF
  else { d with tim := { d.tim with blocked := false } }.forceStep c (-(d.signedFld Reg.timOffset_theta))

/-- TIME_FORCE SET. -/
def Dev.timeSet (d : Dev) (c : Cmd) (form sec ns : Nat) : Dev :=
  if form ≠ 1 ∨ 999999999 < ns then d.complete c stBadParam 0
  else if d.forceWaits then d.complete c stBusy 0
  else d.forceStep c ((sec : Int) * 1000000000 + ns - d.tai)

/-! ## Rulesets (R256 to R264) -/

def Dev.setStaging (d : Dev) (r : Ruleset) : Dev := { d with fwd := { d.fwd with staging := r } }

/-- A staging write: BUSY, counted, while a commit copies (R261). -/
def Dev.stage (d : Dev) (c : Cmd) (r : Ruleset) : Dev :=
  if d.fwd.copying.isSome then (d.bump Cnt.commitBusy).complete c stBusy 0 else (d.setStaging r).complete c stOk 0

/-- A rule from its 48-byte record. -/
def readRule (b : List Byte) : Rule :=
  { key := BitVec.ofNat 128 (leAt b 0 16), mask := BitVec.ofNat 128 (leAt b 16 16), action := BitVec.ofNat 64 (leAt b 32 8),
    cond := byte (leAt b 40 1) }

/-- RULE_WRITE. -/
def Dev.ruleWrite (d : Dev) (c : Cmd) (first count : Nat) (buf : Buf) : Dev :=
  if 1023 < first ∨ 1024 < first + count then d.complete c stBadParam 0
  else d.withBuf c buf (48 * count) fun d b =>
    let t := (records 48 count b).zipIdx.foldl (fun (t : Sparse (Option Rule)) (x : List Byte × Nat) =>
      Sparse.put none t (first + x.2) (some (readRule x.1))) d.fwd.staging.rules
    d.stage c { d.fwd.staging with rules := t }

/-- PATTERN_WRITE. -/
def Dev.patternWrite (d : Dev) (c : Cmd) (pattern len : Nat) (value mask : List Byte) : Dev :=
  if 63 < pattern ∨ 16 < len then d.complete c stBadParam 0
  else
    let t := Sparse.put emptyPattern d.fwd.staging.patterns pattern ⟨len, fit 16 value, fit 16 mask⟩
    d.stage c { d.fwd.staging with patterns := t }

/-- HASH_WRITE: a profile, or the key. -/
def Dev.hashWrite (d : Dev) (c : Cmd) (which : Nat) (bits : Byte) (key : List Byte) : Dev :=
  if which < 4 then
    d.stage c { d.fwd.staging with profiles := Sparse.put 0 d.fwd.staging.profiles which bits }
  else if which = 4 then d.stage c { d.fwd.staging with hashKey := fit 40 key }
  else d.complete c stBadParam 0

/-- INDIR_WRITE. -/
def Dev.indirWrite (d : Dev) (c : Cmd) (first count : Nat) (buf : Buf) : Dev :=
  if 511 < first ∨ 512 < first + count then d.complete c stBadParam 0
  else d.withBuf c buf (2 * count) fun d b =>
    let t := (records 2 count b).zipIdx.foldl (fun (t : Sparse Half) (x : List Byte × Nat) =>
      Sparse.put 0 t (first + x.2) (BitVec.ofNat 16 (ofLe x.1))) d.fwd.staging.indir
    d.stage c { d.fwd.staging with indir := t }

/-- RULESET_COMMIT: BUSY, counted, when no version slot is free or a commit still copies (R261); else the copy begins, and the
command completes when it ends. -/
def Dev.rulesetCommitCmd (d : Dev) (c : Cmd) : Dev :=
  match (if d.fwd.copying.isSome then none else d.freeSlot) with
  | none => (d.bump Cnt.commitBusy).complete c stBusy 0
  | some v => d.beginCopy c v

/-! ## Forwarding tables (R271, R275, R415) -/

/-- FWD_WRITE. -/
def Dev.fwdWrite (d : Dev) (c : Cmd) (table op index : Nat) (buf : Buf) : Dev :=
  if table = 3 ∨ 4 < table ∨ 1 < op then d.complete c stBadParam 0
  else d.withBuf c buf 0 fun d b =>
    let o := d.fwdWriteEntry table (op == 1) index b
    o.1.complete c o.2 0

/-- TABLE_REBUILD's opcode. -/
def opRebuild : Half := 0x0036

/-- TABLE_REBUILD. -/
def Dev.tableRebuild (d : Dev) (c : Cmd) (table : Nat) : Dev :=
  if 4 < table then d.complete c stBadParam 0 else d.longOr c fun d => d.startLong c 0 table

/-- The rebuild ends: the number of entries checked in PARTIAL, the number repaired in RESULT. -/
def Dev.rebuildDone (d : Dev) : Dev :=
  match d.runningOp opRebuild with
  | none => d
  | some r =>
    let o := d.rebuildTable r.arg
    (o.1.progress opRebuild 100 o.2.2).finish r.cmd stOk o.2.1

end Sys2Proof.Machine
end

