-- ==== Sys2Proof/Machine/Power.lean ====
section
/-! DEFINITION. Chapter 14: the power states, entry to SENTINEL, the wake sources, the power-up and wake steps, FAULT_LOCK,
power domains, and the resets of POR_N and SYS_RST_N. -/

namespace Sys2Proof.Machine

/-! ## PWR_STATE (R446, R449, Table 14.4) -/

def psActive : Nat := 0
def psLean : Nat := 1
def psSentinel : Nat := 2
def Dev.powerState (d : Dev) : Nat := d.fld Reg.pwrState_state

/-- The states of PWR_AON_STATUS and PWR_FLT_CAUSE that a power command looks at. -/
def Dev.leanOnly (d : Dev) : Bool := d.bit Reg.pwrFltCause_lean_only

/-- Does a PWR_STATE command of this device still run? -/
def Dev.powerBusy (d : Dev) : Bool := d.pwr.entering.isSome || d.pwr.leanCmd.isSome || d.pwr.activeCmd.isSome

/-- The Loam groups that are down in LEAN. -/
def leanLoam : List Domain := [.loam 2, .loam 3]

/-- ACTIVE is entered: W6 to W15 take work again. -/
def Dev.enterActive (d : Dev) : Dev :=
  let c := d.pwr.activeCmd
  let d := d.setFld Reg.pwrState_state psActive
  let d := { d with pwr := { d.pwr with activeCmd := none, woken := d.pwr.woken.filter fun x => !leanLoam.contains x } }
  let d := match c with | some c => d.finish c stOk 0 | none => d
  d.dispatchAll

/-- PWR_STATE naming ACTIVE. Where a second VCORE phase has failed it is refused (Table 16.4). -/
def Dev.powerActive (d : Dev) (c : Cmd) : Dev :=
  if d.powerBusy || d.leanOnly then d.refuseState c 0xFF
  else if d.powerState = psActive then d.complete c stOk 0
  else
    let l := leanLoam.filter fun x => !d.pwr.woken.contains x
    let d := d.startDeferred c
    let d := { d with pwr := { d.pwr with activeCmd := some c, stalled := d.pwr.stalled ++ (l.filter fun x => !d.pwr.stalled.contains x) } }
    if l = [] then d.enterActive else d

/-- The conditions of Table 14.4 for LEAN. -/
def Dev.leanOk (d : Dev) : Bool :=
  decide ((radios.filter fun r => d.rfState r != rsOff).length ≤ 1) &&
    ([(0 : PortId), 1].all fun p => d.modeOf p == 0 || decide (3 ≤ d.modeOf p)) && !d.bit Reg.ethPaircfg_step_en

/-- PWR_STATE naming LEAN. W6 to W15 finish their items first. -/
def Dev.powerLean (d : Dev) (c : Cmd) : Dev :=
  if d.powerBusy then d.refuseState c 0xFF
  else if d.powerState = psLean then d.complete c stOk 0
  else if !d.leanOk then d.refuseState c 0xFF
  else
    let d := d.startDeferred c
    { d with pwr := { d.pwr with leanCmd := some c } }

/-- The conditions of Table 14.4 for SENTINEL. -/
def Dev.sentinelOk (d : Dev) : Bool :=
  (radios.all fun r => d.rfState r == rsOff) && d.hif.runs.isEmpty && !d.bit Reg.schCommit_pending &&
    !d.bit Reg.bootUpdStat_act_pend && d.fld Reg.pwrWakecfg_en != 0 && !d.pwr.extSupply

/-- PWR_STATE naming SENTINEL: the device stops fetching. -/
def Dev.powerSentinel (d : Dev) (c : Cmd) : Dev :=
  if d.powerBusy || !d.sentinelOk then d.refuseState c 0xFF
  else
    let d := d.startDeferred c
    { d with pwr := { d.pwr with entering := some (c, false) }, hif := { d.hif with fetchStop := true } }

/-- PWR_STATE by its parameter. -/
def Dev.powerCmd (d : Dev) (c : Cmd) (p0 : Nat) : Dev :=
  if p0 = 0 then d.powerActive c else if p0 = 1 then d.powerLean c else if p0 = 2 then d.powerSentinel c
  else d.complete c stBadParam 0

/-- What power commands wait for inside the device: W6 to W15 idle (LEAN), every item released (SENTINEL). -/
def Dev.powerPump (d : Dev) : Dev :=
  let busy := d.tsk.items.any fun i => match i.state with | .running w => decide (6 ≤ w.val) | _ => false
  let d := match d.pwr.leanCmd with
    | some c =>
      if busy then d
      else
        let d := { d with pwr := { d.pwr with leanCmd := none } }
        ((d.setFld Reg.pwrState_state psLean).bump Cnt.leanEntry).finish c stOk 0
    | none => d
  match d.pwr.entering with
  | some (c, false) =>
    if d.tsk.items.isEmpty then
      { d with pwr := { d.pwr with entering := some (c, true) } }.finish c stOk 0
    else d
  | _ => d

/-! ## Domains (R443 to R445) -/

/-- Does the policy of Table 14.3 keep a domain powered down? -/
def Dev.domainOff (d : Dev) (x : Domain) : Bool :=
  let lean := d.powerState == psLean
  match x with
  | .rf r => d.rfState r == rsOff
  | .viterbi => radios.all fun r => d.rfState r == rsOff
  | .eth p => d.modeOf p == 0 || (lean && decide (d.modeOf p ≤ 2))
  | .loam g => lean && decide (2 ≤ g.val)
  | _ => false

/-- DOMAIN_ACCESS: an access finds a domain on its way down and abandons that, or, once it is isolated, stalls while the
device powers it. -/
def Dev.domainAccess (d : Dev) (x : Domain) (isolated : Bool) : Dev :=
  if !d.domainOff x || d.pwr.woken.contains x || d.pwr.stalled.contains x then d
  else if isolated then { d with pwr := { d.pwr with stalled := d.pwr.stalled ++ [x] } }
  else { d with pwr := { d.pwr with woken := d.pwr.woken ++ [x] } }

/-- DOMAIN_READY: the stalled access completes; PWR_STATE ACTIVE completes with the last Loam group. -/
def Dev.domainReady (d : Dev) (x : Domain) : Dev :=
  if !d.pwr.stalled.contains x then d
  else
    let d := { d with pwr := { d.pwr with stalled := d.pwr.stalled.filter (· != x), woken := d.pwr.woken ++ [x] } }
    if d.pwr.activeCmd.isSome && leanLoam.contains x then
      if leanLoam.any fun y => d.pwr.stalled.contains y then d else d.enterActive
    else d.bump Cnt.domainWake

/-- A domain that its policy turns on, or off again, is no longer held on by an access. -/
def Dev.dropWoken (d : Dev) : Dev :=
  { d with pwr := { d.pwr with woken := d.pwr.woken.filter d.domainOff } }

/-! ## The power-up and wake sequence (R437 to R441, Table 14.2) -/

/-- The Silt timer reaches a time; in SENTINEL and in a power sequence it is the clock that runs. -/
def Dev.siltTo (d : Dev) (t : Nat) : Dev := { d with pwr := { d.pwr with silt := max d.pwr.silt t } }

/-- Nanoseconds of a count of 1/1,024 s. -/
def siltNs (ticks : Nat) : Nat := ticks * 1000000000 / 1024

/-- Start the sequence at step 1. -/
def Dev.startSeq (d : Dev) (sentinel : Bool) : Dev :=
  { d with pwr := { d.pwr with seq := some ⟨1, false, sentinel⟩, restart := false } }

/-- Drive the GPIO that switches the TCXO's supply, where it is in use. -/
def Dev.tcxo (d : Dev) (on : Bool) : Dev :=
  if !d.cfgBit Reg.pwrWakecfg_tcxo_gpio_en then d
  else
    let bit : BitVec 16 := (1 : BitVec 16) <<< d.cfgFld Reg.pwrWakecfg_tcxo_gpio
    { d with pins := { d.pins with gpio := if on then d.pins.gpio ||| bit else d.pins.gpio &&& ~~~bit } }

/-- Does a wake sequence run, or wait to run again? -/
def Dev.waking (d : Dev) : Bool := d.pwr.seq.isSome || d.pwr.restart

/-- An enabled wake source fires (R452): it is latched, and the first one starts the sequence. -/
def Dev.fireSource (d : Dev) (b : Nat) : Dev :=
  if d.devState != dsSentinel || !d.pwr.armed || !(d.cfgFld Reg.pwrWakecfg_en).testBit b then d
  else
    let d := d.setFld Reg.pwrAonStatus_src (d.fld Reg.pwrAonStatus_src ||| 2 ^ b)
    if d.waking then d else (d.setFld Reg.pwrAonStatus_first b).startSeq true

/-- PERIOD_S in nanoseconds, 0 acting as 1 (Table 14.11). -/
def Dev.listenPeriod (d : Dev) : Nat := orElse0 (d.cfgFld Reg.pwrListen_period_s) 1 * 1000000000

/-- Does a port wake on frames, not on energy? -/
def Dev.frameMode (d : Dev) (p : PortId) : Bool :=
  d.cfgBit (if p = 0 then Reg.pwrWakecfg_eth0_mode else Reg.pwrWakecfg_eth1_mode)

/-- SENTINEL_ARM (R449): the wake sources are armed, the DRAM, the domains and the rails go down. `active` are the sources
that already hold their wake level. -/
def Dev.sentinelArm (d : Dev) (active : BitVec 6) : Dev :=
  match d.pwr.entering with
  | some (_, true) =>
    if !d.hif.complQ.isEmpty then d
    else
      let d := d.applyBoundary .sentinel
      let d := if d.boot.stageId.isSome then d.persist else d
      let from' := d.devState
      let d := { d with
        dmc := { d.dmc with selfRefresh := true, run := none }
        hif := { d.hif with fetchStop := false }
        pwr := { d.pwr with
          entering := none, armed := true, backTo := BitVec.ofNat 3 from', entryTai := d.tai, entrySilt := d.pwr.silt, woken := [], stalled := [] } }
      let d := [(0 : PortId), 1].foldl (fun d p => (d.setReg (Reg.ethStat p) (d.reg (Reg.ethStat p) &&& 0x4C)).modPort p
        fun x => { x with
          pauseLeft := 0, pauseQ := [], xoffIntervals := 0, listenOn := false, listenAt := d.pwr.silt + d.listenPeriod }) d
      let d := (d.setFld Reg.hifStat_dev_state dsSentinel).setFld Reg.pwrState_state psSentinel
      let d := d.bump Cnt.sentinelEntry
      (List.range 6).foldl (fun d b => if active.getLsbD b && !(b == 0 && d.frameMode 0 || b == 1 && d.frameMode 1) then d.fireSource b else d) d
  | _ => d

/-- The servo and the parent link after a wake (R216, R454). -/
def Dev.wakeTime (d : Dev) : Dev :=
  if !d.trackEn then
    { d.setServo svFreerun with tim := { (d.setServo svFreerun).tim with fresh := true, slew := 0 } }
  else if d.parentLink.isNone then d
  else
    let sfs := ((d.tim.slotS - d.msh.lastRxS) / 512).toNat
    d.setMsh (if orElse0 (d.cfgFld Reg.mshCfg_holdover_limit) 1 ≤ sfs then msSearch else msHoldover)

/-- The events after a wake, or after the boot that follows a brown-out (R456). -/
def Dev.wakeEvents (d : Dev) (old ticks : Nat) : Dev :=
  let d := d.event 0x0020 d.powerState
    [(8, [byte old]), (9, [byte d.devState]), (10, [byte (d.fld Reg.pwrAonStatus_first)]),
      (11, [byte (d.fld Reg.pwrAonStatus_src)]), (12, le 4 ticks)]
  let l := (d.pwr.failures.take 8).zipIdx
  let d := l.foldl (fun d p => d.event 0x0021 p.1.1 [(8, [byte (p.2 + 1)]), (12, le 4 p.1.2)]) d
  { d with pwr := { d.pwr with failures := [] } }

/-- An attempt has succeeded (R440). -/
def Dev.attemptOk (d : Dev) : Dev :=
  let d := d.setFld Reg.pwrAonStatus_attempts 0
  { d with pwr := { d.pwr with seq := none, restart := false, attemptFailed := false } }

/-- A successful wake (R454, R455). `ticks` is the Silt timer's count since entry, in 1/1,024 s. -/
def Dev.wakeUp (d : Dev) (ticks : Nat) : Dev :=
  let d := d.attemptOk
  let d := d.setTai (d.pwr.entryTai + siltNs ticks)
  let d := { d with tim := { d.tim with noTickBefore := none, tgBegun := false, elapsed := 0 } }
  let d := { d with
    tim := { d.tim with slotS := d.nextS - 1 }
    dmc := { d.dmc with selfRefresh := false }
    pwr := { d.pwr with armed := false } }
  let d := (d.setFld Reg.hifStat_dev_state d.pwr.backTo.toNat).setFld Reg.pwrState_state psActive
  let d := d.wakeTrain.wakeTime
  let d := [(0 : PortId), 1].foldl (fun d p => d.modPort p fun x => { x with listenOn := false }) d
  let d := if d.bit Reg.hifCtrl_host_en && !d.pins.perstN then
      { d with pins := { d.pins with wakeN := true }, pwr := { d.pwr with wakeNFrom := d.tim.cyc } } else d
  ((d.bump Cnt.wakeOk).wakeEvents psSentinel ticks).dispatchAll

/-- A cold start ends: the main die leaves reset and boots. -/
def Dev.coldStart (d : Dev) : Dev :=
  let d := d.attemptOk.sysCore
  { d.setBit Reg.pwrAonStatus_locked false with pwr := { (d.setBit Reg.pwrAonStatus_locked false).pwr with
    failures := if d.pwr.brownBoot then d.pwr.failures else [] } }

/-- The step after a step. -/
def PowerSeq.next (q : PowerSeq) : Nat := if q.sentinel && (q.step == 2 || q.step == 4) then q.step + 2 else q.step + 1

/-- POWER_STEP_DONE. -/
def Dev.powerStepDone (d : Dev) (ticks : Nat) : Dev :=
  match d.pwr.seq with
  | none => d
  | some q =>
    let d := d.siltTo (d.pwr.entrySilt + siltNs ticks)
    if q.step = 8 then (if d.pwr.coldBoot then d.coldStart else d.wakeUp ticks)
    else
      let d := { d with pwr := { d.pwr with seq := some ⟨q.next, false, q.sentinel⟩ } }
      if q.next = 7 then d.tcxo true else d

/-- POWER_STEP_TIMEOUT: once, the step is repeated; the second time the attempt has failed, and the ninth failed attempt
locks (R439). Step 8 has no timeout. -/
def Dev.powerStepTimeout (d : Dev) (ticks : Nat) : Dev :=
  match d.pwr.seq with
  | none => d
  | some q =>
    if q.step = 8 then d
    else
      let d := d.siltTo (d.pwr.entrySilt + siltNs ticks)
      let d := (d.setFld Reg.pwrAonStatus_cause q.step).raise Reg.pwrAonStatus_fail
      let d := if q.step = 7 then d.tcxo false else d
      if !q.retried then
        let d := { d.bump Cnt.stepRetry with pwr := { d.pwr with seq := some { q with retried := true } } }
        if q.step = 7 then d.tcxo true else d
      else
        let d := d.bump Cnt.attemptFail
        let n := d.fld Reg.pwrAonStatus_attempts
        let d := { d with pwr := { d.pwr with
          seq := none, restart := true, attemptFailed := true, failSilt := d.pwr.silt, failures := d.pwr.failures ++ [(q.step, ticks / 1024)] } }
        if n = 8 then d.faultLock else d.setFld Reg.pwrAonStatus_attempts (n + 1)

/-- ATTEMPT_RESTART: 1 s after a failed attempt, by the Silt timer. -/
def Dev.attemptRestart (d : Dev) : Dev := if d.pwr.restart then (d.siltTo (d.pwr.failSilt + 1000000000)).startSeq true else d

/-- A write to PWR_RELEASE (R441). -/
def Dev.powerRelease (d : Dev) (v : Nat) : Dev :=
  if v % 65536 = 0x0A55 ∧ d.devState = dsFaultLock then
    let d := (d.setFld Reg.pwrAonStatus_attempts 0).setBit Reg.pwrAonStatus_locked false
    (d.setFld Reg.hifStat_dev_state (if d.pwr.coldBoot then dsOff else dsSentinel)).startSeq true
  else d

/-! ## Supply and rails (R428 to R433, R451) -/

/-- The power die starts from cold: the device is off until step 8. -/
def Dev.coldSeq (d : Dev) (sentinel : Bool) : Dev :=
  let d := (d.setFld Reg.hifStat_dev_state dsOff).startSeq sentinel
  { d with pwr := { d.pwr with coldBoot := true, entrySilt := d.pwr.silt } }

/-- UVLO_RELEASE. -/
def Dev.uvloRelease (d : Dev) : Dev :=
  if d.pwr.vinUp || d.pwr.extSupply then d
  else { d with pwr := { d.pwr with vinUp := true } }.coldSeq false

/-- UVLO_ENGAGE: every rail goes off, and what they held is lost. -/
def Dev.uvloEngage (d : Dev) : Dev :=
  if !d.pwr.vinUp then d
  else
    let low := d.pwr.porLow
    let d := d.porCore
    { d with pwr := { d.pwr with vinUp := false, porLow := low } }.setFld Reg.hifStat_dev_state dsOff

/-- VCORE_PHASE_FAULT (R433); a second failed phase locks (Table 16.4). -/
def Dev.phaseFault (d : Dev) (n : Fin 4) : Dev :=
  let bad := d.fld Reg.pwrRailstat_ph_fail
  if bad.testBit n.val || d.pwr.extSupply || !d.mainUp then d
  else
    let d := (d.setFld Reg.pwrRailstat_ph_fail (bad ||| 2 ^ n.val)).bump Cnt.phaseFail
    if bad = 0 then d.faultEvent 6 n.val
    else
      let d := ((d.setFld Reg.pwrFltCause_cause 3).raise Reg.pwrFltCause_lean_only).faultLock
      { d with pwr := { d.pwr with coldBoot := true } }

/-- VCORE_ADJUST: one 5 mV step within 0.72 to 0.88 V, at most one in 100 µs. -/
def Dev.vcoreAdjust (d : Dev) (up : Bool) : Dev :=
  let v := d.fld Reg.pwrRailstat_vcore
  if !d.mainUp || d.pwr.extSupply then d
  else d.due d.pwr.vcoreNext fun d =>
    { d with pwr := { d.pwr with vcoreNext := d.tim.cyc + 100 * cyclesPerUs } }.setFld Reg.pwrRailstat_vcore (if up then min 176 (v + 1) else max 144 (v - 1))

/-- After a power-on reset the main die boots at once where its rails are up; where they stand in the SENTINEL condition,
the sequence brings them up first. -/
def Dev.restartRails (d : Dev) (wasUp : Bool) : Dev := if wasUp then d else d.coldSeq true

/-- Are VCORE and the other rails of the main die up? -/
def Dev.railsUp (d : Dev) : Bool :=
  d.pwr.extSupply || (!d.waking && d.devState != dsSentinel && d.devState != dsFaultLock && d.devState != dsOff)

/-- BROWNOUT (R451): a power-on reset that the latch on VIO18 remembers. -/
def Dev.brownOut (d : Dev) : Dev :=
  if !d.pwr.vinUp && !d.pwr.extSupply then d
  else
    let up := d.railsUp
    let p := d.pwr
    let strap := d.fld Reg.bootStat_strap
    let d := (d.porCore.setFld Reg.bootStat_strap strap).setBit Reg.pwrRailstat_extsup p.extSupply
    let d := (d.raise Reg.pwrAonStatus_brownout).bump Cnt.brownout
    { d with pwr := { d.pwr with brownBoot := true, porLow := p.porLow, sysLow := p.sysLow } }.restartRails up

/-- REFCLK40_LOSS (Table 16.4): the rails go to their SENTINEL condition, the DRAM loses its contents, and the wake sequence
ends in a cold boot. -/
def Dev.refclkLoss (d : Dev) : Dev :=
  if !d.mainUp then d
  else
    let d := (d.setFld Reg.pwrFltCause_cause 2).coldSeq true
    { d with pwr := { d.pwr with attemptFailed := true } }

/-! ## Reset pins (R457, R506, R525) -/

/-- POR_N rises: registers reset, the straps are sampled. While the power-up sequence runs, the main die stays in reset
until step 8. -/
def Dev.powerOn (d : Dev) (strap : BitVec 4) (testEn ext vio18Kept : Bool) : Dev :=
  let ext := ext && !d.pwr.vinUp
  if !d.pwr.vinUp && !ext then { d with pwr := { d.pwr with porLow := false } }
  else
    let up := ext || d.railsUp
    let p := d.pwr
    let brown := d.bit Reg.pwrAonStatus_brownout && vio18Kept
    let d := { d with obs := { d.obs with testEn := testEn } }.porCore
    let d := (d.setFld Reg.bootStat_strap strap.toNat).setBit Reg.pwrAonStatus_brownout brown
    let d := { d with pwr := { d.pwr with extSupply := ext, sysLow := p.sysLow } }.setBit Reg.pwrRailstat_extsup ext
    match p.seq with
    | some q =>
      if p.coldBoot then
        let d := d.coldSeq q.sentinel
        { d with pwr := { d.pwr with seq := some q } }
      else d.coldSeq true
    | none => d.restartRails up

/-- SYS_RST_N rises: the main die outside the Silt domain resets and boots. -/
def Dev.sysReset (d : Dev) (strap : BitVec 4) : Dev :=
  if d.pwr.porLow || (!d.pwr.vinUp && !d.pwr.extSupply) then { d with pwr := { d.pwr with sysLow := false } }
  else
    let up := d.railsUp
    let p := d.pwr
    let lock := d.bit Reg.pwrAonStatus_locked
    let d := d.sysCore.setFld Reg.bootStat_strap strap.toNat
    let d := { d with pwr := { d.pwr with sysLow := false } }
    let d := if lock then d.setBit Reg.pwrAonStatus_locked false else d
    match p.seq with
    | some q => if p.coldBoot then { d.coldSeq q.sentinel with pwr := { (d.coldSeq q.sentinel).pwr with seq := some q } }
      else d.coldSeq true
    | none => d.restartRails up

/-- POR_N falls. -/
def Dev.porAssert (d : Dev) : Dev := { d with pwr := { d.pwr with porLow := true } }

/-- SYS_RST_N falls; it is ignored while POR_N is low. -/
def Dev.sysAssert (d : Dev) : Dev := if d.pwr.porLow then d else { d with pwr := { d.pwr with sysLow := true } }

/-! ## Wake sources (R223, R452, R453, R455) -/

/-- GPIO_WAKE: GPIO_SEL has held the level GPIO_POL. -/
def Dev.gpioHeld (d : Dev) (levels : BitVec 16) : Dev :=
  if levels.getLsbD (d.cfgFld Reg.pwrWakecfg_gpio_sel) = d.cfgBit Reg.pwrWakecfg_gpio_pol then d.fireSource 4 else d

/-- ETH_ENERGY_WAKE. -/
def Dev.energyWake (d : Dev) (p : PortId) : Dev := if d.frameMode p then d else d.fireSource p.val

/-- Is a frame, without its FCS, a Nerran wake frame (R453)? -/
def Dev.isWakeFrame (d : Dev) (b : List Byte) : Bool :=
  let mac := beAt b 0 6
  let own := d.fld Reg.pplMacHi_mac * 4294967296 + (d.reg Reg.pplMacLo).toNat
  decide (60 ≤ b.length) && (mac == own || mac == 0xFFFFFFFFFFFF) && beAt b 12 2 == 0x88B5 && beAt b 14 2 == 0x4E52 &&
    beAt b 16 4 == d.cfgFld Reg.pwrEthwake_code

/-- WAKE_FRAME. -/
def Dev.wakeFrameIn (d : Dev) (p : PortId) (b : List Byte) (fcsOk : Bool) : Dev :=
  if (d.port p).listenOn && fcsOk && d.isWakeFrame b then d.fireSource p.val else d

/-- LISTEN_WINDOW_OPEN. -/
def Dev.listenOpen (d : Dev) (p : PortId) : Dev :=
  if d.devState != dsSentinel || !d.pwr.armed || d.waking || !d.frameMode p || !(d.cfgFld Reg.pwrWakecfg_en).testBit p.val then d
  else ((d.siltTo (d.port p).listenAt).modPort p fun x => { x with listenOn := true, listenAt := x.listenAt + d.listenPeriod }).bump
    Cnt.ethListen

/-- LISTEN_WINDOW_CLOSE: WIN_MS after its opening, at least 5 ms. -/
def Dev.listenClose (d : Dev) (p : PortId) : Dev :=
  if !(d.port p).listenOn then d
  else
    let opened := (d.port p).listenAt - d.listenPeriod
    (d.siltTo (opened + max 5 (d.cfgFld Reg.pwrListen_win_ms) * 1000000)).modPort p fun x => { x with listenOn := false }

/-- SILT_TIMER_EXPIRY: the timer runs only when it was loaded with a count. -/
def Dev.siltExpiry (d : Dev) : Dev :=
  if d.cfgFld Reg.pwrTimer_count = 0 ∨ d.devState ≠ dsSentinel then d
  else (d.siltTo (d.pwr.entrySilt + siltNs (d.cfgFld Reg.pwrTimer_count))).fireSource 5

/-- WAKE_PATTERN_RECEIVED (R223): the receiver is off when its frequency lies outside its range. -/
def Dev.wakePattern (d : Dev) (code : BitVec 32) (crc : Byte) : Dev :=
  let f := d.cfgFld Reg.mshWakefreq_freq
  if f < 340000000 ∨ 1050000000 < f then d
  else if !wakeCrcOk code crc then d.bump Cnt.wakeCrcFail
  else if code ≠ 0 ∧ (code = d.cfg Reg.mshWakecodeA ∨ code = d.cfg Reg.mshWakecodeB) then
    ((d.bump Cnt.wakeMatch).raise Reg.mshStat_wake_match).fireSource 3
  else d

/-- PERST_N falls (R424, R455). -/
def Dev.perstAssert (d : Dev) : Dev :=
  let d := { d with pins := { d.pins with perstN := false } }
  if !d.mainUp then d else (d.setBit Reg.hifStat_link_up false).leaveHosted true

/-- PERST_N rises: a wake source, and the end of WAKE_N. -/
def Dev.perstDeassert (d : Dev) : Dev :=
  if d.pins.perstN then d else { d with pins := { d.pins with perstN := true, wakeN := false } }.fireSource 2

/-- PCIE_LINK_LOSS: the link has been down for 100 ms. -/
def Dev.pcieLoss (d : Dev) : Dev := (d.setBit Reg.hifStat_link_up false).leaveHosted true

/-- WAKE_N_TIMEOUT: WAKE_N has been driven for 1 s. -/
def Dev.wakeNEnd (d : Dev) : Dev :=
  if !d.pins.wakeN then d
  else d.due (d.pwr.wakeNFrom + cyclesPerS) fun d => ({ d with pins := { d.pins with wakeN := false } }.setBit Reg.hifStat_link_up false).leaveHosted true

end Sys2Proof.Machine
end

