-- ==== Sys2Proof/Machine/Registers.lean ====
section
/-! DEFINITION. Register accesses (R8 to R11, R504, R505): the masked write, what a write to a register does beyond its
fields, and the reads that change the device. -/

namespace Sys2Proof.Machine

/-- Is an access a naturally aligned 32-bit one (R8)? -/
def accessOk (addr bytes : Nat) : Bool := bytes == 4 && addr % 4 == 0

/-- Does BAR0 reach a register? Not without the main die; and while the boot ROM waits for an image through PCI Express,
only the BOOT block (R464). -/
def Dev.bar0 (d : Dev) (a : Nat) : Bool :=
  d.mainUp && (d.devState != dsBoot || d.fld Reg.bootStat_strap != 4 || (decide (0x60000 ≤ a) && decide (a < 0x100000)))

/-- What a register holds after a write of `v` by its access codes (Table 0.4): RW bits take the value, a 1 clears a W1C
bit, every other bit stays. -/
def RegDesc.written (r : RegDesc) (old v : Word) : Word :=
  (old &&& ~~~(r.rw ||| r.w1c)) ||| (v &&& r.rw) ||| (old &&& r.w1c &&& ~~~v)

/-- Write the fields of a register. -/
def Dev.maskedWrite (d : Dev) (r : RegDesc) (a : Nat) (v : Word) : Dev := d.setReg a (r.written (d.reg a) v)

/-- The number of a ring whose registers hold an address, and the register's place among them. -/
def ringOfAddr (a : Nat) : Option (Nat × Nat) :=
  if 0x41000 ≤ a ∧ a < 0x41300 then some ((a - 0x41000) / 16, (a - 0x41000) % 16) else none

/-- A write to a ring register: the address of an enabled ring stays (R401). -/
def Dev.ringWriteReg (d : Dev) (r : RegDesc) (i o : Nat) (a : Nat) (v : Word) : Dev :=
  if o = 8 then d.ringCfgWrite i (r.written (d.reg a) v)
  else if (o = 0 ∨ o = 4) ∧ d.ringEn i then d
  else d.maskedWrite r a v

/-- A write to TSH_GCL_CFG: EN and LEN, and COMMIT (R310). -/
def Dev.gclWrite (d : Dev) (p : PortId) (v : Word) : Dev :=
  let a := Reg.tshGclCfg p
  let d := d.setReg a ((d.reg a &&& 0x20000000) ||| (v &&& 0x800000FF))
  if v.getLsbD 30 then d.gclCommit p else d

/-- A write to ETH_PAIRCFG: without the pair a port that is down drops what it holds (R283). -/
def Dev.pairWrite (d : Dev) (r : RegDesc) (v : Word) : Dev := (d.maskedWrite r Reg.ethPaircfg v).pairEnded d.pairOn

/-- A write to ETH_CFG: MODE restarts the port (R283). -/
def Dev.ethCfgWrite (d : Dev) (p : PortId) (v : Word) : Dev :=
  let a := Reg.ethCfg p
  let old := d.fld (Reg.ethCfg_mode p)
  (d.setReg a (v &&& 0x00073FFF)).modeWritten p old

/-- A write to MSH_LINK[i]: one that concerns the parent link moves its channel at the next boundary (R217). -/
def Dev.linkWrite (d : Dev) (r : RegDesc) (i : Nat) (a : Nat) (v : Word) : Dev :=
  let d' := d.maskedWrite r a v
  if (d.links ++ d'.writtenLinks).any fun l => l.1 == i && l.2.2 then { d' with msh := { d'.msh with linkWritten := true } } else d'

/-- A write to KAO_CFG (R355, R367). -/
def Dev.kaoCfgWrite (d : Dev) (v : Word) : Dev := (d.setReg Reg.kaoCfg (v &&& 0xC00F00FF)).kaoCfgWritten

/-- A write to TIM_SLOT_OFFSET (R241). -/
def Dev.slotOffsetWrite (d : Dev) (v : Word) : Dev := (d.setReg Reg.timSlotOffset (v &&& 0x003FFFFF)).slotOffsetWritten

/-- A write to a word of the MSI-X table: an entry that it unmasks is sent when it is pending (R407). -/
def Dev.msixWrite (d : Dev) (r : RegDesc) (a : Nat) (v : Word) : Dev :=
  (d.maskedWrite r a v).msixUnmasked ((a - 0x48000) / 16)

/-- BOOT_PCIE_CTL.GO (R464): the boot ROM reads and checks an image. -/
def Dev.pcieGo (d : Dev) (v : Word) (image : HostRead) : Dev :=
  if !v.getLsbD 0 || d.devState != dsBoot || d.fld Reg.bootStat_strap != 4 then d
  else
    let d := (d.setBit Reg.bootPcieCtl_err false).setBit Reg.bootPcieCtl_done false
    match image with
    | .err => d.raise Reg.bootPcieCtl_err
    | .ok b =>
      if d.imageOk b then { d with boot := { d.boot with image := b } }.raise Reg.bootPcieCtl_done
      else d.raise Reg.bootPcieCtl_err

/-- What a write does at a register that is more than its fields; GO of BOOT_PCIE_CTL brings an image and is a command of
its own. -/
def Dev.writeReg (d : Dev) (r : RegDesc) (a : Nat) (v : Word) : Dev :=
  if a = Reg.hifCtrl then d.hifCtrlWrite v
  else if 0x48000 ≤ a ∧ a < 0x48200 then d.msixWrite r a v
  else if a = Reg.timSlotOffset then d.slotOffsetWrite v
  else if a = Reg.ethCfg 0 then d.ethCfgWrite 0 v
  else if a = Reg.ethCfg 1 then d.ethCfgWrite 1 v
  else if a = Reg.ethPaircfg then d.pairWrite r v
  else if a = Reg.timPpscfg then (d.maskedWrite r a v).ppsOutGate
  else if a = Reg.ethMdio then d.mdioStart v
  else if a = Reg.tshGclCfg 0 then d.gclWrite 0 v
  else if a = Reg.tshGclCfg 1 then d.gclWrite 1 v
  else if a = Reg.kaoCfg then d.kaoCfgWrite v
  else if a = Reg.pwrRelease then d.powerRelease v.toNat
  else if a = Reg.obsTraceMark then d.traceMark v
  else if a = Reg.obsSnapCtl then d.snapCtlWrite v
  else if 0x1C0040 ≤ a ∧ a < 0x1C0060 then d.linkWrite r ((a - 0x1C0040) / 4) a v
  else match ringOfAddr a with
    | some (i, o) => d.ringWriteReg r i o a v
    | none => d.maskedWrite r a v

/-- A write to a BAR0 address: an address without a register ignores it (R504). -/
def Dev.busWrite (d : Dev) (a : Nat) (v : Word) : Dev :=
  match regDesc a with
  | none => d
  | some r => d.writeReg r a v

/-- A write's value without the W1C bits that hardware sets in the same fabric cycle: they stay set (R11). -/
def setWins (a : Nat) (v same : Word) : Word := match regDesc a with | some r => v &&& ~~~(same &&& r.w1c) | none => v

/-- A host's write: one that is not a naturally aligned 32-bit one changes nothing (R8). -/
def Dev.registerWrite (d : Dev) (addr bytes : Nat) (v same : Word) : Dev :=
  if accessOk addr bytes && d.bar0 addr then d.busWrite addr (setWins addr v same) else d

/-- What a plain read of a register returns; WO fields read 0. -/
def Dev.busRead (d : Dev) (a : Nat) : Word := match regDesc a with | some r => d.reg a &&& ~~~r.wo | none => 0

/-- A Silt management port transaction (R442). A write that meets a BAR0 write of the register in the same fabric cycle is
discarded. -/
def Dev.siltPort (d : Dev) (offset : Nat) (op : SiltOp) (sameCycle : Bool) : Dev :=
  let ok := decide (offset < 0x100) && offset % 4 == 0
  let a := 0x10000 + offset
  match op with
  | .read => d.out (.value (if ok then d.busRead a else 0))
  | .write v => if ok && !sameCycle then d.busWrite a v else d

/-! ## Reads that change the device -/

/-- A host's read of `bytes` bytes, `ofs` behind a register: one that is not naturally aligned and 32 bits wide returns 0 and
changes nothing (R8). One that finds an upset bit returns and writes back the corrected value, and counts REG_CE (R489, R490). -/
def Dev.registerRead (d : Dev) (a ofs bytes : Nat) (upset : Bool) (k : Dev → Dev) : Dev :=
  if !d.bar0 a then d
  else if accessOk ofs bytes then if upset then (k d).bump Cnt.regCe else k d
  else d.out (.value 0)

/-- A read of TIM_NOW_NS latches the time of its cycle (R228). -/
def Dev.nowRead (d : Dev) : Dev := d.latchNow.out (.value (d.tim.ns.setWidth 32))

/-- A read of a register clears its RC fields to their reset value (Table 0.4). -/
def Dev.readClear (d : Dev) (a : Nat) : Dev :=
  match regDesc a with
  | none => d
  | some r => (d.setReg a ((d.reg a &&& ~~~r.rc) ||| (r.reset &&& r.rc))).out (.value (d.reg a))

/-- A read of TSK_LEVEL; where PEAK rises in the same fabric cycle, it keeps its new value, and the read returns the old
(R10, R11). -/
def Dev.levelRead (d : Dev) (same : Bool) : Dev :=
  if same then d.out (.value (Reg.tskLevel_peak.put (d.reg Reg.tskLevel) d.obs.peakWas)) else d.readClear Reg.tskLevel

/-- A read of CLK_TJ, likewise for MAX. -/
def Dev.tjRead (d : Dev) (same : Bool) : Dev :=
  if same then d.out (.value (Reg.clkTj_max.put (d.reg Reg.clkTj) d.obs.tjWas)) else d.readClear Reg.clkTj

end Sys2Proof.Machine
end

