-- ==== Sys2Proof/Machine/Commands.lean ====
section
/-! DEFINITION. The host commands of Table 13.5 as effects on the block: each is fetched from its ring, or left there
(R410), and executed. -/

namespace Sys2Proof.Machine

/-- NOP (R413). -/
def cmdNop (h : CmdHdr) : Dev → Dev := hostCmd 0x0001 h fun c d => d.complete c stOk 0
/-- CHAN_CONFIG (R126). -/
def cmdChanConfig (h : CmdHdr) (p : ChanParams) : Dev → Dev := hostCmd 0x0010 h fun c d => d.chanConfig c p
/-- SCHED_WRITE (R162). -/
def cmdSchedWrite (h : CmdHdr) (radio : Byte) (first count : BitVec 16) (buf : Buf) : Dev → Dev :=
  hostCmd 0x0011 h fun c d => d.schedWrite c radio.toNat first.toNat count.toNat buf
/-- ROT_WRITE (R162). -/
def cmdRotWrite (h : CmdHdr) (first : BitVec 32) (count : BitVec 16) (buf : Buf) : Dev → Dev :=
  hostCmd 0x0012 h fun c d => d.rotWrite c first.toNat count.toNat buf
/-- SCHEDULE_COMMIT (R163). -/
def cmdScheduleCommit (h : CmdHdr) : Dev → Dev := hostCmd 0x0013 h fun c d => d.scheduleCommit c
/-- RF_ENABLE (R152). -/
def cmdRfEnable (h : CmdHdr) (radio : Byte) : Dev → Dev := hostCmd 0x0014 h fun c d => d.rfEnable c radio.toNat
/-- RF_DISABLE (R152). -/
def cmdRfDisable (h : CmdHdr) (radio : Byte) : Dev → Dev := hostCmd 0x0015 h fun c d => d.rfDisable c radio.toNat
/-- RF_RESET (R152). -/
def cmdRfReset (h : CmdHdr) (radio : Byte) : Dev → Dev := hostCmd 0x0016 h fun c d => d.rfReset c radio.toNat
/-- RF_CAL_SWEEP (R137). -/
def cmdRfCalSweep (h : CmdHdr) (radio : Byte) : Dev → Dev := hostCmd 0x0017 h fun c d => d.rfCalSweep c radio.toNat
/-- RF_ANT_ENABLE (R147). -/
def cmdRfAntEnable (h : CmdHdr) (radio ports : Byte) : Dev → Dev :=
  hostCmd 0x0018 h fun c d => d.rfAntEnable c radio.toNat ports
/-- WAKE_SEND (R197). -/
def cmdWakeSend (h : CmdHdr) (chan : BitVec 16) (code : BitVec 32) : Dev → Dev :=
  hostCmd 0x0019 h fun c d => d.wakeSend c chan.toNat code
/-- SPECTRUM_SURVEY (R415). -/
def cmdSpectrumSurvey (h : CmdHdr) (mask : Byte) (first count : BitVec 16) (dwell : Byte) (buf : Buf) : Dev → Dev :=
  hostCmd 0x001A h fun c d => d.surveyCmd c mask.toNat first.toNat count.toNat dwell.toNat buf
/-- SENSOR_SET (R271). -/
def cmdSensorSet (h : CmdHdr) (p : SensorParams) : Dev → Dev := hostCmd 0x001B h fun c d => d.sensorSet c p
/-- MESH_FLOOD (R221). -/
def cmdMeshFlood (h : CmdHdr) (kind ttl : Byte) (buf : Buf) : Dev → Dev :=
  hostCmd 0x0020 h fun c d => d.meshFlood c kind.toNat ttl.toNat buf
/-- TIME_FORCE ACCEPT (R236). -/
def cmdTimeForceAccept (h : CmdHdr) : Dev → Dev := hostCmd 0x0021 h fun c d => d.timeAccept c
/-- TIME_FORCE SET (R236). -/
def cmdTimeForceSet (h : CmdHdr) (form : Byte) (sec : BitVec 48) (ns : BitVec 32) : Dev → Dev :=
  hostCmd 0x0021 h fun c d => d.timeSet c form.toNat sec.toNat ns.toNat
/-- RULE_WRITE (R259). -/
def cmdRuleWrite (h : CmdHdr) (first count : BitVec 16) (buf : Buf) : Dev → Dev :=
  hostCmd 0x0030 h fun c d => d.ruleWrite c first.toNat count.toNat buf
/-- PATTERN_WRITE (R259). -/
def cmdPatternWrite (h : CmdHdr) (pattern len : Byte) (value mask : List Byte) : Dev → Dev :=
  hostCmd 0x0031 h fun c d => d.patternWrite c pattern.toNat len.toNat value mask
/-- HASH_WRITE (R259). -/
def cmdHashWrite (h : CmdHdr) (which bits : Byte) (key : List Byte) : Dev → Dev :=
  hostCmd 0x0032 h fun c d => d.hashWrite c which.toNat bits key
/-- INDIR_WRITE (R259). -/
def cmdIndirWrite (h : CmdHdr) (first count : BitVec 16) (buf : Buf) : Dev → Dev :=
  hostCmd 0x0033 h fun c d => d.indirWrite c first.toNat count.toNat buf
/-- RULESET_COMMIT (R259). -/
def cmdRulesetCommit (h : CmdHdr) : Dev → Dev := hostCmd 0x0034 h fun c d => d.rulesetCommitCmd c
/-- FWD_WRITE (R271). -/
def cmdFwdWrite (h : CmdHdr) (table op : Byte) (index : BitVec 16) (buf : Buf) : Dev → Dev :=
  hostCmd 0x0035 h fun c d => d.fwdWrite c table.toNat op.toNat index.toNat buf
/-- TABLE_REBUILD (R415). -/
def cmdTableRebuild (h : CmdHdr) (table : Byte) : Dev → Dev :=
  hostCmd 0x0036 h fun c d => d.tableRebuild c table.toNat
/-- KEY_INSTALL (R346). -/
def cmdKeyInstall (h : CmdHdr) (p : KeyParams) : Dev → Dev := hostCmd 0x0040 h fun c d => d.keyInstall c p false
/-- KEY_INSTALL_WRAPPED (R346). -/
def cmdKeyInstallWrapped (h : CmdHdr) (p : KeyParams) : Dev → Dev := hostCmd 0x0041 h fun c d => d.keyInstall c p true
/-- KEY_EXPORT (R346). -/
def cmdKeyExport (h : CmdHdr) (keyidx : Byte) (sidx : BitVec 32) (dst : BitVec 64) : Dev → Dev :=
  hostCmd 0x0042 h fun c d => d.keyExport c keyidx sidx dst
/-- KEY_DELETE (R346). LEN takes no part. -/
def cmdKeyDelete (h : CmdHdr) (target slot keyidx : Byte) (sidx : BitVec 32) : Dev → Dev :=
  hostCmd 0x0043 h fun c d => d.keyDelete c target slot keyidx sidx
/-- KAO_OP (R366). -/
def cmdKaoOp (h : CmdHdr) (p : KaoOpParams) : Dev → Dev := hostCmd 0x0044 h fun c d => d.kaoOp c p
/-- DRAM_TRAIN (R391). -/
def cmdDramTrain (h : CmdHdr) : Dev → Dev := hostCmd 0x0050 h fun c d => d.dramTrain c
/-- CC_SWITCH (R338). -/
def cmdCcSwitch (h : CmdHdr) : Dev → Dev := hostCmd 0x0051 h fun c d => d.ccSwitchCmd c
/-- PWR_STATE (R446). -/
def cmdPwrState (h : CmdHdr) (p0 : Nat) : Dev → Dev := hostCmd 0x0060 h fun c d => d.powerCmd c p0
/-- FW_BLOCK (R476). -/
def cmdFwBlock (h : CmdHdr) (offset : BitVec 32) (len : BitVec 16) (addr : BitVec 64) (data : HostRead) : Dev → Dev :=
  hostCmd 0x0070 h fun c d => d.fwBlock c offset.toNat len.toNat addr.toNat data
/-- FW_APPLY (R477). -/
def cmdFwApply (h : CmdHdr) : Dev → Dev := hostCmd 0x0071 h fun c d => d.fwApply c
/-- FW_ACTIVATE (R478). -/
def cmdFwActivate (h : CmdHdr) (p0 : Byte) : Dev → Dev := hostCmd 0x0072 h fun c d => d.fwActivate c (p0.getLsbD 0)
/-- PROFILE_WRITE (R466). -/
def cmdProfileWrite (h : CmdHdr) (buf : Buf) : Dev → Dev := hostCmd 0x0073 h fun c d => d.profileWrite c buf
/-- A command with an opcode that Table 13.5 does not list (R412). -/
def cmdUnlisted (h : CmdHdr) (opcode : BitVec 16) : Dev → Dev :=
  hostCmd opcode h fun c d => d.complete c stNotSupported 0

/-- The opcode and header of a host command; none for any other command of the block. -/
def hostHdr : Instr → Option (Half × CmdHdr)
  | .nop h => some (0x0001, h)
  | .chanConfig h _ => some (0x0010, h)
  | .schedWrite h _ _ _ _ => some (0x0011, h)
  | .rotWrite h _ _ _ => some (0x0012, h)
  | .scheduleCommit h => some (0x0013, h)
  | .rfEnable h _ => some (0x0014, h)
  | .rfDisable h _ => some (0x0015, h)
  | .rfReset h _ => some (0x0016, h)
  | .rfCalSweep h _ => some (0x0017, h)
  | .rfAntEnable h _ _ => some (0x0018, h)
  | .wakeSend h _ _ => some (0x0019, h)
  | .spectrumSurvey h _ _ _ _ _ => some (0x001A, h)
  | .sensorSet h _ => some (0x001B, h)
  | .meshFlood h _ _ _ => some (0x0020, h)
  | .timeForceAccept h => some (0x0021, h)
  | .timeForceSet h _ _ _ => some (0x0021, h)
  | .ruleWrite h _ _ _ => some (0x0030, h)
  | .patternWrite h _ _ _ _ => some (0x0031, h)
  | .hashWrite h _ _ _ => some (0x0032, h)
  | .indirWrite h _ _ _ => some (0x0033, h)
  | .rulesetCommit h => some (0x0034, h)
  | .fwdWrite h _ _ _ _ => some (0x0035, h)
  | .tableRebuild h _ => some (0x0036, h)
  | .keyInstall h _ => some (0x0040, h)
  | .keyInstallWrapped h _ => some (0x0041, h)
  | .keyExport h _ _ _ => some (0x0042, h)
  | .keyDelete h _ _ _ _ _ => some (0x0043, h)
  | .kaoOp h _ => some (0x0044, h)
  | .dramTrain h => some (0x0050, h)
  | .ccSwitch h => some (0x0051, h)
  | .pwrStateActive h => some (0x0060, h)
  | .pwrStateLean h => some (0x0060, h)
  | .pwrStateSentinel h _ => some (0x0060, h)
  | .fwBlock h _ _ _ _ => some (0x0070, h)
  | .fwApply h => some (0x0071, h)
  | .fwActivate h _ => some (0x0072, h)
  | .profileWrite h _ => some (0x0073, h)
  | .unlistedOpcode h op => some (op, h)
  | _ => none

/-- The opcodes of Table 13.5. -/
def listedOpcodes : List Nat :=
  [0x01, 0x10, 0x11, 0x12, 0x13, 0x14, 0x15, 0x16, 0x17, 0x18, 0x19, 0x1A, 0x1B, 0x20, 0x21, 0x30, 0x31, 0x32, 0x33, 0x34, 0x35,
    0x36, 0x40, 0x41, 0x42, 0x43, 0x44, 0x50, 0x51, 0x60, 0x70, 0x71, 0x72, 0x73]

/-- Issue a host command from the local host. -/
def issueLocal : Instr → Dev → Dev
  | .nop h => cmdNop h
  | .chanConfig h p => cmdChanConfig h p
  | .schedWrite h r f n b => cmdSchedWrite h r f n b
  | .rotWrite h f n b => cmdRotWrite h f n b
  | .scheduleCommit h => cmdScheduleCommit h
  | .rfEnable h r => cmdRfEnable h r
  | .rfDisable h r => cmdRfDisable h r
  | .rfReset h r => cmdRfReset h r
  | .rfCalSweep h r => cmdRfCalSweep h r
  | .rfAntEnable h r p => cmdRfAntEnable h r p
  | .wakeSend h c k => cmdWakeSend h c k
  | .spectrumSurvey h m f n w b => cmdSpectrumSurvey h m f n w b
  | .sensorSet h p => cmdSensorSet h p
  | .meshFlood h k t b => cmdMeshFlood h k t b
  | .timeForceAccept h => cmdTimeForceAccept h
  | .timeForceSet h f s n => cmdTimeForceSet h f s n
  | .ruleWrite h f n b => cmdRuleWrite h f n b
  | .patternWrite h p l v k => cmdPatternWrite h p l v k
  | .hashWrite h w b k => cmdHashWrite h w b k
  | .indirWrite h f n b => cmdIndirWrite h f n b
  | .rulesetCommit h => cmdRulesetCommit h
  | .fwdWrite h t o i b => cmdFwdWrite h t o i b
  | .tableRebuild h t => cmdTableRebuild h t
  | .keyInstall h p => cmdKeyInstall h p
  | .keyInstallWrapped h p => cmdKeyInstallWrapped h p
  | .keyExport h k s a => cmdKeyExport h k s a
  | .keyDelete h t s _ k i => cmdKeyDelete h t s k i
  | .kaoOp h p => cmdKaoOp h p
  | .dramTrain h => cmdDramTrain h
  | .ccSwitch h => cmdCcSwitch h
  | .pwrStateActive h => cmdPwrState h 0
  | .pwrStateLean h => cmdPwrState h 1
  | .pwrStateSentinel h p => cmdPwrState h p.toNat
  | .fwBlock h o l a b => cmdFwBlock h o l a b
  | .fwApply h => cmdFwApply h
  | .fwActivate h p => cmdFwActivate h p
  | .profileWrite h b => cmdProfileWrite h b
  | .unlistedOpcode h op => cmdUnlisted h op
  | _ => id

/-! ## Command entries (Table 13.3) -/

/-- What a read of `n` bytes at an offset of a profile returns: an error beyond its end. -/
def profRead (prof : List Byte) (addr n : Nat) : HostRead :=
  if prof.length < addr + n then .err else .ok (slice prof addr n)

/-- BUF of a command entry of a profile: its address is an offset into the profile (Table 15.4). -/
def entryBuf (prof e : List Byte) : Buf :=
  let a := leAt e 24 8
  let n := leAt e 32 4
  ⟨BitVec.ofNat 64 a, BitVec.ofNat 32 n, profRead prof a n⟩

/-- The key parameters of a command entry; the address takes `n` bytes. -/
def entryKey (prof e : List Byte) (n : Nat) : KeyParams :=
  let a := leAt e 32 8
  { target := byte (leAt e 16 1), slot := byte (leAt e 17 1), len := byte (leAt e 18 1), keyidx := byte (leAt e 19 1),
    sidx := BitVec.ofNat 32 (leAt e 20 4), ctrStart := BitVec.ofNat 48 (leAt e 24 6), hostUse := byte (leAt e 30 1),
    addr := BitVec.ofNat 64 a, data := profRead prof a n }

/-- The command that a 64-byte entry of a profile asks for. -/
def readEntry (prof e : List Byte) : Instr :=
  let h : CmdHdr := ⟨BitVec.ofNat 32 (leAt e 4 4), BitVec.ofNat 64 (leAt e 8 8)⟩
  let p (i : Nat) : Byte := byte (leAt e (16 + i) 1)
  let p2 (i : Nat) : BitVec 16 := BitVec.ofNat 16 (leAt e (16 + i) 2)
  let p4 (i : Nat) : BitVec 32 := BitVec.ofNat 32 (leAt e (16 + i) 4)
  let p8 (i : Nat) : BitVec 64 := BitVec.ofNat 64 (leAt e (16 + i) 8)
  let buf := entryBuf prof e
  match leAt e 0 2 with
  | 0x0001 => .nop h
  | 0x0010 => .chanConfig h ⟨p2 0, p 2, p 3, p4 4, p 8, p4 12, p4 16, p4 20, p4 24⟩
  | 0x0011 => .schedWrite h (p 0) (p2 2) (p2 4) buf
  | 0x0012 => .rotWrite h (p4 0) (p2 4) buf
  | 0x0013 => .scheduleCommit h
  | 0x0014 => .rfEnable h (p 0)
  | 0x0015 => .rfDisable h (p 0)
  | 0x0016 => .rfReset h (p 0)
  | 0x0017 => .rfCalSweep h (p 0)
  | 0x0018 => .rfAntEnable h (p 0) (p 1)
  | 0x0019 => .wakeSend h (p2 0) (p4 4)
  | 0x001A => .spectrumSurvey h (p 0) (p2 2) (p2 4) (p 6) { buf with data := .ok [] }
  | 0x001B => .sensorSet h ⟨p4 0, BitVec.ofNat 24 (leAt e 20 3), p 7, p 8, p 9, p 10, p 11, p 12, p2 14, p2 16, p2 18⟩
  | 0x0020 => .meshFlood h (p 0) (p 1) buf
  | 0x0021 =>
    if p 0 = 0 then .timeForceAccept h else .timeForceSet h (p 0) (BitVec.ofNat 48 (leAt e 24 6)) (p4 16)
  | 0x0030 => .ruleWrite h (p2 0) (p2 2) buf
  | 0x0031 => .patternWrite h (p 0) (p 1) (slice e 32 16) (slice e 48 16)
  | 0x0032 => .hashWrite h (p 0) (p 1) (slice e 24 40)
  | 0x0033 => .indirWrite h (p2 0) (p2 2) buf
  | 0x0034 => .rulesetCommit h
  | 0x0035 => .fwdWrite h (p 0) (p 1) (p2 2) buf
  | 0x0036 => .tableRebuild h (p 0)
  | 0x0040 => .keyInstall h (entryKey prof e (if p 2 = 1 then 32 else 16))
  | 0x0041 => .keyInstallWrapped h (entryKey prof e 40)
  | 0x0042 => .keyExport h (p 3) (p4 4) (p8 16)
  | 0x0043 => .keyDelete h (p 0) (p 1) (p 2) (p 3) (p4 4)
  | 0x0044 =>
    .kaoOp h { target := p 0, slot := p 1, keyidx := p 3, sidx := p4 4, op := p 8, draw := p 9, blocks := p2 10, srcAddr := p8 16,
               src := profRead prof (leAt e 32 8) (16 * leAt e 26 2), dst := p8 24 }
  | 0x0050 => .dramTrain h
  | 0x0051 => .ccSwitch h
  | 0x0060 => if p 0 = 0 then .pwrStateActive h else if p 0 = 1 then .pwrStateLean h else .pwrStateSentinel h (p 0)
  | 0x0070 => .fwBlock h (p4 0) (p2 4) (p8 8) (profRead prof (leAt e 24 8) (leAt e 20 2))
  | 0x0071 => .fwApply h
  | 0x0072 => .fwActivate h (p 0)
  | 0x0073 => .profileWrite h buf
  | op => .unlistedOpcode h (BitVec.ofNat 16 op)

end Sys2Proof.Machine
end

