-- ==== Sys2Proof/Machine/Local.lean ====
section
/-! DEFINITION. The end of a boot (R460 to R466), the local host of STANDALONE (R468 to R470), and UART recovery. -/

namespace Sys2Proof.Machine

/-! ## The local host (R468, R470) -/

/-- One step of the local host: the command that it waits for has ended, or it issues the next one. -/
def Dev.localStep (d : Dev) : Dev :=
  match d.boot.localCur, d.boot.localEnd with
  | some (n, c), some st =>
    let d := { d with boot := { d.boot with localCur := none, localEnd := none } }
    match n with
    | some k => if st = stOk then d else d.event 0x0031 st [(8, le 2 c.opcode.toNat), (12, le 4 k)]
    | none => d
  | some _, none => d
  | none, _ =>
    if !d.fetches then d
    else match d.boot.localCmds with
      | [] => d
      | (n, i) :: t =>
        let d := { d with boot := { d.boot with localCmds := t, localEnd := none } }
        match hostHdr i with
        | none => d
        | some (op, h) =>
          issueLocal i { d with boot := { d.boot with localCur := some (n, ⟨op, h, d.hif.localIdx, d.hif.epoch⟩) } }

/-- The local host's survey of a blank profile: the next pass starts when no command waits and every radio works. -/
def Dev.nextSurvey (d : Dev) : Dev :=
  if d.boot.surveyLoop && d.boot.localCmds.isEmpty && d.boot.localCur.isNone && d.hif.survey.isNone &&
      radios.all fun r => d.rfReadyRun r then
    d.queueLocal (.spectrumSurvey noHdr 7 0 158 1 ⟨1, 47400, .ok []⟩)
  else d

/-- The local host in STANDALONE goes on as far as it can. -/
def Dev.localPump (d : Dev) : Dev :=
  if d.devState != dsStandalone then d
  else
    let d := d.nextSurvey
    (List.range (2 * d.boot.localCmds.length + 2)).foldl (fun d _ => d.localStep) d

/-! ## Without a profile (R468) -/

/-- The channel that a blank profile gives to an index below 158. -/
def blankChan (i : Nat) : ChanParams :=
  { index := BitVec.ofNat 16 i, mode := 2, txTrim := 0,
    freq := BitVec.ofNat 32 (if i ≤ 52 then 346656000 + 13312000 * i else 1306656000 + 13312000 * (i - 53)),
    tuneN := 0, tune0 := 0, tune1 := 0, tune2 := 0, tune3 := 0 }

/-- A port tries a mode. -/
def Dev.tryPort (d : Dev) (p : PortId) (m : Nat) : Dev :=
  (d.modPort p fun x => { x with tryMode := some m, tryFrom := d.tim.cyc }).ethCfgWrite p ((Reg.ethCfg_mode p).put (d.reg (Reg.ethCfg p)) m)

/-- The local host sets the device up without a profile. -/
def Dev.blankHost (d : Dev) : Dev :=
  let d := d.setBit Reg.timPtpcfg_tc_en true
  let d := (d.tryPort 0 1).tryPort 1 1
  let enable : List (Option Nat × Instr) := [(none, .rfEnable noHdr 0), (none, .rfEnable noHdr 1), (none, .rfEnable noHdr 2)]
  let chans := (List.range 158).map fun i => (none, Instr.chanConfig noHdr (blankChan i))
  { d with boot := { d.boot with localCmds := enable ++ chans, surveyLoop := true } }

/-- STANDALONE_MODE_TRY: after 1 s without link the next of modes 1, 2 and 3 is tried. -/
def Dev.modeTry (d : Dev) (p : PortId) : Dev :=
  match (d.port p).tryMode with
  | none => d
  | some m =>
    if d.devState != dsStandalone || d.linkUp p then d
    else d.due ((d.port p).tryFrom + cyclesPerS) fun d => d.tryPort p (m % 3 + 1)

/-- A link that the local host tries is lost: it starts with mode 1 again. -/
def Dev.retryPort (d : Dev) (p : PortId) : Dev :=
  if (d.port p).tryMode.isSome && d.devState == dsStandalone then d.tryPort p 1 else d

/-! ## The profile at boot (R362, R369, R465, R466) -/

/-- The profile that a boot uses, with BOOT_STAT.PROF: the valid copy of the image's schema with the higher GEN. A header
without records is what SETTINGS_RESET leaves, and its boot is a blank-profile boot (R482). -/
def Dev.chooseProfile (d : Dev) : Option (List Byte) × Nat :=
  let ok (b : List Byte) : Bool := profileOk b && leAt b 2 2 == d.boot.schema.toNat
  let a := d.boot.prof0
  let b := d.boot.prof1
  let best : Option (List Byte) :=
    if ok a && (!ok b || decide (profGenOf b ≤ profGenOf a)) then some a else if ok b then some b else none
  match best with
  | some p => if leAt p 4 4 ≤ 16 then (none, 1) else (some p, 0)
  | none => (none, if profileOk a || profileOk b then 2 else 1)

/-- DMC_CFG from a usable DRAM record, else from what the boot stage finds (R369, R370). -/
def Dev.bootDram (d : Dev) (rec' : Option (List Byte)) (find : DramFind) : Dev :=
  let v : Nat × Nat × Nat := match rec' with
    | some (b :: _) => (bitsAt b.toNat 7 1, bitsAt b.toNat 2 2, bitsAt b.toNat 1 1)
    | _ => (find.rank1.toNat, 0, (!find.aliased).toNat)
  ((d.setFld Reg.dmcCfg_conf v.1).setFld Reg.dmcCfg_rate v.2.1).setFld Reg.dmcCfg_dens v.2.2

/-- LINKKEY: the epochs of a link whose wrap has changed start again. -/
def Boot.freshEpochs (b : Boot) (l : Nat) (wrap : List Byte) : Boot :=
  if Sparse.get [] b.lastWrap l = wrap then b
  else { b with
    txEpoch := Sparse.put 0 b.txEpoch l 0, rxEpoch := Sparse.put 0 b.rxEpoch l 0, lastWrap := Sparse.put [] b.lastWrap l wrap }

/-- The transmit epoch of every link moves on at a boot, but not beyond its last value. -/
def Boot.nextEpochs (b : Boot) : Boot :=
  (List.range 8).foldl (fun b l => { b with
    txEpoch := Sparse.put 0 b.txEpoch l (BitVec.ofNat 26 (min 67108863 ((Sparse.get 0 b.txEpoch l).toNat + 1))) }) b

/-- Install one link key; its counter starts at TE_l × 2^22, and is exhausted when the epoch before this boot was the last. -/
def Dev.installLink (d : Dev) (spent : Nat → Bool) (v : List Byte) : Dev :=
  let l := leAt v 0 1
  let big := leAt v 2 1 == 1
  if 7 < l then d
  else
    match keyUnwrap deviceKey ((slice v 4 40).take (if big then 40 else 24)) with
    | none => d.bump Cnt.unwrapFail
    | some k =>
      let c := if spent l then 2 ^ 48 - 1 else (Sparse.get 0 d.boot.txEpoch l).toNat * 4194304
      let d := d.setKslot l (some ⟨BitVec.ofNat 256 (ofBe k), big, BitVec.ofNat 48 c, false, none, 0⟩)
      { d with kao := { d.kao with linkKidx := Sparse.put 0 d.kao.linkKidx l (leAt v 1 1 % 16) } }.markC c [(8, [0]), (9, [byte l])]

/-- The link keys of a profile (R362): the epochs first, then the keys. -/
def Dev.bootKeys (d : Dev) (l : List (List Byte)) : Dev :=
  let b := l.foldl (fun b v => if leAt v 0 1 ≤ 7 then b.freshEpochs (leAt v 0 1) (slice v 4 40) else b) d.boot
  let spent (i : Nat) : Bool := (Sparse.get 0 b.txEpoch i).toNat == 67108863
  l.foldl (fun d v => d.installLink spent v) { d with boot := b.nextEpochs }

/-- The REG records: words of 8 bytes, offset and value. -/
def Dev.regRecord (d : Dev) (v : List Byte) : Dev :=
  (records 8 (v.length / 8) v).foldl (fun d e => d.busWrite (leAt e 0 4) (BitVec.ofNat 32 (leAt e 4 4))) d

/-- Apply a profile (R465, R470): its COMMAND records wait for the local host. -/
def Dev.applyProfile (d : Dev) (prof : List Byte) : Dev :=
  let rs := recordsOf prof
  let of (ty : Nat) : List (List Byte) := (rs.filter fun r => r.1 == ty).map (·.2)
  let d := d.bumpBy Cnt.profileRecUnknown (rs.filter fun r => r.1 == 0 || decide (6 < r.1)).length
  let d := match recordOf prof recRegion with | some v => d.setFld Reg.bootRegion_code (leAt v 0 2) | none => d
  let d := (of recReg).foldl (fun d v => d.regRecord v) d
  let cmds := (of recCommand).flatMap fun v => records 64 (v.length / 64) v
  let upd := match recordOf prof recUpdate with | some v => leAt v 0 1 | none => 0
  { d with boot := { d.boot with
      localCmds := cmds.zipIdx.map fun p => (some p.2, readEntry prof p.1)
      autoApply := upd.testBit 0, autoActivate := upd.testBit 1,
      profile := some (BitVec.ofNat 16 (leAt prof 2 2), BitVec.ofNat 32 (leAt prof 8 4)) } }

/-! ## The end of a boot -/

/-- The staged container resumes from the persisted bitmap (R475). -/
def Dev.bootUpdate (d : Dev) : Dev :=
  let marks := if d.boot.stageId.isSome then d.boot.resumed else []
  let d := { d with boot := { d.boot with marked := marks } }
  let st := if d.boot.stageId.isNone then updEmpty else if !d.staged then updReceiving
    else if d.boot.applied then updApplied else updComplete
  ((d.setFld Reg.bootUpdStat_state st).setFld Reg.bootUpdLimit_limit d.chunkLimit).showUpd

/-- The events that a boot owes for what led to it (R456, R499). A brown-out has lost the state before it and the time. -/
def Dev.bootEvents (d : Dev) : Dev :=
  let d := match d.pwr.faultBoot with
    | some c => { d with pwr := { d.pwr with faultBoot := none } }.event 0x0043 c [(8, [byte (d.fld Reg.pwrFltCause_resets)])]
    | none => d
  if !d.pwr.brownBoot then d
  else
    let k := d.freeCtr
    let d := { d with freeCtr := k + 2, pwr := { d.pwr with brownBoot := false } }.event 0x0023 0 []
    d.wakeEvents (Config.freeNat k) (Config.freeNat (k + 1))

/-- The control firmware of an accepted image runs on pair A. -/
def Dev.finishBoot (d : Dev) (img : List Byte) (bank fallback : Bool) (find : DramFind) : Dev :=
  let d := if fallback then (d.bump Cnt.bootFallback).raise Reg.bootStat_fallback else d
  let d := (d.bump Cnt.boot).setBit Reg.bootStat_bank bank
  let d := d.setReg Reg.bootBuild (BitVec.ofNat 32 (imgBuild img))
  let d := { d with boot := { d.boot with schema := BitVec.ofNat 16 (imgSchema img), image := [] } }
  let d := d.bumpBy Cnt.profileCopyBad ([d.boot.prof0, d.boot.prof1].filter fun b => !profileOk b).length
  let ch := d.chooseProfile
  let d := d.setFld Reg.bootStat_prof ch.2
  let d := d.bootDram (ch.1.bind fun p => recordOf p recDram) find
  let base := d.boot.msgBase + 1024
  let d := { d with boot := { d.boot with msgBase := base }, msh := { d.msh with msgid := base } }
  let keys := match ch.1 with
    | some p => ((recordsOf p).filter fun r => r.1 == recLinkkey).map (·.2)
    | none => []
  let d := d.bootKeys keys
  let d := match ch.1 with | some p => d.applyProfile p | none => d.blankHost
  let d := (d.bootUpdate.setFld Reg.hifStat_dev_state dsStandalone).testStandby
  let gen := match d.boot.profile with | some p => p.2.toNat | none => 0
  let d := d.event 0x0030 (d.fld Reg.bootStat_strap)
    [(8, [byte bank.toNat, byte ch.2, byte fallback.toNat]), (12, le 4 (imgBuild img)), (16, le 4 gen)]
  let d := d.bootEvents
  if d.leanOnly then (d.setFld Reg.pwrState_state psLean).bump Cnt.leanEntry else d

/-- Boot from flash: the selected bank, or the other one (R463). -/
def Dev.bootFlash (d : Dev) (bank : Bool) (find : DramFind) : Dev :=
  if d.imageOk (d.bank bank) then d.finishBoot (d.bank bank) bank false find
  else if d.imageOk (d.bank (!bank)) then d.finishBoot (d.bank (!bank)) (!bank) true find
  else { d with boot := { d.boot with bothRejected := true, image := [] } }

/-- BOOT_COMPLETE (R460, Table 15.1). -/
def Dev.bootComplete (d : Dev) (find : DramFind) : Dev :=
  let strap := d.fld Reg.bootStat_strap
  let has := !d.boot.image.isEmpty
  if d.devState != dsBoot || d.boot.bothRejected then d
  else if strap = 4 ∧ d.bit Reg.bootPcieCtl_done then (if has then d.finishBoot d.boot.image false false find else d)
  else if strap = 4 ∧ !has then d
  else if strap = 8 ∧ !has then d
  else d.bootFlash (if strap = 1 ∧ !has then !d.boot.activeB else d.boot.activeB) find

/-- UART_IMAGE_RECEIVED: the image goes into bank A, which is then booted as with strap 0x0. -/
def Dev.uartImage (d : Dev) (img : List Byte) : Dev :=
  if d.devState != dsBoot || !(d.fld Reg.bootStat_strap == 8 || d.boot.bothRejected) then d
  else
    let d := d.setBank false (img.take 12582912)
    { d with boot := { d.boot with activeB := false, applied := false, bothRejected := false, image := img } }

end Sys2Proof.Machine
end

