-- ==== Sys2Proof/Machine/Settle.lean ====
section
/-! DEFINITION. What follows every command at once: work that waits for room moves on, status registers show the state,
GLB_FAULT, FAULT_N, PG_OUT and RST_OUT_N follow their conditions; and how a command's effect becomes an outcome. -/

namespace Sys2Proof.Machine

/-! ## Degraded operation (R498, Table 16.6) -/

/-- The bits of GLB_FAULT that show a condition. NO_STANDBY counts while the firmware runs. -/
def Dev.faultBits (d : Dev) : List Bool :=
  [radios.any fun r => d.rfState r == rsFailed || d.inhibited r != 0,
   d.operating && d.fld Reg.tskCcstat_stby == 0,
   d.bit Reg.kaoStat_lane0_off || d.bit Reg.kaoStat_lane1_off,
   d.fld Reg.pwrRailstat_ph_fail != 0,
   (List.range 16).any fun w => d.fld (Reg.tskWstat_state w) == 3,
   d.pairOn && !(d.linkUp 0 && d.linkUp 1),
   d.bit Reg.schStat_nocarry,
   d.bit Reg.dmcStat_ca_fail]

/-- The number whose bits are a list, the least significant first. -/
def ofBits (l : List Bool) : Nat := l.foldr (fun b n => b.toNat + 2 * n) 0

/-- GLB_FAULT follows its conditions; each bit that rises writes DEGRADED. `lost` is DRAM_LOST as it stood before. -/
def Dev.faultUpdate (d : Dev) (lost : Bool) : Dev :=
  let old := d.fld ⟨Reg.glbFault, 0, 8⟩ + (if lost then 256 else 0)
  let new := ofBits (d.faultBits ++ [d.bit Reg.glbFault_dram_lost])
  let d := d.setReg Reg.glbFault (BitVec.ofNat 32 new)
  (List.range 9).foldl
    (fun d b =>
      if new.testBit b && !old.testBit b then (d.bump Cnt.degraded).event 0x0044 b [(12, le 4 new)] else d) d

/-! ## Rails and pins (R434, R437, R498, R526) -/

/-- PWR_RAILSTAT.PG: in the SENTINEL condition the four rails of Table 14.1; during the sequence also those of the steps that
have completed. -/
def Dev.railsGood (d : Dev) : Nat :=
  if d.pwr.extSupply then 0x7F
  else if !d.pwr.vinUp then 0
  else match d.pwr.seq with
    | some q =>
      let at' (n : Nat) (bits : Nat) : Nat := if n < q.step then bits else 0
      (if q.sentinel then 0x78 else at' 2 0x40 + at' 3 0x08 + at' 5 0x30) + at' 4 0x01 + at' 6 0x06
    | none =>
      if d.pwr.restart || d.devState == dsSentinel || d.devState == dsFaultLock then 0x78 else 0x7F

/-- FAULT_N is high in every case but those of R498. -/
def Dev.faultHigh (d : Dev) : Bool :=
  !(d.pwr.attemptFailed || d.devState == dsFaultLock || d.boot.bothRejected ||
    d.reg Reg.glbFault &&& d.reg Reg.glbFaultEn &&& 0x1FF != 0)

/-- RST_OUT_N is high except in the cases of R526. The main die has just left reset while its clock is below 1 ms in BOOT. -/
def Dev.rstOutHigh (d : Dev) : Bool :=
  !(d.pwr.porLow || d.pwr.sysLow || (d.pwr.coldBoot && d.waking) || d.devState == dsFaultLock ||
    (d.devState == dsBoot && decide (d.tai < 1000000)))

/-- The status registers and the pins follow the power state. -/
def Dev.showPower (d : Dev) : Dev :=
  let up := d.mainUp
  let power := d.pwr.vinUp || d.pwr.extSupply
  let pg := d.railsGood
  let d := (((d.setFld Reg.pwrRailstat_pg pg).setBit Reg.clkStat_ref_ok up).setBit Reg.clkStat_pll_lock up).setBit
    Reg.clkStat_xo32k power
  let d := d.setFld Reg.pwrFltCause_resets d.recentResets.length
  { d with pins := { d.pins with
      faultN := d.faultHigh, pgOut := up && d.operating && pg == 0x7F, rstOutN := d.rstOutHigh } }

/-! ## The end of a command -/

/-- The tables whose next lookup in this command reads a bad parity bit (R273). -/
def Dev.withUpsets (d : Dev) (l : List (Fin 5)) : Dev := { d with fwd := { d.fwd with upsets := l } }

/-- What the device goes on with by itself once a command has taken effect. -/
def Dev.goOn (d : Dev) : Dev :=
  let d := ((d.localPump.powerPump.sendComposed.copyDone).pump).pinApply
  let d := Dev.drainStamps 1 64 (Dev.drainStamps 0 64 (Dev.drainEvents 300 d))
  Dev.drainCompl 64 d

/-- Everything that follows a command. `lost` is GLB_FAULT.DRAM_LOST as it stood before the command. -/
def Dev.settle (lost : Bool) (d : Dev) : Dev :=
  let d := { d with fwd := { d.fwd with upsets := [] } }.dropWoken
  let d := if d.mainUp then (d.goOn.showPair.showHeld).faultUpdate lost else d
  (if d.mainUp then Dev.drainEvents 300 d else d).showPower

/-- A command's effect on everything but the queue, whatever the device's state. -/
def runReset (f : Dev → Dev) (s : State) : Host.Outcome State Fault Refusal :=
  .next { s with dev := (f s.dev).settle (s.dev.bit Reg.glbFault_dram_lost) }

/-- A command's effect. After EXTEST, CLAMP or HIGHZ the device's state is undefined until SYS_RST_N (R516): the machine
stops there. -/
def run (f : Dev → Dev) (s : State) : Host.Outcome State Fault Refusal :=
  if s.dev.obs.tapUndef then .fault .stateUndefined else runReset f s

/-- An effect of the main die: nothing happens while it is in reset or without its rails. -/
def runUp (f : Dev → Dev) : State → Host.Outcome State Fault Refusal := run fun d => if d.mainUp then f d else d

/-- An effect that the firmware takes part in: nothing happens outside STANDALONE and HOSTED. -/
def runOp (f : Dev → Dev) : State → Host.Outcome State Fault Refusal := run fun d => if d.firmwareUp then f d else d

/-- With no command waiting, one fabric cycle passes in the main die: a commit's copy may end, and the pins follow; nothing
else happens (DESIGN CHOICE, log entry 2). -/
def Dev.idle (d : Dev) : Dev := if d.mainUp && !d.obs.tapUndef then d.cycle.copyDone.showPower else d

end Sys2Proof.Machine
end

