-- ==== Sys2Proof/Machine/SlotTick.lean ====
section
/-! DEFINITION. SLOT_TICK (R16) and what comes about in it: the changes at a superframe boundary in the order of R27, remaps,
the measurements once per slot, the preparation of the next slot's rows (R18, R160), and the servo's increment. -/

namespace Sys2Proof.Machine

/-! ## Superframe boundary (R26, R27) -/

/-- SCHEDULE_SWAP: a commit whose boundary is reached or passed (R164, R240). -/
def Dev.swapTables (d : Dev) : Dev :=
  if !d.bit Reg.schCommit_pending || decide (d.tim.slotS / 512 < d.sch.target) then d
  else
    let d := { d with sch := { d.sch with active := d.sch.pending, copying := true } }
    ((d.setBit Reg.schCommit_pending false).setBit Reg.schCommit_prot_active d.sch.protPend).setBit Reg.schCommit_active
      (!d.bit Reg.schCommit_active)

/-- ROTATION_APPLY (R162). -/
def Dev.applyRotation (d : Dev) : Dev :=
  { d with sch := { d.sch with
      rot := d.sch.staged.foldl (fun (t : Sparse Word) (p : Nat × Word) => Sparse.put 0 t p.1 p.2) d.sch.rot, staged := [] } }

/-- What is counted per superframe starts again. -/
def Dev.newSuperframe (d : Dev) : Dev :=
  { d with
    sch := { d.sch with violSeen := [] }
    tsk := { d.tsk with hangs := [] }
    dmc := { d.dmc with ueThisSf := 0, rotLost := [] }
    tim := { d.tim with timingHold := d.tim.timingHold - 1 } }

/-- The backoff exponent after four superframes with these counts (R171). -/
def nextBo (a b k hi lo bo boMin boMax : Nat) : Nat :=
  if hi * a ≤ 16 * k ∧ bo < boMax then bo + 1
  else if 16 * b < lo * a ∧ boMin < bo then bo - 1
  else bo

/-- BO_ADAPT (R171). -/
def Dev.adaptBo (d : Dev) : Dev :=
  if d.sf % 4 ≠ 0 then d
  else
    let a := d.sch.raA
    let hi := d.cfgFld Reg.schRacfg_ra_hi
    let k := d.sch.raK
    let bo := d.fld Reg.schStat_bo
    let bo' := nextBo a d.sch.raB k hi (d.cfgFld Reg.schRacfg_ra_lo) bo d.boMin d.boMax
    let d := { d with sch := { d.sch with raA := 0, raB := 0, raK := 0 } }
    if a = 0 then d
    else
      let d := d.setFld Reg.schStat_bo bo'
      let d := if bo' = bo then d else d.raise Reg.schStat_bo_changed
      if bo' = d.boMax ∧ hi * a ≤ 16 * k then d.raise Reg.schStat_ra_saturated else d

/-- SUPERFRAME_BOUNDARY: `old` is the device before the tick. -/
def Dev.superframe (d : Dev) (old : Dev) (m : TickMeasure) : Dev :=
  let d := (((d.applyBoundary .superframe).watchRestart old).linksEnabled old).newSuperframe
  let d := (d.swapTables.applyRotation.antBoundary).remapBoundary
  let d := radios.foldl (fun d r => (d.radioBoundary r).starveCheck r) d
  let d := { d with sch := { d.sch with boPrev := d.fld Reg.schStat_bo } }
  d.mshBoundary.adaptBo.surveyBoundary m.survey

/-- The temperatures that are read at the tick of slot 0 (R138, R391). -/
def Dev.readTemps (d : Dev) (m : TickMeasure) : Dev :=
  if d.slot ≠ 0 then d
  else (((d.readTemp 0 m.temp0).readTemp 1 m.temp1).readTemp 2 m.temp2).readPhyTemp m.phyTemp

/-! ## Once per slot -/

/-- VIN_MEASURE (R430): a warning when VIN falls below WARN_V; before the first measurement it stands at no value. -/
def Dev.measureVin (d : Dev) (mv : Nat) : Dev :=
  let lim := 50 * d.cfgFld Reg.pwrVincfg_warn_v
  let old := d.fld Reg.pwrVin_mv
  let d := d.setFld Reg.pwrVin_mv mv
  if mv < lim ∧ (lim ≤ old ∨ old = 0) then
    ((d.raise Reg.pwrVin_warn).bump Cnt.vinWarn).event 0x0022 0 [(8, le 2 mv)]
  else d

/-- TJ_MEASURE (R532): a THERMAL event at most once per superframe. -/
def Dev.measureTj (d : Dev) (t : Byte) : Dev :=
  let d := d.setFld Reg.clkTj_now t.toNat
  let max := d.fld Reg.clkTj_max
  let d := if toSigned 8 max < t.toInt then { d with obs := { d.obs with tjWas := max } }.setFld Reg.clkTj_max t.toNat else d
  if toSigned 8 (d.cfgFld Reg.clkTjcfg_warn) < t.toInt then
    let d := d.raise Reg.clkStat_tj_warn
    if d.sch.violSeen.contains (0x1060, 0) then d
    else
      { d with sch := { d.sch with violSeen := (0x1060, 0) :: d.sch.violSeen } }.event 0x0060 0
        [(8, [t, byte (d.cfgFld Reg.clkTjcfg_warn)])]
  else d

/-- Is something queued for a sensor (Table 2.19, code 0b11)? -/
def Dev.waitsFor (d : Dev) (owner : Option Nat) : Bool :=
  match owner with
  | none => false
  | some i => (d.sensor i).queue != [] || (d.sensor i).lm.isSome

/-- At T0 of the last slot of a reception, whether a downlink waits for its sender is held for its ACK symbol (Table 5.7). -/
def Dev.noteQueued (d : Dev) : Dev :=
  radios.foldl (fun d r => d.modRadio r fun x => { x with
    cells := x.cells.map fun (c : Cell) =>
      if c.firstS + c.train - 1 = d.tim.slotS then { c with dlAtT0 := d.waitsFor c.owner } else c }) d

/-- The work of the slot that has begun toward the next: owners, maps, beacons, downlinks and Mladol rows (R18, R63, R169,
R211). -/
def Dev.prepareNext (d : Dev) : Dev := radios.foldl (fun d r => d.prepareRow (d.tim.slotS + 1) r) d

/-- The servo sets the increment (R227), but not during a takeover (Table 10.4) or an activation pause. -/
def Dev.incrementUpdate (d : Dev) : Dev :=
  if d.tsk.takeover.isSome || d.boot.paused then d else d.servoTick

/-- The active pair takes its checkpoint (R334); a failed one takes none. -/
def Dev.checkpointTick (d : Dev) : Dev := if d.tsk.takeover.isSome then d else d.checkpoint

/-- The cells whose last slot is over leave their radio; an RA cell that was busy without a CRC32 pass counts in the
superframe that it ends in (R171). -/
def Dev.endCells (d : Dev) : Dev :=
  radios.foldl (fun d r =>
    let ended (c : Cell) : Bool := decide (c.firstS + c.train ≤ d.tim.slotS)
    (d.raLost ((d.radio r).cells.filter ended)).modRadio r fun x => { x with cells := x.cells.filter fun c => !ended c }) d

/-- The RA cells that begin in the slot, on radios that take reception, count in A (R171). -/
def Dev.countRa (d : Dev) : Dev :=
  let n := radios.foldl (fun a r =>
    a + ((d.radio r).cells.filter fun c => c.kind == .ra && decide (c.firstS = d.tim.slotS)).length) 0
  { d with sch := { d.sch with raA := d.sch.raA + n } }

/-- SLOT_TICK. First the slot that ends is closed: bursts of a group that no check of another member followed, ACK symbols that
did not come, and the parent link's row. The superframe boundary is the tick of slot 0, or the first tick after a step past it (R240). -/
def Dev.slotTick (d : Dev) (m : TickMeasure) : Dev :=
  let old := d
  let d := (d.checkRest.ackMissing d.tim.slotS).mshRow d.tim.slotS
  let d := ((d.enterSlot.endCells.endRecs.ageRx).gatesDue 0).gatesDue 1
  let d := { d with
    pwr := { d.pwr with silt := d.pwr.silt + 2500000 }
    sch := { d.sch with ackSeen := [] }
    hif := { d.hif with attachDue := false, polls := 0 } }
  let d := radios.foldl Dev.coexOff (d.applyBoundary .slotTick)
  let boundary := d.slot == 0 || decide (old.tim.slotS / 512 < d.tim.slotS / 512)
  let d := if boundary then d.superframe old m else d
  let d := radios.foldl Dev.sweepTick d.mshTick.countRa.traceTick.remapTick
  let d := if boundary then d.actBoundary else d
  let d := d.noteQueued.readTemps m
  let d := d.stageItems.retryDeferred.checkpointTick.incrementUpdate
  let d := (d.measureVin m.vin.toNat).measureTj m.tj
  let d := d.snapshotTick boundary
  let d := if boundary then d.watchEvaluate else d
  d.prepareNext

end Sys2Proof.Machine
end

