-- ==== Sys2Proof/Machine/TgStart.lean ====
section
/-! DEFINITION. TG_START: the steps of the clock and of the tick, the renumbering of the slots that follow (R237 to R241), and
the retunes (R130). -/

namespace Sys2Proof.Machine

/-! ## Renumbered slots (R239, R241)

After a step that gives the next slot another number, every slot count that the device keeps moves with the numbering, by `k`
slots or `kf` superframes, so that what waits keeps its age. -/

def Downlink.shift (k kf : Int) (x : Downlink) : Downlink := { x with enterS := x.enterS + k, enterSf := x.enterSf + kf }

def SensorCtx.shift (k kf : Int) (x : SensorCtx) : SensorCtx :=
  { x with
    queue := x.queue.map (Downlink.shift k kf)
    lm := x.lm.map fun (m : LmFrame) => { m with enterS := m.enterS + k }
    lmSince := x.lmSince + kf }

def Link.shift (k : Int) (x : Link) : Link :=
  { x with queue := x.queue.map fun (m : LinkMpdu) => { m with enterS := m.enterS + k } }

def WakeReq.shift (k kf : Int) (x : WakeReq) : WakeReq :=
  { x with sinceSf := x.sinceSf + kf, heldFor := x.heldFor.map fun h => (h.1, h.2 + k) }

def Sch.shift (k kf : Int) (x : Sch) : Sch :=
  { x with
    wakeQ := x.wakeQ.map (WakeReq.shift k kf)
    joins := x.joins.map fun (j : JoinEntry) => { j with sf := (j.sf + kf).toNat }
    jrsp := x.jrsp.map (Downlink.shift k kf)
    bcast := x.bcast.map (Downlink.shift k kf)
    remaps := x.remaps.map fun (m : Remap) => { m with firstS := m.firstS + k }
    sensors := x.sensors.foldl (fun (t : Sparse SensorCtx) (p : Nat × SensorCtx) =>
      Sparse.put emptySensor t p.1 (p.2.shift k kf)) [] }

def Msh.shift (k : Int) (x : Msh) : Msh :=
  { x with
    lastRxS := x.lastRxS + k
    links := x.links.foldl (fun (t : Sparse Link) (p : Nat × Link) => Sparse.put emptyLink t p.1 (p.2.shift k)) [] }

def Radio.shift (k : Int) (x : Radio) : Radio :=
  { x with
    sweep := x.sweep.map fun (s : Sweep) => { s with ends := s.ends + k }
    tempRun := x.tempRun.map fun (t : TempRun) => { t with chunkS := t.chunkS + k } }

def Dev.shiftStamps (d : Dev) (k kf : Int) : Dev :=
  { d with
    sch := d.sch.shift k kf, msh := d.msh.shift k
    r0 := d.r0.shift k, r1 := d.r1.shift k, r2 := d.r2.shift k }

/-- What a radio planned for a slot that does not come waits again, and its receptions end. -/
def Dev.dropPlans (d : Dev) (r : RadioId) : Dev :=
  let x := d.radio r
  let d := (d.raLost x.cells).modRadio r fun y => { y with planned := [], cells := [], rxS := none, checked := none }
  x.planned.foldl Dev.releaseBurst d

/-- A step has made another slot the next one: the slot counts move, what was planned waits again, and the rows of the slot
that comes next are prepared (R239, R241). -/
def Dev.renumber (d : Dev) : Dev :=
  let k := d.curS - d.tim.slotS
  if k = 0 then d
  else
    let kf := d.nextS / 512 - (d.tim.slotS + 1) / 512
    let d := (radios.foldl Dev.dropPlans d).shiftStamps k kf
    radios.foldl (fun d r => d.prepareRow d.nextS r) d

/-- TG_START, once per slot: the waiting steps, but not during a takeover (Table 10.4) or an activation pause; then the
results of a completed run, and each radio's retune or new frequency word. -/
def Dev.tgStart (d : Dev) : Dev :=
  if d.tim.tgBegun then d
  else
    let d := { d with tim := { d.tim with tgBegun := true } }.reachTg
    let d := radios.foldl (fun d r => d.ackrxEnd r) d
    let d := if d.tsk.takeover.isSome || d.boot.paused then d else d.applySteps.renumber
    radios.foldl (fun d r => (d.applyCal r).tgRadio r) d

end Sys2Proof.Machine
end

