-- ==== Sys2Proof/Machine/ExecAir.lean ====
section
/-! DEFINITION. The meanings of the slot tick and of what happens on air: reception, bursts, retuning and calibration. -/

namespace Sys2Proof.Machine

/-! ## The slot (chapter 01) -/

/-- SLOT_TICK (R16, R18, R26, R27). -/
def execSlotTick (m : TickMeasure) : State → Host.Outcome State Fault Refusal := runUp fun d => d.slotTick m

/-- TABLE_COPY_DONE (R164). -/
def execTableCopyDone : State → Host.Outcome State Fault Refusal := runUp Dev.tableCopyDone

/-! ## Reception (chapter 03) -/

/-- ACQUISITION_OPEN (R86, R123, R133, R134, R150). -/
def execAcquisitionOpen (radio : RadioId) (lock coexGnt : Bool) (wbNoise : Cdb) : State → Host.Outcome State Fault Refusal :=
  runUp fun d => d.acquisitionOpen radio lock coexGnt wbNoise

/-- WIDEBAND_DETECTION (R85, R88, R89). -/
def execWidebandDetection (radio : RadioId) (w : WbRise) : State → Host.Outcome State Fault Refusal :=
  runUp fun d => d.wideband radio w

/-- LATER_PREAMBLE (R99 to R102, Table 3.4). -/
def execLaterPreamble (radio : RadioId) (w : WbRise) (cells : List (Nat × Cdb)) : State → Host.Outcome State Fault Refusal :=
  runUp fun d => d.laterRise radio w cells

/-- SYNC_EVALUATION (R82 to R84, R91 to R94). -/
def execSyncEvaluation (radio : RadioId) (half : Samples) : State → Host.Outcome State Fault Refusal :=
  runUp fun d => d.syncEvaluation radio half

/-- SIG_VERDICT (R48, R58, R95, R96). -/
def execSigVerdict (radio : RadioId) (subch : Nat) : State → Host.Outcome State Fault Refusal :=
  runUp fun d => d.sigVerdict radio subch

/-- WINDOW_CLOSE (R81, R103 to R105, R109, R114). -/
def execWindowClose (radio : RadioId) (w : WindowObs) : State → Host.Outcome State Fault Refusal :=
  runUp fun d => d.windowClose radio w

/-- CRC_VERDICT (R67, R73, R76, R77, R113, R173, Table 5.7). -/
def execCrcVerdict (radio : RadioId) (subch : Nat) (upsets : List (Fin 5)) : State → Host.Outcome State Fault Refusal :=
  runUp fun d => (d.withUpsets upsets).crcVerdict radio subch

/-- STUCK_SLOT_DETECTION (R491). -/
def execStuckSlotDetection (radio : RadioId) : State → Host.Outcome State Fault Refusal := runUp fun d => d.stuckSlot radio

/-- ACKRX_PRESET (R116). -/
def execAckrxPreset (radio : RadioId) : State → Host.Outcome State Fault Refusal := runUp fun d => d.ackrxPreset radio

/-- ACK_SYMBOL_RECEIVE (R117, R180, R210). -/
def execAckSymbolReceive (radio : RadioId) (subch : Nat) (window : Samples) : State → Host.Outcome State Fault Refusal :=
  runUp fun d => d.ackReceive radio subch window

/-- DECODE_AND_CONTEXT (R18). -/
def execDecodeAndContext : State → Host.Outcome State Fault Refusal := runUp Dev.decodeStage

/-- DELIVERY (R18, R220): the Mladol frames received up to two slots ago. -/
def execDelivery : State → Host.Outcome State Fault Refusal := runUp Dev.deliverMesh

/-- SEARCH_SYNC_ACQUIRED (R217). -/
def execSearchSyncAcquired (radio : RadioId) (arrivalPs : Int) (half : Samples) (windows : List Samples) :
    State → Host.Outcome State Fault Refusal :=
  runUp fun d => d.searchSync radio arrivalPs half windows

/-! ## Downlinks and wake requests (chapter 05) -/

/-- LOADMAP_RESEND (R187). -/
def execLoadmapResend (sidx : BitVec 20) : State → Host.Outcome State Fault Refusal :=
  runUp fun d => d.lmResendDue sidx.toNat

/-- DOWNLINK_AGE_TIMEOUT (R182). -/
def execDownlinkAgeTimeout (sidx : BitVec 20) : State → Host.Outcome State Fault Refusal := runUp fun d => d.dlAge sidx.toNat

/-- WAKE_REQUEST_TIMEOUT (R197). -/
def execWakeRequestTimeout : State → Host.Outcome State Fault Refusal := runUp Dev.wakeAge

/-! ## Bursts, retuning and calibration (chapter 04) -/

/-- COEX_REQ_ASSERT (R148, R150). -/
def execCoexReqAssert (radio : RadioId) : State → Host.Outcome State Fault Refusal := runUp fun d => d.coexAssert radio

/-- COEX_GNT_WITHDRAWN (R149). -/
def execCoexGntWithdrawn (radio : RadioId) : State → Host.Outcome State Fault Refusal := runUp fun d => d.coexWithdrawn radio

/-- BURST_CHECK (R123, R132, R134, R149). -/
def execBurstCheck (radio : RadioId) (lock coexGnt : Bool) : State → Host.Outcome State Fault Refusal :=
  runUp fun d => d.burstCheck radio lock coexGnt

/-- BURST_END (R123, R145, R148, R491). -/
def execBurstEnd (radio : RadioId) (fwd refl expected : Cdb) : State → Host.Outcome State Fault Refusal :=
  runUp fun d => d.burstEnd radio fwd refl expected

/-- TG_START (R130, R136, R140, R237). -/
def execTgStart : State → Host.Outcome State Fault Refusal := runUp Dev.tgStart

/-- SYNTH_LOCK (R129). -/
def execSynthLock (radio : RadioId) : State → Host.Outcome State Fault Refusal := runUp fun d => d.synthLocked radio

/-- CAL_CHUNK (R139). -/
def execCalChunk (radio : RadioId) (startPs : Int) : State → Host.Outcome State Fault Refusal :=
  runUp fun d => d.calChunkDone radio startPs

/-- SWEEP_DONE (R137, R142). -/
def execSweepDone (radio : RadioId) (ok : Bool) : State → Host.Outcome State Fault Refusal :=
  runUp fun d => d.endSweep radio ok

/-- CHANNEL_ENTRY_BUILD (R127). -/
def execChannelEntryBuild (radio : RadioId) (index : Nat) : State → Host.Outcome State Fault Refusal :=
  runUp fun d => d.entryBuilt radio index

end Sys2Proof.Machine
end

