-- ==== Sys2Proof/Machine/ExecBoot.lean ====
section
/-! DEFINITION. The meanings of what happens at boot and firmware update, on the trace port and at the TAP. -/

namespace Sys2Proof.Machine

/-! ## Boot and update (chapter 15) -/

/-- BOOT_COMPLETE (R460 to R466, R470). -/
def execBootComplete (find : DramFind) : State → Host.Outcome State Fault Refusal := runUp fun d => d.bootComplete find

/-- UART_IMAGE_RECEIVED (R460, R463). -/
def execUartImageReceived (image : List Byte) : State → Host.Outcome State Fault Refusal := runUp fun d => d.uartImage image

/-- FW_CHUNK (R473 to R475). -/
def execFwChunk (body : List Byte) : State → Host.Outcome State Fault Refusal := runOp fun d => d.fwChunk body

/-- FW_APPLY_DONE (R477). -/
def execFwApplyDone (flashError : Bool) : State → Host.Outcome State Fault Refusal := runOp fun d => d.fwApplyDone flashError

/-- ACTIVATION_RESUME (R479, R480, R482). -/
def execActivationResume (pauseUs : BitVec 32) : State → Host.Outcome State Fault Refusal :=
  runOp fun d => d.resumeAt pauseUs.toNat

/-- ACTIVATION_ABANDON (R481). -/
def execActivationAbandon (pauseUs : BitVec 32) : State → Host.Outcome State Fault Refusal :=
  runOp fun d => d.abandonAt pauseUs.toNat

/-! ## Trace port and boundary scan (chapter 17) -/

/-- TRACE_MSG_SENT (R513, R514). -/
def execTraceMsgSent : State → Host.Outcome State Fault Refusal := runUp Dev.traceSent

/-- EXTEST (R516). -/
def execExtest : State → Host.Outcome State Fault Refusal := runReset fun d => d.tapSelect 0 true

/-- SAMPLE/PRELOAD (R516). -/
def execSamplePreload (capture : List Bool) : State → Host.Outcome State Fault Refusal :=
  runReset fun d => d.tapSample capture

/-- IDCODE (R515). -/
def execIdcode : State → Host.Outcome State Fault Refusal := runReset Dev.tapIdcode

/-- CLAMP (R516). -/
def execClamp : State → Host.Outcome State Fault Refusal := runReset fun d => d.tapSelect 3 true

/-- HIGHZ (R516). -/
def execHighz : State → Host.Outcome State Fault Refusal := runReset fun d => d.tapSelect 4 true

/-- BYPASS, and every opcode that Table 17.7 does not list (R515). -/
def execBypass (opcode : BitVec 4) : State → Host.Outcome State Fault Refusal :=
  runReset fun d => d.tapSelect (tapBypass opcode) false

end Sys2Proof.Machine
end

