-- ==== Sys2Proof/Machine/ExecEth.lean ====
section
/-! DEFINITION. The meanings of what happens at the Ethernet ports, the forwarding tables and the network clock. -/

namespace Sys2Proof.Machine

/-! ## Frames and pause (chapter 09) -/

/-- FRAME_RECEIVED (R253 to R278, R285 to R297). -/
def execFrameReceived (port : PortId) (f : EthRx) (upsets : List (Fin 5)) : State → Host.Outcome State Fault Refusal :=
  runUp fun d => (d.withUpsets upsets).frameReceived port f

/-- STATIC_RESTORE (R273). -/
def execStaticRestore (table : Fin 5) (index : Nat) : State → Host.Outcome State Fault Refusal :=
  runUp fun d => d.staticRestore table index

/-- PAUSE_INTERVAL (R294, R295). -/
def execPauseInterval (port : PortId) : State → Host.Outcome State Fault Refusal := runUp fun d => d.pauseInterval port

/-- PAUSE_EXPIRY (R297). -/
def execPauseExpiry (port : PortId) : State → Host.Outcome State Fault Refusal := runUp fun d => d.pauseExpiry port

/-- PAUSE_STORM (R298, R314). -/
def execPauseStorm (port : PortId) : State → Host.Outcome State Fault Refusal := runUp fun d => d.pauseStorm port

/-- STORM_END (R298). -/
def execStormEnd (port : PortId) : State → Host.Outcome State Fault Refusal := runUp fun d => d.stormEnd port

/-- FRAME_BOUNDARY (R231, R243, R307, R312). -/
def execFrameBoundary (port : PortId) : State → Host.Outcome State Fault Refusal := runUp fun d => d.frameBoundary port

/-- GATE_ENTRY_CHANGE (R309 to R311). -/
def execGateEntryChange (port : PortId) : State → Host.Outcome State Fault Refusal := runUp fun d => d.gateEntryChange port

/-- SHAPER_REFILL (R313). -/
def execShaperRefill : State → Host.Outcome State Fault Refusal := runUp Dev.shaperRefill

/-- AGING_VISIT (R276, R277). -/
def execAgingVisit (table : Fin 2) (index : Nat) (hit : Bool) : State → Host.Outcome State Fault Refusal :=
  runUp fun d => d.agingVisit table index hit

/-- TABLE_REBUILD_DONE (R415). -/
def execTableRebuildDone : State → Host.Outcome State Fault Refusal := runOp Dev.rebuildDone

/-! ## Links and the link pair -/

/-- LINK_DOWN (R282, R283, R302). A port that the local host tries starts with mode 1 again (R468). -/
def execLinkDown (port : PortId) : State → Host.Outcome State Fault Refusal :=
  runUp fun d => (d.linkDown port).retryPort port

/-- LINK_UP (R282, R304). -/
def execLinkUp (port : PortId) : State → Host.Outcome State Fault Refusal := runUp fun d => d.linkIsUp port

/-- LOAD_WINDOW (R303). -/
def execLoadWindow (rxBits txBits : Nat) : State → Host.Outcome State Fault Refusal :=
  runUp fun d => d.loadWindow rxBits txBits

/-- FLOW_MOVE_COMPLETE (R301, R304). -/
def execFlowMoveComplete : State → Host.Outcome State Fault Refusal := runUp Dev.flowMoveComplete

/-- PAIR_STEP_CHANGE (R304). -/
def execPairStepChange : State → Host.Outcome State Fault Refusal := runUp Dev.pairStepChange

/-- PAIR_STEP_TIMEOUT (R306). -/
def execPairStepTimeout : State → Host.Outcome State Fault Refusal := runUp Dev.pairStepTimeout

/-- MDIO_FRAME_DONE (R284). -/
def execMdioFrameDone (ack : Bool) (data : BitVec 16) : State → Host.Outcome State Fault Refusal :=
  runUp fun d => d.mdioDone ack data

/-- STANDALONE_MODE_TRY (R468). -/
def execStandaloneModeTry (port : PortId) : State → Host.Outcome State Fault Refusal := runOp fun d => d.modeTry port

/-! ## Time (chapter 07) -/

/-- PTP_INTERVAL_EXPIRY (R230). -/
def execPtpIntervalExpiry (port : PortId) (msg : Fin 3) : State → Host.Outcome State Fault Refusal :=
  runUp fun d => d.ptpInterval port msg

/-- PPS_IN_EDGE (R229, R247). -/
def execPpsInEdge (rising : Bool) (widthNs : Nat) : State → Host.Outcome State Fault Refusal :=
  runUp fun d => d.ppsIn rising widthNs

/-- PPS_LOSS (R247). -/
def execPpsLoss : State → Host.Outcome State Fault Refusal := runUp Dev.ppsLost

/-- PPS_OUT_RISE (R248). -/
def execPpsOutRise : State → Host.Outcome State Fault Refusal := runUp Dev.ppsOutRise

/-- PPS_OUT_FALL (R248). -/
def execPpsOutFall : State → Host.Outcome State Fault Refusal := runUp Dev.ppsOutFall

/-- SERVO_LOSS_TIMEOUT (R232). -/
def execServoLossTimeout : State → Host.Outcome State Fault Refusal := runUp Dev.servoTimeout

/-- ANNOUNCE_RECEIPT_TIMEOUT (R230). -/
def execAnnounceReceiptTimeout (port : PortId) : State → Host.Outcome State Fault Refusal :=
  runUp fun d => d.announceTimeout port

end Sys2Proof.Machine
end

