-- ==== Sys2Proof/Machine/ExecHif.lean ====
section
/-! DEFINITION. The meanings of what happens at the DRAM controller and at the host interface. -/

namespace Sys2Proof.Machine

/-! ## DRAM (chapter 12) -/

/-- DRAM_READ_DONE (R373 to R378). -/
def execDramReadDone (arrived : List DramReq) (id : Nat) (codewords : List Codeword) : State → Host.Outcome State Fault Refusal :=
  runUp fun d => d.dramReadDone arrived id codewords

/-- ALERT_N_FALL (R380 to R382). -/
def execAlertNFall (arrived : List DramReq) (rank : Bool) : State → Host.Outcome State Fault Refusal :=
  runUp fun d => d.alertFall arrived rank

/-- ALERT_N_RISE (R380, R381). -/
def execAlertNRise : State → Host.Outcome State Fault Refusal := runUp Dev.alertRise

/-- RETRY_ENTRY_RETIRE (R379). -/
def execRetryEntryRetire (rank : Bool) : State → Host.Outcome State Fault Refusal := runUp fun d => d.retryRetire rank

/-- REFRESH (R371, R388, R392). -/
def execRefresh (rank : Bool) : State → Host.Outcome State Fault Refusal := runUp fun d => d.refresh rank

/-- RETRAIN_MEASURED (R392, R393). -/
def execRetrainMeasured (shifts : List Int) : State → Host.Outcome State Fault Refusal :=
  runUp fun d => d.retrainMeasured shifts

/-- SCRUB_VISIT (R376). -/
def execScrubVisit (block : BitVec 29) (codewords : List Codeword) : State → Host.Outcome State Fault Refusal :=
  runUp fun d => d.scrubVisit block codewords

/-- URGENCY_CHANGE (R387). -/
def execUrgencyChange (arrived : List DramReq) (port : Fin 8) : State → Host.Outcome State Fault Refusal :=
  runUp fun d => d.urgencyChange arrived port

/-- DRAM_WRITE_RETIRE (R384, R385). -/
def execDramWriteRetire (arrived : List DramReq) (id : Nat) : State → Host.Outcome State Fault Refusal :=
  runUp fun d => d.dramWriteRetire arrived id

/-- SRAM_PATROL (R490). -/
def execSramPatrol (upset : Bool) : State → Host.Outcome State Fault Refusal := runUp fun d => d.sramPatrol upset

/-! ## Host interface (chapter 13) -/

/-- DOORBELL_POLL (R402 to R404). -/
def execDoorbellPoll (r : PollRead) : State → Host.Outcome State Fault Refusal := runUp fun d => d.doorbellPoll r

/-- TX_DESCRIPTOR (R417). -/
def execTxDescriptor (ring : Fin 16) (desc : List Byte) (payload : HostRead) (upsets : List (Fin 5)) : State → Host.Outcome State Fault Refusal :=
  runOp fun d => (d.withUpsets upsets).txDescriptor ring desc payload

/-- MSIX_MODERATION_EXPIRY (R407). -/
def execMsixModerationExpiry (ring : Nat) : State → Host.Outcome State Fault Refusal :=
  runUp fun d => d.moderationExpiry ring

/-- STATUS_WORD_UPDATE (R414). -/
def execStatusWordUpdate (opcode : BitVec 16) : State → Host.Outcome State Fault Refusal :=
  runOp fun d => d.statusUpdate opcode

/-- DMA_ERROR (R404, R422). -/
def execDmaError (ring : Nat) : State → Host.Outcome State Fault Refusal := runUp fun d => d.dmaError ring

/-- PERST_N_ASSERT (R424, R455). -/
def execPerstNAssert : State → Host.Outcome State Fault Refusal := run Dev.perstAssert

/-- PERST_N_DEASSERT (R452, R455). -/
def execPerstNDeassert : State → Host.Outcome State Fault Refusal := run Dev.perstDeassert

/-- PCIE_LINK_LOSS (R424). -/
def execPcieLinkLoss : State → Host.Outcome State Fault Refusal := run Dev.pcieLoss

end Sys2Proof.Machine
end

