-- ==== Sys2Proof/Machine/ExecHost.lean ====
section
/-! DEFINITION. The meanings of the host commands of Table 13.5. A command is fetched, executed and completed, or stays on its
ring while the device does not fetch. -/

namespace Sys2Proof.Machine

/-! ## Simple, schedule and radio commands (Table 13.5) -/

/-- NOP (R413): completes with OK. -/
def execNop (h : CmdHdr) : State → Host.Outcome State Fault Refusal := runOp (cmdNop h)

/-- CHAN_CONFIG (R125 to R127). -/
def execChanConfig (h : CmdHdr) (p : ChanParams) : State → Host.Outcome State Fault Refusal := runOp (cmdChanConfig h p)

/-- SCHED_WRITE (R162, R164). -/
def execSchedWrite (h : CmdHdr) (radio : Byte) (first count : BitVec 16) (buf : Buf) : State → Host.Outcome State Fault Refusal :=
  runOp (cmdSchedWrite h radio first count buf)

/-- ROT_WRITE (R162). -/
def execRotWrite (h : CmdHdr) (first : BitVec 32) (count : BitVec 16) (buf : Buf) : State → Host.Outcome State Fault Refusal :=
  runOp (cmdRotWrite h first count buf)

/-- SCHEDULE_COMMIT (R163, Table 5.4). -/
def execScheduleCommit (h : CmdHdr) : State → Host.Outcome State Fault Refusal := runOp (cmdScheduleCommit h)

/-- RF_ENABLE (R151, R152). -/
def execRfEnable (h : CmdHdr) (radio : Byte) : State → Host.Outcome State Fault Refusal := runOp (cmdRfEnable h radio)

/-- RF_DISABLE (R152). -/
def execRfDisable (h : CmdHdr) (radio : Byte) : State → Host.Outcome State Fault Refusal := runOp (cmdRfDisable h radio)

/-- RF_RESET (R152). -/
def execRfReset (h : CmdHdr) (radio : Byte) : State → Host.Outcome State Fault Refusal := runOp (cmdRfReset h radio)

/-- RF_CAL_SWEEP (R137, R152). -/
def execRfCalSweep (h : CmdHdr) (radio : Byte) : State → Host.Outcome State Fault Refusal := runOp (cmdRfCalSweep h radio)

/-- RF_ANT_ENABLE (R147). -/
def execRfAntEnable (h : CmdHdr) (radio ports : Byte) : State → Host.Outcome State Fault Refusal :=
  runOp (cmdRfAntEnable h radio ports)

/-- WAKE_SEND (R142, R197). -/
def execWakeSend (h : CmdHdr) (chan : BitVec 16) (code : BitVec 32) : State → Host.Outcome State Fault Refusal :=
  runOp (cmdWakeSend h chan code)

/-- SPECTRUM_SURVEY (R415). -/
def execSpectrumSurvey (h : CmdHdr) (mask : Byte) (first count : BitVec 16) (dwell : Byte) (buf : Buf) : State → Host.Outcome State Fault Refusal :=
  runOp (cmdSpectrumSurvey h mask first count dwell buf)

/-- SENSOR_SET (R189, R271). -/
def execSensorSet (h : CmdHdr) (p : SensorParams) : State → Host.Outcome State Fault Refusal := runOp (cmdSensorSet h p)

/-- MESH_FLOOD (R221). -/
def execMeshFlood (h : CmdHdr) (kind ttl : Byte) (buf : Buf) : State → Host.Outcome State Fault Refusal :=
  runOp (cmdMeshFlood h kind ttl buf)

/-- TIME_FORCE with ACCEPT (R236). -/
def execTimeForceAccept (h : CmdHdr) : State → Host.Outcome State Fault Refusal := runOp (cmdTimeForceAccept h)

/-- TIME_FORCE with SET (R236). -/
def execTimeForceSet (h : CmdHdr) (form : Byte) (sec : BitVec 48) (ns : BitVec 32) : State → Host.Outcome State Fault Refusal :=
  runOp (cmdTimeForceSet h form sec ns)

/-! ## Ruleset and forwarding commands -/

/-- RULE_WRITE (R259). -/
def execRuleWrite (h : CmdHdr) (first count : BitVec 16) (buf : Buf) : State → Host.Outcome State Fault Refusal :=
  runOp (cmdRuleWrite h first count buf)

/-- PATTERN_WRITE (R256, R259). -/
def execPatternWrite (h : CmdHdr) (pattern len : Byte) (value mask : List Byte) : State → Host.Outcome State Fault Refusal :=
  runOp (cmdPatternWrite h pattern len value mask)

/-- HASH_WRITE (R259, R263). -/
def execHashWrite (h : CmdHdr) (which bits : Byte) (key : List Byte) : State → Host.Outcome State Fault Refusal :=
  runOp (cmdHashWrite h which bits key)

/-- INDIR_WRITE (R259). -/
def execIndirWrite (h : CmdHdr) (first count : BitVec 16) (buf : Buf) : State → Host.Outcome State Fault Refusal :=
  runOp (cmdIndirWrite h first count buf)

/-- RULESET_COMMIT (R259 to R261). -/
def execRulesetCommit (h : CmdHdr) : State → Host.Outcome State Fault Refusal := runOp (cmdRulesetCommit h)

/-- FWD_WRITE (R271, R275, R277). -/
def execFwdWrite (h : CmdHdr) (table op : Byte) (index : BitVec 16) (buf : Buf) : State → Host.Outcome State Fault Refusal :=
  runOp (cmdFwdWrite h table op index buf)

/-- TABLE_REBUILD (R415). -/
def execTableRebuild (h : CmdHdr) (table : Byte) : State → Host.Outcome State Fault Refusal :=
  runOp (cmdTableRebuild h table)

/-! ## Key, DRAM, control-pair, power and boot commands -/

/-- KEY_INSTALL (R346, R349, R352). -/
def execKeyInstall (h : CmdHdr) (p : KeyParams) : State → Host.Outcome State Fault Refusal := runOp (cmdKeyInstall h p)

/-- KEY_INSTALL_WRAPPED (R343, R346). -/
def execKeyInstallWrapped (h : CmdHdr) (p : KeyParams) : State → Host.Outcome State Fault Refusal :=
  runOp (cmdKeyInstallWrapped h p)

/-- KEY_EXPORT (R346). -/
def execKeyExport (h : CmdHdr) (keyidx : Byte) (sidx : BitVec 32) (dst : BitVec 64) : State → Host.Outcome State Fault Refusal :=
  runOp (cmdKeyExport h keyidx sidx dst)

/-- KEY_DELETE (R346). LEN takes no part. -/
def execKeyDelete (h : CmdHdr) (target slot _len keyidx : Byte) (sidx : BitVec 32) : State → Host.Outcome State Fault Refusal :=
  runOp (cmdKeyDelete h target slot keyidx sidx)

/-- KAO_OP (R366). -/
def execKaoOp (h : CmdHdr) (p : KaoOpParams) : State → Host.Outcome State Fault Refusal := runOp (cmdKaoOp h p)

/-- DRAM_TRAIN (R391). -/
def execDramTrain (h : CmdHdr) : State → Host.Outcome State Fault Refusal := runOp (cmdDramTrain h)

/-- CC_SWITCH (R338). -/
def execCcSwitch (h : CmdHdr) : State → Host.Outcome State Fault Refusal := runOp (cmdCcSwitch h)

/-- PWR_STATE naming ACTIVE (R446). -/
def execPwrStateActive (h : CmdHdr) : State → Host.Outcome State Fault Refusal := runOp (cmdPwrState h 0)

/-- PWR_STATE naming LEAN (R446). -/
def execPwrStateLean (h : CmdHdr) : State → Host.Outcome State Fault Refusal := runOp (cmdPwrState h 1)

/-- PWR_STATE naming SENTINEL, and with any other P0 above 1 BAD_PARAM (R446, R449). -/
def execPwrStateSentinel (h : CmdHdr) (p0 : Byte) : State → Host.Outcome State Fault Refusal :=
  runOp (cmdPwrState h p0.toNat)

/-- FW_BLOCK (R476). -/
def execFwBlock (h : CmdHdr) (offset : BitVec 32) (len : BitVec 16) (addr : BitVec 64) (data : HostRead) : State → Host.Outcome State Fault Refusal :=
  runOp (cmdFwBlock h offset len addr data)

/-- FW_APPLY (R477). -/
def execFwApply (h : CmdHdr) : State → Host.Outcome State Fault Refusal := runOp (cmdFwApply h)

/-- FW_ACTIVATE (R478). -/
def execFwActivate (h : CmdHdr) (p0 : Byte) : State → Host.Outcome State Fault Refusal := runOp (cmdFwActivate h p0)

/-- PROFILE_WRITE (R466). -/
def execProfileWrite (h : CmdHdr) (buf : Buf) : State → Host.Outcome State Fault Refusal := runOp (cmdProfileWrite h buf)

/-- A command whose opcode Table 13.5 does not list (R412). -/
def execUnlistedOpcode (h : CmdHdr) (opcode : BitVec 16) : State → Host.Outcome State Fault Refusal :=
  runOp (cmdUnlisted h opcode)

end Sys2Proof.Machine
end

