-- ==== Sys2Proof/Machine/ExecPower.lean ====
section
/-! DEFINITION. The meanings of what happens at the power die, in SENTINEL, and at the reset pins. -/

namespace Sys2Proof.Machine

/-! ## Supply and sequence (chapter 14) -/

/-- UVLO_RELEASE (R428, R437). -/
def execUvloRelease : State → Host.Outcome State Fault Refusal := run Dev.uvloRelease

/-- UVLO_ENGAGE (R428). -/
def execUvloEngage : State → Host.Outcome State Fault Refusal := run Dev.uvloEngage

/-- POWER_STEP_DONE (R437, R440, R454 to R456). -/
def execPowerStepDone (siltTicks : Nat) : State → Host.Outcome State Fault Refusal := run fun d => d.powerStepDone siltTicks

/-- POWER_STEP_TIMEOUT (R439, R441). -/
def execPowerStepTimeout (siltTicks : Nat) : State → Host.Outcome State Fault Refusal :=
  run fun d => d.powerStepTimeout siltTicks

/-- ATTEMPT_RESTART (R439). -/
def execAttemptRestart : State → Host.Outcome State Fault Refusal := run Dev.attemptRestart

/-- VCORE_PHASE_FAULT (R433, R499). -/
def execVcorePhaseFault (phase : Fin 4) : State → Host.Outcome State Fault Refusal := run fun d => d.phaseFault phase

/-- VCORE_ADJUST (R432). -/
def execVcoreAdjust (up : Bool) : State → Host.Outcome State Fault Refusal := run fun d => d.vcoreAdjust up

/-- BROWNOUT (R451). -/
def execBrownout : State → Host.Outcome State Fault Refusal := run Dev.brownOut

/-- REFCLK40_LOSS (R499). -/
def execRefclk40Loss : State → Host.Outcome State Fault Refusal := run Dev.refclkLoss

/-- DOMAIN_ACCESS (R444). -/
def execDomainAccess (x : Domain) (isolated : Bool) : State → Host.Outcome State Fault Refusal :=
  runUp fun d => d.domainAccess x isolated

/-- DOMAIN_READY (R444, R446). -/
def execDomainReady (x : Domain) : State → Host.Outcome State Fault Refusal := runUp fun d => d.domainReady x

/-! ## SENTINEL and its wake sources -/

/-- SENTINEL_ARM (R449, R452). -/
def execSentinelArm (active : BitVec 6) : State → Host.Outcome State Fault Refusal := run fun d => d.sentinelArm active

/-- ETH_ENERGY_WAKE (R452). -/
def execEthEnergyWake (port : PortId) : State → Host.Outcome State Fault Refusal := run fun d => d.energyWake port

/-- WAKE_FRAME (R453). -/
def execWakeFrame (port : PortId) (frame : List Byte) (fcsOk : Bool) : State → Host.Outcome State Fault Refusal :=
  run fun d => d.wakeFrameIn port frame fcsOk

/-- GPIO_WAKE (R452): `levels` are the levels that the GPIO balls have held for 100 µs. -/
def execGpioWake (levels : BitVec 16) : State → Host.Outcome State Fault Refusal := run fun d => d.gpioHeld levels

/-- SILT_TIMER_EXPIRY (R452). -/
def execSiltTimerExpiry : State → Host.Outcome State Fault Refusal := run Dev.siltExpiry

/-- LISTEN_WINDOW_OPEN (R453). -/
def execListenWindowOpen (port : PortId) : State → Host.Outcome State Fault Refusal := run fun d => d.listenOpen port

/-- LISTEN_WINDOW_CLOSE (R453). -/
def execListenWindowClose (port : PortId) : State → Host.Outcome State Fault Refusal := run fun d => d.listenClose port

/-- WAKE_PATTERN_RECEIVED (R78, R80, R223). -/
def execWakePatternReceived (code : BitVec 32) (crc : Byte) : State → Host.Outcome State Fault Refusal :=
  run fun d => d.wakePattern code crc

/-- WAKE_N_TIMEOUT (R455). -/
def execWakeNTimeout : State → Host.Outcome State Fault Refusal := run Dev.wakeNEnd

/-! ## Reset pins (R457, R506, R525, R526) -/

/-- POWER_ON_RESET (R9, R435, R506, R515). -/
def execPowerOnReset (strap : BitVec 4) (testEn extSupply vio18Kept : Bool) : State → Host.Outcome State Fault Refusal :=
  runReset fun d => d.powerOn strap testEn extSupply vio18Kept

/-- SYS_RST_N (R457, R516, R525). -/
def execSysRstN (strap : BitVec 4) : State → Host.Outcome State Fault Refusal := runReset fun d => d.sysReset strap

/-- POR_N_ASSERT (R525, R526). -/
def execPorNAssert : State → Host.Outcome State Fault Refusal := runReset Dev.porAssert

/-- SYS_RST_N_ASSERT (R525, R526). -/
def execSysRstNAssert : State → Host.Outcome State Fault Refusal := runReset Dev.sysAssert

end Sys2Proof.Machine
end

