-- ==== Sys2Proof/Machine/ExecRegs.lean ====
section
/-! DEFINITION. The meanings of the register accesses that a row of the list names. BAR0 reaches a register while the main die is up. -/

namespace Sys2Proof.Machine

/-! ## Reads that change the device -/

/-- TIM_NOW_NS_READ (R8, R228, R490). -/
def execTimNowNsRead (ofs : BitVec 2) (bytes : Nat) (upset : Bool) : State → Host.Outcome State Fault Refusal :=
  run fun d => d.registerRead Reg.timNowNs ofs.toNat bytes upset Dev.nowRead

/-- COUNTER_LOW_READ (R8, R509). -/
def execCounterLowRead (reader : Reader) (snapshot : Bool) (index : BitVec 11) (ofs : BitVec 2) (bytes : Nat) (upset : Bool) :
    State → Host.Outcome State Fault Refusal :=
  run fun d => d.registerRead (if snapshot then Reg.snapshotLow index.toNat else Reg.counterLow index.toNat) ofs.toNat bytes
    upset fun d => d.counterRead reader snapshot index.toNat

/-- TSK_LEVEL_READ (R8, R10, R11). -/
def execTskLevelRead (ofs : BitVec 2) (bytes : Nat) (same upset : Bool) : State → Host.Outcome State Fault Refusal :=
  run fun d => d.registerRead Reg.tskLevel ofs.toNat bytes upset fun d => d.levelRead same

/-- CLK_TJ_READ (R8, R11, R533). -/
def execClkTjRead (ofs : BitVec 2) (bytes : Nat) (same upset : Bool) : State → Host.Outcome State Fault Refusal :=
  run fun d => d.registerRead Reg.clkTj ofs.toNat bytes upset fun d => d.tjRead same

/-! ## Register writes -/

/-- REGISTER_WRITE (R8, R10, R11, R504 to R506). -/
def execRegisterWrite (addr : BitVec 24) (bytes : Nat) (value same : Word) : State → Host.Outcome State Fault Refusal :=
  run fun d => d.registerWrite addr.toNat bytes value same

/-- SNAPSHOT_REQUEST: a write to OBS_SNAP_CTL (R510). -/
def execSnapshotRequest (value : Word) : State → Host.Outcome State Fault Refusal :=
  run fun d => d.registerWrite Reg.obsSnapCtl 4 value 0

/-- OBS_TRACE_MARK (R513). -/
def execObsTraceMark (value : Word) : State → Host.Outcome State Fault Refusal :=
  run fun d => d.registerWrite Reg.obsTraceMark 4 value 0

/-- GCL_COMMIT: a write to TSH_GCL_CFG (R310). -/
def execGclCommit (port : PortId) (value : Word) : State → Host.Outcome State Fault Refusal :=
  run fun d => d.registerWrite (Reg.tshGclCfg port.val) 4 value 0

/-- MDIO_START: a write to ETH_MDIO (R284). -/
def execMdioStart (value : Word) : State → Host.Outcome State Fault Refusal :=
  run fun d => d.registerWrite Reg.ethMdio 4 value 0

/-- PWR_RELEASE (R441): a write to PWR_RELEASE by the path that reaches the Silt domain, BAR0 or the Silt management port (R442). -/
def execPwrRelease (value : Word) : State → Host.Outcome State Fault Refusal :=
  run fun d => if d.siltUp then d.busWrite Reg.pwrRelease value else d

/-- BOOT_PCIE_GO: a write to BOOT_PCIE_CTL (R464). -/
def execBootPcieGo (value : Word) (image : HostRead) : State → Host.Outcome State Fault Refusal :=
  run fun d => if d.bar0 Reg.bootPcieCtl then d.pcieGo value image else d

/-- HOST_ATTACH: a write to HIF_CTRL (R423). -/
def execHostAttach (value : Word) : State → Host.Outcome State Fault Refusal :=
  run fun d => d.registerWrite Reg.hifCtrl 4 value 0

/-- HOST_DETACH: a write to HIF_CTRL (R424). -/
def execHostDetach (value : Word) : State → Host.Outcome State Fault Refusal :=
  run fun d => d.registerWrite Reg.hifCtrl 4 value 0

/-- RING_ENABLE: a write to HIF_RING_CFG (R401). -/
def execRingEnable (ring : Nat) (value : Word) : State → Host.Outcome State Fault Refusal :=
  run fun d => if ringExists ring then d.registerWrite (Reg.hifRingCfg ring) 4 value 0 else d

/-- RING_DISABLE: a write to HIF_RING_CFG (R401). -/
def execRingDisable (ring : Nat) (value : Word) : State → Host.Outcome State Fault Refusal :=
  run fun d => if ringExists ring then d.registerWrite (Reg.hifRingCfg ring) 4 value 0 else d

/-- TIM_SLOT_OFFSET_WRITE (R241). -/
def execTimSlotOffsetWrite (value : Word) : State → Host.Outcome State Fault Refusal :=
  run fun d => d.registerWrite Reg.timSlotOffset 4 value 0

/-- ETH_MODE_WRITE: a write to ETH_CFG (R283). -/
def execEthModeWrite (port : PortId) (value : Word) : State → Host.Outcome State Fault Refusal :=
  run fun d => d.registerWrite (Reg.ethCfg port.val) 4 value 0

/-- KAO_CFG_WRITE (R355, R367). -/
def execKaoCfgWrite (value : Word) : State → Host.Outcome State Fault Refusal :=
  run fun d => d.registerWrite Reg.kaoCfg 4 value 0

/-- SILT_PORT_ACCESS (R442): the Silt domain answers whenever it has power and is not in reset. -/
def execSiltPortAccess (offset : BitVec 16) (op : SiltOp) (bar0SameCycle : Bool) : State → Host.Outcome State Fault Refusal :=
  run fun d => if d.siltUp then d.siltPort offset.toNat op bar0SameCycle else d

end Sys2Proof.Machine
end

