-- ==== Sys2Proof/Machine/ExecWork.lean ====
section
/-! DEFINITION. The meanings of what happens at the workers, the task engine, the control pairs and Kaolin. -/

namespace Sys2Proof.Machine

/-! ## Workers (chapter 10) -/

/-- WORKER_ASK (R322 to R324). -/
def execWorkerAsk (worker : WorkerId) : State → Host.Outcome State Fault Refusal := runOp fun d => d.workerAsk worker

/-- ITEM_COMPLETE (R325). -/
def execItemComplete (worker : WorkerId) (upsets : List (Fin 5)) : State → Host.Outcome State Fault Refusal :=
  runOp fun d => (d.withUpsets upsets).itemComplete Dev.fwChunk worker

/-- DELAY_POST (R327). -/
def execDelayPost (list : Fin 8) (delay : BitVec 16) (flowKey : BitVec 20) : State → Host.Outcome State Fault Refusal :=
  runOp fun d => d.delayPost list delay.toNat flowKey.toNat

/-- DELAY_TICK (R326 to R328). -/
def execDelayTick : State → Host.Outcome State Fault Refusal := runOp Dev.delayTick

/-- WATCHDOG_FIRE (R329, R332). -/
def execWatchdogFire (worker : WorkerId) : State → Host.Outcome State Fault Refusal :=
  runOp fun d => d.watchdogFire Dev.fwChunk worker

/-- WORKER_RESET_DONE (R329). -/
def execWorkerResetDone (worker : WorkerId) : State → Host.Outcome State Fault Refusal :=
  runOp fun d => d.workerResetDone worker

/-! ## Control pairs (chapter 10) -/

/-- JOURNAL_CHECKPOINT: the journal has reached 2,048 entries (R334). -/
def execJournalCheckpoint : State → Host.Outcome State Fault Refusal :=
  runOp fun d => if 2048 ≤ d.journalLength then d.checkpointTick else d

/-- LOCKSTEP_MISMATCH (R335, R499). -/
def execLockstepMismatch : State → Host.Outcome State Fault Refusal := runOp fun d => d.pairFault 1

/-- HEARTBEAT_MISS (R335, R499). -/
def execHeartbeatMiss : State → Host.Outcome State Fault Refusal := runOp fun d => d.pairFault 2

/-- TAKEOVER_DONE (R335 to R338). -/
def execTakeoverDone : State → Host.Outcome State Fault Refusal := runOp Dev.takeoverDone

/-- PAIR_SELFTEST_DONE (R333, R337). -/
def execPairSelftestDone (pass : Bool) : State → Host.Outcome State Fault Refusal := runOp fun d => d.pairTested pass

/-! ## Kaolin (chapter 11) -/

/-- KAO_REQUEST (R341, R347 to R354). -/
def execKaoRequest (r : KaoReq) : State → Host.Outcome State Fault Refusal := runOp fun d => d.kaoSubmit (r, none)

/-- KEY_LOAD (R347, R348). -/
def execKeyLoad (sidx : BitVec 20) (keyidx : BitVec 4) : State → Host.Outcome State Fault Refusal :=
  runOp fun d => d.kaoKeyLoad sidx.toNat keyidx.toNat

/-- KAO_BLOCK_RESULT (R341, R342, R356). -/
def execKaoBlockResult (lane : LaneId) (agree repeatAgree : Bool) : State → Host.Outcome State Fault Refusal :=
  runOp fun d => d.blockResult lane agree repeatAgree

/-- LANE_SELFTEST_DONE (R357). -/
def execLaneSelftestDone (lane : LaneId) (pass : Bool) : State → Host.Outcome State Fault Refusal :=
  runOp fun d => d.laneTested lane pass

/-- LOCK_REVOKE (R354). -/
def execLockRevoke : State → Host.Outcome State Fault Refusal := runOp Dev.lockRevoke

/-- DRBG_RESEED (R358). -/
def execDrbgReseed (healthy : Bool) : State → Host.Outcome State Fault Refusal := runOp fun d => d.reseed healthy

/-- KAO_MODE_APPLY (R355). -/
def execKaoModeApply : State → Host.Outcome State Fault Refusal := runOp Dev.modeApply

end Sys2Proof.Machine
end

