-- ==== Sys2Proof/Machine/Dispatch.lean ====
section
/-! DEFINITION. One arm per command: a direct call of its meaning. -/

namespace Sys2Proof.Machine

/-- The effect of a command on everything but the queue. -/
def exec (i : Instr) (s : State) : Host.Outcome State Fault Refusal :=
  match i with
  | .nop h => Sys2Proof.Machine.execNop h s
  | .chanConfig h p => Sys2Proof.Machine.execChanConfig h p s
  | .schedWrite h radio first count buf => Sys2Proof.Machine.execSchedWrite h radio first count buf s
  | .rotWrite h first count buf => Sys2Proof.Machine.execRotWrite h first count buf s
  | .scheduleCommit h => Sys2Proof.Machine.execScheduleCommit h s
  | .rfEnable h radio => Sys2Proof.Machine.execRfEnable h radio s
  | .rfDisable h radio => Sys2Proof.Machine.execRfDisable h radio s
  | .rfReset h radio => Sys2Proof.Machine.execRfReset h radio s
  | .rfCalSweep h radio => Sys2Proof.Machine.execRfCalSweep h radio s
  | .rfAntEnable h radio ports => Sys2Proof.Machine.execRfAntEnable h radio ports s
  | .wakeSend h chan code => Sys2Proof.Machine.execWakeSend h chan code s
  | .spectrumSurvey h mask first count dwell buf => Sys2Proof.Machine.execSpectrumSurvey h mask first count dwell buf s
  | .sensorSet h p => Sys2Proof.Machine.execSensorSet h p s
  | .meshFlood h kind ttl buf => Sys2Proof.Machine.execMeshFlood h kind ttl buf s
  | .timeForceAccept h => Sys2Proof.Machine.execTimeForceAccept h s
  | .timeForceSet h form sec ns => Sys2Proof.Machine.execTimeForceSet h form sec ns s
  | .ruleWrite h first count buf => Sys2Proof.Machine.execRuleWrite h first count buf s
  | .patternWrite h pattern len value mask => Sys2Proof.Machine.execPatternWrite h pattern len value mask s
  | .hashWrite h which bits key => Sys2Proof.Machine.execHashWrite h which bits key s
  | .indirWrite h first count buf => Sys2Proof.Machine.execIndirWrite h first count buf s
  | .rulesetCommit h => Sys2Proof.Machine.execRulesetCommit h s
  | .fwdWrite h table op index buf => Sys2Proof.Machine.execFwdWrite h table op index buf s
  | .tableRebuild h table => Sys2Proof.Machine.execTableRebuild h table s
  | .keyInstall h p => Sys2Proof.Machine.execKeyInstall h p s
  | .keyInstallWrapped h p => Sys2Proof.Machine.execKeyInstallWrapped h p s
  | .keyExport h keyidx sidx dst => Sys2Proof.Machine.execKeyExport h keyidx sidx dst s
  | .keyDelete h target slot len keyidx sidx => Sys2Proof.Machine.execKeyDelete h target slot len keyidx sidx s
  | .kaoOp h p => Sys2Proof.Machine.execKaoOp h p s
  | .dramTrain h => Sys2Proof.Machine.execDramTrain h s
  | .ccSwitch h => Sys2Proof.Machine.execCcSwitch h s
  | .pwrStateActive h => Sys2Proof.Machine.execPwrStateActive h s
  | .pwrStateLean h => Sys2Proof.Machine.execPwrStateLean h s
  | .pwrStateSentinel h p0 => Sys2Proof.Machine.execPwrStateSentinel h p0 s
  | .fwBlock h offset len bufAddr data => Sys2Proof.Machine.execFwBlock h offset len bufAddr data s
  | .fwApply h => Sys2Proof.Machine.execFwApply h s
  | .fwActivate h p0 => Sys2Proof.Machine.execFwActivate h p0 s
  | .profileWrite h buf => Sys2Proof.Machine.execProfileWrite h buf s
  | .unlistedOpcode h opcode => Sys2Proof.Machine.execUnlistedOpcode h opcode s
  | .registerWrite addr bytes value same => Sys2Proof.Machine.execRegisterWrite addr bytes value same s
  | .timNowNsRead ofs bytes upset => Sys2Proof.Machine.execTimNowNsRead ofs bytes upset s
  | .counterLowRead reader snapshot index ofs bytes upset => Sys2Proof.Machine.execCounterLowRead reader snapshot index ofs bytes upset s
  | .tskLevelRead ofs bytes same upset => Sys2Proof.Machine.execTskLevelRead ofs bytes same upset s
  | .clkTjRead ofs bytes same upset => Sys2Proof.Machine.execClkTjRead ofs bytes same upset s
  | .snapshotRequest value => Sys2Proof.Machine.execSnapshotRequest value s
  | .obsTraceMark value => Sys2Proof.Machine.execObsTraceMark value s
  | .gclCommit port value => Sys2Proof.Machine.execGclCommit port value s
  | .mdioStart value => Sys2Proof.Machine.execMdioStart value s
  | .pwrRelease value => Sys2Proof.Machine.execPwrRelease value s
  | .bootPcieGo value image => Sys2Proof.Machine.execBootPcieGo value image s
  | .hostAttach value => Sys2Proof.Machine.execHostAttach value s
  | .hostDetach value => Sys2Proof.Machine.execHostDetach value s
  | .ringEnable ring value => Sys2Proof.Machine.execRingEnable ring value s
  | .ringDisable ring value => Sys2Proof.Machine.execRingDisable ring value s
  | .timSlotOffsetWrite value => Sys2Proof.Machine.execTimSlotOffsetWrite value s
  | .ethModeWrite port value => Sys2Proof.Machine.execEthModeWrite port value s
  | .kaoCfgWrite value => Sys2Proof.Machine.execKaoCfgWrite value s
  | .siltPortAccess offset op bar0SameCycle => Sys2Proof.Machine.execSiltPortAccess offset op bar0SameCycle s
  | .slotTick m => Sys2Proof.Machine.execSlotTick m s
  | .tableCopyDone => Sys2Proof.Machine.execTableCopyDone s
  | .acquisitionOpen radio lock coexGnt wbNoise => Sys2Proof.Machine.execAcquisitionOpen radio lock coexGnt wbNoise s
  | .widebandDetection radio w => Sys2Proof.Machine.execWidebandDetection radio w s
  | .laterPreamble radio w cells => Sys2Proof.Machine.execLaterPreamble radio w cells s
  | .syncEvaluation radio half => Sys2Proof.Machine.execSyncEvaluation radio half s
  | .sigVerdict radio subch => Sys2Proof.Machine.execSigVerdict radio subch s
  | .windowClose radio w => Sys2Proof.Machine.execWindowClose radio w s
  | .crcVerdict radio subch upsets => Sys2Proof.Machine.execCrcVerdict radio subch upsets s
  | .stuckSlotDetection radio => Sys2Proof.Machine.execStuckSlotDetection radio s
  | .ackrxPreset radio => Sys2Proof.Machine.execAckrxPreset radio s
  | .ackSymbolReceive radio subch window => Sys2Proof.Machine.execAckSymbolReceive radio subch window s
  | .decodeAndContext => Sys2Proof.Machine.execDecodeAndContext s
  | .delivery => Sys2Proof.Machine.execDelivery s
  | .loadmapResend sidx => Sys2Proof.Machine.execLoadmapResend sidx s
  | .downlinkAgeTimeout sidx => Sys2Proof.Machine.execDownlinkAgeTimeout sidx s
  | .wakeRequestTimeout => Sys2Proof.Machine.execWakeRequestTimeout s
  | .coexReqAssert radio => Sys2Proof.Machine.execCoexReqAssert radio s
  | .coexGntWithdrawn radio => Sys2Proof.Machine.execCoexGntWithdrawn radio s
  | .burstCheck radio lock coexGnt => Sys2Proof.Machine.execBurstCheck radio lock coexGnt s
  | .burstEnd radio fwd refl expected => Sys2Proof.Machine.execBurstEnd radio fwd refl expected s
  | .tgStart => Sys2Proof.Machine.execTgStart s
  | .synthLock radio => Sys2Proof.Machine.execSynthLock radio s
  | .calChunk radio startPs => Sys2Proof.Machine.execCalChunk radio startPs s
  | .sweepDone radio ok => Sys2Proof.Machine.execSweepDone radio ok s
  | .channelEntryBuild radio index => Sys2Proof.Machine.execChannelEntryBuild radio index s
  | .wakePatternReceived code crc => Sys2Proof.Machine.execWakePatternReceived code crc s
  | .workerAsk worker => Sys2Proof.Machine.execWorkerAsk worker s
  | .itemComplete worker upsets => Sys2Proof.Machine.execItemComplete worker upsets s
  | .delayPost list delay flowKey => Sys2Proof.Machine.execDelayPost list delay flowKey s
  | .delayTick => Sys2Proof.Machine.execDelayTick s
  | .watchdogFire worker => Sys2Proof.Machine.execWatchdogFire worker s
  | .workerResetDone worker => Sys2Proof.Machine.execWorkerResetDone worker s
  | .journalCheckpoint => Sys2Proof.Machine.execJournalCheckpoint s
  | .lockstepMismatch => Sys2Proof.Machine.execLockstepMismatch s
  | .heartbeatMiss => Sys2Proof.Machine.execHeartbeatMiss s
  | .takeoverDone => Sys2Proof.Machine.execTakeoverDone s
  | .pairSelftestDone pass => Sys2Proof.Machine.execPairSelftestDone pass s
  | .kaoRequest r => Sys2Proof.Machine.execKaoRequest r s
  | .keyLoad sidx keyidx => Sys2Proof.Machine.execKeyLoad sidx keyidx s
  | .kaoBlockResult lane agree repeatAgree => Sys2Proof.Machine.execKaoBlockResult lane agree repeatAgree s
  | .laneSelftestDone lane pass => Sys2Proof.Machine.execLaneSelftestDone lane pass s
  | .lockRevoke => Sys2Proof.Machine.execLockRevoke s
  | .drbgReseed healthy => Sys2Proof.Machine.execDrbgReseed healthy s
  | .kaoModeApply => Sys2Proof.Machine.execKaoModeApply s
  | .dramReadDone arrived id codewords => Sys2Proof.Machine.execDramReadDone arrived id codewords s
  | .alertNFall arrived rank => Sys2Proof.Machine.execAlertNFall arrived rank s
  | .alertNRise => Sys2Proof.Machine.execAlertNRise s
  | .retryEntryRetire rank => Sys2Proof.Machine.execRetryEntryRetire rank s
  | .refresh rank => Sys2Proof.Machine.execRefresh rank s
  | .retrainMeasured shifts => Sys2Proof.Machine.execRetrainMeasured shifts s
  | .scrubVisit block codewords => Sys2Proof.Machine.execScrubVisit block codewords s
  | .urgencyChange arrived port => Sys2Proof.Machine.execUrgencyChange arrived port s
  | .dramWriteRetire arrived id => Sys2Proof.Machine.execDramWriteRetire arrived id s
  | .doorbellPoll r => Sys2Proof.Machine.execDoorbellPoll r s
  | .txDescriptor ring desc payload upsets => Sys2Proof.Machine.execTxDescriptor ring desc payload upsets s
  | .msixModerationExpiry ring => Sys2Proof.Machine.execMsixModerationExpiry ring s
  | .statusWordUpdate opcode => Sys2Proof.Machine.execStatusWordUpdate opcode s
  | .dmaError ring => Sys2Proof.Machine.execDmaError ring s
  | .perstNAssert => Sys2Proof.Machine.execPerstNAssert s
  | .perstNDeassert => Sys2Proof.Machine.execPerstNDeassert s
  | .pcieLinkLoss => Sys2Proof.Machine.execPcieLinkLoss s
  | .frameReceived port f upsets => Sys2Proof.Machine.execFrameReceived port f upsets s
  | .staticRestore table index => Sys2Proof.Machine.execStaticRestore table index s
  | .pauseInterval port => Sys2Proof.Machine.execPauseInterval port s
  | .pauseExpiry port => Sys2Proof.Machine.execPauseExpiry port s
  | .pauseStorm port => Sys2Proof.Machine.execPauseStorm port s
  | .stormEnd port => Sys2Proof.Machine.execStormEnd port s
  | .frameBoundary port => Sys2Proof.Machine.execFrameBoundary port s
  | .gateEntryChange port => Sys2Proof.Machine.execGateEntryChange port s
  | .shaperRefill => Sys2Proof.Machine.execShaperRefill s
  | .linkDown port => Sys2Proof.Machine.execLinkDown port s
  | .linkUp port => Sys2Proof.Machine.execLinkUp port s
  | .loadWindow rxBits txBits => Sys2Proof.Machine.execLoadWindow rxBits txBits s
  | .flowMoveComplete => Sys2Proof.Machine.execFlowMoveComplete s
  | .pairStepChange => Sys2Proof.Machine.execPairStepChange s
  | .pairStepTimeout => Sys2Proof.Machine.execPairStepTimeout s
  | .mdioFrameDone ack data => Sys2Proof.Machine.execMdioFrameDone ack data s
  | .agingVisit table index hit => Sys2Proof.Machine.execAgingVisit table index hit s
  | .ptpIntervalExpiry port msg => Sys2Proof.Machine.execPtpIntervalExpiry port msg s
  | .ppsInEdge rising widthNs => Sys2Proof.Machine.execPpsInEdge rising widthNs s
  | .ppsLoss => Sys2Proof.Machine.execPpsLoss s
  | .ppsOutRise => Sys2Proof.Machine.execPpsOutRise s
  | .ppsOutFall => Sys2Proof.Machine.execPpsOutFall s
  | .servoLossTimeout => Sys2Proof.Machine.execServoLossTimeout s
  | .uvloRelease => Sys2Proof.Machine.execUvloRelease s
  | .uvloEngage => Sys2Proof.Machine.execUvloEngage s
  | .powerStepDone siltTicks => Sys2Proof.Machine.execPowerStepDone siltTicks s
  | .powerStepTimeout siltTicks => Sys2Proof.Machine.execPowerStepTimeout siltTicks s
  | .attemptRestart => Sys2Proof.Machine.execAttemptRestart s
  | .vcorePhaseFault phase => Sys2Proof.Machine.execVcorePhaseFault phase s
  | .vcoreAdjust up => Sys2Proof.Machine.execVcoreAdjust up s
  | .brownout => Sys2Proof.Machine.execBrownout s
  | .domainAccess d isolated => Sys2Proof.Machine.execDomainAccess d isolated s
  | .domainReady d => Sys2Proof.Machine.execDomainReady d s
  | .sentinelArm active => Sys2Proof.Machine.execSentinelArm active s
  | .ethEnergyWake port => Sys2Proof.Machine.execEthEnergyWake port s
  | .wakeFrame port frame fcsOk => Sys2Proof.Machine.execWakeFrame port frame fcsOk s
  | .gpioWake levels => Sys2Proof.Machine.execGpioWake levels s
  | .siltTimerExpiry => Sys2Proof.Machine.execSiltTimerExpiry s
  | .listenWindowOpen port => Sys2Proof.Machine.execListenWindowOpen port s
  | .listenWindowClose port => Sys2Proof.Machine.execListenWindowClose port s
  | .wakeNTimeout => Sys2Proof.Machine.execWakeNTimeout s
  | .refclk40Loss => Sys2Proof.Machine.execRefclk40Loss s
  | .powerOnReset strap testEn extSupply vio18Kept => Sys2Proof.Machine.execPowerOnReset strap testEn extSupply vio18Kept s
  | .sysRstN strap => Sys2Proof.Machine.execSysRstN strap s
  | .bootComplete find => Sys2Proof.Machine.execBootComplete find s
  | .uartImageReceived image => Sys2Proof.Machine.execUartImageReceived image s
  | .fwChunk body => Sys2Proof.Machine.execFwChunk body s
  | .standaloneModeTry port => Sys2Proof.Machine.execStandaloneModeTry port s
  | .activationResume pauseUs => Sys2Proof.Machine.execActivationResume pauseUs s
  | .activationAbandon pauseUs => Sys2Proof.Machine.execActivationAbandon pauseUs s
  | .sramPatrol upset => Sys2Proof.Machine.execSramPatrol upset s
  | .extest => Sys2Proof.Machine.execExtest s
  | .samplePreload capture => Sys2Proof.Machine.execSamplePreload capture s
  | .idcode => Sys2Proof.Machine.execIdcode s
  | .clamp => Sys2Proof.Machine.execClamp s
  | .highz => Sys2Proof.Machine.execHighz s
  | .bypass opcode => Sys2Proof.Machine.execBypass opcode s
  | .searchSyncAcquired radio arrivalPs half windows => Sys2Proof.Machine.execSearchSyncAcquired radio arrivalPs half windows s
  | .fwApplyDone flashError => Sys2Proof.Machine.execFwApplyDone flashError s
  | .tableRebuildDone => Sys2Proof.Machine.execTableRebuildDone s
  | .traceMsgSent => Sys2Proof.Machine.execTraceMsgSent s
  | .announceReceiptTimeout port => Sys2Proof.Machine.execAnnounceReceiptTimeout port s
  | .porNAssert => Sys2Proof.Machine.execPorNAssert s
  | .sysRstNAssert => Sys2Proof.Machine.execSysRstNAssert s

end Sys2Proof.Machine
end

