-- ==== Sys2Proof/Safety.lean ====
section
/-! DEFINITION. The terms in which statements speak of the machine: what a command answers, when the block takes it, what its
pins show, and when nothing is left for it to go on with by itself. -/

namespace Sys2Proof.Machine

/-! ## What a command answers -/

/-- The command completes with effect `d` of its own, followed by what follows every command at once. -/
def Gives (i : Instr) (s : State) (d : Dev) : Prop :=
  exec i s = .next { s with dev := d.settle (s.dev.bit Reg.glbFault_dram_lost) }

/-- The state of the device is defined: no TAP instruction has taken the balls from their functions since the last reset
(R516). -/
def Defined (s : State) : Prop := s.dev.obs.tapUndef = false

/-- The main die is out of reset with its rails up. -/
def Up (s : State) : Prop := Defined s ∧ s.dev.mainUp = true

/-- The device operates: STANDALONE or HOSTED, with the main die up. -/
def Operates (s : State) : Prop := Defined s ∧ s.dev.firmwareUp = true

/-- The device fetches the command that stands first on its command ring (R404, R410, R425). -/
def Fetching (s : State) : Prop := Operates s ∧ s.dev.fetches = true

/-- A host command is fetched, has effect `e`, and completes with a status and RESULT (R409). -/
def Completes (i : Instr) (op : Half) (h : CmdHdr) (s : State) (e : Dev → Dev) (status result : Nat) : Prop :=
  Gives i s ((e (s.dev.fetch op h).2).complete (s.dev.fetch op h).1 status result)

/-- The reset pins and the TAP instructions: they act even when the state of the device is undefined (R516). -/
def tapOrReset : Instr → Bool
  | .powerOnReset .. | .sysRstN .. | .porNAssert | .sysRstNAssert | .extest | .samplePreload .. | .idcode | .clamp | .highz
  | .bypass .. => true
  | _ => false

/-! ## Pins -/

/-- FAULT_N, PG_OUT and RST_OUT_N show the state (R434, R498, R526). -/
def Dev.PinsFollow (d : Dev) : Prop :=
  d.pins.faultN = d.faultHigh ∧ d.pins.rstOutN = d.rstOutHigh ∧
    d.pins.pgOut = (d.mainUp && d.operating && d.railsGood == 0x7F)

/-- A step that the machine takes is safe: it ends in a next state. -/
def Safe (s : State) : Prop := ∃ t, step s = .next t

/-! ## Registers -/

/-- The registers at which a write does more than its fields' access codes say. -/
def actingAddr (a : Nat) : Prop :=
  a = Reg.hifCtrl ∨ (0x41000 ≤ a ∧ a < 0x41300) ∨ (0x48000 ≤ a ∧ a < 0x48200) ∨ a = Reg.timSlotOffset ∨ a = Reg.ethCfg 0 ∨
    a = Reg.ethCfg 1 ∨ a = Reg.ethPaircfg ∨ a = Reg.timPpscfg ∨ a = Reg.ethMdio ∨ a = Reg.tshGclCfg 0 ∨ a = Reg.tshGclCfg 1 ∨ a = Reg.kaoCfg ∨ a = Reg.pwrRelease ∨
    a = Reg.obsTraceMark ∨ a = Reg.obsSnapCtl ∨ (0x1C0040 ≤ a ∧ a < 0x1C0060)

/-! ## Bookkeeping and rest -/

/-- The registers of the host interface and the level of the trace buffer. -/
def bookAddr (a : Nat) : Prop := 0x40000 ≤ a ∧ a < 0x60000 ∨ a = Reg.obsTraceStat

/-- The counters of the host interface and of the trace port. -/
def bookCnt (c : Nat) : Prop := 0x360 ≤ c ∧ c < 0x380 ∨ c < 0x20

/-- From `d` to `e` nothing has changed but what events, completions and trace messages write: rings, outputs, the trace
buffer, their registers and counters, and the status that the local host waits for. -/
structure Dev.Book (d e : Dev) : Prop where
  eff : e.eff = d.eff
  chans : e.chans = d.chans
  r0 : e.r0 = d.r0
  r1 : e.r1 = d.r1
  r2 : e.r2 = d.r2
  sch : e.sch = d.sch
  msh : e.msh = d.msh
  tim : e.tim = d.tim
  fwd : e.fwd = d.fwd
  eth : e.eth = d.eth
  tsk : e.tsk = d.tsk
  kao : e.kao = d.kao
  dmc : e.dmc = d.dmc
  pwr : e.pwr = d.pwr
  boot : e.boot = { d.boot with localEnd := e.boot.localEnd }
  pins : e.pins = d.pins
  decodeQ : e.decodeQ = d.decodeQ
  vit : e.vit = d.vit
  freeCtr : e.freeCtr = d.freeCtr
  reg : ∀ a, ¬ bookAddr a → e.reg a = d.reg a
  devState : e.devState = d.devState
  counter : ∀ c, ¬ bookCnt c → e.counter c = d.counter c

/-- Nothing waits in a HOSTED device that it would go on with by itself. -/
structure Dev.Calm (d : Dev) : Prop where
  hosted : d.devState = dsHosted
  lean : d.pwr.leanCmd = none
  entering : ∀ c, d.pwr.entering ≠ some (c, false)
  in0 : d.eth.p0.inBuf = []
  in1 : d.eth.p1.inBuf = []
  tx : d.hif.txWait = []
  pin : d.kao.pinPend = none
  compose : d.tim.compose = []
  copying : d.fwd.copying = none
  events : d.hif.eventQ = []
  lost : d.hif.lost = 0
  stamps0 : d.tim.stamps0 = []
  stamps1 : d.tim.stamps1 = []
  compl : d.hif.complQ = []

/-- Registers that show what the device is doing and follow it after every command. -/
def shownAddr (a : Nat) : Prop :=
  bookAddr a ∨ a = Reg.glbFault ∨ a = Reg.pwrRailstat ∨ a = Reg.clkStat ∨ a = Reg.pwrFltCause ∨ a = Reg.ethPairstat ∨
    a = Reg.pplVerstat

end Sys2Proof.Machine
end

