-- ==== Sys2Proof/Certificates/Slice0/Obligations.lean ====
section
/-! DEFINITION. The statements for the provers. Each `Gives` says that a command completes with the named effect of its own,
followed by what follows every command at once (`Dev.settle`, of which statements of their own speak). -/

open Sys2Proof Sys2Proof.Machine

/-! ## The machine as a whole -/

/-- A step takes the command at the front of the queue and runs it on the rest; with no command waiting the block idles (log
entry 2). -/
def Obligations.StepRunsFront : Prop :=
  (∀ (c : Instr) (q : List Instr) (s : State), s.pending = c :: q → step s = exec c { s with pending := q }) ∧
  (∀ s : State, s.pending = [] → step s = .next { s with dev := s.dev.idle })

/-- No command touches the queue: it is first in, first out. -/
def Obligations.ExecKeepsQueue : Prop :=
  ∀ (c : Instr) (s t : State), exec c s = .next t → t.pending = s.pending

/-- Of R516: after EXTEST, CLAMP or HIGHZ the device's state is undefined: every command but the reset pins and the TAP
instructions stops the machine (a stop is the model's reading of an undefined state, log entry 14), and it is the only stop
there is. -/
def Obligations.UndefinedStateStops : Prop :=
  (∀ (c : Instr) (s : State), tapOrReset c = false → s.dev.obs.tapUndef = true → exec c s = .fault .stateUndefined) ∧
  (∀ (c : Instr) (s : State), Defined s ∨ tapOrReset c = true → ∃ t, exec c s = .next t)

/-- FAULT_N, PG_OUT and RST_OUT_N show the state after every step, whatever the step was (R434, R498, R526). -/
def Obligations.PinsFollowKept : Prop :=
  ∀ s t : State, s.dev.PinsFollow → step s = .next t → t.dev.PinsFollow

/-- The pins show the state right after reset. -/
def Obligations.PinsFollowAtReset : Prop := State.reset.dev.PinsFollow

/-- The machine right after reset (R5, R9, R506, R508): every register reads its Reset value, DEV_STATE
shows BOOT, every counter reads 0; no command waits, and nothing is queued, running or on air. The values of what no register shows
are the model's (log entry 8). -/
def Obligations.ResetState : Prop :=
  State.reset.pending = [] ∧ State.reset.dev.reg Reg.glbId = 0x734800B0 ∧ State.reset.dev.devState = dsBoot ∧
  (∀ a, State.reset.dev.reg a = resetVal a ∧ State.reset.dev.cfg a = resetVal a) ∧
  (∀ c, State.reset.dev.counter c = 0) ∧ Defined State.reset ∧ State.reset.dev.tsk.items = [] ∧
  State.reset.dev.sch.active = [] ∧ State.reset.dev.sch.pending = [] ∧ State.reset.dev.hif.runs = [] ∧
  State.reset.dev.hif.eventQ = []

/-- What follows every command leaves the parts of a HOSTED device with nothing waiting as the command left them: only rings,
outputs, events, the trace buffer, and the registers that show what the device does follow. -/
def Obligations.SettleKeeps : Prop :=
  ∀ (d : Dev) (lost : Bool), d.Calm → d.mainUp = true →
    let t := d.settle lost
    t.r0 = d.r0 ∧ t.r1 = d.r1 ∧ t.r2 = d.r2 ∧ t.chans = d.chans ∧ t.eff = d.eff ∧ t.sch = d.sch ∧ t.msh = d.msh ∧
    t.tim = d.tim ∧ t.fwd = { d.fwd with upsets := [] } ∧ t.eth = d.eth ∧ t.tsk = d.tsk ∧ t.kao = d.kao ∧ t.dmc = d.dmc ∧
    t.boot = { d.boot with localEnd := t.boot.localEnd } ∧ t.decodeQ = d.decodeQ ∧ t.vit = d.vit ∧ t.freeCtr = d.freeCtr ∧ t.devState = d.devState ∧
    t.pwr = { d.pwr with woken := d.pwr.woken.filter d.domainOff } ∧
    (∀ a, ¬ shownAddr a → t.reg a = d.reg a) ∧
    (∀ c, ¬ bookCnt c → c ≠ Cnt.degraded → t.counter c = d.counter c)

/-- GLB_FAULT follows its conditions after every command while the main die is up (Table 16.6): bits 7 to 0 are exactly the
conditions of the device that the command left, and bit 8, DRAM_LOST, stays as it is. -/
def Obligations.GlbFaultFollows : Prop :=
  ∀ (d : Dev) (lost : Bool), d.Calm → d.mainUp = true →
    (d.settle lost).reg Reg.glbFault =
      BitVec.ofNat 32 (ofBits (d.faultBits ++ [d.bit Reg.glbFault_dram_lost]))

/-- R425: in OFF, BOOT, SENTINEL and FAULT_LOCK the device polls no ring and executes no host command: none has any effect. -/
def Obligations.NoCommandOutsideOperation : Prop :=
  ∀ s : State, Defined s →
    (s.dev.devState = dsOff ∨ s.dev.devState = dsBoot ∨ s.dev.devState = dsSentinel ∨ s.dev.devState = dsFaultLock) →
    (∀ (c : Instr) (op : Half) (h : CmdHdr), hostHdr c = some (op, h) → Gives c s s.dev) ∧
    (∀ p : PollRead, Gives (.doorbellPoll p) s s.dev)

/-! ## Host commands: the rings -/

/-- Of R401 and R334: fetching a command from ring 0 of a host takes the entry at the device's index, moves the index and
HIF_RING_STAT[0].IDX on by one, and writes the command to the journal. -/
def Obligations.FetchTakesCommand : Prop :=
  ∀ (d : Dev) (op : Half) (h : CmdHdr), d.hosted = true →
    let c : Cmd := ⟨op, h, (d.ring 0).dev, d.hif.epoch⟩
    let e := (d.fetch op h).2
    (d.fetch op h).1 = c ∧ (e.ring 0).dev = (d.ring 0).dev + 1 ∧
    e.fld (Reg.hifRingStat_idx 0) = ((d.ring 0).dev + 1) % 2 ^ (Reg.hifRingStat_idx 0).n ∧
    e.tsk.journal = d.tsk.journal ++ [c] ∧ (∀ i, i ≠ 0 → e.ring i = d.ring i)

/-- Of R405 and R409: with an external host and room on ring 1, a final completion is written at once: the 16-byte entry of Table
13.4 with its PHASE goes to the ring's next entry in host memory, the index moves on, and CMD_DONE counts it.
Without room it joins the end of the completions that wait. -/
def Obligations.CompletionWrittenOrWaits : Prop :=
  (∀ (d : Dev) (c : Cmd) (st res : Nat), d.hosted = true → d.hif.complQ = [] → c.epoch = d.hif.epoch →
      d.complRoom = true → d.boot.localCur = none →
      let e := d.complete c st res
      (e.ring 1).dev = (d.ring 1).dev + 1 ∧ e.hif.complQ = [] ∧ e.counter Cnt.cmdDone = d.counter Cnt.cmdDone + 1 ∧
      ∃ l, e.outs = l ++ .hostWrite (d.entryAddr 1 (d.ring 1).dev)
        (patch (complEntry c st true res) 7 [byte ((beAt (complEntry c st true res) 7 1) + 128 * d.phase 1 (d.ring 1).dev)]) ::
        d.outs) ∧
  (∀ (d : Dev) (c : Cmd) (st res : Nat), c.epoch = d.hif.epoch → d.complRoom = false → d.boot.localCur = none →
      d.complete c st res = { d with hif := { d.hif with complQ := d.hif.complQ ++ [(complEntry c st true res, c.idx)] } })

/-- Of R420 and R421: with an external host, no event waiting and room on ring 2, an event is written at once: its 32-byte entry
with its PHASE goes to the ring's next entry, the index moves on, and EVENT_WRITTEN counts it. With 256 events waiting it is
lost: EVENT_LOST counts it and HIF_STAT.EVT_LOST is set. -/
def Obligations.EventWrittenOrLost : Prop :=
  ∀ (d : Dev) (ty code : Nat) (l : List (Nat × List Byte)), d.cfgBit Reg.obsTraceCfg_en = false →
    (d.hosted = true → d.hif.eventQ = [] → d.hif.lost = 0 → d.eventRoom = true →
      let e := d.event ty code l
      (e.ring 2).dev = (d.ring 2).dev + 1 ∧ e.hif.eventQ = [] ∧
      e.counter Cnt.eventWritten = d.counter Cnt.eventWritten + 1 ∧
      ∃ o, e.outs = o ++ .hostWrite (d.entryAddr 2 (d.ring 2).dev)
        (patch (d.eventEntry ty code false (evData l)) 2 [byte (128 * d.phase 2 (d.ring 2).dev)]) :: d.outs) ∧
    (256 ≤ d.hif.eventQ.length →
      let e := d.event ty code l
      e.hif.lost = d.hif.lost + 1 ∧ e.hif.eventQ = d.hif.eventQ ∧ e.counter Cnt.eventLost = d.counter Cnt.eventLost + 1 ∧
      e.bit Reg.hifStat_evt_lost = true)

/-! ## Host commands: schedule, rulesets and tables -/

/-- Of R412 and R413: NOP completes with OK, a command with an opcode that Table 13.5 does not list with NOT_SUPPORTED, and neither
has any side effect. -/
def Obligations.NopAndUnlisted : Prop :=
  ∀ (s : State) (h : CmdHdr) (op : Half), Fetching s →
    Completes (.nop h) 0x0001 h s id stOk 0 ∧ Completes (.unlistedOpcode h op) op h s id stNotSupported 0

/-- SCHED_WRITE puts `count` rows from the host's buffer into the pending table of a radio, and nothing else; while a commit
is pending it is refused with STATE, and while the copy of R164 runs it is held.
ROT_WRITE stages `count` rotation entries; with no room among the 65,536 it completes with BUSY.
SCHEDULE_COMMIT completes with BUSY while a commit is pending, else with the first failure of Table 5.4 and no side effect, else
with OK: the commit is then pending for the boundary that SCH_COMMIT.TARGET_SF and RESULT name. -/
def Obligations.ScheduleCommands : Prop :=
  (∀ (s : State) (h : CmdHdr) (radio : Byte) (first count : BitVec 16) (buf : Buf) (b : List Byte) (rows : List Row)
      (hr : radio.toNat < 3), Fetching s → first.toNat ≤ 511 → first.toNat + count.toNat ≤ 512 →
      let f := s.dev.fetch 0x0011 h
      (s.dev.sch.copying = false → s.dev.bit Reg.schCommit_pending = false → buf.addr ≠ 0 → buf.data = .ok b →
        readRows count.toNat (b.take buf.len.toNat) = some rows →
        Completes (.schedWrite h radio first count buf) 0x0011 h s
          (fun d => { d with sch := { d.sch with pending := (rows.zipIdx).foldl (fun (t : Sparse Row) (x : Row × Nat) =>
            Sparse.put emptyRow t (radio.toNat * 512 + first.toNat + x.2) x.1) d.sch.pending } }) stOk 0) ∧
      (s.dev.sch.copying = false → s.dev.bit Reg.schCommit_pending = true →
        Gives (.schedWrite h radio first count buf) s (f.2.refuseState f.1 (s.dev.rfState ⟨radio.toNat, hr⟩))) ∧
      (s.dev.sch.copying = true →
        Gives (.schedWrite h radio first count buf) s
          { f.2 with sch := { f.2.sch with
            held := s.dev.sch.held ++ [(f.1, radio.toNat, first.toNat, count.toNat, buf)] } })) ∧
  (∀ (s : State) (h : CmdHdr) (first : BitVec 32) (count : BitVec 16) (buf : Buf) (b : List Byte),
      Fetching s → 1 ≤ count.toNat → count.toNat ≤ 4096 → first.toNat + count.toNat ≤ s.dev.rotSize → buf.addr ≠ 0 →
      4 * count.toNat ≤ buf.len.toNat → buf.data = .ok b →
      (s.dev.sch.staged.length + count.toNat ≤ 65536 →
        Completes (.rotWrite h first count buf) 0x0012 h s
          (fun d => { d with sch := { d.sch with staged := d.sch.staged ++
            (records 4 count.toNat (b.take buf.len.toNat)).zipIdx.map fun x => (first.toNat + x.2, BitVec.ofNat 32 (ofLe x.1)) } })
          stOk 0) ∧
      (65536 < s.dev.sch.staged.length + count.toNat →
        Completes (.rotWrite h first count buf) 0x0012 h s id stBusy 0)) ∧
  (∀ (s : State) (h : CmdHdr), Fetching s →
    let t := s.dev.sch.pending
    let protect := s.dev.bit Reg.schAdmcfg_protected
    let f := s.dev.fetch 0x0013 h
    (s.dev.bit Reg.schCommit_pending = true → Completes (.scheduleCommit h) 0x0013 h s id stBusy 0) ∧
    (s.dev.bit Reg.schCommit_pending = false →
      (s.dev.tableLegal t = false → Completes (.scheduleCommit h) 0x0013 h s id stBadParam 0) ∧
      (s.dev.tableLegal t = true →
        (s.dev.tableChannels t = false ∨ (tableTransmits t && s.dev.noRegion) = true →
          Gives (.scheduleCommit h) s (f.2.refuseState f.1 0xFF)) ∧
        (s.dev.tableChannels t = true → (tableTransmits t && s.dev.noRegion) = false →
          ((protect && !admitted t) = true → Completes (.scheduleCommit h) 0x0013 h s id stNoResource 0) ∧
          ((protect && !admitted t) = false →
            let b := s.dev.nextBoundary / 512
            Completes (.scheduleCommit h) 0x0013 h s
              (fun d => (({ d with sch := { d.sch with target := b, protPend := protect } }).raise
                Reg.schCommit_pending).setFld Reg.schCommit_target_sf (sfOf (b * 512))) stOk (sfOf (b * 512)))))))

/-- RULE_WRITE, PATTERN_WRITE, HASH_WRITE and INDIR_WRITE write the staging area of the ruleset, and nothing else; while a commit
copies it, each completes with BUSY instead, which COMMIT_BUSY counts. -/
def Obligations.RulesetStagingWrites : Prop :=
  ∀ (s : State) (h : CmdHdr), Fetching s →
    let Stages (i : Instr) (op : Half) (f : Ruleset → Ruleset) : Prop :=
      (s.dev.fwd.copying = none → Completes i op h s (fun d => d.setStaging (f d.fwd.staging)) stOk 0) ∧
      (s.dev.fwd.copying ≠ none → Completes i op h s (fun d => d.bump Cnt.commitBusy) stBusy 0)
    (∀ (first count : BitVec 16) (buf : Buf) (b : List Byte), first.toNat ≤ 1023 → first.toNat + count.toNat ≤ 1024 →
      buf.addr ≠ 0 → 48 * count.toNat ≤ buf.len.toNat → buf.data = .ok b →
      Stages (.ruleWrite h first count buf) 0x0030 fun x => { x with
        rules := (records 48 count.toNat (b.take buf.len.toNat)).zipIdx.foldl (fun (t : Sparse (Option Rule)) (y : List Byte × Nat) =>
          Sparse.put none t (first.toNat + y.2) (some (readRule y.1))) x.rules }) ∧
    (∀ (pattern len : Byte) (value mask : List Byte), pattern.toNat ≤ 63 → len.toNat ≤ 16 →
      Stages (.patternWrite h pattern len value mask) 0x0031 fun x => { x with
        patterns := Sparse.put emptyPattern x.patterns pattern.toNat ⟨len.toNat, fit 16 value, fit 16 mask⟩ }) ∧
    (∀ (which bits : Byte) (key : List Byte), which.toNat < 4 →
      Stages (.hashWrite h which bits key) 0x0032 fun x => { x with profiles := Sparse.put 0 x.profiles which.toNat bits }) ∧
    (∀ (bits : Byte) (key : List Byte),
      Stages (.hashWrite h 4 bits key) 0x0032 fun x => { x with hashKey := fit 40 key }) ∧
    (∀ (first count : BitVec 16) (buf : Buf) (b : List Byte), first.toNat ≤ 511 → first.toNat + count.toNat ≤ 512 →
      buf.addr ≠ 0 → 2 * count.toNat ≤ buf.len.toNat → buf.data = .ok b →
      Stages (.indirWrite h first count buf) 0x0033 fun x => { x with
        indir := (records 2 count.toNat (b.take buf.len.toNat)).zipIdx.foldl (fun (t : Sparse Half) (y : List Byte × Nat) =>
          Sparse.put 0 t (first.toNat + y.2) (BitVec.ofNat 16 (ofLe y.1))) x.indir })

/-- FWD_WRITE writes and deletes one entry of the server table and of the prefix table, and writes and deletes the entry of a
station that the MAC table holds; an index outside the prefix table, the sensor table, and tables and operations that do not
exist are answered BAD_PARAM.
SENSOR_SET writes a sensor's entry where its address already lies, else into the first free way of its two buckets, and takes an
entry away; a full pair of buckets from which nothing can move answers NO_RESOURCE and sets FWD_STAT.INS_FAIL. -/
def Obligations.TableWrites : Prop :=
  (∀ (s : State) (h : CmdHdr) (index : BitVec 16) (buf : Buf) (b : List Byte), Fetching s → buf.addr ≠ 0 →
    buf.data = .ok b →
    (index.toNat < 64 → 18 ≤ (b.take buf.len.toNat).length →
      Completes (.fwdWrite h 4 0 index buf) 0x0035 h s
        (fun d => d.restoreServer.setServer index.toNat (some ⟨BitVec.ofNat 128 (leAt (b.take buf.len.toNat) 0 16),
          BitVec.ofNat 16 (leAt (b.take buf.len.toNat) 16 2)⟩)) stOk 0) ∧
    (index.toNat < 2048 → (Sparse.get none s.dev.fwd.pfx index.toNat).isSome →
      Completes (.fwdWrite h 2 1 index buf) 0x0035 h s (fun d => d.setPfx index.toNat none) stOk 0) ∧
    (index.toNat < 64 → (Sparse.get none s.dev.restoreServer.fwd.server index.toNat).isSome →
      Completes (.fwdWrite h 4 1 index buf) 0x0035 h s (fun d => d.restoreServer.setServer index.toNat none) stOk 0) ∧
    (let v := b.take buf.len.toNat;
      index.toNat < 2048 → 35 ≤ v.length → leAt v 16 1 ≤ 128 → leAt v 33 1 ≤ 1 →
      Completes (.fwdWrite h 2 0 index buf) 0x0035 h s
        (fun d => d.setPfx index.toNat (some ⟨BitVec.ofNat 128 (leAt v 0 16), leAt v 16 1, BitVec.ofNat 128 (leAt v 17 16),
          leAt v 33 1 == 1, BitVec.ofNat 6 (leAt v 34 1)⟩)) stOk 0) ∧
    (let v := b.take buf.len.toNat
      let mac := BitVec.ofNat 48 (leAt v 0 6)
      let vid := BitVec.ofNat 12 (leAt v 6 2)
      ∀ k, s.dev.restoreMac.macIndex mac vid = some k →
      (9 ≤ v.length → leAt v 8 1 ≤ 3 →
        Completes (.fwdWrite h 0 0 index buf) 0x0035 h s
          (fun d => d.restoreMac.setMac k (some ⟨mac, vid, BitVec.ofNat 2 (leAt v 8 1), true, false, 0, s.dev.fwd.insStamp⟩))
          stOk 0) ∧
      (8 ≤ v.length →
        Completes (.fwdWrite h 0 1 index buf) 0x0035 h s (fun d => d.restoreMac.setMac k none) stOk 0)) ∧
    (2048 ≤ index.toNat → ∀ op : Byte, op.toNat ≤ 1 →
      Completes (.fwdWrite h 2 op index buf) 0x0035 h s id stBadParam 0) ∧
    (∀ table op : Byte, table = 3 ∨ 4 < table.toNat ∨ 1 < op.toNat →
      Completes (.fwdWrite h table op index buf) 0x0035 h s id stBadParam 0)) ∧
  (∀ (s : State) (h : CmdHdr) (p : SensorParams), Fetching s → p.sidx.toNat < s.dev.maxSensors →
    let e : SensorEntry :=
      { addr := p.addr, sidx := p.sidx.toNat, group := p.group, ulKind := p.ulKind.setWidth 3, ulIndex := p.ulIndex.setWidth 6,
        dlLink := p.dl.getLsbD 0, link := p.dl.extractLsb' 1 3 }
    (p.write.getLsbD 0 = true → p.ulKind.toNat ≤ 7 → p.ulIndex.toNat ≤ 63 → p.members.toNat ≤ 2 →
      ∀ k, s.dev.sensorIndex p.addr = some k →
      Completes (.sensorSet h p) 0x001B h s (fun d => (d.setSensorAt k (some e)).showFill.setContext p) stOk 0) ∧
    (p.write.getLsbD 0 = true → p.ulKind.toNat ≤ 7 → p.ulIndex.toNat ≤ 63 → p.members.toNat ≤ 2 →
      s.dev.sensorIndex p.addr = none →
      ∀ k, (s.dev.freeWay (s.dev.candidates p.addr).1).orElse (fun _ => s.dev.freeWay (s.dev.candidates p.addr).2) = some k →
      Completes (.sensorSet h p) 0x001B h s (fun d => (d.setSensorAt k (some e)).showFill.setContext p) stOk 0) ∧
    (p.write.getLsbD 0 = true → p.ulKind.toNat ≤ 7 → p.ulIndex.toNat ≤ 63 → p.members.toNat ≤ 2 →
      s.dev.sensorInsert e = none →
      Completes (.sensorSet h p) 0x001B h s (fun d => d.raise Reg.fwdStat_ins_fail) stNoResource 0) ∧
    (p.write.getLsbD 0 = false → ∀ k, s.dev.sensorIndex p.addr = some k →
      Completes (.sensorSet h p) 0x001B h s (fun d => (d.setSensorAt k none).showFill) stOk 0))

/-- TABLE_REBUILD starts a long operation on its table. At TABLE_REBUILD_DONE the entries of the server, MAC and IPv6 exact
tables that were removed for their parity are back, PARTIAL holds how many were checked, and RESULT how many were repaired.
RULESET_COMMIT names the lowest version slot that is neither current nor held and begins to copy, for 40 µs; without such a slot,
or while an earlier commit copies, it completes with BUSY, and COMMIT_BUSY counts it. When the copy ends, the staging area is in
that slot, the slot is current under the next generation, and the command completes with OK and names both in RESULT (that the
copy takes exactly 40 µs is the model's choice, log entry 208). -/
def Obligations.CommitAndRebuild : Prop :=
  (∀ (s : State) (h : CmdHdr) (table : Byte), Fetching s → table.toNat ≤ 4 → s.dev.runningOp opRebuild = none →
    Gives (.tableRebuild h table) s
      (let f := s.dev.fetch opRebuild h
      f.2.startLong f.1 0 table.toNat)) ∧
  (∀ (s : State) (r : Running), Operates s → s.dev.runningOp opRebuild = some r →
    let Ends (d : Dev) (repaired checked : Nat) : Prop :=
      Gives .tableRebuildDone s ((d.progress opRebuild 100 checked).finish r.cmd stOk repaired)
    let x := s.dev.fwd
    (r.arg = 4 → Ends s.dev.restoreServer x.lostSrv.length (x.server.length + x.lostSrv.length)) ∧
    (r.arg = 0 → Ends s.dev.restoreMac x.lostMac.length (x.mac.length + x.lostMac.length)) ∧
    (r.arg = 1 → Ends s.dev.restoreIp6 x.lostIp6.length (x.ip6.length + x.lostIp6.length))) ∧
  (∀ (s : State) (h : CmdHdr), Fetching s →
    (s.dev.fwd.copying = none → ∀ v, ((List.range 16).find? fun v => v != s.dev.curVer && !s.dev.held v) = some v →
      Gives (.rulesetCommit h) s
        (let f := s.dev.fetch 0x0034 h
        { f.2 with fwd := { s.dev.fwd with
            copying := some (f.1, v, s.dev.reg Reg.pplGen + 1, s.dev.tim.cyc + 16000) } }.setBit Reg.pplVerstat_copying true)) ∧
    (s.dev.fwd.copying ≠ none ∨ ((List.range 16).find? fun v => v != s.dev.curVer && !s.dev.held v) = none →
      Completes (.rulesetCommit h) 0x0034 h s (fun d => d.bump Cnt.commitBusy) stBusy 0)) ∧
  (∀ (d : Dev) (c : Cmd) (v : Nat) (g : Word) (t : Nat), d.fwd.copying = some (c, v, g, t) → v < 16 →
    (d.tim.cyc < t → d.copyDone = d) ∧
    (t ≤ d.tim.cyc →
      ∃ e : Dev, d.copyDone = e.complete c stOk (v + g.toNat * 4294967296) ∧ e.fwd.copying = none ∧
        Sparse.get emptyRuleset e.fwd.versions v = d.fwd.staging ∧ Sparse.get 0 e.fwd.gens v = g ∧ e.curVer = v ∧
        e.reg Reg.pplGen = g ∧ e.counter Cnt.verCommit = d.counter Cnt.verCommit + 1 ∧ e.fwd.staging = d.fwd.staging))

/-! ## Host commands: radios, channels, air -/

/-- RF_ENABLE of a radio in OFF (outside a LEAN device that already has one) and RF_RESET of a radio in
FAILED complete with OK and leave the radio in CALIBRATING, in a sweep of 40 slots and 2 for each configured index, with PA_EN
and LNA_EN low. RF_CAL_SWEEP does the same to a radio in READY, and the sweep carries
its command. No other radio, no table,
no key, and no queue of SCH or MSH changes. -/
def Obligations.RadioSweepCommands : Prop :=
  ∀ (s : State) (h : CmdHdr) (radio : Byte) (hr : radio.toNat < 3), Fetching s →
    let r : RadioId := ⟨radio.toNat, hr⟩
    let Swept (d : Dev) (cmd : Option Cmd) : Prop :=
      d.rfState r = rsCalibrating ∧
      (d.radio r).sweep = some ⟨cmd, s.dev.configured, [], byte (s.dev.fld (Reg.rfTemp_now r)),
        s.dev.tim.slotS + 40 + 2 * s.dev.configured.length⟩ ∧
      (d.radio r).pins.getLsbD 8 = false ∧ (d.radio r).pins.getLsbD 7 = false ∧
      (∀ q, q ≠ r → d.radio q = s.dev.radio q ∧ d.rfState q = s.dev.rfState q) ∧
      d.sch = s.dev.sch ∧ d.chans = s.dev.chans ∧ d.msh = s.dev.msh ∧ d.kao = s.dev.kao ∧ d.fwd = s.dev.fwd ∧
      d.decodeQ = s.dev.decodeQ
    (s.dev.rfState r = rsOff → s.dev.leanFull = false →
      ∃ d : Dev, Gives (.rfEnable h radio) s (d.complete (s.dev.fetch 0x0014 h).1 stOk 0) ∧ Swept d none) ∧
    (s.dev.rfState r = rsFailed →
      ∃ d : Dev, Gives (.rfReset h radio) s (d.complete (s.dev.fetch 0x0016 h).1 stOk 0) ∧ Swept d none) ∧
    (s.dev.rfState r = rsReady → s.dev.runningOp opRfCalSweep = none →
      ∃ d : Dev, Gives (.rfCalSweep h radio) s d ∧ Swept d (some (s.dev.fetch opRfCalSweep h).1))

/-- RF_DISABLE of a radio that is neither OFF nor RUNNING leaves it in OFF, with no sweep and nothing to build; no other
radio changes. RF_DISABLE and RF_CAL_SWEEP on a radio in RUNNING complete with STATE, as RF_ENABLE outside OFF and RF_RESET
outside FAILED do, and CMD_STATE counts each.
RF_ANT_ENABLE that names an inhibited port waits for the next superframe boundary; with no inhibited port among
those it names it completes with STATE. -/
def Obligations.RadioEndAndPorts : Prop :=
  (∀ (s : State) (h : CmdHdr) (radio : Byte) (hr : radio.toNat < 3), Fetching s →
      let r : RadioId := ⟨radio.toNat, hr⟩
      let Refused (i : Instr) (op : Half) : Prop :=
        Gives i s ((s.dev.fetch op h).2.refuseState (s.dev.fetch op h).1 (s.dev.rfState r))
      (s.dev.rfState r ≠ rsOff → s.dev.rfState r ≠ rsRunning →
        ∃ d : Dev, Gives (.rfDisable h radio) s (d.complete (s.dev.fetch 0x0015 h).1 stOk 0) ∧ d.rfState r = rsOff ∧
          (d.radio r).sweep = none ∧ (d.radio r).buildQ = [] ∧ (d.radio r).tempRun = none ∧
          (∀ q, q ≠ r → d.radio q = s.dev.radio q ∧ d.rfState q = s.dev.rfState q)) ∧
      (s.dev.rfState r = rsRunning → Refused (.rfDisable h radio) 0x0015 ∧ Refused (.rfCalSweep h radio) 0x0017) ∧
      (s.dev.rfState r ≠ rsOff → Refused (.rfEnable h radio) 0x0014) ∧
      (s.dev.rfState r ≠ rsFailed → Refused (.rfReset h radio) 0x0016)) ∧
  (∀ (s : State) (h : CmdHdr) (radio ports : Byte) (hr : radio.toNat < 3), Fetching s →
      let r : RadioId := ⟨radio.toNat, hr⟩
      let f := s.dev.fetch 0x0018 h
      (s.dev.inhibited r &&& (ports.toNat % 4) ≠ 0 →
        Gives (.rfAntEnable h radio ports) s
          { f.2.startDeferred f.1 with sch := { s.dev.sch with
            antEnable := s.dev.sch.antEnable ++ [(f.1, r, ports.setWidth 2)] } }) ∧
      (s.dev.inhibited r &&& (ports.toNat % 4) = 0 →
        Gives (.rfAntEnable h radio ports) s (f.2.refuseState f.1 (s.dev.rfState r))))

/-- A legal CHAN_CONFIG of an index that no table uses records the channel and no other, and leaves the schedule; it voids the
entries of all radios where the index is new or its frequency or mode changes, and no entry otherwise; while a radio in READY or
RUNNING lacks the entry, the command runs on as a long operation. While another CHAN_CONFIG runs, it completes with BUSY. An
index that a table uses answers STATE; a frequency outside the ports' ranges answers BAD_PARAM. -/
def Obligations.ChanConfigResult : Prop :=
  ∀ (s : State) (h : CmdHdr) (p : ChanParams) (mode : Fin 3), Fetching s → p.mode.toNat = mode.val → p.index.toNat ≤ 511 →
    p.txTrim.toNat ≤ 63 → p.tuneN.toNat ≤ 4 →
    (freqFits p.freq.toNat mode = false → Completes (.chanConfig h p) 0x0010 h s id stBadParam 0) ∧
    (freqFits p.freq.toNat mode = true →
    let i := p.index.toNat
    let f := s.dev.fetch 0x0010 h
    let used := (s.dev.sch.active.any fun x => x.2.uses i) || s.dev.sch.pending.any fun x => x.2.uses i
    (used = true → Gives (.chanConfig h p) s (f.2.refuseState f.1 0xFF)) ∧
    (used = false → s.dev.runningOp 0x0010 ≠ none → Completes (.chanConfig h p) 0x0010 h s id stBusy 0) ∧
    (used = false → s.dev.runningOp 0x0010 = none →
      let same := ∃ o, s.dev.chan i = some o ∧ o.freq = p.freq ∧ o.mode = mode
      ∃ d : Dev, Gives (.chanConfig h p) s d ∧
        d.chan i = some ⟨p.freq, mode, p.txTrim.toNat,
          ([p.tune0, p.tune1, p.tune2, p.tune3].take p.tuneN.toNat).map fun w => w.setWidth 24⟩ ∧
        (∀ j, j ≠ i → d.chan j = s.dev.chan j) ∧
        (¬ same → ∀ r, d.entryValid r i = false) ∧ (∀ r j, same ∨ j ≠ i → d.entryValid r j = s.dev.entryValid r j) ∧
        d.sch = s.dev.sch ∧
        ((∃ r, s.dev.rfReadyRun r = true ∧ d.entryValid r i = false) →
          ∃ x, d.runningOp 0x0010 = some x ∧ x.cmd = f.1 ∧ x.long = true ∧ x.arg = i)))

/-- WAKE_SEND queues a request for its channel and group code; codes 0 and 0xFFFFFFFF are refused, and the 65th request
overflows. Where the radio of the next WAKE row of that channel sweeps, the request is held if the sweep ends before that slot,
and completes with BUSY otherwise.
SPECTRUM_SURVEY starts on the radios it names that are READY or RUNNING, over the indices with a valid entry, and
answers STATE when it names none. -/
def Obligations.WakeAndSurvey : Prop :=
  (∀ (s : State) (h : CmdHdr) (chan : BitVec 16) (code : BitVec 32), Fetching s →
      let f := s.dev.fetch 0x0019 h
      (code = 0 ∨ code = 0xFFFFFFFF → Completes (.wakeSend h chan code) 0x0019 h s id stBadParam 0) ∧
      (chan.toNat ≤ 511 → code ≠ 0 → code ≠ 0xFFFFFFFF → s.dev.noRegion = false → s.dev.chanValid chan.toNat = true →
        (64 ≤ s.dev.sch.wakeQ.length → Completes (.wakeSend h chan code) 0x0019 h s id stOverflow 0) ∧
        (s.dev.sch.wakeQ.length < 64 →
          let Queued (held : Option (RadioId × Int)) : Prop :=
            Gives (.wakeSend h chan code) s
              { f.2.startDeferred f.1 with sch := { s.dev.sch with
                wakeQ := s.dev.sch.wakeQ ++ [⟨f.1, chan.toNat, code, s.dev.curS / 512, held, false⟩] } }
          match s.dev.nextWakeRow chan.toNat 512 (s.dev.curS + 2) with
          | none => Queued none
          | some (t, r) => match (s.dev.radio r).sweep with
            | none => Queued none
            | some w => (w.ends < t → Queued (some (r, t))) ∧
              (t ≤ w.ends → Completes (.wakeSend h chan code) 0x0019 h s id stBusy 0)))) ∧
  (∀ (s : State) (h : CmdHdr) (mask : Byte) (first count : BitVec 16) (dwell : Byte) (buf : Buf), Fetching s →
      first.toNat ≤ 511 → first.toNat + count.toNat ≤ 512 → dwell ≠ 0 → buf.addr ≠ 0 →
      let f := s.dev.fetch 0x001A h
      let named := radios.filter fun r => mask.toNat.testBit r.val && s.dev.rfReadyRun r
      let todo := named.flatMap fun r => ((List.range count.toNat).map (first.toNat + ·)).filterMap fun i =>
        if s.dev.entryValid r i then some (r, i) else none
      (named = [] → Gives (.spectrumSurvey h mask first count dwell buf) s (f.2.refuseState f.1 0xFF)) ∧
      (named ≠ [] → todo ≠ [] → 100 * todo.length ≤ buf.len.toNat → s.dev.runningOp 0x001A = none →
        Gives (.spectrumSurvey h mask first count dwell buf) s
          { f.2.startLong f.1 0 0 with hif := { (f.2.startLong f.1 0 0).hif with
            survey := some ⟨todo, dwell.toNat, buf.addr, dwell.toNat + 1, 0, !s.dev.hosted⟩ } }))

/-- MESH_FLOOD takes the next MSGID, which RESULT names, enters the flood in the Marl cache, and queues it on every
enabled link; a firmware chunk also reaches the update engine. -/
def Obligations.MeshFloodResult : Prop :=
  ∀ (s : State) (h : CmdHdr) (kind ttl : Byte) (buf : Buf) (b : List Byte), Fetching s → kindFlood kind.toNat = true →
    ttl.toNat ≤ s.dev.cfgFld Reg.mshCfg_ttl_max → buf.addr ≠ 0 → buf.data = .ok b →
    Completes (.meshFlood h kind ttl buf) 0x0020 h s
      (fun d =>
        let d := ((d.nextMsgid.2.marlInsert (s.dev.gwId, s.dev.msh.msgid)).floodLinks none kind.toNat ttl.toNat s.dev.gwId
          s.dev.msh.msgid.toNat (b.take buf.len.toNat)).record (.flood kind.toNat ttl.toNat s.dev.msh.msgid (b.take buf.len.toNat))
        if kind.toNat = mkFloodFw then d.fwChunk (b.take buf.len.toNat) else d)
      stOk s.dev.msh.msgid.toNat

/-- TIME_FORCE ACCEPT schedules a step of −θ for the refused offset that TIM_OFFSET holds, and SET a step to the given
time; each is then outstanding. ACCEPT with no refused offset completes with STATE; while the step of one TIME_FORCE waits, a
second completes with BUSY. -/
def Obligations.TimeForceResult : Prop :=
  ∀ (s : State) (h : CmdHdr), Fetching s →
    let f := s.dev.fetch 0x0021 h
    (s.dev.forceWaits = true → Completes (.timeForceAccept h) 0x0021 h s id stBusy 0) ∧
    (s.dev.forceWaits = true → ∀ (sec : BitVec 48) (ns : BitVec 32), ns.toNat ≤ 999999999 →
      Completes (.timeForceSet h 1 sec ns) 0x0021 h s id stBusy 0) ∧
    (s.dev.forceWaits = false → s.dev.tim.blocked = false →
      Gives (.timeForceAccept h) s (f.2.refuseState f.1 0xFF)) ∧
    (s.dev.forceWaits = false → s.dev.tim.blocked = true →
      Gives (.timeForceAccept h) s { f.2.startDeferred f.1 with tim := { s.dev.tim with
        blocked := false, step := some ⟨-(s.dev.signedFld Reg.timOffset_theta), some f.1⟩, slew := 0 } }) ∧
    (∀ (sec : BitVec 48) (ns : BitVec 32), ns.toNat ≤ 999999999 → s.dev.forceWaits = false →
      Gives (.timeForceSet h 1 sec ns) s { f.2.startDeferred f.1 with tim := { s.dev.tim with
        step := some ⟨(sec.toNat : Int) * 1000000000 + ns.toNat - s.dev.tai, some f.1⟩, slew := 0 } })

/-! ## Keys and Kaolin -/

/-- Of R344, R346 and R349: KEY_INSTALL into a pinned slot (and KEY_INSTALL_WRAPPED with a wrap that passes its check) leaves the
slot holding exactly the key, its length, its counter start and its HOST_USE; a wrap that fails answers AUTH_FAIL and changes
no key. Every other slot, every key record and every request in the engine stays. -/
def Obligations.KeyInstallPinned : Prop :=
  ∀ (s : State) (h : CmdHdr) (p : KeyParams) (b : List Byte), Fetching s → p.target = 0 → p.slot.toNat < s.dev.kao.pinned →
    p.keyidx.toNat < 16 → p.len.toNat ≤ 1 → p.addr ≠ 0 → p.data = .ok b →
    let Holds (d : Dev) (key : List Byte) : Prop :=
      d.kslot p.slot.toNat = some ⟨BitVec.ofNat 256 (ofBe key), p.len == 1, p.ctrStart, p.hostUse.getLsbD 0, none, 0⟩ ∧
      (∀ j, j ≠ p.slot.toNat → d.kslot j = s.dev.kslot j) ∧ d.kao.records = s.dev.kao.records ∧
      d.kao.queue = s.dev.kao.queue ∧ d.sch = s.dev.sch ∧ d.fwd = s.dev.fwd
    (∃ d : Dev, Gives (.keyInstall h p) s (d.complete (s.dev.fetch 0x0040 h).1 stOk 0) ∧
      Holds d (fit (if p.len = 1 then 32 else 16) b)) ∧
    (∀ k, keyUnwrap deviceKey (fit (if p.len = 1 then 40 else 24) b) = some k →
      ∃ d : Dev, Gives (.keyInstallWrapped h p) s (d.complete (s.dev.fetch 0x0041 h).1 stOk 0) ∧ Holds d k) ∧
    (keyUnwrap deviceKey (fit (if p.len = 1 then 40 else 24) b) = none →
      Completes (.keyInstallWrapped h p) 0x0041 h s id stAuthFail 0)

/-- Of R345 and R346: KEY_INSTALL of a sensor key writes the record entry of its KEYIDX, or a free one, with the key wrapped under
the device key; no free entry answers NO_RESOURCE. KEY_EXPORT writes the wrap, the key's length and its current C to host
memory; the current C is that of the cache slot that holds the key, or else the record's. KEY_DELETE empties a pinned slot, or the
record entry; a key that is not there answers BAD_PARAM. -/
def Obligations.KeyRecordCommands : Prop :=
  ∀ (s : State) (h : CmdHdr), Fetching s →
    (∀ (p : KeyParams) (b : List Byte), p.target = 1 → p.keyidx.toNat < 16 → p.sidx.toNat < s.dev.maxSensors →
      p.len.toNat ≤ 1 → p.addr ≠ 0 → p.data = .ok b →
      (∀ e, s.dev.installEntry p.sidx.toNat p.keyidx.toNat = some e →
        ∃ d : Dev, Gives (.keyInstall h p) s (d.complete (s.dev.fetch 0x0040 h).1 stOk 0) ∧
          d.keyRec p.sidx.toNat e = some ⟨p.len == 1, p.hostUse.getLsbD 0, p.keyidx.toNat, p.ctrStart,
            fit 40 (keyWrap deviceKey (fit (if p.len = 1 then 32 else 16) b))⟩ ∧
          (∀ j, j ≠ 2 * p.sidx.toNat + e → Sparse.get none d.kao.records j = Sparse.get none s.dev.kao.records j)) ∧
      (s.dev.installEntry p.sidx.toNat p.keyidx.toNat = none →
        Completes (.keyInstall h p) 0x0040 h s id stNoResource 0)) ∧
    (∀ (keyidx : Byte) (sidx : BitVec 32) (dst : BitVec 64) (e : Nat) (r : KeyRec), keyidx.toNat < 16 →
      sidx.toNat < s.dev.maxSensors → dst ≠ 0 → s.dev.findRec sidx.toNat keyidx.toNat = some (e, r) →
      s.dev.findKey sidx.toNat keyidx.toNat = none →
      Completes (.keyExport h keyidx sidx dst) 0x0042 h s
        (fun d => d.hostWrite dst.toNat (fit 40 r.wrap ++ [byte r.aes256.toNat, 0] ++ le 6 r.ctr.toNat)) stOk 0) ∧
    (∀ (keyidx : Byte) (sidx : BitVec 32) (dst : BitVec 64) (e i : Nat) (r : KeyRec) (k : KeySlot), keyidx.toNat < 16 →
      sidx.toNat < s.dev.maxSensors → dst ≠ 0 → s.dev.findRec sidx.toNat keyidx.toNat = some (e, r) →
      s.dev.findKey sidx.toNat keyidx.toNat = some i → s.dev.kslot i = some k →
      Completes (.keyExport h keyidx sidx dst) 0x0042 h s
        (fun d => d.hostWrite dst.toNat (fit 40 r.wrap ++ [byte r.aes256.toNat, 0] ++ le 6 k.ctr.toNat)) stOk 0) ∧
    (∀ (slot len keyidx : Byte) (sidx : BitVec 32), keyidx.toNat < 16 → sidx.toNat < s.dev.maxSensors →
      s.dev.findRec sidx.toNat keyidx.toNat = none →
      Completes (.keyDelete h 1 slot len keyidx sidx) 0x0043 h s id stBadParam 0) ∧
    (∀ (slot len keyidx : Byte) (sidx : BitVec 32), slot.toNat < s.dev.kao.pinned →
      ((s.dev.kslot slot.toNat).isSome →
        Completes (.keyDelete h 0 slot len keyidx sidx) 0x0043 h s (fun d => d.setKslot slot.toNat none) stOk 0) ∧
      ((s.dev.kslot slot.toNat).isNone →
        Completes (.keyDelete h 0 slot len keyidx sidx) 0x0043 h s id stBadParam 0)) ∧
    (∀ (slot len keyidx : Byte) (sidx : BitVec 32) (e : Nat) (r : KeyRec), keyidx.toNat < 16 →
      sidx.toNat < s.dev.maxSensors → s.dev.findRec sidx.toNat keyidx.toNat = some (e, r) →
      Completes (.keyDelete h 1 slot len keyidx sidx) 0x0043 h s
        (fun d => (d.dropCache sidx.toNat keyidx.toNat).setKeyRec sidx.toNat e none) stOk 0)

/-- Of R350 and R351: drawing C of a slot answers its value and leaves the slot at the next one; at 0xFFFF_FFFF_FFFF nothing is
drawn, C stays, CTR_EXHAUSTED counts it and KAO_STAT.CTR_EXH is set. Every other slot stays. -/
def Obligations.CounterNeverWraps : Prop :=
  ∀ (d : Dev) (i : Nat) (k : KeySlot), d.kslot i = some k →
    (k.ctr ≠ BitVec.allOnes 48 →
      (d.drawC i).2 = some k.ctr.toNat ∧
      (∃ k', (d.drawC i).1.kslot i = some k' ∧ k' = { k with ctr := k.ctr + 1 } ∧ k'.ctr.toNat = k.ctr.toNat + 1)) ∧
    (k.ctr = BitVec.allOnes 48 →
      (d.drawC i).2 = none ∧ (d.drawC i).1.kao = d.kao ∧
      (d.drawC i).1.counter Cnt.ctrExhausted = d.counter Cnt.ctrExhausted + 1 ∧
      (d.drawC i).1.bit Reg.kaoStat_ctr_exh = true) ∧
    (∀ j, j ≠ i → (d.drawC i).1.kslot j = d.kslot j)

/-- Of R347, R350 and R353: in QUEUE mode a request on a loaded pinned slot, from a requester with room in its queue and nothing set
aside, is accepted under the key that the slot then holds: without a draw C stays, with a draw it carries the old C; on an
exhausted counter it enters no queue.
KAO_OP on a loaded pinned slot is outstanding and is submitted as a request of requester 17; a slot that is not pinned answers BAD_PARAM, an empty one NO_RESOURCE. -/
def Obligations.KaoRequests : Prop :=
  (∀ (s : State) (r : KaoReq) (k : KeySlot), Operates s → r.pinned = true → r.blocks ≠ [] → r.blocks.length ≤ 256 →
      s.dev.kao.modePend = none → s.dev.kao.locked = false → s.dev.kaoBehind r.requester = false →
      s.dev.kaoCount r.requester < 64 → s.dev.kslot r.slot = some k →
      (r.draw = false →
        Gives (.kaoRequest r) s (({ s.dev with kao := { s.dev.kao with
          queue := s.dev.kao.queue ++ [(⟨r, r.slot, k.key, k.aes256, none, [], none⟩ : KaoJob)] } }.touch r.slot).showKao)) ∧
      (r.draw = true → k.ctr ≠ BitVec.allOnes 48 →
        ∃ d : Dev, Gives (.kaoRequest r) s d ∧
          d.kao.queue = s.dev.kao.queue ++ [(⟨r, r.slot, k.key, k.aes256, some k.ctr, [], none⟩ : KaoJob)] ∧
          (∃ k', d.kslot r.slot = some k' ∧ k'.ctr = k.ctr + 1 ∧ k'.key = k.key)) ∧
      (r.draw = true → k.ctr = BitVec.allOnes 48 →
        ∃ d : Dev, Gives (.kaoRequest r) s d ∧ d.kao = s.dev.kao ∧
          d.counter Cnt.ctrExhausted = s.dev.counter Cnt.ctrExhausted + 1)) ∧
  (∀ (s : State) (h : CmdHdr) (p : KaoOpParams) (b : List Byte), Fetching s → p.target = 0 → p.op.toNat ≤ 1 →
      1 ≤ p.blocks.toNat → p.blocks.toNat ≤ 256 → p.srcAddr ≠ 0 → p.dst ≠ 0 → p.src = .ok b →
      let f := s.dev.fetch 0x0044 h
      (s.dev.kao.pinned ≤ p.slot.toNat → Completes (.kaoOp h p) 0x0044 h s id stBadParam 0) ∧
      (p.slot.toNat < s.dev.kao.pinned → s.dev.kslot p.slot.toNat = none →
        Completes (.kaoOp h p) 0x0044 h s id stNoResource 0) ∧
      (p.slot.toNat < s.dev.kao.pinned → (s.dev.kslot p.slot.toNat).isSome →
        Gives (.kaoOp h p) s ((f.2.startDeferred f.1).kaoSubmit
          ((⟨17, true, p.slot.toNat, p.sidx.setWidth 20, p.keyidx.setWidth 4, p.op == 1, p.draw.getLsbD 0,
            toBlocks p.blocks.toNat b⟩ : KaoReq), some (f.1, p.dst)))))

/-- A block whose two computations agree, at once or on the repeat, is released as AES of its key and direction; MISMATCH and
RETRY_OK count a repeat. The last block of a host's request leaves the engine empty, writes the blocks to the host's destination
and completes the command. Two disagreements end the request without output: MISMATCH and BLOCK_FAULT count, KAO_STAT.FAULT is
set, and the lane tests itself for 10 µs. -/
def Obligations.KaoBlockResults : Prop :=
  ∀ (s : State) (lane : LaneId) (j : KaoJob), Operates s → s.dev.kaoNext = some j → s.dev.laneUp lane = true →
    let outs := j.outputs ++ [j.block (j.req.blocks.getD j.outputs.length 0)]
    let Released (d : Dev) : Dev :=
      { d.lanes j.req.decrypt 1 with kao := { (d.lanes j.req.decrypt 1).kao with
        queue := s.dev.kao.queue.map fun (x : KaoJob) => if x = j then { j with outputs := outs } else x } }
    (j.outputs.length + 1 < j.req.blocks.length →
      (∀ again, Gives (.kaoBlockResult lane true again) s (Released s.dev)) ∧
      Gives (.kaoBlockResult lane false true) s
        (Released (((s.dev.bump Cnt.mismatch).raise Reg.kaoStat_mismatch).bump Cnt.retryOk))) ∧
    (∀ (again : Bool) (c : Cmd) (dst : BitVec 64), j.outputs.length + 1 = j.req.blocks.length → s.dev.kao.queue = [j] →
      j.host = some (c, dst) → s.dev.kao.waitMode = [] → s.dev.kao.pinPend = none → s.dev.kao.locked = false →
      ∃ x : Dev, Gives (.kaoBlockResult lane true again) s
          ((x.hostWrite dst.toNat (outs.flatMap fun (b : BitVec 128) => be 16 b.toNat)).finish c stOk
            (match j.drawn with | some n => n.toNat | none => 0)) ∧
        x.kao.queue = [] ∧ x.kao.slots = s.dev.kao.slots ∧ x.kao.records = s.dev.kao.records) ∧
    (s.dev.kao.queue = [j] → j.host = none → s.dev.kao.waitMode = [] → s.dev.kao.pinPend = none →
      s.dev.kao.locked = false →
      ∃ d : Dev, Gives (.kaoBlockResult lane false false) s d ∧ d.kao.queue = [] ∧ d.kao.testing = lane :: s.dev.kao.testing ∧
        d.counter Cnt.mismatch = s.dev.counter Cnt.mismatch + 1 ∧
        Sparse.get 0 d.kao.testEnd lane.val = s.dev.tim.cyc + 4000 ∧
        d.counter Cnt.blockFault = s.dev.counter Cnt.blockFault + 1 ∧ d.bit Reg.kaoStat_fault = true ∧
        d.kao.slots = s.dev.kao.slots)

/-- What ends at Kaolin. A lane's self-test, once its 10 µs have passed, ends its testing, and a failure takes it offline. A
reseed after 2^20 blocks clears RNG_STALE when it is healthy, and counts and sets RNG_FAIL when it is not. A pending MODE takes
effect with the rest of KAO_CFG once no request is in the engine, and not before. A lock held for HOLD_MAX whose holder has
nothing in the engine is revoked and passes to nobody when nobody waits. A key that one request waits for is unwrapped into a
free cache slot, and the request enters the engine; a request for a key that is in no record leaves. -/
def Obligations.KaolinEnds : Prop :=
  (∀ (s : State) (lane : LaneId) (e : Dev), Operates s → s.dev.kao.testing.contains lane = true →
    s.dev.reachCycle (Sparse.get 0 s.dev.kao.testEnd lane.val) = some e →
    let d := { e with kao := { s.dev.kao with testing := s.dev.kao.testing.filter (· != lane) } }
    Gives (.laneSelftestDone lane true) s d ∧
    Gives (.laneSelftestDone lane false) s ((d.bump Cnt.laneOffline).raise
      (if lane = 0 then Reg.kaoStat_lane0_off else Reg.kaoStat_lane1_off))) ∧
  (∀ s : State, Operates s →
    (1048576 ≤ s.dev.kao.sinceTry →
      Gives (.drbgReseed true) s
        ({ s.dev with kao := { s.dev.kao with sinceTry := 0, sinceSeed := 0 } }.setFld Reg.kaoStat_rng_stale 0) ∧
      Gives (.drbgReseed false) s
        (({ s.dev with kao := { s.dev.kao with sinceTry := 0 } }.bump Cnt.rngHealthFail).raise Reg.kaoStat_rng_fail)) ∧
    (s.dev.kao.sinceTry < 1048576 → ∀ healthy, Gives (.drbgReseed healthy) s s.dev)) ∧
  (∀ (s : State) (m : Bool), Operates s → s.dev.kao.modePend = some m → s.dev.kao.queue = [] → s.dev.kao.waitKey = [] →
    s.dev.kao.waitMode = [] → s.dev.pinnedWritten = s.dev.kao.pinned →
    Gives .kaoModeApply s ({ s.dev with kao := { s.dev.kao with
      locked := m, modePend := none, lock := none, lockQ := [], revoked := [], waitMode := [], pinPend := none
      markLog := s.dev.fld Reg.kaoCfg_mark_log2, hostSensor := s.dev.bit Reg.kaoCfg_host_sensor } }.showKao)) ∧
  (∀ s : State, Operates s → s.dev.kao.queue ≠ [] ∨ s.dev.kao.waitKey ≠ [] → Gives .kaoModeApply s s.dev) ∧
  (∀ (s : State) (o : Fin 18) (e : Dev), Operates s → s.dev.kao.lock = some o →
    s.dev.reachCycle (s.dev.kao.lockFrom + 400 * s.dev.kao.holdMax) = some e → s.dev.kao.queue = [] → s.dev.kao.waitKey = [] →
    s.dev.kao.waitMode = [] → s.dev.kao.lockQ = [] →
    Gives .lockRevoke s ({ e.bump Cnt.lockRevoke with kao := { s.dev.kao with
      waitKey := [], waitMode := [], lock := none } }.showKao)) ∧
  (∀ (s : State) (sidx : BitVec 20) (keyidx : BitVec 4) (w : KaoWait), Operates s → s.dev.kao.waitKey = [w] →
    w.1.sidx = sidx → w.1.keyidx = keyidx → s.dev.kao.waitMode = [] → s.dev.kao.locked = false →
    s.dev.findKey sidx.toNat keyidx.toNat = none →
    (∀ e r k i, s.dev.findRec sidx.toNat keyidx.toNat = some (e, r) → r.unwrap = some k → s.dev.victim = some i →
      s.dev.kslot i = none → w.1.draw = false →
      ∃ (d : Dev) (x : KeySlot), Gives (.keyLoad sidx keyidx) s d ∧ d.kslot i = some x ∧ x.key = k ∧ x.ctr = r.ctr ∧
        x.holds = some (sidx.toNat, keyidx.toNat) ∧ d.kao.waitKey = [] ∧
        d.kao.queue = s.dev.kao.queue ++ [(⟨w.1, i, k, r.aes256, none, [], w.2⟩ : KaoJob)] ∧
        d.counter Cnt.keyLoad = s.dev.counter Cnt.keyLoad + 1) ∧
    (w.2 = none → s.dev.findRec sidx.toNat keyidx.toNat = none →
      Gives (.keyLoad sidx keyidx) s { s.dev with kao := { s.dev.kao with waitKey := [], waitMode := [] } }))

/-! ## Host commands: DRAM, the control pairs, the power state, firmware -/

/-- CC_SWITCH with a standby that is READY and no takeover under way starts a takeover of cause 3 and is outstanding;
otherwise it completes with STATE. DRAM_TRAIN starts a training run, which DMC_STAT.TRAIN shows, as a long operation, or joins
the one under way. -/
def Obligations.SwitchAndTrainCommands : Prop :=
  ∀ (s : State) (h : CmdHdr), Fetching s →
    let f := s.dev.fetch 0x0051 h
    let g := s.dev.fetch 0x0050 h
    (s.dev.fld Reg.tskCcstat_stby = 3 → s.dev.tsk.takeover = none →
      Gives (.ccSwitch h) s { f.2.startDeferred f.1 with tsk := { f.2.tsk with ccSwitch := some f.1, takeover := some 3 } }) ∧
    (s.dev.fld Reg.tskCcstat_stby ≠ 3 ∨ s.dev.tsk.takeover ≠ none → Gives (.ccSwitch h) s (f.2.refuseState f.1 0xFF)) ∧
    (∀ run : TrainRun, s.dev.dmc.run = some run →
      Gives (.dramTrain h) s
        (let e := g.2.startLong g.1 0 0
        { e with dmc := { s.dev.dmc with run := some { run with joined := run.joined ++ [g.1] } } })) ∧
    (s.dev.dmc.run = none →
      ∃ d : Dev, Gives (.dramTrain h) s d ∧ d.bit Reg.dmcStat_train = true ∧
        d.dmc = { s.dev.dmc with run := some ⟨byte (s.dev.fld Reg.dmcTemp_now), false, none, [g.1]⟩ } ∧
        (∃ r ∈ d.hif.runs, r.cmd = g.1 ∧ r.long = true))

/-- With no other PWR_STATE command running, PWR_STATE completes with OK in the state it names;
in LEAN, ACTIVE powers Loam groups 2 and 3 and is outstanding; LEAN, when its conditions hold, is outstanding; SENTINEL, when its
conditions hold, is outstanding and ends the fetching of commands. Conditions that do not hold, a device that may only be LEAN,
and another PWR_STATE command that still runs answer STATE and change nothing else; a state that does not exist answers
BAD_PARAM. -/
def Obligations.PowerStateCommands : Prop :=
  ∀ (s : State) (h : CmdHdr), Fetching s →
    let f := s.dev.fetch 0x0060 h
    (s.dev.powerBusy = true →
      Gives (.pwrStateActive h) s (f.2.refuseState f.1 0xFF) ∧ Gives (.pwrStateLean h) s (f.2.refuseState f.1 0xFF) ∧
      Gives (.pwrStateSentinel h 2) s (f.2.refuseState f.1 0xFF)) ∧
    (s.dev.powerBusy = false →
    (s.dev.powerState = psActive → s.dev.leanOnly = false → Completes (.pwrStateActive h) 0x0060 h s id stOk 0) ∧
    (s.dev.powerState = psLean → s.dev.leanOnly = false → s.dev.pwr.woken = [] → s.dev.pwr.stalled = [] →
      Gives (.pwrStateActive h) s
        { f.2.startDeferred f.1 with pwr := { s.dev.pwr with activeCmd := some f.1, stalled := [.loam 2, .loam 3] } }) ∧
    (s.dev.leanOnly = true → Gives (.pwrStateActive h) s (f.2.refuseState f.1 0xFF)) ∧
    (s.dev.powerState = psLean → Completes (.pwrStateLean h) 0x0060 h s id stOk 0) ∧
    (s.dev.powerState ≠ psLean → s.dev.leanOk = true →
      Gives (.pwrStateLean h) s { f.2.startDeferred f.1 with pwr := { s.dev.pwr with leanCmd := some f.1 } }) ∧
    (s.dev.powerState ≠ psLean → s.dev.leanOk = false → Gives (.pwrStateLean h) s (f.2.refuseState f.1 0xFF)) ∧
    (s.dev.sentinelOk = true →
      Gives (.pwrStateSentinel h 2) s
        (let e := f.2.startDeferred f.1
        { e with pwr := { s.dev.pwr with entering := some (f.1, false) }, hif := { e.hif with fetchStop := true } })) ∧
    (s.dev.sentinelOk = false → Gives (.pwrStateSentinel h 2) s (f.2.refuseState f.1 0xFF)) ∧
    (∀ p0 : Byte, 2 < p0.toNat → Completes (.pwrStateSentinel h p0) 0x0060 h s id stBadParam 0))

/-- FW_BLOCK with a header whose signature verifies restages the update under the header's image and writes the block, a header
whose signature does not verify answers BAD_PARAM, and a later block writes the staged chunks it covers. FW_APPLY on a complete
update starts a long operation; with an update that is not complete it answers STATE, and while another runs BUSY. FW_ACTIVATE of
an applied update with a standby that is READY fixes its superframe boundary (the first that a command can still take and that is
at least 400 ms away), sets ACT_PEND, and answers the boundary's number; without SETTINGS_RESET the profile must have the image's
schema, or it answers VERSION; without an applied update it answers STATE, and while another runs BUSY. While FW_APPLY runs,
FW_BLOCK and PROFILE_WRITE answer STATE. PROFILE_WRITE stores a profile that passes its checks over the older of the two copies
(over the one that does not pass them, where one does not), under a generation above both, counts it, and takes its region into
BOOT_REGION; one that does not pass answers BAD_PARAM. -/
def Obligations.UpdateCommands : Prop :=
  (∀ (s : State) (h : CmdHdr), Fetching s →
      let Refused (i : Instr) (op : Half) (e : Dev → Dev) : Prop :=
        Gives i s (e ((s.dev.fetch op h).2.refuseState (s.dev.fetch op h).1 0xFF))
      (∀ (offset : BitVec 32) (len : BitVec 16) (a : BitVec 64) (raw : List Byte), 0 < len.toNat → len.toNat ≤ 4096 → a ≠ 0 →
        offset.toNat + len.toNat ≤ s.dev.chunkLimit * 512 → s.dev.boot.applying = none →
        let b := fit len.toNat raw
        (offset = 0 → 248 ≤ len.toNat → s.dev.headerOk b = true → beAt b 6 2 < s.dev.chunkLimit →
          len.toNat ≤ (beAt b 6 2 + 1) * 512 →
          Completes (.fwBlock h offset len a (.ok raw)) 0x0070 h s
            (fun d => (d.restage (some (BitVec.ofNat 32 (beAt b 48 4), beAt b 6 2))).writeBlock 0 0 b 9) stOk 0) ∧
        (offset = 0 → s.dev.headerOk b = false →
          Completes (.fwBlock h offset len a (.ok raw)) 0x0070 h s id stBadParam 0) ∧
        (offset.toNat ≠ 0 → s.dev.headerStaged = false →
          Completes (.fwBlock h offset len a (.ok raw)) 0x0070 h s
            (fun d => d.writeBlock (offset.toNat / 512) (offset.toNat % 512) b 9) stOk 0) ∧
        (∀ x, s.dev.boot.stageId = some x → offset.toNat ≠ 0 → offset.toNat + len.toNat ≤ (x.2 + 1) * 512 →
          Completes (.fwBlock h offset len a (.ok raw)) 0x0070 h s
            (fun d => d.writeBlock (offset.toNat / 512) (offset.toNat % 512) b 9) stOk 0)) ∧
      (s.dev.boot.applying ≠ none →
        (∀ (offset : BitVec 32) (len : BitVec 16) (a : BitVec 64) (data : HostRead),
          Refused (.fwBlock h offset len a data) 0x0070 id) ∧
        (∀ buf : Buf, Refused (.profileWrite h buf) 0x0073 id) ∧
        Gives (.fwApply h) s
          (((s.dev.fetch 0x0071 h).2.complete (s.dev.fetch 0x0071 h).1 stBusy 0).bump Cnt.fwApplyFail)) ∧
      (s.dev.boot.applying = none →
        (s.dev.staged = true → s.dev.boot.activation = none →
          let f := s.dev.fetch 0x0071 h
          Gives (.fwApply h) s
            (let e := f.2.startLong f.1 0 0
            { e with boot := { e.boot with applying := some f.1 } })) ∧
        (s.dev.staged = false → Refused (.fwApply h) 0x0071 fun d => d.bump Cnt.fwApplyFail)) ∧
      (∀ p0 : Byte,
        let f := s.dev.fetch 0x0072 h
        let schemaOk := p0.getLsbD 0 ||
          match s.dev.boot.profile with
          | some p => p.1.toNat == imgSchema (s.dev.bank (!s.dev.boot.activeB))
          | none => true
        let n := s.dev.nextBoundary
        let t := if s.dev.tickTai n < s.dev.tai + 400000000 then n + 512 else n
        (s.dev.boot.activation ≠ none → Completes (.fwActivate h p0) 0x0072 h s id stBusy 0) ∧
        (s.dev.boot.activation = none → s.dev.boot.applied = false → Refused (.fwActivate h p0) 0x0072 id) ∧
        (s.dev.boot.activation = none → s.dev.boot.applied = true → s.dev.boot.applying = none →
          s.dev.fld Reg.tskCcstat_stby = 3 →
          (schemaOk = true →
            Gives (.fwActivate h p0) s
              (let e := (f.2.startLong f.1 (sfOf t) 0).raise Reg.bootUpdStat_act_pend
              { e with boot := { e.boot with activation := some ⟨f.1, t, p0.getLsbD 0, false⟩ } })) ∧
          (schemaOk = false → Completes (.fwActivate h p0) 0x0072 h s id stVersion 0)))) ∧
  (∀ (s : State) (h : CmdHdr) (buf : Buf) (raw : List Byte), Fetching s → s.dev.boot.applying = none → buf.addr ≠ 0 →
      buf.len ≠ 0 → buf.len.toNat ≤ 65536 → buf.data = .ok raw →
      let b := fit buf.len.toNat raw
      let region (d : Dev) : Dev :=
        match recordOf b recRegion with | some v => d.setFld Reg.bootRegion_code (leAt v 0 2) | none => d
      let p0 := s.dev.boot.prof0
      let p1 := s.dev.boot.prof1
      let new := patch b 8 (le 4 (max (profGenOf p0) (profGenOf p1) + 1))
      (profileOk b = true → profileOk p0 = true → (profileOk p1 = false ∨ profGenOf p1 ≤ profGenOf p0) →
        Completes (.profileWrite h buf) 0x0073 h s
          (fun d => region (({ d with boot := { d.boot with prof1 := new } }).bump Cnt.profileWrite)) stOk 0) ∧
      (profileOk b = true → (profileOk p0 = false ∨ profileOk p1 = true ∧ profGenOf p0 < profGenOf p1) →
        Completes (.profileWrite h buf) 0x0073 h s
          (fun d => region (({ d with boot := { d.boot with prof0 := new } }).bump Cnt.profileWrite)) stOk 0) ∧
      (profileOk b = false → Completes (.profileWrite h buf) 0x0073 h s id stBadParam 0))

/-! ## Firmware update and the control pairs -/

/-- With no update staged, a chunk stages its update and is stored and marked; of the staged update, a chunk that has not been
received is stored and marked, one already received counts as FW_CHUNK_DUP, and chunk 0 with a signature that fails empties the
staging. Later chunks of another update, chunks that are no chunk of an update this flash can hold, and chunks while FW_APPLY
runs count as FW_CHUNK_OTHER and change nothing else. Chunk 0 of another update with a signature that verifies restages when no
header is staged. -/
def Obligations.ChunkResult : Prop :=
  ∀ (s : State) (body : List Byte), Operates s →
    let id := BitVec.ofNat 32 (beAt body 0 4)
    let i := beAt body 4 2
    let last := beAt body 6 2
    let b := slice body 8 512
    (s.dev.boot.applying ≠ none ∨ b.length < 512 ∨ last < i ∨ s.dev.chunkLimit ≤ last →
      Gives (.fwChunk body) s (s.dev.bump Cnt.fwChunkOther)) ∧
    (s.dev.boot.applying = none → b.length = 512 → i ≤ last → last < s.dev.chunkLimit →
      (s.dev.boot.stageId = none →
        Gives (.fwChunk body) s
          ((((s.dev.restage (some (id, last))).setChunk i b).bump Cnt.fwChunkNew).mark i)) ∧
      (s.dev.boot.stageId = some (id, last) → i ≠ 0 →
        (s.dev.boot.marked.contains i = true → Gives (.fwChunk body) s (s.dev.bump Cnt.fwChunkDup)) ∧
        (s.dev.boot.marked.contains i = false →
          Gives (.fwChunk body) s (((s.dev.setChunk i b).bump Cnt.fwChunkNew).mark i))) ∧
      (s.dev.boot.stageId = some (id, last) → i = 0 → s.dev.headerOk b = false →
        Gives (.fwChunk body) s ((s.dev.restage none).bump Cnt.fwChunkBad)) ∧
      (s.dev.boot.stageId = some (id, last) → i = 0 → s.dev.headerOk b = true → s.dev.boot.marked.contains i = false →
        Gives (.fwChunk body) s (((s.dev.setChunk i b).bump Cnt.fwChunkNew).mark i)) ∧
      (∀ x, s.dev.boot.stageId = some x → x ≠ (id, last) →
        (i ≠ 0 → Gives (.fwChunk body) s (s.dev.bump Cnt.fwChunkOther)) ∧
        (i = 0 → s.dev.headerOk b = true → s.dev.headerStaged = false →
          Gives (.fwChunk body) s
            ((((s.dev.restage (some (id, last))).setChunk 0 b).bump Cnt.fwChunkNew).mark 0))))

/-- When FW_APPLY ends with an image that passes every check, the passive bank holds it, the update is APPLIED, and FW_APPLY_OK
counts it; otherwise FW_APPLY_FAIL does; and the active bank stays what it was. Once its instant after T0 of the boundary has come,
the resumption of an activation swaps the banks and the active pair, reports the new image's build and ends ACT_PEND, and an
abandonment, 110 ms after T0 or later, leaves the active bank and BOOT_BUILD as they were. -/
def Obligations.UpdateEnds : Prop :=
  (∀ (s : State) (e : Bool) (c : Cmd), Operates s → s.dev.boot.applying = some c → s.dev.devState = dsHosted →
    ∃ d : Dev, Gives (.fwApplyDone e) s d ∧ d.boot.applying = none ∧ d.bank s.dev.boot.activeB = s.dev.bank s.dev.boot.activeB ∧
      d.boot.activeB = s.dev.boot.activeB ∧
      ((s.dev.applyResult e).1 = stOk →
        d.boot.applied = true ∧ d.bank (!s.dev.boot.activeB) = (s.dev.applyResult e).2.2 ∧
          d.fld Reg.bootUpdStat_state = updApplied ∧ d.counter Cnt.fwApplyOk = s.dev.counter Cnt.fwApplyOk + 1) ∧
      ((s.dev.applyResult e).1 ≠ stOk → d.counter Cnt.fwApplyFail = s.dev.counter Cnt.fwApplyFail + 1)) ∧
  (∀ (s : State) (p : BitVec 32) (a : Activation), Operates s → s.dev.boot.activation = some a → a.begun = true →
    s.dev.boot.hold = [] → s.dev.tsk.waiting = [] → s.dev.tickTai a.target + 1000 * p.toNat ≤ s.dev.tai →
    (∃ d : Dev, Gives (.activationResume p) s d ∧ d.boot.activeB = (!s.dev.boot.activeB) ∧ d.boot.activation = none ∧
      d.boot.paused = false ∧ d.reg Reg.bootBuild = BitVec.ofNat 32 (imgBuild (s.dev.bank (!s.dev.boot.activeB))) ∧
      d.bit Reg.bootUpdStat_act_pend = false ∧ d.bit Reg.tskCcstat_active = (!s.dev.bit Reg.tskCcstat_active) ∧
      d.counter Cnt.fwActivated = s.dev.counter Cnt.fwActivated + 1) ∧
    (110000 ≤ p.toNat → ∃ d : Dev, Gives (.activationAbandon p) s d ∧ d.boot.activeB = s.dev.boot.activeB ∧ d.boot.activation = none ∧
      d.boot.paused = false ∧ d.reg Reg.bootBuild = s.dev.reg Reg.bootBuild ∧ d.bit Reg.bootUpdStat_act_pend = false ∧
      d.counter Cnt.fwActivateFail = s.dev.counter Cnt.fwActivateFail + 1))

/-- With a standby that is READY and no activation under way, a fault of the active pair is counted under its cause and starts a
takeover. When the takeover is done, the other pair is active, TAKEOVER is set and counted, the journal is empty, and the standby
tests itself, whose outcome STBY shows. A journal of 2,048 entries brings a checkpoint, which empties it. -/
def Obligations.ControlPairs : Prop :=
  (∀ s : State, Operates s → s.dev.boot.activation = none → s.dev.fld Reg.tskCcstat_stby = 3 → s.dev.tsk.takeover = none →
    Gives .lockstepMismatch s { s.dev.bump Cnt.ccLockstep with tsk := { s.dev.tsk with takeover := some 1 } } ∧
    Gives .heartbeatMiss s { s.dev.bump Cnt.ccHeartbeat with tsk := { s.dev.tsk with takeover := some 2 } }) ∧
  (∀ (s : State) (cause : Byte), Operates s → s.dev.tsk.takeover = some cause → s.dev.tsk.ccSwitch = none →
    ∃ d : Dev, Gives .takeoverDone s d ∧ d.tsk = { s.dev.tsk with takeover := none, journal := [], testing := true } ∧
      d.bit Reg.tskCcstat_active = (!s.dev.bit Reg.tskCcstat_active) ∧ d.bit Reg.tskCcstat_takeover = true ∧
      d.fld Reg.tskCcstat_stby = 1 ∧ d.counter Cnt.ccTakeover = s.dev.counter Cnt.ccTakeover + 1) ∧
  (∀ s : State, Operates s → s.dev.tsk.testing = true →
    Gives (.pairSelftestDone true) s
      (({ s.dev with tsk := { s.dev.tsk with testing := false } }).setFld Reg.tskCcstat_stby 3) ∧
    Gives (.pairSelftestDone false) s
      ((({ s.dev with tsk := { s.dev.tsk with testing := false } }).setFld Reg.tskCcstat_stby 0).raise
        Reg.tskCcstat_pair_fault)) ∧
  (∀ s : State, Operates s → s.dev.tsk.takeover = none → 2048 ≤ s.dev.journalLength →
    Gives .journalCheckpoint s
      { s.dev with tsk := { s.dev.tsk with journal := [] }, hif := { s.dev.hif with written := [] } })

/-! ## Register accesses -/

/-- A write that is no naturally aligned 32-bit one (R8), or goes where no register lies (R504), leaves the device as it is.
A write to a register without a further effect gives every RW bit the value's bit, clears a W1C bit where the value's bit is
1 and hardware does not set the bit in the same fabric cycle (R11), and leaves every other bit; no other register and no other
state changes. No bit of any register of the map has two access codes (Table 0.4). -/
def Obligations.RegisterWriteResult : Prop :=
  (∀ (s : State) (addr : BitVec 24) (bytes : Nat) (v same : Word), Defined s →
    (bytes ≠ 4 ∨ addr.toNat % 4 ≠ 0 ∨ regDesc addr.toNat = none → Gives (.registerWrite addr bytes v same) s s.dev) ∧
    (∀ r, bytes = 4 → addr.toNat % 4 = 0 → s.dev.bar0 addr.toNat = true → regDesc addr.toNat = some r →
      ¬ actingAddr addr.toNat →
      ∃ w : Word, Gives (.registerWrite addr bytes v same) s (s.dev.setReg addr.toNat w) ∧
        ∀ k, k < 32 → w.getLsbD k =
          if r.rw.getLsbD k then v.getLsbD k
          else if r.w1c.getLsbD k then (s.dev.reg addr.toNat).getLsbD k && !(v.getLsbD k && !same.getLsbD k)
          else (s.dev.reg addr.toNat).getLsbD k)) ∧
  (∀ (a : Nat) (r : RegDesc), regDesc a = some r →
    r.rw &&& r.w1c = 0 ∧ r.rw &&& r.rc = 0 ∧ r.rw &&& r.wo = 0 ∧ r.w1c &&& r.rc = 0 ∧ r.w1c &&& r.wo = 0 ∧ r.rc &&& r.wo = 0)

/-- The reads that change the device, where BAR0 (for the Silt management port the Silt domain) answers.
TIM_NOW_NS latches the time of the read in the other registers of its group (R228); a counter's low half latches the high half
for the reader (R509); TSK_LEVEL and CLK_TJ return their value and clear PEAK to 0 and MAX to −128 °C (R10), and where hardware
raises PEAK or MAX in the same fabric cycle they keep the raised value and the read returns the value before (R11). A read of
another width or alignment returns 0 and changes nothing else (R8); one that finds an upset bit counts REG_CE beside its effect
(the count at these reads is the model's, log entry 214). A Silt port read returns the register's value (R442). -/
def Obligations.ReadEffects : Prop :=
  ∀ s : State, Defined s → ∀ (ofs : BitVec 2) (bytes : Nat) (upset same : Bool),
    (ofs ≠ 0 ∨ bytes ≠ 4 →
      (s.dev.bar0 Reg.timNowNs = true → Gives (.timNowNsRead ofs bytes upset) s (s.dev.out (.value 0))) ∧
      (∀ (r : Reader) (snap : Bool) (i : BitVec 11),
        s.dev.bar0 (if snap then Reg.snapshotLow i.toNat else Reg.counterLow i.toNat) = true →
        Gives (.counterLowRead r snap i ofs bytes upset) s (s.dev.out (.value 0))) ∧
      (s.dev.bar0 Reg.tskLevel = true → Gives (.tskLevelRead ofs bytes same upset) s (s.dev.out (.value 0))) ∧
      (s.dev.bar0 Reg.clkTj = true → Gives (.clkTjRead ofs bytes same upset) s (s.dev.out (.value 0)))) ∧
    (let ce (d : Dev) : Dev := if upset then d.bump Cnt.regCe else d
    (s.dev.bar0 Reg.timNowNs = true →
      Gives (.timNowNsRead 0 4 upset) s (ce (((((s.dev.setReg Reg.timNowNs (s.dev.tim.ns.setWidth 32)).setReg Reg.timNowSecLo
        (s.dev.tim.sec.setWidth 32)).setReg Reg.timNowSecHi ((s.dev.tim.sec >>> 32).setWidth 32)).setReg Reg.timNowFrac
        s.dev.tim.frac).out (.value (s.dev.tim.ns.setWidth 32))))) ∧
    (∀ i : BitVec 11, s.dev.bar0 (Reg.counterLow i.toNat) = true →
      Gives (.counterLowRead .host false i 0 4 upset) s (ce
        (({ s.dev with obs := { s.dev.obs with hostShadow := (s.dev.counter i.toNat >>> 32).setWidth 32 } }).out
          (.value ((s.dev.counter i.toNat).setWidth 32)))) ∧
      Gives (.counterLowRead .firmware false i 0 4 upset) s (ce
        (({ s.dev with obs := { s.dev.obs with fwShadow := (s.dev.counter i.toNat >>> 32).setWidth 32 } }).out
          (.value ((s.dev.counter i.toNat).setWidth 32))))) ∧
    (∀ i : BitVec 11, s.dev.bar0 (Reg.snapshotLow i.toNat) = true →
      let c : BitVec 64 := Sparse.get 0 s.dev.obs.snap i.toNat
      Gives (.counterLowRead .host true i 0 4 upset) s (ce
        (({ s.dev with obs := { s.dev.obs with hostSnap := (c >>> 32).setWidth 32 } }).out (.value (c.setWidth 32)))) ∧
      Gives (.counterLowRead .firmware true i 0 4 upset) s (ce
        (({ s.dev with obs := { s.dev.obs with fwSnap := (c >>> 32).setWidth 32 } }).out (.value (c.setWidth 32))))) ∧
    (s.dev.bar0 Reg.tskLevel = true →
      Gives (.tskLevelRead 0 4 false upset) s (ce ((s.dev.setReg Reg.tskLevel (s.dev.reg Reg.tskLevel &&& 0xFFFFE000)).out
        (.value (s.dev.reg Reg.tskLevel)))) ∧
      Gives (.tskLevelRead 0 4 true upset) s (ce (s.dev.out
        (.value (Reg.tskLevel_peak.put (s.dev.reg Reg.tskLevel) s.dev.obs.peakWas))))) ∧
    (s.dev.bar0 Reg.clkTj = true →
      Gives (.clkTjRead 0 4 false upset) s (ce ((s.dev.setReg Reg.clkTj (s.dev.reg Reg.clkTj &&& 0xFFFF00FF ||| 0x8000)).out
        (.value (s.dev.reg Reg.clkTj)))) ∧
      Gives (.clkTjRead 0 4 true upset) s (ce (s.dev.out
        (.value (Reg.clkTj_max.put (s.dev.reg Reg.clkTj) s.dev.obs.tjWas)))))) ∧
    (∀ (o : BitVec 16) (r : RegDesc) (c : Bool), s.dev.siltUp = true → o.toNat < 0x100 → o.toNat % 4 = 0 →
      regDesc (0x10000 + o.toNat) = some r → r.wo = 0 →
      Gives (.siltPortAccess o .read c) s (s.dev.out (.value (s.dev.reg (0x10000 + o.toNat)))))

/-- Writes that do more than store fields. OBS_SNAP_CTL requests a snapshot (R510); OBS_TRACE_MARK sends a trace message of
type 6 with its value while the trace is on, the type enabled, nothing lost and room left (R513); TSH_GCL_CFG with COMMIT leaves
the written gate list waiting for the first of its start times that lies 10 µs ahead (R310); ETH_MDIO starts a frame unless one
runs (R284); PWR_RELEASE with the value 0x0A55 ends FAULT_LOCK, and starts the sequence again (R441); TIM_SLOT_OFFSET asks for a
change of the slot boundary at the next slot tick (R241); a MODE of ETH_CFG other than the port's takes its link down (R283);
KAO_CFG takes its fields at once while MODE stays, and waits with all of them while operations of the old mode run (R355, R367;
that the whole write waits is the model's reading, log entry 216); a Silt port write acts as a write of the register, and one
that meets a BAR0 write of the register in the same fabric cycle is discarded (R442). -/
def Obligations.ActingWrites : Prop :=
  ∀ (s : State) (v : Word), Defined s →
    (s.dev.bar0 Reg.obsSnapCtl = true →
      (v.getLsbD 31 = true →
        Gives (.snapshotRequest v) s ((s.dev.setBit Reg.obsSnapCtl_auto (v.getLsbD 0)).raise Reg.obsSnapCtl_pending)) ∧
      (v.getLsbD 31 = false → Gives (.snapshotRequest v) s (s.dev.setBit Reg.obsSnapCtl_auto (v.getLsbD 0)))) ∧
    (s.dev.bar0 Reg.obsTraceMark = true →
      (s.dev.cfgBit Reg.obsTraceCfg_en = false → Gives (.obsTraceMark v) s s.dev) ∧
      (s.dev.cfgBit Reg.obsTraceCfg_en = true → (s.dev.reg Reg.obsTraceTypes).getLsbD 6 = true → s.dev.obs.traceLost = 0 →
        s.dev.traceLevel + (traceMsg 6 s.dev.tim.elapsed (le 4 v.toNat)).length ≤ 8128 →
        Gives (.obsTraceMark v) s (s.dev.tracePush (traceMsg 6 s.dev.tim.elapsed (le 4 v.toNat))))) ∧
    (∀ p : PortId, s.dev.bar0 (Reg.tshGclCfg p) = true →
      let d := s.dev.setReg (Reg.tshGclCfg p) ((s.dev.reg (Reg.tshGclCfg p) &&& 0x20000000) ||| (v &&& 0x800000FF))
      (v.getLsbD 30 = false → Gives (.gclCommit p v) s d) ∧
      (v.getLsbD 30 = true →
        Gives (.gclCommit p v) s ((d.modPort p fun x => { x with
          pendGates := some { d.adminList p with start := (d.adminList p).startFrom (s.dev.tai + 10000) } }).raise
            (Reg.tshGclCfg_pending p)))) ∧
    (s.dev.bar0 Reg.ethMdio = true →
      (s.dev.bit Reg.ethMdio_busy = true → Gives (.mdioStart v) s s.dev) ∧
      (s.dev.bit Reg.ethMdio_busy = false → v.getLsbD 31 = true →
        Gives (.mdioStart v) s (({ s.dev.setReg Reg.ethMdio ((v &&& 0xFFFCFFFF) ||| (s.dev.reg Reg.ethMdio &&& 0x00010000)) with
          eth := { s.dev.eth with mdioRead := v.getLsbD 29 } }).out (.mdio v)))) ∧
    (s.dev.siltUp = true →
      (v.toNat % 65536 = 0x0A55 → s.dev.devState = dsFaultLock →
        Gives (.pwrRelease v) s ((((s.dev.setFld Reg.pwrAonStatus_attempts 0).setBit Reg.pwrAonStatus_locked false).setFld
          Reg.hifStat_dev_state (if s.dev.pwr.coldBoot then dsOff else dsSentinel)).startSeq true)) ∧
      (v.toNat % 65536 ≠ 0x0A55 ∨ s.dev.devState ≠ dsFaultLock → Gives (.pwrRelease v) s s.dev)) ∧
    (s.dev.bar0 Reg.timSlotOffset = true →
      let n := min 2499999 (v.toNat % 4194304)
      Gives (.timSlotOffsetWrite v) s { s.dev.setReg Reg.timSlotOffset (v &&& 0x003FFFFF) with
        tim := { s.dev.tim with offStep := if n = s.dev.tim.offset then none else some n } }) ∧
    (∀ p : PortId, s.dev.bar0 (Reg.ethCfg p) = true →
      let d := s.dev.setReg (Reg.ethCfg p) (v &&& 0x00073FFF)
      (s.dev.linkUp p = false ∨ d.fld (Reg.ethCfg_mode p) = s.dev.fld (Reg.ethCfg_mode p) →
        Gives (.ethModeWrite p v) s d) ∧
      (s.dev.linkUp p = true → d.fld (Reg.ethCfg_mode p) ≠ s.dev.fld (Reg.ethCfg_mode p) →
        Gives (.ethModeWrite p v) s (d.linkDown p))) ∧
    (s.dev.bar0 Reg.kaoCfg = true →
      let d := s.dev.setReg Reg.kaoCfg (v &&& 0xC00F00FF)
      (v.getLsbD 31 = s.dev.kao.locked → s.dev.kao.waitMode = [] → min 128 (v.toNat % 256) = s.dev.kao.pinned →
        Gives (.kaoCfgWrite v) s { d with kao := { s.dev.kao with
          modePend := none, pinPend := none, markLog := v.toNat / 2 ^ 16 % 16, hostSensor := v.getLsbD 30 } }) ∧
      (v.getLsbD 31 ≠ s.dev.kao.locked → s.dev.kao.queue ≠ [] ∨ s.dev.kao.waitKey ≠ [] →
        Gives (.kaoCfgWrite v) s { d with kao := { s.dev.kao with modePend := some (v.getLsbD 31) } }) ∧
      (v.getLsbD 31 ≠ s.dev.kao.locked → s.dev.kao.queue = [] → s.dev.kao.waitKey = [] → s.dev.kao.waitMode = [] →
        min 128 (v.toNat % 256) = s.dev.kao.pinned →
        Gives (.kaoCfgWrite v) s { d with kao := { s.dev.kao with
          locked := v.getLsbD 31, modePend := none, lock := none, lockQ := [], revoked := [], pinPend := none,
          markLog := v.toNat / 2 ^ 16 % 16, hostSensor := v.getLsbD 30 } }.showKao)) ∧
    (∀ (o : BitVec 16) (r : RegDesc), s.dev.siltUp = true → o.toNat < 0x100 → o.toNat % 4 = 0 →
      regDesc (0x10000 + o.toNat) = some r → ¬ actingAddr (0x10000 + o.toNat) →
      Gives (.siltPortAccess o (.write v) false) s
        (s.dev.setReg (0x10000 + o.toNat) (r.written (s.dev.reg (0x10000 + o.toNat)) v)) ∧
      Gives (.siltPortAccess o (.write v) true) s s.dev)

/-- A host attaches to a STANDALONE device that has a doorbell base and rings 0 and 1 enabled (R423): the configuration and the
air path stay. HOST_EN written 0, PERST_N and the loss of the link end it (R424), and of these only the latter two set LINK_DOWN.
Enabling a ring starts its index at 0; an enabled ring keeps its size and vector (R401). GO checks an image and answers DONE or
ERR (R464). -/
def Obligations.HostAndRings : Prop :=
  ∀ (s : State) (v : Word), Defined s →
    (s.dev.bar0 Reg.hifCtrl = true → v.getLsbD 0 = true → s.dev.devState = dsStandalone → s.dev.reg Reg.hifDbBaseLo ≠ 0 →
      s.dev.ringEn 0 = true → s.dev.ringEn 1 = true →
      ∃ d : Dev, Gives (.hostAttach v) s d ∧ d.devState = dsHosted ∧ d.bit Reg.hifStat_link_up = true ∧
        d.hif.epoch = s.dev.hif.epoch + 1 ∧ d.hif.attachDue = true ∧ d.boot.localCmds = [] ∧
        d.counter Cnt.hostAttach = s.dev.counter Cnt.hostAttach + 1 ∧ d.sch = s.dev.sch ∧ d.chans = s.dev.chans ∧
        (∀ a, a ≠ Reg.hifCtrl → a ≠ Reg.hifStat → d.reg a = s.dev.reg a)) ∧
    (s.dev.bar0 Reg.hifCtrl = true → v.getLsbD 0 = false → s.dev.devState = dsHosted →
      let e := ((s.dev.setReg Reg.hifCtrl (v &&& 1)).setFld Reg.hifStat_dev_state dsStandalone).bump Cnt.hostDetach
      Gives (.hostDetach v) s
        { e with hif := { e.hif with epoch := e.hif.epoch + 1, attachDue := false, complQ := [] } }) ∧
    (s.dev.devState = dsHosted →
      let e := (((s.dev.setBit Reg.hifStat_link_up false).setFld Reg.hifStat_dev_state dsStandalone).bump
        Cnt.hostDetach).raise Reg.hifStat_link_down
      Gives .pcieLinkLoss s
        { e with hif := { e.hif with epoch := e.hif.epoch + 1, attachDue := false, complQ := [] } }) ∧
    (s.dev.devState = dsHosted → s.dev.mainUp = true →
      let e := (((({ s.dev with pins := { s.dev.pins with perstN := false } } : Dev).setBit Reg.hifStat_link_up false).setFld
        Reg.hifStat_dev_state dsStandalone).bump Cnt.hostDetach).raise Reg.hifStat_link_down
      Gives .perstNAssert s
        { e with hif := { e.hif with epoch := e.hif.epoch + 1, attachDue := false, complQ := [] } }) ∧
    (∀ i, ringExists i = true → s.dev.bar0 (Reg.hifRingCfg i) = true →
      let old := s.dev.reg (Reg.hifRingCfg i)
      (old.getLsbD 31 = false → v.getLsbD 31 = true →
        Gives (.ringEnable i v) s (((s.dev.setReg (Reg.hifRingCfg i)
          ((old &&& 0x70E040FF) ||| (v &&& 0x8F1FBF00))).setRing i emptyRing).setFld (Reg.hifRingStat_idx i) 0)) ∧
      (old.getLsbD 31 = true → v.getLsbD 31 = false →
        Gives (.ringDisable i v) s (s.dev.setReg (Reg.hifRingCfg i) ((old &&& 0x7FFF40FF) ||| (v &&& 0x8000BF00))))) ∧
    (∀ img : HostRead, s.dev.mainUp = true → s.dev.devState = dsBoot → s.dev.fld Reg.bootStat_strap = 4 →
      v.getLsbD 0 = true →
      let e := (s.dev.setBit Reg.bootPcieCtl_err false).setBit Reg.bootPcieCtl_done false
      (∀ b, img = .ok b → s.dev.imageOk b = true →
        Gives (.bootPcieGo v img) s (({ e with boot := { s.dev.boot with image := b } }).raise Reg.bootPcieCtl_done)) ∧
      (∀ b, img = .ok b → s.dev.imageOk b = false → Gives (.bootPcieGo v img) s (e.raise Reg.bootPcieCtl_err)) ∧
      (img = .err → Gives (.bootPcieGo v img) s (e.raise Reg.bootPcieCtl_err)))

/-! ## The slot -/

/-- Every slot tick enters the next slot (R16): the slot count becomes the next tick's, the TAI time that of the tick, and no TG has
begun in it. With no schedule copy running TABLE_COPY_DONE changes nothing; it ends a copy, and executes a SCHED_WRITE command
held for it (R164). The TG of a slot begins once. With no step of the clock or of the tick waiting, and
no overflow of the 48-bit seconds before the next tick, every radio in READY or RUNNING
that has no burst on air and no temperature run, and whose train ends, is retuned where the next slot needs another channel index
whose entry it has (R130). -/
def Obligations.SlotAndTgStart : Prop :=
  (∀ (s : State) (m : TickMeasure), Up s →
    ∃ d : Dev, Gives (.slotTick m) s d ∧ d.tim.slotS = s.dev.nextS ∧
      d.tim.sec = BitVec.ofInt 48 (s.dev.tickTai s.dev.nextS / 1000000000) ∧
      d.tim.ns = BitVec.ofInt 30 (s.dev.tickTai s.dev.nextS % 1000000000) ∧ d.tim.frac = 0 ∧
      d.tim.tgBegun = false ∧ d.tim.elapsed = 0 ∧ d.pwr.silt = s.dev.pwr.silt + 2500000) ∧
  (∀ s : State, Up s → s.dev.sch.copying = false → Gives .tableCopyDone s s.dev) ∧
  (∀ s : State, Up s → s.dev.sch.copying = true → s.dev.sch.held = [] →
    Gives .tableCopyDone s { s.dev with sch := { s.dev.sch with copying := false, held := [] } }) ∧
  (∀ (s : State) (c : Cmd) (radio first count : Nat) (buf : Buf), Up s → s.dev.sch.copying = true →
    s.dev.sch.held = [(c, radio, first, count, buf)] →
    Gives .tableCopyDone s
      (({ s.dev with sch := { s.dev.sch with copying := false, held := [] } } : Dev).schedWriteNow c radio first count buf)) ∧
  (∀ s : State, Up s →
    (s.dev.tim.tgBegun = true → Gives .tgStart s s.dev) ∧
    (s.dev.tim.tgBegun = false → s.dev.tim.step = none → s.dev.tim.offStep = none →
      s.dev.nextS = s.dev.tim.slotS + 1 → s.dev.tickTai (s.dev.tim.slotS + 1) ≤ 281474976710656 * 1000000000 →
      ∃ d : Dev, Gives .tgStart s d ∧ d.tim.tgBegun = true ∧
        (∀ (r : RadioId) (i : Nat) (c : ChanCfg), s.dev.rfReadyRun r = true → (s.dev.radio r).tempRun = none →
          (s.dev.radio r).onAir = [] → s.dev.rowContinues r (s.dev.tim.slotS + 1) = false →
          s.dev.rowChan r (s.dev.tim.slotS + 1) = some i →
          s.dev.chan i = some c → s.dev.entryValid r i = true → (s.dev.radio r).chan ≠ some i →
          (d.radio r).chan = some i ∧ (d.radio r).target = some i ∧ d.bit (Reg.rfStat_lock r) = false)))

/-- What happens at ticks. A commit whose boundary is reached swaps the tables; before it nothing is swapped (R164). At every
fourth superframe with RA cells the backoff exponent moves by at most 1, within its limits, up where RA_HI is reached, and the
counts start again (R171). VIN that falls below WARN_V sets WARN and is counted (R430). -/
def Obligations.TickEffects : Prop :=
  (∀ d : Dev, d.bit Reg.schCommit_pending = true →
    (d.sch.target ≤ d.tim.slotS / 512 →
      d.swapTables.sch = { d.sch with active := d.sch.pending, copying := true } ∧
      d.swapTables.bit Reg.schCommit_pending = false ∧
      d.swapTables.bit Reg.schCommit_active = !d.bit Reg.schCommit_active ∧
      d.swapTables.bit Reg.schCommit_prot_active = d.sch.protPend) ∧
    (d.tim.slotS / 512 < d.sch.target → d.swapTables = d)) ∧
  (∀ d : Dev, d.sf % 4 = 0 → d.sch.raA ≠ 0 → d.boMin ≤ d.fld Reg.schStat_bo → d.fld Reg.schStat_bo ≤ d.boMax →
    let old := d.fld Reg.schStat_bo
    let new := d.adaptBo.fld Reg.schStat_bo
    d.boMin ≤ new ∧ new ≤ d.boMax ∧ new ≤ old + 1 ∧ old ≤ new + 1 ∧
    (d.cfgFld Reg.schRacfg_ra_hi * d.sch.raA ≤ 16 * d.sch.raK → old < d.boMax → new = old + 1) ∧
    d.adaptBo.sch = { d.sch with raA := 0, raB := 0, raK := 0 }) ∧
  (∀ (d : Dev) (mv : Nat), mv < 65536 →
    (d.measureVin mv).fld Reg.pwrVin_mv = mv ∧
    (50 * d.cfgFld Reg.pwrVincfg_warn_v ≤ mv → d.measureVin mv = d.setFld Reg.pwrVin_mv mv) ∧
    (mv < 50 * d.cfgFld Reg.pwrVincfg_warn_v → 50 * d.cfgFld Reg.pwrVincfg_warn_v ≤ d.fld Reg.pwrVin_mv →
      (d.measureVin mv).bit Reg.pwrVin_warn = true ∧
        (d.measureVin mv).counter Cnt.vinWarn = d.counter Cnt.vinWarn + 1))

/-! ## Reception -/

/-- The acquisition of a radio with no reception in progress opens for the next slot with the cells its row grants, at PRESET;
without lock the radio takes no reception in it and counts the miss (R86, R134). A rise above the noise level and RISE at PRESET
inside the span sets the gain from its level and freezes it (R85, R88); one that does not rise that far changes nothing. A later
rise inside the span that reaches CAPTURE_DB does so again, and a weaker one is lost (Table 3.4). In the fourth consecutive stuck
slot the radio is FAILED (R491). -/
def Obligations.Acquisition : Prop :=
  ∀ (s : State) (r : RadioId), Up s →
    (∀ (lock gnt : Bool) (wb : Cdb), s.dev.willRun r s.dev.nextS = true →
      s.dev.rxRow (s.dev.rowCarried r s.dev.nextS) s.dev.nextS = true → (s.dev.radio r).cells = [] →
      (lock = true → s.dev.granted r gnt = true →
        ∃ d : Dev, Gives (.acquisitionOpen r lock gnt wb) s d ∧ (d.radio r).rxS = some s.dev.nextS ∧
          (d.radio r).noRx = false ∧ (d.radio r).agc = .preset ∧ (d.radio r).wbNoise = wb ∧
          (d.radio r).cells = s.dev.grantedCells (s.dev.rowCarried r s.dev.nextS) s.dev.nextS ∧
          d.bit (Reg.rfStat_lock r) = true ∧ ∀ q, q ≠ r → d.radio q = s.dev.radio q) ∧
      (lock = false → (s.dev.radio r).missRun < 3 →
        ∃ d : Dev, Gives (.acquisitionOpen r lock gnt wb) s d ∧ (d.radio r).noRx = true ∧ (d.radio r).cells = [] ∧
          d.counter (Cnt.rxSynthMiss r) = s.dev.counter (Cnt.rxSynthMiss r) + 1 ∧
          d.bit (Reg.rfStat_synth_miss r) = true ∧ d.bit (Reg.rfStat_lock r) = false)) ∧
    (∀ w : WbRise, s.dev.receives r = true → (s.dev.radio r).released = false →
      let g := gainFor w.level (s.dev.agcTarget r)
      let hit (d : Dev) : Dev :=
        (if clampGain g = g then d else d.raise (Reg.bbpRxstat_agc_limit r)).modRadio r fun x => { x with
          agc := .frozen, gain := clampGain g, gainHist := x.gain :: x.gainHist, coarse := some (w.whenPs - 4000000),
          pfrz := w.level, attacks := x.attacks + 1 }
      let later := s.dev.raise (Reg.bbpRxstat_capture r)
      (riseAbove w ((s.dev.radio r).wbNoise + s.dev.riseDb r) = false → Gives (.widebandDetection r w) s s.dev) ∧
      (riseAbove w ((s.dev.radio r).wbNoise + s.dev.riseDb r) = true → riseIn w (s.dev.rowSpan r) = true →
        (s.dev.radio r).agc = .preset → (s.dev.radio r).rxCont = false →
        Gives (.widebandDetection r w) s ((hit s.dev).bump (Cnt.detRadio r))) ∧
      (riseReaches w ((s.dev.radio r).pfrz + s.dev.riseDb r) = false → ∀ l, Gives (.laterPreamble r w l) s s.dev) ∧
      ((s.dev.radio r).agc = .frozen → (s.dev.radio r).rxCont = false → s.dev.capEn r = true →
        riseReaches w ((s.dev.radio r).pfrz + s.dev.riseDb r) = true → riseIn w (s.dev.rowSpan r) = true → ∀ l,
        ((s.dev.radio r).pfrz + s.dev.captureDb r ≤ w.level →
          Gives (.laterPreamble r w l) s ((hit later).bump (Cnt.captureRestart r))) ∧
        (w.level < (s.dev.radio r).pfrz + s.dev.captureDb r →
          Gives (.laterPreamble r w l) s (later.bump (Cnt.captureLost r))))) ∧
    (s.dev.receives r = true → (s.dev.radio r).rxS = some s.dev.tim.slotS → (s.dev.radio r).stuck = true →
      (3 ≤ (s.dev.radio r).stuckRun →
        ∃ d : Dev, Gives (.stuckSlotDetection r) s d ∧ d.rfState r = rsFailed ∧ (d.radio r).cells = [] ∧
          d.paEn r = false ∧ d.lnaEn r = false) ∧
      ((s.dev.radio r).stuckRun < 3 → Gives (.stuckSlotDetection r) s s.dev))

/-- The one granted uplink of a radio whose SYNC passes within 15.625 µs of its tick, while no other subchannel's does, is acquired
with its arrival error and level. Its decoded SIG that passes and agrees with the grant makes it DATA with its load map; one that
fails puts it on hold and is counted (R95, R96). The CRC32 verdict on the bytes that the decoder holds of it counts the outcome,
marks it judged, and queues the reception for the decode stage. -/
def Obligations.SyncAndVerdicts : Prop :=
  ∀ (s : State) (r : RadioId) (c : Cell), Up s → (s.dev.radio r).cells = [c] → c.kind = .uplink → c.link = none →
    (∀ (half : Samples) (cfg : ChanCfg), s.dev.receives r = true → c.firstS = s.dev.rxSlot r → c.state = .idle →
      s.dev.airChan (s.dev.rowCarried r (s.dev.rxSlot r)) = c.chan → s.dev.chan c.chan = some cfg →
      c.subch < modeSubch cfg.mode →
      let x := compensate ((s.dev.radio r).gain :: (s.dev.radio r).gainHist) half
      let v (k : Nat) : SyncEval := syncEvalOf cfg.mode x ((s.dev.radio r).coarse.getD 0) k
      let e := roundE ((v c.subch).ePs - s.dev.extDelayRx r)
      e.natAbs ≤ 15625000 → s.dev.syncPass r c.chan (v c.subch) = true →
      (∀ k, k < modeSubch cfg.mode → k ≠ c.subch → s.dev.syncPass r c.chan (v k) = false) →
      Gives (.syncEvaluation r half) s ((s.dev.modRadio r fun x => { x with
        cells := [{ c with state := .acq, e := e, anchor := 0, level := (v c.subch).level }] }).bump (Cnt.syncCell r))) ∧
    (s.dev.receives r = true → c.state = .acq → c.firstS = s.dev.rxSlot r → s.dev.vit.jobs = [] →
      (sigPasses c.sig = true → sigAgrees c c.sig = true →
        let m := s.dev.rxMap r c c.sig
        Gives (.sigVerdict r c.subch) s ((s.dev.modRadio r fun x => { x with
          cells := [{ c with state := .data, map := m.1, lmStale := m.2 }], passed := true }).bump (Cnt.sigPass r))) ∧
      (sigPasses c.sig = false →
        ∃ d : Dev, Gives (.sigVerdict r c.subch) s d ∧ (d.radio r).cells = [{ c with state := .hold, judged := true }] ∧
          d.counter (Cnt.sigFail r) = s.dev.counter (Cnt.sigFail r) + 1)) ∧
    (∀ upsets : List (Fin 5), s.dev.rfReadyRun r = true → c.state = .data → c.judged = false → c.stripe = 1 →
      c.firstS + c.train = s.dev.rxSlot r + 1 → s.dev.vit.jobs = [] →
      let mpdu := s.dev.rxBytes r c
      let o := judge mpdu c.train c.map c.sig
      ∃ d : Dev, Gives (.crcVerdict r c.subch upsets) s d ∧ d.counter (o.counter r) = s.dev.counter (o.counter r) + 1 ∧
        (d.radio r).cells = [{ c with judged := true, crcOk := o == .pass }] ∧
        ∃ rx : Rx, d.decodeQ = s.dev.decodeQ ++ [rx] ∧ rx.radio = r ∧ rx.sidx = c.owner ∧ rx.sig = c.sig ∧
          rx.mpdu = mpdu.take (readHdr mpdu).len ∧ rx.crcOk = (o == .pass) ∧ rx.level = c.level)

/-- A window that no reception lies on changes nothing; of a window taken, at least CLIP_MIN extreme samples mark the receptions
whose SIG or DATA it carries (R114). In period 13 of a downlink or Mladol row the gain is set for the ACK symbols owed, and stays
where none is (log entry 197). A present ACK symbol that accepts a downlink takes it out of its sensor's queue; a missing one lets
it be repeated with RETRY two slots later (R180). A reception of the slot before leaves the decode queue as an item, or waits while
an activation pauses the workers; one that is not accepted only leaves its level and arrival error with its sensor (R18, R109). -/
def Obligations.ReceptionEnds : Prop :=
  ∀ s : State, Up s →
    (∀ (r : RadioId) (w : WindowObs),
      (s.dev.windowTaken r w = false → Gives (.windowClose r w) s s.dev) ∧
      (s.dev.windowTaken r w = true →
        let clip := decide (orElse0 (s.dev.cfgFld (Reg.bbpRxcfg_clip_min r)) 1 ≤ w.clip)
        ∃ d : Dev, Gives (.windowClose r w) s d ∧ (d.radio r).stuck = ((s.dev.radio r).stuck && w.stuck) ∧
          (d.radio r).cells.map (·.clipped) = (s.dev.radio r).cells.map fun (c : Cell) =>
            let use := c.useIn (s.dev.rxSlot r) w.period
            c.clipped || (clip && decide ((c.state = .acq ∨ c.state = .data) ∧ (use = .sig ∨ use = .data))))) ∧
    (∀ r : RadioId, s.dev.rfReadyRun r = true → (s.dev.rowCarried r s.dev.tim.slotS).type = rowDown ∨
        (s.dev.rowCarried r s.dev.tim.slotS).type = rowMesh →
      let l := s.dev.owedLevels r
      let g := if l = [] then (s.dev.radio r).gain
        else clampGain (gainFor (sumLevels l) (s.dev.agcTarget r + s.dev.agcHead r + s.dev.agcAckHead r))
      let e := s.dev.modRadio r fun x => { x with agc := .ackrx, gain := g, gainHist := [] }
      (s.dev.paEn r = true → Gives (.ackrxPreset r) s e) ∧
      (s.dev.paEn r = false → Gives (.ackrxPreset r) s (e.drive r false true))) ∧
    (∀ (r : RadioId) (p : TxPart) (i : Nat) (x : Downlink) (w : Samples) (cfg : ChanCfg),
      s.dev.rfReadyRun r = true → (s.dev.radio r).await = [p] → (∀ q, q ≠ r → (s.dev.radio q).await = []) →
      s.dev.chan (((s.dev.radio r).chan).getD 0) = some cfg →
      p.ack = none → p.firstS + p.train - 1 = s.dev.tim.slotS → p.what = .head i → (s.dev.sensor i).queue = [x] →
      x.mpdu = p.mpdu → x.sent = true → x.sidx = i → x.ftype ≠ tJoinRsp → x.addr ≠ bcastAddr → x.origin = .device →
      p.member < 96 →
      let y := (subchK cfg.mode p.subch).map (windowBin cfg.mode
        (compensate ((s.dev.radio r).gain :: (s.dev.radio r).gainHist) w))
      let energy := ofLin (y.foldl (fun a z => a + binPower (fftSize cfg.mode) z) 0 / y.length)
      let present := ackPresent (ackSoft y) (ackDecode (ackSoft y)) energy
        (s.dev.noiseOf r (((s.dev.radio r).chan).getD 0) p.subch + 100 * s.dev.cfgFld (Reg.bbpRxcfg_ack_det r))
      (present = true → ackCode (ackDecode (ackSoft y)) = 0 →
        ∃ d : Dev, Gives (.ackSymbolReceive r p.subch w) s d ∧ (d.radio r).await = [] ∧
          (d.sensor i).queue = [] ∧ d.counter (Cnt.ackRxOk r) = s.dev.counter (Cnt.ackRxOk r) + 1 ∧
          d.counter Cnt.dlAccepted = s.dev.counter Cnt.dlAccepted + 1) ∧
      (present = false → x.repeats + 1 ≤ s.dev.retryMax →
        ∃ d : Dev, Gives (.ackSymbolReceive r p.subch w) s d ∧ (d.radio r).await = [] ∧
          (d.sensor i).queue = [{ x with
            repeats := x.repeats + 1, sent := false, enterS := s.dev.curS + 2, mpdu := setRetry x.mpdu }] ∧
          d.counter (Cnt.ackRxMiss r) = s.dev.counter (Cnt.ackRxMiss r) + 1)) ∧
    (∀ rx : Rx, s.dev.decodeQ = [rx] → 1 ≤ rx.stage → rx.link = none → rx.sidx = none → rx.accepted = true →
      (s.dev.boot.paused = false →
        Gives .decodeAndContext s (({ s.dev with decodeQ := [] } : Dev).createAir rx.flowKey (.uplink rx))) ∧
      (s.dev.boot.paused = true →
        Gives .decodeAndContext s
          { s.dev with decodeQ := [], boot := { s.dev.boot with hold := s.dev.boot.hold ++ [rx] } })) ∧
    (∀ (rx : Rx) (i : Nat), s.dev.decodeQ = [rx] → 1 ≤ rx.stage → rx.link = none →
      rx.sidx = some i → rx.accepted = false →
      ∃ d : Dev, Gives .decodeAndContext s d ∧ d.decodeQ = [] ∧ (d.sensor i).level = some rx.level ∧ (d.sensor i).e = rx.e)

/-- A LOADMAP that waited LM_RESEND superframes is composed again (R187). A downlink of the device that waited AGE_MAX superframes
leaves its queue and is counted as timed out (R182); a wake request that no row has taken ends with TIMEOUT (R197); younger ones
stay. -/
def Obligations.AgeTimeouts : Prop :=
  ∀ s : State, Up s →
    (∀ i : BitVec 20, let x := s.dev.sensor i.toNat
      (x.lmWait = true → x.lmSince + s.dev.lmResend ≤ s.dev.tim.slotS / 512 →
        Gives (.loadmapResend i) s
          ((s.dev.setSensor i.toNat { x with lmWait := false }).createDev i.toNat
            (.loadmap i.toNat (x.pendMap.getD x.confirmed)))) ∧
      (x.lmWait = false ∨ s.dev.tim.slotS / 512 < x.lmSince + s.dev.lmResend → Gives (.loadmapResend i) s s.dev)) ∧
    (∀ (i : BitVec 20) (x : Downlink), i ≠ 0xFFFFF → (s.dev.sensor i.toNat).queue = [x] → x.sidx = i.toNat →
      x.ftype ≠ tJoinRsp → x.addr ≠ bcastAddr → x.origin = .device →
      (x.sent = false → x.enterSf + s.dev.ageMax ≤ s.dev.tim.slotS / 512 →
        Gives (.downlinkAgeTimeout i) s
          ((s.dev.setSensor i.toNat { s.dev.sensor i.toNat with queue := [] }).bump Cnt.dlTimeout)) ∧
      (x.sent = true ∨ s.dev.tim.slotS / 512 < x.enterSf + s.dev.ageMax → Gives (.downlinkAgeTimeout i) s s.dev)) ∧
    (∀ w : WakeReq, s.dev.sch.wakeQ = [w] →
      (w.started = false → w.sinceSf + s.dev.ageMax ≤ s.dev.tim.slotS / 512 →
        Gives .wakeRequestTimeout s (({ s.dev with sch := { s.dev.sch with wakeQ := [] } } : Dev).finish w.cmd stTimeout 0)) ∧
      (w.started = true ∨ s.dev.tim.slotS / 512 < w.sinceSf + s.dev.ageMax → Gives .wakeRequestTimeout s s.dev))

/-! ## Bursts, retuning, calibration -/

/-- COEX_REQ rises before a planned burst; a grant withdrawn during a burst only counts (R148, R149). At its check a burst that no
other radio's burst goes with goes on air with PA_EN high and LNA_EN low; without lock, or without a grant, a burst of ACK symbols
or of nothing else is given up and counted; the check of a burst whose companions are not checked yet waits for theirs (R132,
R134). Its end puts it out and drops PA_EN (R123). Lock ends a retune (R129). A calibration chunk is taken where it fits, and
radiates nothing (R139). A sweep whose slots are over leaves the radio READY with the entries it built, or FAILED; it does not end
earlier (R137). A radio's entry built in free slots becomes valid (R127). -/
def Obligations.BurstsAndCalibration : Prop :=
  ∀ (s : State) (r : RadioId), Up s →
    (s.dev.cfgBit (Reg.rfCoexcfg_en r) = true →
      (s.dev.rfReadyRun r = true → (s.dev.radio r).planned ≠ [] →
        ∃ d : Dev, Gives (.coexReqAssert r) s d ∧ (d.radio r).pins.getLsbD 6 = true ∧
          ∀ q, q ≠ r → d.radio q = s.dev.radio q) ∧
      ((s.dev.radio r).onAir ≠ [] →
        Gives (.coexGntWithdrawn r) s ((s.dev.bump (Cnt.coexLate r)).raise (Reg.rfStat_coex_late r))) ∧
      ((s.dev.radio r).onAir = [] → Gives (.coexGntWithdrawn r) s s.dev)) ∧
    (∀ (gnt : Bool) (b : Burst) (t : List Burst), (s.dev.radio r).planned = b :: t → s.dev.rfReadyRun r = true →
      s.dev.portInhibited r b.chan = false →
      (∀ (lock : Bool) (y : RadioId), y ∈ s.dev.checkGroup r → y ≠ r → (s.dev.radio y).checked = none →
        Gives (.burstCheck r lock gnt) s (s.dev.modRadio r fun x => { x with checked := some (lock, s.dev.granted r gnt) })) ∧
      (s.dev.checkGroup r = [r] →
        (s.dev.granted r gnt = true → b.parts ≠ [] ∨ b.acks ≠ [] ∨ b.wake ≠ none →
          ∃ d : Dev, Gives (.burstCheck r true gnt) s d ∧ (d.radio r).planned = t ∧
            (d.radio r).onAir = (s.dev.radio r).onAir ++ [b] ∧ d.paEn r = true ∧ d.lnaEn r = false ∧
            d.counter (Cnt.txBurst r) = s.dev.counter (Cnt.txBurst r) + 1 ∧ ∀ q, q ≠ r → d.radio q = s.dev.radio q) ∧
        (b.parts = [] → b.wake = none →
          (s.dev.granted r gnt = false →
            ∃ d : Dev, Gives (.burstCheck r true gnt) s d ∧ (d.radio r).planned = t ∧
              (d.radio r).onAir = (s.dev.radio r).onAir ∧ d.bit (Reg.rfStat_coex_denied r) = true ∧
              d.counter (Cnt.coexDenied r) = s.dev.counter (Cnt.coexDenied r) + 1) ∧
          ((s.dev.radio r).missRun < 3 →
            ∃ d : Dev, Gives (.burstCheck r false gnt) s d ∧ (d.radio r).planned = t ∧
              (d.radio r).onAir = (s.dev.radio r).onAir ∧ d.bit (Reg.rfStat_synth_miss r) = true ∧
              d.counter (Cnt.txSynthNotReady r) = s.dev.counter (Cnt.txSynthNotReady r) + 1)))) ∧
    (∀ (b : Burst) (fwd refl expected : Cdb), (s.dev.radio r).onAir = [b] →
      ∃ d : Dev, Gives (.burstEnd r fwd refl expected) s d ∧ (d.radio r).onAir = [] ∧ d.paEn r = false ∧
        (s.dev.reachTai (s.dev.endInstant r b)).airOut r b ∈ d.outs) ∧
    ((s.dev.radio r).target.isSome = true →
      Gives (.synthLock r) s ((s.dev.modRadio r fun x => { x with target := none }).setBit (Reg.rfStat_lock r) true)) ∧
    (∀ (t : TempRun) (at' : Int), (s.dev.radio r).tempRun = some t →
      (s.dev.chunkPlace r t at' = false → Gives (.calChunk r at') s s.dev) ∧
      (s.dev.chunkPlace r t at' = true → s.dev.tim.tgBegun = false →
        ∃ d : Dev, Gives (.calChunk r at') s d ∧ ((d.radio r).tempRun.map (·.left)) = some (t.left - 1) ∧
          (d.radio r).calDone = (t.left - 1 == 0) ∧ d.paEn r = false ∧ d.lnaEn r = false)) ∧
    (∀ w : Sweep, (s.dev.radio r).sweep = some w → w.cmd = none →
      (s.dev.tim.slotS < w.ends → Gives (.sweepDone r true) s s.dev) ∧
      (w.ends ≤ s.dev.tim.slotS →
        ∃ d : Dev, Gives (.sweepDone r true) s d ∧ (d.radio r).sweep = none ∧ d.rfState r = rsReady ∧
          (d.radio r).buildQ = w.changed ∧ d.fld (Reg.rfTemp_last r) = w.temp.toNat ∧
          ∀ i ∈ w.built, i ∉ w.changed → d.entryValid r i = true) ∧
      (∃ d : Dev, Gives (.sweepDone r false) s d ∧ (d.radio r).sweep = none ∧ d.rfState r = rsFailed)) ∧
    (∀ (i : Nat) (c : ChanCfg), s.dev.rfReadyRun r = true → (s.dev.radio r).buildQ.contains i = true → s.dev.chan i = some c →
      s.dev.rowFree r (s.dev.tim.slotS - 1) = true → s.dev.rowFree r s.dev.tim.slotS = true →
      ∃ d : Dev, Gives (.channelEntryBuild r i) s d ∧ d.entryValid r i = true ∧ (d.radio r).chan = some i ∧
        (d.radio r).buildQ = (s.dev.radio r).buildQ.filter (· != i) ∧ d.bit (Reg.rfStat_lock r) = true ∧
        d.paEn r = false)

/-! ## Gateway links -/

/-- A Mladol frame received two slots ago that does not open is a LINK_AUTH violation of its link, and leaves the queue (R222); a
LINKMAP that opens becomes the peer's map. A frame that the search receiver decodes from the windows at its arrival, and that is
a link beacon of the parent link which opens, makes the gateway TRACKING, with the step that its time asks for unless a TIME_FORCE
waits (R217, R218, R236). -/
def Obligations.MeshDelivery : Prop :=
  ∀ s : State, Up s →
    (∀ (rx : Rx) (l : Nat), s.dev.msh.rxQ = [rx] → 2 ≤ rx.stage → rx.link = some l →
      ((s.dev.openMladol l rx.mpdu).2 = none →
        ∃ d : Dev, Gives .delivery s d ∧ d.msh.rxQ = [] ∧
          d.counter Cnt.vLinkAuth = s.dev.counter Cnt.vLinkAuth + 1) ∧
      (∀ plain, (s.dev.openMladol l rx.mpdu).2 = some plain → beAt rx.mpdu 10 1 / 16 = mkLinkmap →
        let m := s.dev.chanSubch rx.chan
        let codes := (List.range m).map fun k =>
          let x := beAt plain (1 + k / 2) 1
          BitVec.ofNat 4 (if k % 2 = 0 then x / 16 else x)
        (codes.all fun c => decide (c.toNat < 12)) = true →
        ∃ d : Dev, Gives .delivery s d ∧ d.msh.rxQ = [] ∧
          (d.link l).peerMap = ⟨BitVec.ofNat 4 (beAt plain 0 1 / 16), (s.dev.link l).peerMap.floorQ,
            BitVec.ofNat 2 (beAt plain 0 1), codes⟩)) ∧
    (∀ (r : RadioId) (arrival : Int) (half : Samples) (windows : List Samples) (mpdu body : List Byte)
        (chan l c : Nat) (cfg : ChanCfg) (x : Cell) (t : List Cell),
      s.dev.searchChan r (s.dev.rowCarried r s.dev.tim.slotS) = some chan → s.dev.parentLink = some (l, c) →
      s.dev.chan chan = some cfg → s.dev.rfReadyRun r = true → s.dev.tracks = true →
      let e := s.dev.searchRun r l chan cfg.mode arrival half windows
      ((e.radio r).cells.filter fun (y : Cell) => y.state == .data) = x :: t →
      searchFrame (vitFinish (e.vit.recOf (e.rxKey r x) x.train).st) = some mpdu →
      (readHdr mpdu).ftype = tMesh → beAt mpdu 10 1 / 16 = mkLinkBeacon → s.dev.searchAccepts l mpdu = true →
      (s.dev.openMladol l mpdu).2 = some body → s.dev.forceWaits = false →
      ∃ d : Dev, Gives (.searchSyncAcquired r arrival half windows) s d ∧ d.mshState = msTracking ∧
        d.fld Reg.mshStat_hop = min 15 (beAt mpdu 11 1 % 16 + 1) ∧
        d.counter Cnt.reacquire = s.dev.counter Cnt.reacquire + 1 ∧ d.bit Reg.mshStat_reacquired = true ∧
        (∃ step, d.tim.step = some ⟨step, none⟩) ∧ d.msh.parentSeen = some (BitVec.ofNat 32 (beAt mpdu 12 4)))

/-! ## Work items and workers -/

/-- A worker that asks takes the first ready item of the highest priority, or waits (R322). A completed item is released
unless an earlier one of its tag is held (R325). An item posted to a delay list falls due after its delay and is then ready
behind the items of that moment (R327, R328). When an item has run as long as the watchdog lets it, it is given back, excluded from
its worker; the second worker that it trips abandons it; RETIRE trips retire a worker (R329, R332). A worker out of reset asks for
work. -/
def Obligations.Workers : Prop :=
  ∀ (s : State) (w : WorkerId), Operates s →
    (s.dev.runningItem w = none → s.dev.fld (Reg.tskWstat_state w) ≤ 1 →
      ((∀ i ∈ s.dev.tsk.items, (i.runs w && s.dev.mayTake w) = false) →
        Gives (.workerAsk w) s { s.dev with tsk := { s.dev.tsk with waiting := s.dev.tsk.waiting.filter (· != w) ++ [w] } }) ∧
      (∀ i ∈ s.dev.tsk.items, i.runs w = true → s.dev.mayTake w = true →
        ∃ (d : Dev) (j : Item), Gives (.workerAsk w) s d ∧ j ∈ s.dev.tsk.items ∧ j.runs w = true ∧ i.prio ≤ j.prio ∧
          d.tsk.items = (s.dev.tsk.items.map fun (x : Item) => if x.id = j.id then { x with state := .running w, since := s.dev.tim.cyc } else x) ∧
          (d.runningItem w).map (·.id) = some j.id ∧ d.tsk.waiting = s.dev.tsk.waiting.filter (· != w) ∧
          d.fld (Reg.tskWstat_state w) = 1)) ∧
    (∀ (i : Item) (u : List (Fin 5)), i.state = .running w → i.work = .timer ∨ i.work = .house ∨ i.work = .nothing →
      (s.dev.tsk.items = [i] →
        ∃ d : Dev, Gives (.itemComplete w u) s d ∧ d.tsk = { s.dev.tsk with items := [] } ∧
          d.counter Cnt.itemReleased = s.dev.counter Cnt.itemReleased + 1 ∧ d.fld (Reg.tskWstat_state w) = 0) ∧
      (∀ (j : Item) (v : WorkerId), s.dev.tsk.items = [j, i] → j.state = .running v → j.staged = false → v ≠ w → j.id ≠ i.id →
        j.tag = i.tag → i.tag ≠ none → j.order < i.order →
        ∃ d : Dev, Gives (.itemComplete w u) s d ∧ d.tsk = { s.dev.tsk with items := [j, { i with state := .done }] } ∧
          d.counters = s.dev.counters ∧ d.fld (Reg.tskWstat_state w) = 0)) ∧
    (∀ (l : Fin 8) (delay : BitVec 16) (key : BitVec 20),
      (∀ p, s.dev.poolFor .device = some p →
        ∃ (d : Dev) (i : Item), Gives (.delayPost l delay key) s d ∧
          d.tsk = { s.dev.tsk with
            items := s.dev.tsk.items ++ [i], nextId := s.dev.tsk.nextId + 1, nextOrd := s.dev.tsk.nextOrd + 1 } ∧
          i.state = .delayed l (s.dev.tsk.dtick + max 1 delay.toNat) ∧ i.pool = p ∧ i.cls = 7 ∧
          i.tag = some (flowTag key.toNat) ∧ i.work = .timer ∧
          d.counter Cnt.delayPosted = s.dev.counter Cnt.delayPosted + 1 ∧
          d.counter Cnt.itemCreated = s.dev.counter Cnt.itemCreated + 1) ∧
      (s.dev.poolFor .device = none →
        ∃ d : Dev, Gives (.delayPost l delay key) s d ∧
          d.tsk = { s.dev.tsk with deferred := s.dev.tsk.deferred ++ [(.timer, key.toNat)] } ∧
          d.bit Reg.tskStat_dev_defer = true ∧ d.counter Cnt.deferDev = s.dev.counter Cnt.deferDev + 1)) ∧
    (∀ e : Dev, s.dev.reachCycle (delayTickCycles * (s.dev.tsk.dtick + 1)) = some e →
      ((∀ i ∈ s.dev.tsk.items, ∀ l t, i.state = .delayed l t → s.dev.tsk.dtick + 1 < t) →
        Gives .delayTick s { e with tsk := { s.dev.tsk with dtick := s.dev.tsk.dtick + 1 } }) ∧
      (∀ (i : Item) (l : Fin 8) (t : Nat), s.dev.tsk.items = [i] → i.state = .delayed l t → t ≤ s.dev.tsk.dtick + 1 →
        s.dev.tsk.waiting = [] →
        Gives .delayTick s (({ e with tsk := { s.dev.tsk with
          dtick := s.dev.tsk.dtick + 1, nextOrd := s.dev.tsk.nextOrd + 1,
          items := [{ i with state := .ready, staged := false, order := s.dev.tsk.nextOrd }] } } : Dev).bump Cnt.delayDue))) ∧
    (∀ (i : Item) (e : Dev), s.dev.tsk.items = [i] → i.state = .running w → s.dev.tsk.waiting = [] →
      s.dev.reachCycle (i.since + s.dev.watchdogCycles) = some e →
      (i.excluded = [] → s.dev.cfgFld Reg.tskWdcfg_retire = 0 →
        ∃ d : Dev, Gives (.watchdogFire w) s d ∧ d.tim = e.tim ∧
          d.tsk = { s.dev.tsk with items := [{ i with state := .ready, excluded := [w] }], hangs := w :: s.dev.tsk.hangs } ∧
          d.counter Cnt.wdFire = s.dev.counter Cnt.wdFire + 1 ∧ d.bit Reg.tskStat_wd_fire = true ∧
          d.fld (Reg.tskWstat_state w) = 2) ∧
      (∀ v, v ≠ w → i.excluded = [v] → s.dev.cfgFld Reg.tskWdcfg_retire = 1 →
        ∃ d : Dev, Gives (.watchdogFire w) s d ∧ d.tsk.items = [] ∧
          d.counter Cnt.itemAbandon = s.dev.counter Cnt.itemAbandon + 1 ∧
          d.counter Cnt.itemReleased = s.dev.counter Cnt.itemReleased + 1 ∧ d.bit Reg.tskStat_abandon = true ∧
          d.counter Cnt.workerRetired = s.dev.counter Cnt.workerRetired + 1 ∧ d.fld (Reg.tskWstat_state w) = 3)) ∧
    (∀ i : Item, s.dev.runningItem w = some i → s.dev.reachCycle (i.since + s.dev.watchdogCycles) = none →
      Gives (.watchdogFire w) s s.dev) ∧
    (s.dev.fld (Reg.tskWstat_state w) = 2 → s.dev.tsk.items = [] →
      Gives (.workerResetDone w) s (({ s.dev with tsk := { s.dev.tsk with
        waiting := s.dev.tsk.waiting.filter (· != w) ++ [w] } } : Dev).setFld (Reg.tskWstat_state w) 0))

/-! ## DRAM -/

/-- A read whose codewords are all without error leaves its port; one with an uncorrectable codeword counts and logs it at WR_PTR
(R374, R378); a read-modify-write that meets one leaves the block poisoned (R375). A write stores the block, and no other. The
scrubber visits block after block at its interval while it is enabled, and begins again after the last (R376). A corrected SRAM
upset counts (R395). -/
def Obligations.DramAccesses : Prop :=
  ∀ s : State, Up s →
    (∀ (r : DramReq) (l : List Codeword), s.dev.dmc.reqs = [r] → s.dev.dmc.waiting = [] → s.dev.dmc.unissued = [] →
      s.dev.dmc.inorder = [] → s.dev.dmc.recovery = none → r.block.toNat ∉ s.dev.dmc.poison →
      (r.write = false → badWords (s.dev.checkWords l).2 = [] → fixedWords (s.dev.checkWords l).2 = 0 →
        ∃ d : Dev, Gives (.dramReadDone [] r.id l) s d ∧ d.dmc.reqs = [] ∧ d.dmc.blocks = s.dev.dmc.blocks ∧
          d.dmc.poison = s.dev.dmc.poison ∧ d.regs = s.dev.regs ∧
          ∀ c, d.counter c = if c = Cnt.rdBlocks then s.dev.counter c + 1 else s.dev.counter c) ∧
      (∀ a b t, r.write = false → r.use = .other → badWords (s.dev.checkWords l).2 = (a, b) :: t →
        let n := s.dev.fld Reg.dmcErrstat_wr_ptr
        ∃ d : Dev, Gives (.dramReadDone [] r.id l) s d ∧ d.dmc.reqs = [] ∧ d.dmc.blocks = s.dev.dmc.blocks ∧
          d.bit Reg.dmcStat_ue = true ∧
          d.counter Cnt.ue = s.dev.counter Cnt.ue + BitVec.ofNat 64 (t.length + 1) ∧
          d.reg (Reg.dmcErrlogAddr n) = r.block.setWidth 32 ∧
          d.reg (Reg.dmcErrlogInfo n) =
            BitVec.ofNat 32 (logInfo 1 r.port r.rank.toNat r.bg.toNat r.bank.toNat b a) ∧
          d.bit (Reg.dmcErrlogCnt_valid n) = true ∧ d.fld Reg.dmcErrstat_wr_ptr = (n + 1) % 16) ∧
      (∀ a b t, r.write = true → r.whole = false → badWords (s.dev.checkWords l).2 = (a, b) :: t →
        ∃ d : Dev, Gives (.dramReadDone [] r.id l) s d ∧ d.dmc.reqs = [] ∧ d.dmc.blocks = s.dev.dmc.blocks ∧
          (∀ k, k ∈ d.dmc.poison ↔ k = r.block.toNat ∨ k ∈ s.dev.dmc.poison) ∧
          d.counter Cnt.rmw = s.dev.counter Cnt.rmw + 1) ∧
      (r.write = true → r.whole = true →
        ∃ d : Dev, Gives (.dramWriteRetire [] r.id) s d ∧ d.dmc.reqs = [] ∧
          Sparse.get 0 d.dmc.blocks r.block.toNat = r.data ∧
          (∀ k, k ≠ r.block.toNat → Sparse.get 0 d.dmc.blocks k = Sparse.get 0 s.dev.dmc.blocks k) ∧
          d.dmc.poison = s.dev.dmc.poison ∧
          d.counter Cnt.wrBlocks = s.dev.counter Cnt.wrBlocks + 1)) ∧
    (∀ (block : BitVec 29) (l : List Codeword),
      let c := s.dev.dmc.scrubFrom + s.dev.scrubCycles
      (s.dev.reachCycle c = none → Gives (.scrubVisit block l) s s.dev) ∧
      ∀ e : Dev, s.dev.reachCycle c = some e →
        let d := ({ e with dmc := { e.dmc with scrubFrom := c } } : Dev).applyBoundary .scrub
        (d.cfgBit Reg.dmcScrubcfg_en = false → Gives (.scrubVisit block l) s d) ∧
        (d.cfgBit Reg.dmcScrubcfg_en = true → s.dev.dmc.reqs = [] → block.toNat ∉ s.dev.dmc.poison →
          badWords (d.checkWords l).2 = [] → fixedWords (d.checkWords l).2 = 0 →
          let x := (d.checkWords l).1
          (s.dev.dmc.scrubPos + 1 < s.dev.areaBlocks →
            Gives (.scrubVisit block l) s { x with dmc := { x.dmc with scrubPos := s.dev.dmc.scrubPos + 1 } }) ∧
          (s.dev.areaBlocks ≤ s.dev.dmc.scrubPos + 1 →
            Gives (.scrubVisit block l) s (({ x with dmc := { x.dmc with scrubPos := 0 } } : Dev).bump Cnt.scrubPass)))) ∧
    Gives (.sramPatrol true) s (s.dev.bump Cnt.sramCe) ∧ Gives (.sramPatrol false) s s.dev

/-- In the Full configuration ALERT_N starts a replay; in the Compact one a read in flight is answered with an error (R379 to R381).
ALERT_N high replays the rank's retry buffer, and its entries retire one by one. A port's urgency follows the age of its oldest
request when it reaches the next threshold, and reaching 3 counts (R387). A refresh that is due is postponed at urgency 3, at most
4 times (R388). A training result waits for refresh; one lane that moved too far makes it suspect (R392, R393). -/
def Obligations.DramRecoveryAndRefresh : Prop :=
  ∀ (s : State) (rank : Bool), Up s →
    (s.dev.fullConf = true → s.dev.dmc.recovery = none →
      Gives (.alertNFall [] rank) s
        { (s.dev.bump Cnt.caAlert) with dmc := { s.dev.dmc with recovery := some ⟨rank, 1, true, 0⟩ } }) ∧
    (∀ r : DramReq, s.dev.fullConf = false → s.dev.dmc.reqs = [r] → r.write = false → r.use = .other →
      s.dev.dmc.waiting = [] →
      ∃ d : Dev, Gives (.alertNFall [] rank) s d ∧ d.dmc.reqs = [] ∧ d.dmc.blocks = s.dev.dmc.blocks ∧
        d.dmc.recovery = some ⟨rank, 3, true, 0⟩ ∧ d.bit Reg.dmcStat_ca_fail = true ∧
        d.counter Cnt.caFail = s.dev.counter Cnt.caFail + 1 ∧ d.counter Cnt.caAlert = s.dev.counter Cnt.caAlert + 1) ∧
    (∀ c : Recovery, s.dev.dmc.recovery = some c → c.low = true →
      (3 ≤ c.alerts → Gives .alertNRise s { s.dev with dmc := { s.dev.dmc with recovery := none } }) ∧
      (c.alerts < 3 →
        let n := (s.dev.retryBuf c.rank).length
        ∃ d : Dev, Gives .alertNRise s d ∧ d.bit Reg.dmcStat_replay = true ∧
          d.counter Cnt.caReplayedCmds = s.dev.counter Cnt.caReplayedCmds + BitVec.ofNat 64 n ∧
          d.dmc = { s.dev.dmc with recovery := if n = 0 then none else some { c with low := false, left := n } })) ∧
    (∀ (x : DramReq) (t : List DramReq), s.dev.retryBuf rank = x :: t → s.dev.dmc.unissued = [] →
      (s.dev.dmc.recovery = none → Gives (.retryEntryRetire rank) s (s.dev.setRetry rank t)) ∧
      (∀ c : Recovery, s.dev.dmc.recovery = some c → c.rank = rank → c.low = false → c.left = 1 →
        let d := s.dev.setRetry rank t
        Gives (.retryEntryRetire rank) s { d with dmc := { d.dmc with recovery := none } })) ∧
    (∀ (k : Fin 8) (c0 : Nat), s.dev.oldestReq k = some c0 →
      let t := max 100 (s.dev.fld (Reg.dmcPortcfg_target k))
      let old := Sparse.get 0 s.dev.dmc.urgency k
      let c := c0 + urgencyCycles t (min 3 (old + 1))
      (s.dev.reachCycle c = none → Gives (.urgencyChange [] k) s s.dev) ∧
      ∀ e : Dev, s.dev.reachCycle c = some e →
        let age := 5 * (e.tim.cyc - c0)
        ∃ (d : Dev) (u : Nat), Gives (.urgencyChange [] k) s d ∧ d.tim = e.tim ∧
          d.dmc = { s.dev.dmc with urgency := Sparse.put 0 s.dev.dmc.urgency k u } ∧
          (4 * age < 6 * t → u = 1) ∧ (6 * t ≤ 4 * age → age < 2 * t → u = 2) ∧
          (2 * t ≤ age → u = 3) ∧
          d.counter (Cnt.lateP k) = (if 2 * t ≤ age ∧ old ≠ 3 then s.dev.counter (Cnt.lateP k) + 1
            else s.dev.counter (Cnt.lateP k))) ∧
    (let c := (if rank then s.dev.dmc.refFrom1 else s.dev.dmc.refFrom0) + s.dev.refreshCycles;
      (s.dev.reachCycle c = none → Gives (.refresh rank) s s.dev) ∧
      ∀ e : Dev, s.dev.reachCycle c = some e →
        let n := if rank then s.dev.dmc.postponed1 else s.dev.dmc.postponed0;
        let At (v : Nat) : Dmc := { s.dev.dmc with
          refFrom0 := if rank then s.dev.dmc.refFrom0 else c, refFrom1 := if rank then c else s.dev.dmc.refFrom1,
          postponed0 := if rank then s.dev.dmc.postponed0 else v, postponed1 := if rank then v else s.dev.dmc.postponed1 }
        ((∃ x ∈ s.dev.dmc.urgency, x.2 = 3) → n < 4 →
          Gives (.refresh rank) s (({ e with dmc := At (n + 1) } : Dev).bump Cnt.refPostponed)) ∧
        ((∀ x ∈ s.dev.dmc.urgency, x.2 ≠ 3) ∨ 4 ≤ n → s.dev.dmc.run = none →
          Gives (.refresh rank) s { e with dmc := At 0 }) ∧
        (∀ (run : TrainRun) (l : List Int), (∀ x ∈ s.dev.dmc.urgency, x.2 ≠ 3) ∨ 4 ≤ n → s.dev.dmc.run = some run →
          run.result = some (l, [rank]) → run.joined = [] → s.dev.dmc.recovery = none →
          ∃ d : Dev, Gives (.refresh rank) s d ∧ d.dmc = { At 0 with run := none, taps := addTaps s.dev.dmc.taps l } ∧
            d.bit Reg.dmcStat_train_applied = true ∧ d.fld Reg.dmcStat_train = 0 ∧
            d.fld Reg.dmcTemp_last = run.temp.toNat ∧ d.counter Cnt.retrainRun = s.dev.counter Cnt.retrainRun + 1)) ∧
    (∀ (run : TrainRun) (l : List Int), s.dev.dmc.run = some run → run.result = none →
      ((∀ x ∈ l, x.natAbs ≤ 16) →
        Gives (.retrainMeasured l) s (({ s.dev with dmc := { s.dev.dmc with run := some { run with
          result := some (l, if s.dev.fullConf then [false, true] else [false]) } } } : Dev).setFld Reg.dmcStat_train 2)) ∧
      ((∃ x ∈ l, 16 < x.natAbs) → run.suspect = false →
        Gives (.retrainMeasured l) s { ((s.dev.raise Reg.dmcStat_train_suspect).bump Cnt.trainSuspect) with
          dmc := { s.dev.dmc with run := some { run with suspect := true } } }))

/-! ## Rings and the host -/

/-- A poll of the doorbell page whose time in the slot has come takes the host index of every ring in use but ring 2; an index out of
range halts its ring (R402, R403). A TX descriptor moves its ring on and enters PPL, is refused, or halts the ring when its payload
cannot be read (R417, R418). A moderated interrupt is sent when its delay ends, or waits as pending where its entry is masked
(R407). The status word of a running operation is written again (R414). A DMA error halts its ring (R422). -/
def Obligations.RingEvents : Prop :=
  ∀ s : State, Up s → s.dev.devState = dsHosted →
    (∀ p : PollRead, s.dev.hif.attachDue = false → s.dev.hif.polls < s.dev.pollsPerSlot →
      s.dev.tickTai s.dev.tim.slotS +
        (2500000 * s.dev.hif.polls + s.dev.pollsPerSlot - 1 : Nat) / s.dev.pollsPerSlot ≤ s.dev.tai →
      ∃ d : Dev, Gives (.doorbellPoll p) s d ∧ d.counter Cnt.dbPoll = s.dev.counter Cnt.dbPoll + 1 ∧
        ∀ i, ringExists i = true → i ≠ 2 → s.dev.ringLive i = true →
          let v := (p.words.getD (doorbellWord i) 0).toNat
          ((s.dev.ring i).host ≤ v → v ≤ s.dev.ringLimit i → (d.ring i).host = v ∧ d.ringLive i = true ∧
            (32 ≤ i → (d.ring i).posts.length = (s.dev.ring i).posts.length + (v - (s.dev.ring i).host))) ∧
          (v < (s.dev.ring i).host ∨ s.dev.ringLimit i < v →
            (d.ring i).host = (s.dev.ring i).host ∧ (d.ring i).halted = true)) ∧
    (∀ (t : Fin 16) (desc : List Byte) (u : List (Fin 5)), s.dev.hif.fetchStop = false →
      s.dev.ringLive (16 + t.val) = true → (s.dev.ring (16 + t.val)).dev < (s.dev.ring (16 + t.val)).host →
      s.dev.hif.txWait = [] →
      let i := 16 + t.val
      let k := (s.dev.ring i).dev
      let m := (s.dev.withUpsets u).setRingDev i (k + 1)
      let e := m.setRing i { s.dev.ring i with dev := k + 1, back := (s.dev.ring i).back ++ [k] }
      (s.dev.txOk desc = false → ∀ b, Gives (.txDescriptor t desc b u) s ((e.txDone t k e.hif.epoch stBadParam 0).txViolation t)) ∧
      (s.dev.txOk desc = true →
        Gives (.txDescriptor t desc .err u) s (e.ringDmaError i) ∧
        (∀ b, leAt desc 10 1 / 16 = 0 → Gives (.txDescriptor t desc (.ok b) u) s
          (e.txFrame t k (leAt desc 11 1 / 64) (leAt desc 11 1 % 8)
            (if (leAt desc 10 1).testBit 3 then some (BitVec.ofNat 16 (leAt desc 12 4 / 65536)) else none)
            (fit (leAt desc 8 2) b))) ∧
        (∀ b, leAt desc 10 1 / 16 = 1 → Gives (.txDescriptor t desc (.ok b) u) s
          (e.txDownlink t k desc (fit (leAt desc 8 2) b))))) ∧
    (∀ i, (s.dev.ring i).modWait = true →
      let c := (s.dev.ring i).modFrom + cyclesPerUs * s.dev.fld (Reg.hifRingCfg_mod_us i)
      let v := s.dev.fld (Reg.hifRingCfg_vector i)
      (s.dev.reachCycle c = none → Gives (.msixModerationExpiry i) s s.dev) ∧
      ∀ e : Dev, s.dev.reachCycle c = some e →
        let d := e.setRing i { s.dev.ring i with modWait := false }
        ((s.dev.reg (Reg.msixTable v 3)).getLsbD 0 = false →
          Gives (.msixModerationExpiry i) s ((d.out (.msix v)).bump Cnt.msixSent)) ∧
        ((s.dev.reg (Reg.msixTable v 3)).getLsbD 0 = true →
          Gives (.msixModerationExpiry i) s (d.setReg (Reg.msixPba 0) (s.dev.reg (Reg.msixPba 0) ||| (1 <<< v))))) ∧
    (∀ (op : Half) (r : Running), s.dev.hif.runs = [r] → r.cmd.opcode = op → r.long = true → r.cmd.hdr.statusAddr ≠ 0 →
      r.cmd.epoch = s.dev.hif.epoch →
      let r' : Running := { r with upd := r.upd + 1 }
      Gives (.statusWordUpdate op) s
        { s.dev.out (.hostWrite r.cmd.hdr.statusAddr.toNat (statusWord r' stInProgress)) with
          hif := { s.dev.hif with runs := [r'] } }) ∧
    (∀ i, ringExists i = true → s.dev.ringLive i = true →
      ∃ d : Dev, Gives (.dmaError i) s d ∧ (d.ring i).halted = true ∧ d.bit (Reg.hifRingStat_err i) = true ∧
        d.bit Reg.hifStat_dma_err = true ∧ d.bit Reg.hifStat_ring_err = true ∧
        d.counter Cnt.vDmaError = s.dev.counter Cnt.vDmaError + 1)

/-! ## Ethernet ports -/

/-- Nothing is received while the link is down; a bad frame is counted under its first cause, and is dropped unless it was cut
through before its end (R286, R292); a PAUSE frame sets the time to pause (R297); a good frame is counted, classified and, unless it
is cut through, kept until its copies find room. In XOFF each interval sends a pause that shrinks as the buffer drains, and 0
once LOW is reached (R294, R295). A pause ends with its time, or as a storm, and a storm after one second (R297, R298). -/
def Obligations.FramesAndPause : Prop :=
  ∀ (s : State) (p : PortId), Up s →
    (∀ (f : EthRx) (u : List (Fin 5)),
      let d := s.dev.withUpsets u
      let n := f.bytes.length + 4
      (s.dev.linkUp p = false → Gives (.frameReceived p f u) s d) ∧
      (s.dev.linkUp p = true →
        let early (b : List Byte) : Bool := d.classifiedEarly b
        (n < 64 → Gives (.frameReceived p f u) s (d.bump (Cnt.rxRunt p))) ∧
        (64 ≤ n → s.dev.maxLen p < n →
          (∃ x : Dev, Gives (.frameReceived p f u) s x ∧
            x.counter (Cnt.rxOversize p) = s.dev.counter (Cnt.rxOversize p) + 1) ∧
          (early (f.bytes.take (s.dev.maxLen p - 3)) = false →
            Gives (.frameReceived p f u) s (d.bump (Cnt.rxOversize p)))) ∧
        (64 ≤ n → n ≤ s.dev.maxLen p → f.codeErr = true →
          (∃ x : Dev, Gives (.frameReceived p f u) s x ∧
            x.counter (Cnt.rxCodeErr p) = s.dev.counter (Cnt.rxCodeErr p) + 1) ∧
          (early f.bytes = false → Gives (.frameReceived p f u) s (d.bump (Cnt.rxCodeErr p)))) ∧
        (64 ≤ n → n ≤ s.dev.maxLen p → f.codeErr = false → f.fcs.toNat ≠ ethFcs f.bytes →
          (∃ x : Dev, Gives (.frameReceived p f u) s x ∧
            x.counter (Cnt.rxFcsErr p) = s.dev.counter (Cnt.rxFcsErr p) + 1) ∧
          (early f.bytes = false → Gives (.frameReceived p f u) s (d.bump (Cnt.rxFcsErr p)))) ∧
        (64 ≤ n → n ≤ s.dev.maxLen p → f.codeErr = false → f.fcs.toNat = ethFcs f.bytes →
          (beAt f.bytes 12 2 = 0x8808 → beAt f.bytes 14 2 ≠ 1 →
            Gives (.frameReceived p f u) s (d.bump (Cnt.rxCtrlOther p))) ∧
          (beAt f.bytes 12 2 = 0x8808 → beAt f.bytes 14 2 = 1 → n = 64 → s.dev.bit (Reg.ethPausecfg_rx_en p) = true →
            s.dev.bit (Reg.ethStat_storm p) = false → s.dev.paused p = false →
            Gives (.frameReceived p f u) s (((d.bump (Cnt.rxPause p)).modPort p fun x => { x with
              pauseLeft := beAt f.bytes 16 2, pauseFrom := s.dev.tim.cyc, heldFrom := s.dev.tim.cyc }).setBit
                (Reg.ethStat_paused p) (beAt f.bytes 16 2 != 0))) ∧
          (beAt f.bytes 12 2 ≠ 0x8808 →
            (s.dev.occ p + n ≤ 524288 →
              let c := (d.bump (Cnt.rxOk p)).bumpBy (Cnt.rxBytes p) n
              let o := c.pplFrame (c.ethMsg p f) (some p) none fun d x => d.learn x p f.hostMac f.hostIp6
              let e := o.1.modPort p fun x => { x with inBuf := x.inBuf ++ [⟨n, c.curVer, .eth p, o.2⟩] }
              ((∀ x q g, o.2 = [.port x q g] → o.1.cutsThrough p x q g = false) →
                Gives (.frameReceived p f u) s ((Dev.pumpIn p ((e.port p).inBuf.length + 1) e).xoffCheck p)) ∧
              (∀ x q g, o.2 = [.port x q g] → o.1.cutsThrough p x q g = true →
                Gives (.frameReceived p f u) s (o.1.cutThrough x q g false))) ∧
            (524288 < s.dev.occ p + n → (s.dev.port p).xoffIntervals < 2 →
              Gives (.frameReceived p f u) s (d.bump (Cnt.dropInFull p))))))) ∧
    (∀ e : Dev, s.dev.bit (Reg.ethStat_xoff p) = true → s.dev.bit (Reg.ethPausecfg_tx_en p) = true →
      s.dev.reachCycle ((s.dev.port p).xoffFrom + s.dev.quantaCycles p 2048) = some e →
      (s.dev.occ p ≤ s.dev.low p →
        Gives (.pauseInterval p) s ((e.setBit (Reg.ethStat_xoff p) false).modPort p fun x => { x with
          xoffFrom := e.tim.cyc, pauseQ := x.pauseQ ++ [0] })) ∧
      (s.dev.low p < s.dev.occ p →
        ∃ q, q ≤ 2048 ∧ (s.dev.high p ≤ s.dev.occ p → q = 2048) ∧
          Gives (.pauseInterval p) s (e.modPort p fun x => { x with
            xoffFrom := e.tim.cyc, pauseQ := x.pauseQ ++ [q], xoffIntervals := min 2 (x.xoffIntervals + 1) }))) ∧
    (∀ e : Dev, let n := s.dev.quantaCycles p (s.dev.port p).pauseLeft
      s.dev.paused p = true → s.dev.reachCycle ((s.dev.port p).pauseFrom.toNat + n) = some e →
      Gives (.pauseExpiry p) s (((e.bumpBy (Cnt.pausedUs p) (n / cyclesPerUs)).setBit
        (Reg.ethStat_paused p) false).modPort p fun x => { x with pauseLeft := 0 })) ∧
    (∀ e : Dev, s.dev.paused p = true → s.dev.fld (Reg.ethPausecfg_storm_ms p) ≠ 0 →
      s.dev.reachCycle ((s.dev.port p).heldFrom + s.dev.fld (Reg.ethPausecfg_storm_ms p) * cyclesPerMs) = some e →
      ∃ d : Dev, Gives (.pauseStorm p) s d ∧ d.paused p = false ∧ d.bit (Reg.ethStat_storm p) = true ∧
        (d.port p).pauseLeft = 0 ∧ d.counter (Cnt.vPauseStorm p) = s.dev.counter (Cnt.vPauseStorm p) + 1 ∧
        (d.port p).queues = (s.dev.port p).queues) ∧
    (∀ e : Dev, s.dev.bit (Reg.ethStat_storm p) = true → s.dev.reachCycle ((s.dev.port p).stormFrom + cyclesPerS) = some e →
      Gives (.stormEnd p) s (e.setBit (Reg.ethStat_storm p) false))

/-- At a frame boundary the frame in progress has left, a waiting PAUSE goes ahead of every queue, and Q7 goes ahead of the others
(R307). A gate list that waits comes into force at its start (R310), which the 48-bit seconds hold. Every tick of the shapers fills each bucket at its rate, up to
BURST (R313). -/
def Obligations.EgressResult : Prop :=
  ∀ (s : State) (p : PortId), Up s →
    (∀ e : Dev, s.dev.linkUp p = true → s.dev.bit (Reg.tshGclCfg_en p) = false →
      s.dev.reachCycle (s.dev.port p).busyUntil = some e →
      (∀ n t, (s.dev.port p).sending = none → (s.dev.port p).pauseQ = n :: t →
        Gives (.frameBoundary p) s ((((e.modPort p fun x => { x with pauseQ := t }).txBusy p 64).out
          (.eth p (s.dev.pauseFrame n) false)).bump (Cnt.txPause p))) ∧
      (∀ q f, (s.dev.port p).sending = some (q, f) → (s.dev.port p).pauseQ = [] → (s.dev.port p).queues = [] → f.src = .air →
        f.stomp = false →
        ∃ d : Dev, Gives (.frameBoundary p) s d ∧ (d.port p).sending = none ∧
          d.outs = .eth p (f.bytes ++ List.replicate (60 - f.bytes.length) 0) false :: s.dev.outs ∧
          d.counter (Cnt.qTx p q) = s.dev.counter (Cnt.qTx p q) + 1 ∧
          d.counter (Cnt.txOk p) = s.dev.counter (Cnt.txOk p) + 1) ∧
      (∀ f t, (s.dev.port p).sending = none → (s.dev.port p).pauseQ = [] → s.dev.paused p = false →
        (s.dev.queue p 7).frames = f :: t → (s.dev.queue p 7).shapeOn = false → f.held = false → f.tsId = none →
        f.resid = none → f.own = none →
        Gives (.frameBoundary p) s (((e.setQueue p 7 { s.dev.queue p 7 with frames := t }).modPort p fun x => { x with
          sending := some (7, f) }).txBusy p f.len))) ∧
    (s.dev.bit (Reg.tshGclCfg_en p) = false → (s.dev.port p).pendGates = none → Gives (.gateEntryChange p) s s.dev) ∧
    (∀ g : GateList, (s.dev.port p).pendGates = some g →
      let take (d : Dev) : Dev := (d.modPort p fun x => { x with gates := some g, pendGates := none }).setBit
        (Reg.tshGclCfg_pending p) false
      (g.start ≤ s.dev.tai → Gives (.gateEntryChange p) s (take s.dev)) ∧
      (s.dev.tai < g.start → g.start < s.dev.tickTai s.dev.nextS → g.start < 281474976710656 * 1000000000 →
        (s.dev.port p).gates = none →
        Gives (.gateEntryChange p) s (take (s.dev.reachTai g.start)))) ∧
    (∀ e : Dev, s.dev.reachCycle (400 * (s.dev.eth.refills + 1)) = some e →
      ∃ d : Dev, Gives .shaperRefill s d ∧ d.regs = s.dev.regs ∧ d.counters = s.dev.counters ∧ d.tim = e.tim ∧
      ∀ (o : PortId) (q : Nat), q < 8 →
        let x := s.dev.queue o q
        let y := d.queue o q
        let cap : Int := 8 * orElse0 (s.dev.fld (Reg.tshShape_burst o q)) 1
        y.frames = x.frames ∧ y.deficit = x.deficit ∧ y.shapeOn = s.dev.bit (Reg.tshShape_en o q) ∧
        (y.shapeOn = true → x.shapeOn = false → y.tokens = cap) ∧
        (y.shapeOn = true → x.shapeOn = true →
          y.tokens = min cap (x.tokens + clampNat 1 10000 (s.dev.fld (Reg.tshShape_rate o q)))))

/-! ## Links, the pair, MDIO and the tables' upkeep -/

/-- A link that is lost clears its status and drops what the port holds, or hands it to the pair's other member (R282, R283, R302); a
link that comes up shows its MODE. The load of a second steps the pair's rate (R303); a step goes through the change of MODE 10 ms
after it is announced, or ends 100 ms later without it (R304, R306). A flow move ends once what it waits for has left. MDIO gives
its data (R284). A visit of the aging sweep that is due clears HIT, keeps an entry that is hit in the same cycle, and removes an
entry at the second visit without a hit (R276, R277). A static entry that was lost comes back from its copy (R273). A standalone
port tries the next mode after a second (R468). -/
def Obligations.LinksAndTables : Prop :=
  ∀ (s : State) (p : PortId), Up s →
    (s.dev.linkUp p = true → (s.dev.port p).tryMode = none →
      (s.dev.pairOn = false →
        ∃ d : Dev, Gives (.linkDown p) s d ∧ d.linkUp p = false ∧ d.bit (Reg.ethStat_link_chg p) = true ∧
          (d.port p).sending = none ∧ (∀ q, (d.queue p q).frames = []) ∧
          d.counter (Cnt.linkDown p) = s.dev.counter (Cnt.linkDown p) + 1) ∧
      (s.dev.pairOn = true → s.dev.eth.pairStep = none →
        ∃ d : Dev, Gives (.linkDown p) s d ∧ d.linkUp p = false ∧ (d.port p).sending = none ∧
          d.counter Cnt.linkFailover = s.dev.counter Cnt.linkFailover + 1 ∧
          ∀ q, q < 8 → (∀ k f, (s.dev.port p).sending = some (k, f) → k ≠ q) →
            ((d.queue (otherPort p) q).frames.map fun f => f.bytes) =
              ((s.dev.queue p q).frames.map fun f => f.bytes) ++ (s.dev.queue (otherPort p) q).frames.map fun f => f.bytes)) ∧
    (s.dev.linkUp p = false → 3 ≤ s.dev.fld (Reg.ethCfg_mode p) → s.dev.fld (Reg.ethCfg_mode p) ≤ 4 → s.dev.pairOn = false →
      ∃ d : Dev, Gives (.linkUp p) s d ∧ d.linkUp p = true ∧
        d.fld (Reg.ethStat_rate p) = s.dev.fld (Reg.ethCfg_mode p) ∧ d.bit (Reg.ethStat_an_done p) = true ∧
        d.port p = s.dev.port p) ∧
    (∀ (rx tx : Nat) (e : Dev), s.dev.reachCycle (s.dev.eth.loadFrom + cyclesPerS) = some e →
      (s.dev.pairOn = false → Gives (.loadWindow rx tx) s { e with eth := { e.eth with loadFrom := e.tim.cyc } }) ∧
      (s.dev.pairOn = true → Reg.ethPaircfg_step_en.of s.dev.pairWord = 1 → s.dev.eth.pairStep = none →
        s.dev.eth.moving = none → s.dev.fld (Reg.ethCfg_mode 0) = 2 → s.dev.fld (Reg.ethCfg_mode 1) = 2 →
        s.dev.linkUp 0 = true → s.dev.linkUp 1 = true → (s.dev.port 1).queues = [] → (s.dev.port 1).sending = none →
        Reg.ethPaircfg_up_pct.of s.dev.pairWord * 5000000000 < max rx tx * 100 →
        ∃ d : Dev, Gives (.loadWindow rx tx) s d ∧ d.eth.pairStep = some ⟨1, .announce, 1, 2, e.tim.cyc⟩ ∧
          d.outs = .remoteFault 1 :: s.dev.outs)) ∧
    (∀ m : FlowMove, s.dev.eth.moving = some m → s.dev.eth.pairStep = none →
      (s.dev.markedOn (otherPort m.dest) = true → Gives .flowMoveComplete s s.dev) ∧
      (s.dev.markedOn (otherPort m.dest) = false →
        ∃ d : Dev, Gives .flowMoveComplete s d ∧ d.eth.moving = none ∧
          ∀ (o : PortId) (q : Nat), ∀ f ∈ (d.queue o q).frames, f.held = false ∧ f.marked = false)) ∧
    (∀ (x : PairStep) (e : Dev), s.dev.eth.pairStep = some x →
      (x.phase = .announce → x.newMode < 8 → s.dev.reachCycle (x.since + 10 * cyclesPerMs) = some e →
        ∃ d : Dev, Gives .pairStepChange s d ∧ d.fld (Reg.ethCfg_mode x.member) = x.newMode ∧ d.linkUp x.member = false ∧
          d.eth.pairStep = some { x with phase := .change, since := e.tim.cyc }) ∧
      (x.phase = .change → x.oldMode < 8 → s.dev.reachCycle (x.since + 100 * cyclesPerMs) = some e →
        ∃ d : Dev, Gives .pairStepTimeout s d ∧ d.fld (Reg.ethCfg_mode x.member) = x.oldMode ∧
          d.bit (Reg.ethStat_rate_fail x.member) = true ∧ d.bit Reg.ethPaircfg_step_en = false ∧ d.eth.pairStep = none)) ∧
    (s.dev.bit Reg.ethMdio_busy = true → ∀ (ack : Bool) (data : BitVec 16),
      let d := s.dev.setBit Reg.ethMdio_busy false
      (s.dev.eth.mdioRead = false → Gives (.mdioFrameDone ack data) s d) ∧
      (s.dev.eth.mdioRead = true →
        Gives (.mdioFrameDone ack data) s ((d.setBit Reg.ethMdio_noack (!ack)).setFld Reg.ethMdio_data data.toNat))) ∧
    (∀ (k : Nat) (e : MacEntry) (d : Dev), s.dev.bit (Reg.fwdTblcfg_age_en 0) = true → s.dev.macAt k = some e →
      s.dev.reachCycle (s.dev.fwd.macSwept + s.dev.ageCycles 0) = some d →
      let y : Dev := { d with fwd := { d.fwd with macSwept := d.tim.cyc } }
      Gives (.agingVisit 0 k true) s (y.setMac k (some { e with hit := true, clear := 0 })) ∧
      (e.stat = true → Gives (.agingVisit 0 k false) s y) ∧
      (e.stat = false →
        (e.hit = true → Gives (.agingVisit 0 k false) s (y.setMac k (some { e with hit := false }))) ∧
        (e.hit = false → e.clear = 0 → Gives (.agingVisit 0 k false) s (y.setMac k (some { e with clear := 1 }))) ∧
        (e.hit = false → e.clear = 1 → Gives (.agingVisit 0 k false) s ((y.setMac k none).bump Cnt.agedMac)))) ∧
    (∀ (k : Nat) (e : Ip6Entry) (d : Dev), s.dev.bit (Reg.fwdTblcfg_age_en 1) = true → s.dev.ip6At k = some e →
      s.dev.reachCycle (s.dev.fwd.ip6Swept + s.dev.ageCycles 1) = some d →
      let y : Dev := { d with fwd := { d.fwd with ip6Swept := d.tim.cyc } }
      Gives (.agingVisit 1 k true) s (y.setIp6 k (some { e with hit := true, clear := 0 })) ∧
      (e.stat = false → e.hit = false → e.clear = 1 → Gives (.agingVisit 1 k false) s ((y.setIp6 k none).bump Cnt.agedIp6))) ∧
    (∀ k e, Sparse.get none s.dev.fwd.lostMac k = some e →
      ∃ d : Dev, Gives (.staticRestore 0 k) s d ∧ d.macAt k = some e ∧ Sparse.get none d.fwd.lostMac k = none) ∧
    (∀ m (e : Dev), (s.dev.port p).tryMode = some m → s.dev.devState = dsStandalone → s.dev.linkUp p = false →
      s.dev.reachCycle ((s.dev.port p).tryFrom + cyclesPerS) = some e →
      ∃ d : Dev, Gives (.standaloneModeTry p) s d ∧ d.fld (Reg.ethCfg_mode p) = m % 3 + 1 ∧
        (d.port p).tryMode = some (m % 3 + 1))

/-! ## The network clock -/

/-- A master port sends Sync and Announce, a slave port Delay_Req, at their intervals (R230). An edge of PPS_IN of the other polarity
is ignored; one whose pulse is short is refused and counted; an accepted one gives the servo an offset when PPS is the source
(R229, R247). PPS_OUT rises once in a second while its mode lets it, and falls when its width is over (R248). A LOCKED servo that
loses its source holds over (R232). A port whose master falls silent and that knows no other is a slave port no longer (R230). -/
def Obligations.NetworkClock : Prop :=
  ∀ (s : State) (p : PortId), Up s →
    (let x := s.dev.ptpPort p;
      (s.dev.masterPort p = true →
        let a := s.dev.setPtp p { x with seqSync := x.seqSync + 1 }
        let b := s.dev.setPtp p { x with seqAnn := x.seqAnn + 1 }
        Gives (.ptpIntervalExpiry p 0) s
          (a.ptpSend p (a.ptpMsg p 0 2 x.seqSync.toNat a.logSync (List.replicate 8 0) (List.replicate 10 0)) (some 0)) ∧
        Gives (.ptpIntervalExpiry p 1) s
          (b.ptpSend p (b.ptpMsg p 11 0 x.seqAnn.toNat b.logAnn (List.replicate 8 0) b.announceBody) none)) ∧
      (s.dev.slavePort = some p →
        let a := s.dev.setPtp p { x with seqReq := x.seqReq + 1 }
        Gives (.ptpIntervalExpiry p 2) s
          (a.ptpSend p (a.ptpMsg p 1 0 (x.seqReq + 1).toNat 127 (List.replicate 8 0) (List.replicate 10 0)) (some 1)))) ∧
    (∀ (rising : Bool) (width : Nat),
      (rising = s.dev.bit Reg.timPpscfg_in_pol → Gives (.ppsInEdge rising width) s s.dev) ∧
      (rising ≠ s.dev.bit Reg.timPpscfg_in_pol → width < 100 →
        Gives (.ppsInEdge rising width) s (s.dev.bump Cnt.ppsInBad)) ∧
      (rising ≠ s.dev.bit Reg.timPpscfg_in_pol → 100 ≤ width →
        let gap := s.dev.tim.cyc - s.dev.tim.ppsAt
        s.dev.tim.ppsSeen = false ∨ 800000000 ≤ gap ∨ (399600000 ≤ gap ∧ gap ≤ 400400000) →
        ((s.dev.trackEn = true ∨ s.dev.timeSrc < 2) →
          Gives (.ppsInEdge rising width) s
            (({ s.dev with tim := { s.dev.tim with ppsSeen := true, ppsAt := s.dev.tim.cyc } } : Dev).bump Cnt.ppsInEdge)) ∧
        (s.dev.trackEn = false → s.dev.timeSrc = 3 ∨ s.dev.timeSrc = 2 ∧ s.dev.tim.ptpOfs = none → s.dev.tim.step = none →
          s.dev.tsk.takeover = none → s.dev.tim.fresh = true →
          let theta := foldSecond ((s.dev.tim.ns.toNat : Int) - s.dev.fld Reg.timPpsCorr_in)
          ∃ d : Dev, Gives (.ppsInEdge rising width) s d ∧ d.tim.ppsSeen = true ∧
            d.reg Reg.timOffset = BitVec.ofInt 32 theta ∧
            d.counter Cnt.ppsInEdge = s.dev.counter Cnt.ppsInEdge + 1 ∧
            d.counter Cnt.offsetValid = s.dev.counter Cnt.offsetValid + 1 ∧
            (s.dev.stepMin ≤ theta.natAbs → d.tim.step = some ⟨-theta, none⟩) ∧
            (theta.natAbs < s.dev.stepMin → d.tim.step = none ∧ d.tim.slew.natAbs ≤ s.dev.slewMax)))) ∧
    (∀ e : Dev, s.dev.reachCycle (s.dev.tim.ppsAt + 2 * cyclesPerS) = some e →
      Gives .ppsLoss s ((({ e with tim := { e.tim with ppsSeen := false, ppsAt := e.tim.cyc } } : Dev).raise
        Reg.timStat_pps_lost).bump Cnt.ppsInMiss)) ∧
    (let on := s.dev.fld Reg.timPpscfg_out_mode = 1 ∨ (s.dev.fld Reg.timPpscfg_out_mode = 2 ∧ s.dev.fld Reg.timStat_state = 2);
      (on → s.dev.fld Reg.timPpsCorr_out ≤ s.dev.tim.ns.toNat → s.dev.tim.ppsOutS ≠ some s.dev.tim.sec →
        Gives .ppsOutRise s { s.dev with
          tim := { s.dev.tim with
            ppsOutS := some s.dev.tim.sec, ppsOutEnd := s.dev.tim.cyc + s.dev.fld Reg.timPpscfg_out_width }
          pins := { s.dev.pins with ppsOut := true } }) ∧
      (¬ on ∨ s.dev.tim.ns.toNat < s.dev.fld Reg.timPpsCorr_out ∨ s.dev.tim.ppsOutS = some s.dev.tim.sec →
        Gives .ppsOutRise s s.dev)) ∧
    (∀ e : Dev, s.dev.reachCycle s.dev.tim.ppsOutEnd = some e →
      Gives .ppsOutFall s { e with pins := { s.dev.pins with ppsOut := false } }) ∧
    (∀ e : Dev, s.dev.reachCycle (s.dev.tim.measAt + orElse0 (s.dev.cfgFld Reg.timServocfg_loss_to) 1 * cyclesPerS) = some e →
      (s.dev.fld Reg.timStat_state ≠ 2 → Gives .servoLossTimeout s e) ∧
      (s.dev.fld Reg.timStat_state = 2 →
        ∃ d : Dev, Gives .servoLossTimeout s d ∧ d.fld Reg.timStat_state = 3 ∧ d.tim.slew = 0 ∧
          d.reg Reg.timFreqEst = s.dev.reg Reg.timFreqEst ∧
          d.counter Cnt.holdoverIn = s.dev.counter Cnt.holdoverIn + 1)) ∧
    (let x := s.dev.ptpPort p
      ∃ d : Dev, Gives (.announceReceiptTimeout p) s d ∧
        (d.ptpPort p).foreign = (x.foreign.filter fun f => some (slice f.1 20 10) != x.master.map (slice · 20 10)) ∧
        ((d.ptpPort p).foreign = [] → (d.ptpPort p).master = none ∧ d.slavePort ≠ some p) ∧
        d.ptpPort (otherPort p) = s.dev.ptpPort (otherPort p) ∧ d.regs = s.dev.regs)

/-! ## Power -/

/-- The supply starts the sequence and its loss turns everything off (R428); the steps follow each other, are repeated once, and
lock after nine failed attempts; a failed attempt is followed by another one second later (R437 to R441). VCORE moves by one step,
no faster than it may (R432). A failed VCORE phase is survived, a second one is not (R433). A brown-out resets the device (R451);
the loss of REFCLK40 starts it anew (R499). -/
def Obligations.SupplyAndSequence : Prop :=
  ∀ s : State, Defined s →
    (s.dev.pwr.vinUp = false → s.dev.pwr.extSupply = false →
      ∃ d : Dev, Gives .uvloRelease s d ∧ d.pwr.vinUp = true ∧ d.pwr.seq = some ⟨1, false, false⟩ ∧ d.devState = dsOff) ∧
    (s.dev.pwr.vinUp = true →
      ∃ d : Dev, Gives .uvloEngage s d ∧ d.pwr.vinUp = false ∧ d.devState = dsOff ∧ d.counters = [] ∧ d.kao = initKao ∧
        d.boot = s.dev.boot.flash ∧ ∀ a, a ≠ Reg.hifStat → d.reg a = resetVal a) ∧
    (∀ (q : PowerSeq) (t : Nat), s.dev.pwr.seq = some q →
      (q.step < 8 →
        (∃ d : Dev, Gives (.powerStepDone t) s d ∧ d.regs = s.dev.regs ∧
          d.pwr.seq = some ⟨if q.sentinel ∧ (q.step = 2 ∨ q.step = 4) then q.step + 2 else q.step + 1, false, q.sentinel⟩) ∧
        (q.retried = false →
          ∃ d : Dev, Gives (.powerStepTimeout t) s d ∧ d.pwr.seq = some { q with retried := true } ∧
            d.fld Reg.pwrAonStatus_cause = q.step ∧ d.bit Reg.pwrAonStatus_fail = true ∧
            d.counter Cnt.stepRetry = s.dev.counter Cnt.stepRetry + 1) ∧
        (q.retried = true → s.dev.fld Reg.pwrAonStatus_attempts < 8 →
          ∃ d : Dev, Gives (.powerStepTimeout t) s d ∧ d.pwr.seq = none ∧ d.pwr.restart = true ∧
            d.fld Reg.pwrAonStatus_attempts = s.dev.fld Reg.pwrAonStatus_attempts + 1 ∧
            d.counter Cnt.attemptFail = s.dev.counter Cnt.attemptFail + 1) ∧
        (q.retried = true → s.dev.fld Reg.pwrAonStatus_attempts = 8 →
          ∃ d : Dev, Gives (.powerStepTimeout t) s d ∧ d.devState = dsFaultLock ∧ d.bit Reg.pwrAonStatus_locked = true ∧
            d.pwr.seq = none ∧ d.pwr.restart = false ∧
            d.counter Cnt.faultLockEntry = s.dev.counter Cnt.faultLockEntry + 1)) ∧
      (q.step = 8 →
        (s.dev.pwr.coldBoot = true →
          ∃ d : Dev, Gives (.powerStepDone t) s d ∧ d.devState = dsBoot ∧ d.pwr.seq = none ∧
            d.fld Reg.pwrAonStatus_attempts = 0 ∧ d.bit Reg.pwrAonStatus_locked = false) ∧
        (s.dev.pwr.coldBoot = false →
          ∃ d : Dev, Gives (.powerStepDone t) s d ∧ d.devState = s.dev.pwr.backTo.toNat ∧ d.pwr.seq = none ∧
            d.pwr.armed = false ∧ d.dmc.selfRefresh = false ∧ d.fld Reg.pwrState_state = 0 ∧
            d.counter Cnt.wakeOk = s.dev.counter Cnt.wakeOk + 1))) ∧
    (s.dev.pwr.restart = true →
      Gives .attemptRestart s { s.dev with pwr := { s.dev.pwr with
        silt := max s.dev.pwr.silt (s.dev.pwr.failSilt + 1000000000), seq := some ⟨1, false, true⟩, restart := false } }) ∧
    (s.dev.mainUp = true → s.dev.pwr.extSupply = false → ∀ n : Fin 4,
      (s.dev.fld Reg.pwrRailstat_ph_fail = 0 →
        ∃ d : Dev, Gives (.vcorePhaseFault n) s d ∧ d.fld Reg.pwrRailstat_ph_fail = 2 ^ n.val ∧ d.devState = s.dev.devState ∧
          d.counter Cnt.phaseFail = s.dev.counter Cnt.phaseFail + 1) ∧
      (s.dev.fld Reg.pwrRailstat_ph_fail ≠ 0 → (s.dev.fld Reg.pwrRailstat_ph_fail).testBit n.val = false →
        ∃ d : Dev, Gives (.vcorePhaseFault n) s d ∧ d.devState = dsFaultLock ∧ d.fld Reg.pwrFltCause_cause = 3 ∧
          d.bit Reg.pwrFltCause_lean_only = true ∧ d.counter Cnt.phaseFail = s.dev.counter Cnt.phaseFail + 1)) ∧
    (∀ e : Dev, s.dev.mainUp = true → s.dev.pwr.extSupply = false → s.dev.reachCycle s.dev.pwr.vcoreNext = some e →
      let v := s.dev.fld Reg.pwrRailstat_vcore
      let d : Dev := { e with pwr := { s.dev.pwr with vcoreNext := e.tim.cyc + 100 * cyclesPerUs } }
      Gives (.vcoreAdjust true) s (d.setFld Reg.pwrRailstat_vcore (min 176 (v + 1))) ∧
      Gives (.vcoreAdjust false) s (d.setFld Reg.pwrRailstat_vcore (max 144 (v - 1)))) ∧
    (s.dev.mainUp = true → s.dev.pwr.vinUp = true →
      ∃ d : Dev, Gives .brownout s d ∧ d.devState = dsBoot ∧ d.bit Reg.pwrAonStatus_brownout = true ∧
        d.fld Reg.bootStat_strap = s.dev.fld Reg.bootStat_strap ∧ d.kao = initKao ∧ d.boot = s.dev.boot.flash ∧
        ∀ a, a ≠ Reg.bootStat → a ≠ Reg.pwrRailstat → a ≠ Reg.pwrAonStatus → d.reg a = resetVal a) ∧
    (s.dev.mainUp = true →
      ∃ d : Dev, Gives .refclk40Loss s d ∧ d.devState = dsOff ∧ d.pwr.seq = some ⟨1, false, true⟩ ∧
        d.fld Reg.pwrFltCause_cause = 2 ∧ d.pwr.attemptFailed = true)

/-- An access to a domain that its policy keeps down holds it on, or stalls once the domain is isolated, until it is operational
(R444). PWR_STATE ACTIVE completes with the last Loam group that it waits for (R446). -/
def Obligations.DomainAccesses : Prop :=
  ∀ (s : State) (x : Domain), Up s →
    (s.dev.domainOff x = true → x ∉ s.dev.pwr.woken → x ∉ s.dev.pwr.stalled →
      Gives (.domainAccess x true) s { s.dev with pwr := { s.dev.pwr with stalled := s.dev.pwr.stalled ++ [x] } } ∧
      Gives (.domainAccess x false) s { s.dev with pwr := { s.dev.pwr with woken := s.dev.pwr.woken ++ [x] } }) ∧
    (s.dev.domainOff x = false → ∀ b, Gives (.domainAccess x b) s s.dev) ∧
    (s.dev.pwr.stalled = [x] → s.dev.pwr.activeCmd = none →
      Gives (.domainReady x) s (({ s.dev with pwr := { s.dev.pwr with
        stalled := [], woken := s.dev.pwr.woken ++ [x] } } : Dev).bump Cnt.domainWake)) ∧
    (∀ c : Cmd, s.dev.pwr.stalled = [x] → s.dev.pwr.activeCmd = some c → x = .loam 2 ∨ x = .loam 3 →
      ∃ d : Dev, Gives (.domainReady x) s d ∧ d.fld Reg.pwrState_state = 0 ∧ d.pwr.activeCmd = none ∧ d.pwr.stalled = []) ∧
    (x ∉ s.dev.pwr.stalled → Gives (.domainReady x) s s.dev)

/-- Entering SENTINEL arms the wake sources (R449, R452). In SENTINEL each enabled source that fires is latched in SRC; the first one is
recorded in FIRST and starts the wake sequence, and one that fires while that runs has no further effect. A frame wakes only while
its port listens, and a listen window opens and closes at its time (R453); a wake pattern wakes with a good CRC and a code that is
set (R223). PERST_N high ends WAKE_N; when WAKE_N has been driven for one second, HOSTED ends (R455). -/
def Obligations.WakeSources : Prop :=
  ∀ s : State, Defined s →
    (∀ c : Cmd, s.dev.pwr.entering = some (c, true) → s.dev.hif.complQ = [] →
      ∃ d : Dev, Gives (.sentinelArm 0) s d ∧ d.devState = dsSentinel ∧ d.fld Reg.pwrState_state = 2 ∧ d.pwr.armed = true ∧
        d.pwr.entering = none ∧ d.dmc.selfRefresh = true ∧ d.pwr.backTo = BitVec.ofNat 3 s.dev.devState ∧
        d.counter Cnt.sentinelEntry = s.dev.counter Cnt.sentinelEntry + 1) ∧
    (s.dev.devState = dsSentinel → s.dev.pwr.armed = true →
      let FiresOn (e : Dev) (i : Instr) (b : Nat) : Prop :=
        ∃ d : Dev, Gives i s d ∧
          ((s.dev.cfgFld Reg.pwrWakecfg_en).testBit b = true →
            d.fld Reg.pwrAonStatus_src = s.dev.fld Reg.pwrAonStatus_src ||| 2 ^ b ∧
            (s.dev.waking = false → d.fld Reg.pwrAonStatus_first = b ∧ d.pwr.seq = some ⟨1, false, true⟩) ∧
            (s.dev.waking = true → d.fld Reg.pwrAonStatus_first = s.dev.fld Reg.pwrAonStatus_first ∧ d.pwr = e.pwr)) ∧
          ((s.dev.cfgFld Reg.pwrWakecfg_en).testBit b = false →
            d.reg Reg.pwrAonStatus = s.dev.reg Reg.pwrAonStatus ∧ d.pwr = e.pwr)
      let Fires := FiresOn s.dev
      (∀ p : PortId, s.dev.frameMode p = false → Fires (.ethEnergyWake p) p.val) ∧
      (∀ (p : PortId) (b : List Byte), (s.dev.port p).listenOn = true → s.dev.isWakeFrame b = true →
        Fires (.wakeFrame p b true) p.val ∧ Gives (.wakeFrame p b false) s s.dev) ∧
      (s.dev.pins.perstN = false → Fires .perstNDeassert 2) ∧
      (∀ (code : BitVec 32) (crc : Byte), 340000000 ≤ s.dev.cfgFld Reg.mshWakefreq_freq →
        s.dev.cfgFld Reg.mshWakefreq_freq ≤ 1050000000 →
        (wakeCrcOk code crc = true → code ≠ 0 → code = s.dev.cfg Reg.mshWakecodeA ∨ code = s.dev.cfg Reg.mshWakecodeB →
          Fires (.wakePatternReceived code crc) 3) ∧
        (wakeCrcOk code crc = false → Gives (.wakePatternReceived code crc) s (s.dev.bump Cnt.wakeCrcFail))) ∧
      (∀ levels : BitVec 16,
        let at' := levels.getLsbD (s.dev.cfgFld Reg.pwrWakecfg_gpio_sel)
        (at' = s.dev.cfgBit Reg.pwrWakecfg_gpio_pol → Fires (.gpioWake levels) 4) ∧
        (at' ≠ s.dev.cfgBit Reg.pwrWakecfg_gpio_pol → Gives (.gpioWake levels) s s.dev)) ∧
      (s.dev.cfgFld Reg.pwrTimer_count ≠ 0 →
        FiresOn (s.dev.siltTo (s.dev.pwr.entrySilt + siltNs (s.dev.cfgFld Reg.pwrTimer_count))) .siltTimerExpiry 5) ∧
      (∀ p : PortId, s.dev.waking = false → s.dev.frameMode p = true →
        (s.dev.cfgFld Reg.pwrWakecfg_en).testBit p.val = true →
        Gives (.listenWindowOpen p) s (((s.dev.siltTo (s.dev.port p).listenAt).modPort p fun x => { x with
          listenOn := true, listenAt := x.listenAt + s.dev.listenPeriod }).bump Cnt.ethListen))) ∧
    (∀ p : PortId,
      ((s.dev.port p).listenOn = false → Gives (.listenWindowClose p) s s.dev) ∧
      ((s.dev.port p).listenOn = true → Gives (.listenWindowClose p) s ((s.dev.siltTo ((s.dev.port p).listenAt -
        s.dev.listenPeriod + max 5 (s.dev.cfgFld Reg.pwrListen_win_ms) * 1000000)).modPort p fun x => { x with
          listenOn := false }))) ∧
    (s.dev.pins.perstN = false →
      ∃ d : Dev, Gives .perstNDeassert s d ∧ d.pins.perstN = true ∧ d.pins.wakeN = false) ∧
    (∀ e : Dev, s.dev.pins.wakeN = true → s.dev.devState = dsHosted →
      s.dev.reachCycle (s.dev.pwr.wakeNFrom + cyclesPerS) = some e →
      ∃ d : Dev, Gives .wakeNTimeout s d ∧ d.pins.wakeN = false ∧ d.devState = dsStandalone ∧
        d.bit Reg.hifStat_link_up = false ∧ d.bit Reg.hifStat_link_down = true ∧
        d.counter Cnt.hostDetach = s.dev.counter Cnt.hostDetach + 1) ∧
    (s.dev.pins.wakeN = false → Gives .wakeNTimeout s s.dev)

/-! ## Resets, boot, trace and TAP -/

/-- Power-on reset returns every register to its Reset value but for the straps, the supply and the latch of
BROWNOUT, and every counter to 0; SYS_RST_N leaves the PWR registers, the wake registers and the counters, and resets the
rest (R457, R506). Both sample the straps. The pins' low levels hold the device in reset.
With TEST_EN high a TAP instruction is taken; EXTEST, CLAMP and HIGHZ take the balls from their functions,
after which the state of the device is undefined until a reset. With TEST_EN low none of them does anything (R515, R516). -/
def Obligations.ResetPinsAndTap : Prop :=
  (∀ (s : State) (strap : BitVec 4),
    (s.dev.pwr.vinUp = true → s.dev.pwr.seq = none → s.dev.railsUp = true → ∀ testEn kept : Bool,
      ∃ d : Dev, Gives (.powerOnReset strap testEn false kept) s d ∧ d.devState = dsBoot ∧
        d.fld Reg.bootStat_strap = strap.toNat ∧ d.obs.testEn = testEn ∧ d.obs.tapUndef = false ∧ d.counters = [] ∧
        d.bit Reg.pwrAonStatus_brownout = (s.dev.bit Reg.pwrAonStatus_brownout && kept) ∧ d.pwr.porLow = false ∧
        d.boot = s.dev.boot.flash ∧
        ∀ a, a ≠ Reg.bootStat → a ≠ Reg.pwrAonStatus → a ≠ Reg.pwrRailstat → d.reg a = resetVal a) ∧
    (s.dev.pwr.vinUp = false → ∀ testEn kept : Bool,
      Gives (.powerOnReset strap testEn false kept) s { s.dev with pwr := { s.dev.pwr with porLow := false } }) ∧
    (s.dev.pwr.porLow = false → s.dev.pwr.vinUp = true → s.dev.pwr.seq = none → s.dev.railsUp = true →
      ∃ d : Dev, Gives (.sysRstN strap) s d ∧ d.devState = dsBoot ∧ d.fld Reg.bootStat_strap = strap.toNat ∧
        d.pwr.sysLow = false ∧ d.obs.tapUndef = false ∧ d.counters = s.dev.counters ∧ d.boot = s.dev.boot.flash ∧
        (∀ a, silent a = true → a ≠ Reg.pwrState → a ≠ Reg.pwrAonStatus → d.reg a = s.dev.reg a) ∧
        (∀ a, silent a = false → a ≠ Reg.bootStat → d.reg a = resetVal a)) ∧
    Gives .porNAssert s { s.dev with pwr := { s.dev.pwr with porLow := true } } ∧
    (s.dev.pwr.porLow = false → Gives .sysRstNAssert s { s.dev with pwr := { s.dev.pwr with sysLow := true } }) ∧
    (s.dev.pwr.porLow = true → Gives .sysRstNAssert s s.dev)) ∧
  (∀ (s : State) (op : BitVec 4) (l : List Bool),
    (s.dev.obs.testEn = false → ∀ i ∈ [Instr.extest, .samplePreload l, .idcode, .clamp, .highz, .bypass op], Gives i s s.dev) ∧
    (s.dev.obs.testEn = true →
      let Takes (i : Instr) (n : BitVec 4) : Prop :=
        Gives i s { s.dev with obs := { s.dev.obs with tap := n, tapUndef := true } }
      Takes .extest 0 ∧ Takes .clamp 3 ∧ Takes .highz 4 ∧
      Gives (.samplePreload l) s { s.dev with obs := { s.dev.obs with tap := 1, boundary := l } } ∧
      Gives .idcode s (({ s.dev with obs := { s.dev.obs with tap := 2 } } : Dev).out (.value 0xB734854F)) ∧
      (4 < op.toNat → Gives (.bypass op) s { s.dev with obs := { s.dev.obs with tap := op } })))

/-- With strap 0 the boot takes the image of the active bank, or the other bank's as a fallback, and the
device becomes STANDALONE; with neither accepted it waits for the UART, whose image goes to bank A (R460 to R463). The trace port sends its
messages in order (R513). -/
def Obligations.BootAndTrace : Prop :=
  ∀ s : State, Up s →
    (s.dev.devState = dsBoot → s.dev.boot.bothRejected = false → s.dev.fld Reg.bootStat_strap = 0 → ∀ find : DramFind,
      let b := s.dev.boot.activeB
      (s.dev.imageOk (s.dev.bank b) = true → profileOk s.dev.boot.prof0 = false → profileOk s.dev.boot.prof1 = false →
        ∃ d : Dev, Gives (.bootComplete find) s d ∧ d.devState = dsStandalone ∧ d.bit Reg.bootStat_bank = b ∧
          d.reg Reg.bootBuild = BitVec.ofNat 32 (imgBuild (s.dev.bank b)) ∧
          d.counter Cnt.boot = s.dev.counter Cnt.boot + 1 ∧
          d.counter Cnt.bootFallback = s.dev.counter Cnt.bootFallback) ∧
      (s.dev.imageOk (s.dev.bank b) = false → s.dev.imageOk (s.dev.bank (!b)) = true → profileOk s.dev.boot.prof0 = false →
        profileOk s.dev.boot.prof1 = false →
        ∃ d : Dev, Gives (.bootComplete find) s d ∧ d.devState = dsStandalone ∧ d.bit Reg.bootStat_bank = !b ∧
          d.bit Reg.bootStat_fallback = true ∧ d.counter Cnt.bootFallback = s.dev.counter Cnt.bootFallback + 1) ∧
      (s.dev.imageOk (s.dev.bank b) = false → s.dev.imageOk (s.dev.bank (!b)) = false →
        Gives (.bootComplete find) s { s.dev with boot := { s.dev.boot with bothRejected := true, image := [] } })) ∧
    (s.dev.devState = dsBoot → s.dev.fld Reg.bootStat_strap = 8 ∨ s.dev.boot.bothRejected = true → ∀ img : List Byte,
      Gives (.uartImageReceived img) s { s.dev with boot := { s.dev.boot with
        bankA := img.take 12582912, activeB := false, applied := false, bothRejected := false, image := img } }) ∧
    (∀ m t, s.dev.obs.traceQ = m :: t → s.dev.obs.traceOn = true → s.dev.obs.traceLost = 0 →
      ∃ d : Dev, Gives .traceMsgSent s d ∧ d.outs = .trace m :: s.dev.outs ∧ d.obs = { s.dev.obs with traceQ := t } ∧
        d.counter Cnt.traceMsg = s.dev.counter Cnt.traceMsg + 1) ∧
    (s.dev.obs.traceQ = [] → Gives .traceMsgSent s s.dev)
end

