-- ==== Sys2Proof/Laws/Aes.lean ====
section
/-! SUPPORT. DECRYPT undoes ENCRYPT, and the unwrap of a wrapped key gives the key back (R341, R343). -/

namespace Sys2Proof.Machine

/-! ## Bytes -/

theorem length_le (n v : Nat) : (le n v).length = n := by
  induction n generalizing v with
  | zero => rfl
  | succ n ih => simp [le, ih]

theorem length_be (n v : Nat) : (be n v).length = n := by simp [be, length_le]

theorem xorBytes_cancel (l m : List Byte) (h : l.length ≤ m.length) : xorBytes (xorBytes l m) m = l := by
  induction l generalizing m with
  | nil => cases m <;> rfl
  | cons a l ih =>
    cases m with
    | nil => simp at h
    | cons b m =>
      have e := ih m (by simpa using h)
      simp only [xorBytes] at e
      simp [xorBytes, e, BitVec.xor_assoc]

theorem length_xorBytes (l m : List Byte) (h : l.length = m.length) : (xorBytes l m).length = l.length := by
  simp [xorBytes, h]

/-- A list of sixteen bytes, written out. -/
theorem exists_of_length (s : List Byte) (h : s.length = 16) :
    ∃ a b c d e f g i j k l m n o p q, s = [a, b, c, d, e, f, g, i, j, k, l, m, n, o, p, q] := by
  match s, h with
  | [a, b, c, d, e, f, g, i, j, k, l, m, n, o, p, q], _ => exact ⟨a, b, c, d, e, f, g, i, j, k, l, m, n, o, p, q, rfl⟩

/-! ## The three layers -/

theorem invSub_sub (b : Byte) : invSub (sub b) = b := by
  have h : ∀ n : Fin 256, invSub (sub (BitVec.ofFin n)) = BitVec.ofFin n := by decide +kernel
  exact h b.toFin

theorem map_invSub_sub (s : List Byte) : (s.map sub).map invSub = s := by
  induction s with
  | nil => rfl
  | cons a s ih => simp [invSub_sub, ih]

theorem invShiftRows_shiftRows (s : List Byte) (h : s.length = 16) : invShiftRows (shiftRows s) = s := by
  obtain ⟨a, b, c, d, e, f, g, i, j, k, l, m, n, o, p, q, rfl⟩ := exists_of_length s h
  rfl

theorem xtime_xor (a b : Byte) : xtime (a ^^^ b) = xtime a ^^^ xtime b := by
  have h : ∀ x y : Bool, ((if (x ^^ y) = true then (0x1b : Byte) else 0)) =
      (if x = true then 0x1b else 0) ^^^ (if y = true then 0x1b else 0) := by decide
  simp only [xtime, BitVec.shiftLeft_xor_distrib, BitVec.getLsbD_xor, h]
  ac_rfl

theorem gmul_xor (k : Nat) (a b : Byte) : gmul k (a ^^^ b) = gmul k a ^^^ gmul k b := by
  have h : ∀ (t : Bool) (x y : Byte), (if t = true then x ^^^ y else 0) = (if t = true then x else 0) ^^^ (if t = true then y else 0) := by
    intro t x y; cases t <;> simp
  simp only [gmul, xtime_xor, h]
  ac_rfl

theorem mix_coeff (x : Byte) :
    gmul 14 (gmul 2 x) ^^^ gmul 11 (gmul 1 x) ^^^ gmul 13 (gmul 1 x) ^^^ gmul 9 (gmul 3 x) = x ∧
    gmul 14 (gmul 3 x) ^^^ gmul 11 (gmul 2 x) ^^^ gmul 13 (gmul 1 x) ^^^ gmul 9 (gmul 1 x) = 0 ∧
    gmul 14 (gmul 1 x) ^^^ gmul 11 (gmul 3 x) ^^^ gmul 13 (gmul 2 x) ^^^ gmul 9 (gmul 1 x) = 0 ∧
    gmul 14 (gmul 1 x) ^^^ gmul 11 (gmul 1 x) ^^^ gmul 13 (gmul 3 x) ^^^ gmul 9 (gmul 2 x) = 0 := by
  have h : ∀ n : Fin 256, (fun x : Byte =>
      gmul 14 (gmul 2 x) ^^^ gmul 11 (gmul 1 x) ^^^ gmul 13 (gmul 1 x) ^^^ gmul 9 (gmul 3 x) = x ∧
      gmul 14 (gmul 3 x) ^^^ gmul 11 (gmul 2 x) ^^^ gmul 13 (gmul 1 x) ^^^ gmul 9 (gmul 1 x) = 0 ∧
      gmul 14 (gmul 1 x) ^^^ gmul 11 (gmul 3 x) ^^^ gmul 13 (gmul 2 x) ^^^ gmul 9 (gmul 1 x) = 0 ∧
      gmul 14 (gmul 1 x) ^^^ gmul 11 (gmul 1 x) ^^^ gmul 13 (gmul 3 x) ^^^ gmul 9 (gmul 2 x) = 0) (BitVec.ofFin n) := by
    decide +kernel
  exact h x.toFin

/-- One entry of a column that has been mixed and mixed back. -/
theorem mix_entry (a b c d : Byte) :
    gmul 14 (gmul 2 a ^^^ gmul 3 b ^^^ gmul 1 c ^^^ gmul 1 d) ^^^ gmul 11 (gmul 1 a ^^^ gmul 2 b ^^^ gmul 3 c ^^^ gmul 1 d) ^^^
      gmul 13 (gmul 1 a ^^^ gmul 1 b ^^^ gmul 2 c ^^^ gmul 3 d) ^^^ gmul 9 (gmul 3 a ^^^ gmul 1 b ^^^ gmul 1 c ^^^ gmul 2 d) = a := by
  obtain ⟨ha, -, -, -⟩ := mix_coeff a
  obtain ⟨-, hb, -, -⟩ := mix_coeff b
  obtain ⟨-, -, hc, -⟩ := mix_coeff c
  obtain ⟨-, -, -, hd⟩ := mix_coeff d
  have e : gmul 14 (gmul 2 a ^^^ gmul 3 b ^^^ gmul 1 c ^^^ gmul 1 d) ^^^ gmul 11 (gmul 1 a ^^^ gmul 2 b ^^^ gmul 3 c ^^^ gmul 1 d) ^^^
      gmul 13 (gmul 1 a ^^^ gmul 1 b ^^^ gmul 2 c ^^^ gmul 3 d) ^^^ gmul 9 (gmul 3 a ^^^ gmul 1 b ^^^ gmul 1 c ^^^ gmul 2 d) =
      (gmul 14 (gmul 2 a) ^^^ gmul 11 (gmul 1 a) ^^^ gmul 13 (gmul 1 a) ^^^ gmul 9 (gmul 3 a)) ^^^
      (gmul 14 (gmul 3 b) ^^^ gmul 11 (gmul 2 b) ^^^ gmul 13 (gmul 1 b) ^^^ gmul 9 (gmul 1 b)) ^^^
      (gmul 14 (gmul 1 c) ^^^ gmul 11 (gmul 3 c) ^^^ gmul 13 (gmul 2 c) ^^^ gmul 9 (gmul 1 c)) ^^^
      (gmul 14 (gmul 1 d) ^^^ gmul 11 (gmul 1 d) ^^^ gmul 13 (gmul 3 d) ^^^ gmul 9 (gmul 2 d)) := by
    simp only [gmul_xor]; ac_rfl
  rw [e, ha, hb, hc, hd]; simp

theorem mixCol_mixCol (a b c d : Byte) : mixCol (14, 11, 13, 9) (mixCol (2, 3, 1, 1) [a, b, c, d]) = [a, b, c, d] := by
  have h0 := mix_entry a b c d
  have h1 := mix_entry b c d a
  have h2 := mix_entry c d a b
  have h3 := mix_entry d a b c
  simp only [mixCol, List.getD_cons_zero, List.getD_cons_succ, List.cons.injEq, and_true]
  refine ⟨?_, ?_, ?_, ?_⟩
  · exact h0
  · refine Eq.trans ?_ h1; simp only [gmul_xor]; ac_rfl
  · refine Eq.trans ?_ h2; simp only [gmul_xor]; ac_rfl
  · refine Eq.trans ?_ h3; simp only [gmul_xor]; ac_rfl

theorem mixCols_mixCols (s : List Byte) (h : s.length = 16) : mixCols (14, 11, 13, 9) (mixCols (2, 3, 1, 1) s) = s := by
  obtain ⟨a, b, c, d, e, f, g, i, j, k, l, m, n, o, p, q, rfl⟩ := exists_of_length s h
  show mixCol _ (mixCol (2, 3, 1, 1) [a, b, c, d]) ++ mixCol _ (mixCol (2, 3, 1, 1) [e, f, g, i]) ++
    mixCol _ (mixCol (2, 3, 1, 1) [j, k, l, m]) ++ mixCol _ (mixCol (2, 3, 1, 1) [n, o, p, q]) = _
  simp only [mixCol_mixCol]
  rfl

/-! ## The key schedule -/

theorem expandKey_words (nk : Nat) (hk : 0 < nk) : ∀ (n i : Nat) (rc : Byte) (w : List (List Byte)), nk ≤ w.length →
    (∀ x ∈ w, x.length = 4) →
    (expandKey nk n i rc w).length = n + w.length ∧ ∀ x ∈ expandKey nk n i rc w, x.length = 4 := by
  intro n
  induction n with
  | zero => intro i rc w _ hw; exact ⟨by simp [expandKey], hw⟩
  | succ n ih =>
    intro i rc w hl hw
    have hb : (w.getD (nk - 1) []).length = 4 := by
      rw [List.getD_eq_getElem?_getD, List.getElem?_eq_getElem (by omega)]; exact hw _ (List.getElem_mem _)
    have ht : (w.headD []).length = 4 := by
      cases w with
      | nil => simp at hl; omega
      | cons a w => exact hw a (by simp)
    unfold expandKey
    split
    · have := ih (i + 1) (xtime rc)
        (xorBytes (w.getD (nk - 1) []) (xorBytes (((w.headD []).drop 1 ++ (w.headD []).take 1).map sub) [rc, 0, 0, 0]) :: w)
        (by simp; omega) (by
          intro x hx
          rcases List.mem_cons.1 hx with rfl | hx
          · simp only [xorBytes, List.length_zipWith, hb, List.length_map, List.length_append, List.length_drop, List.length_take, ht]; rfl
          · exact hw x hx)
      exact ⟨by rw [this.1]; simp; omega, this.2⟩
    · split
      · have := ih (i + 1) rc (xorBytes (w.getD (nk - 1) []) ((w.headD []).map sub) :: w) (by simp; omega) (by
          intro x hx
          rcases List.mem_cons.1 hx with rfl | hx
          · simp only [xorBytes, List.length_zipWith, hb, List.length_map, ht]; rfl
          · exact hw x hx)
        exact ⟨by rw [this.1]; simp; omega, this.2⟩
      · have := ih (i + 1) rc (xorBytes (w.getD (nk - 1) []) (w.headD []) :: w) (by simp; omega) (by
          intro x hx
          rcases List.mem_cons.1 hx with rfl | hx
          · simp only [xorBytes, List.length_zipWith, hb, List.length_map, ht]; rfl
          · exact hw x hx)
        exact ⟨by rw [this.1]; simp; omega, this.2⟩

/-- A key of 32 bytes has round keys of 16 bytes. -/
theorem roundKeys_length (key : List Byte) (h : key.length = 32) : ∀ k ∈ roundKeys key, k.length = 16 := by
  have hw := expandKey_words 8 (by omega) 52 8 1 (keyWords 8 key) (by simp [keyWords]) (by
    intro x hx
    simp only [keyWords, List.mem_reverse, List.mem_map, List.mem_range] at hx
    obtain ⟨i, hi, rfl⟩ := hx
    simp [slice, h]; omega)
  intro k hk
  simp only [roundKeys, h, List.mem_map, List.mem_range] at hk
  obtain ⟨r, hr, rfl⟩ := hk
  have get : ∀ j, j < 60 → ((expandKey 8 52 8 1 (keyWords 8 key)).reverse.getD j []).length = 4 := by
    intro j hj
    have hj' : j < (expandKey 8 52 8 1 (keyWords 8 key)).reverse.length := by
      rw [List.length_reverse, hw.1]; simp [keyWords]; omega
    rw [List.getD_eq_getElem?_getD, List.getElem?_eq_getElem hj']
    exact hw.2 _ (List.mem_reverse.1 (List.getElem_mem _))
  simp only [List.length_append]
  have h0 := get (4 * r) (by omega)
  have h1 := get (4 * r + 1) (by omega)
  have h2 := get (4 * r + 2) (by omega)
  have h3 := get (4 * r + 3) (by omega)
  simp only [show 4 * (32 / 4 + 7) - 32 / 4 = 52 from rfl, show 32 / 4 = 8 from rfl]
  omega

/-! ## Rounds -/

theorem length_shiftRows (s : List Byte) : (shiftRows s).length = 16 := by simp [shiftRows]
theorem length_mixCols (m : Nat × Nat × Nat × Nat) (s : List Byte) : (mixCols m s).length = 16 := by simp [mixCols, mixCol]

theorem encRounds_length (l : List (List Byte)) (hl : ∀ k ∈ l, k.length = 16) (s : List Byte) (hs : s.length = 16) :
    (encRounds l s).length = 16 := by
  induction l generalizing s with
  | nil => exact hs
  | cons k l ih =>
    have hk := hl k (by simp)
    cases l with
    | nil => simp [encRounds, xorBytes, length_shiftRows, hk]
    | cons k' t =>
      show (encRounds (k' :: t) _).length = 16
      exact ih (fun x hx => hl x (by simp at hx ⊢; right; exact hx)) _ (by simp [xorBytes, length_mixCols, hk])

/-- The rounds of a decryption from the whole list of round keys. -/
theorem decRounds_encRounds (l : List (List Byte)) (hl : ∀ k ∈ l, k.length = 16) (hn : l ≠ []) (q : List (List Byte))
    (hq : q ≠ []) (s : List Byte) (hs : s.length = 16) :
    (match l.reverse ++ q with | [] => encRounds l s | k :: t => decRounds t (xorBytes (encRounds l s) k)) =
      decRounds q (shiftRows (s.map sub)) := by
  induction l generalizing s q with
  | nil => exact absurd rfl hn
  | cons k l ih =>
    have hk := hl k (by simp)
    cases l with
    | nil =>
      show decRounds q (xorBytes (xorBytes (shiftRows (s.map sub)) k) k) = _
      rw [xorBytes_cancel _ _ (by rw [length_shiftRows, hk])]
    | cons k' t =>
      have e := ih (fun x hx => hl x (by simp at hx ⊢; right; exact hx)) (by simp) (k :: q) (by simp)
        (xorBytes (mixCols (2, 3, 1, 1) (shiftRows (s.map sub))) k) (by simp [xorBytes, length_mixCols, hk])
      rw [List.reverse_cons, List.append_assoc]
      refine Eq.trans e ?_
      cases q with
      | nil => exact absurd rfl hq
      | cons q0 q =>
        show decRounds (q0 :: q) _ = _
        rw [invShiftRows_shiftRows _ (by simp [xorBytes, length_mixCols, hk]), map_invSub_sub,
          xorBytes_cancel _ _ (by rw [length_mixCols, hk]), mixCols_mixCols _ (length_shiftRows _)]

theorem roundKeys_ne (key : List Byte) (h : key.length = 32) : ∃ k k' t, roundKeys key = k :: k' :: t := by
  have : (roundKeys key).length = 15 := by simp [roundKeys, h]
  match hr : roundKeys key, this with
  | k :: k' :: t, _ => exact ⟨k, k', t, rfl⟩

theorem aesEnc_length (key b : List Byte) (h : key.length = 32) (hb : b.length = 16) : (aesEnc key b).length = 16 := by
  obtain ⟨k, k', t, e⟩ := roundKeys_ne key h
  have hl := roundKeys_length key h
  rw [e] at hl
  simp only [aesEnc, e]
  exact encRounds_length _ (fun x hx => hl x (by simp at hx ⊢; right; exact hx)) _ (by simp [xorBytes, hb, hl k (by simp)])

/-- DECRYPT undoes ENCRYPT under a key of 32 bytes (R341). -/
theorem aesDec_aesEnc (key b : List Byte) (h : key.length = 32) (hb : b.length = 16) : aesDec key (aesEnc key b) = b := by
  obtain ⟨k, k', t, e⟩ := roundKeys_ne key h
  have hl := roundKeys_length key h
  rw [e] at hl
  have hk := hl k (by simp)
  have x := decRounds_encRounds (k' :: t) (fun x hx => hl x (by simp at hx ⊢; right; exact hx)) (by simp) [k] (by simp)
    (xorBytes b k) (by simp [xorBytes, hb, hk])
  simp only [aesDec, aesEnc, e, List.reverse_cons] at x ⊢
  refine Eq.trans x ?_
  show xorBytes ((invShiftRows (shiftRows ((xorBytes b k).map sub))).map invSub) k = b
  rw [invShiftRows_shiftRows _ (by simp [xorBytes, hb, hk]), map_invSub_sub, xorBytes_cancel _ _ (by omega)]

/-! ## Key wrap -/

/-- Registers of eight bytes each. -/
def WrapOk (s : List Byte × List (List Byte)) : Prop := s.1.length = 8 ∧ s.2.length = 2 ∧ ∀ x ∈ s.2, x.length = 8

theorem wrapStep_ok (kek : List Byte) (hk : kek.length = 32) (s : List Byte × List (List Byte)) (h : WrapOk s) (t : Nat) :
    WrapOk (wrapStep kek s t) ∧ unwrapStep kek (wrapStep kek s t) t = s := by
  obtain ⟨a, r⟩ := s
  obtain ⟨h1, h2, h3⟩ := h
  simp only at h1 h2 h3
  have hi : (t - 1) % 2 < r.length := by rw [h2]; omega
  have hg : r.getD ((t - 1) % 2) [] = r[(t - 1) % 2] := by
    rw [List.getD_eq_getElem?_getD, List.getElem?_eq_getElem hi]; rfl
  have hx : (r[(t - 1) % 2]).length = 8 := h3 _ (List.getElem_mem _)
  have hb : (aesEnc kek (a ++ r[(t - 1) % 2])).length = 16 := aesEnc_length kek _ hk (by simp [h1, hx])
  refine ⟨⟨?_, ?_, ?_⟩, ?_⟩
  · simp only [wrapStep, h2, hg, xorBytes, List.length_zipWith, List.length_take, length_be, hb]; rfl
  · simp [wrapStep, h2]
  · intro x hx'
    simp only [wrapStep, h2, hg] at hx'
    rcases List.mem_or_eq_of_mem_set hx' with hx' | rfl
    · exact h3 x hx'
    · simp [hb]
  · simp only [wrapStep, unwrapStep, h2, hg, List.length_set]
    rw [xorBytes_cancel _ _ (by simp [hb, length_be])]
    rw [List.getD_eq_getElem?_getD, List.getElem?_set_self (by omega)]
    simp only [Option.getD_some, List.take_append_drop]
    rw [aesDec_aesEnc kek _ hk (by simp [h1, hx])]
    simp [h1]

theorem foldl_unwrap_wrap (kek : List Byte) (hk : kek.length = 32) (l : List Nat) : ∀ s : List Byte × List (List Byte), WrapOk s →
    WrapOk (l.foldl (wrapStep kek) s) ∧ l.reverse.foldl (unwrapStep kek) (l.foldl (wrapStep kek) s) = s := by
  induction l with
  | nil => intro s h; exact ⟨h, rfl⟩
  | cons t l ih =>
    intro s h
    have w := wrapStep_ok kek hk s h t
    have e := ih _ w.1
    refine ⟨e.1, ?_⟩
    simp only [List.foldl_cons, List.reverse_cons, List.foldl_append, List.foldl_nil]
    rw [e.2, w.2]

/-- What wrapping two registers from an initial value gives. -/
def wrapFrom (kek iv x y : List Byte) : List Byte :=
  let s := ((List.range 12).map (· + 1)).foldl (wrapStep kek) (iv, [x, y])
  s.1 ++ s.2.flatten

/-- The unwrap gives a key back exactly where it was wrapped from the initial value of RFC 3394 (R343, R346). -/
theorem keyUnwrap_wrapFrom (kek iv x y : List Byte) (hk : kek.length = 32) (hi : iv.length = 8) (hx : x.length = 8)
    (hy : y.length = 8) : (wrapFrom kek iv x y).length = 24 ∧
      keyUnwrap kek (wrapFrom kek iv x y) = if iv = wrapIv then some (x ++ y) else none := by
  have h := foldl_unwrap_wrap kek hk ((List.range 12).map (· + 1)) (iv, [x, y]) ⟨hi, rfl, by simp [hx, hy]⟩
  unfold wrapFrom
  generalize hs : ((List.range 12).map (· + 1)).foldl (wrapStep kek) (iv, [x, y]) = s at h
  obtain ⟨a, r⟩ := s
  obtain ⟨⟨h1, h2, h3⟩, h4⟩ := h
  simp only at h1 h2 h3
  match r, h2, h3 with
  | [u, v], _, h3 =>
    have hu := h3 u (by simp)
    have hv := h3 v (by simp)
    have hlen : (a ++ [u, v].flatten).length = 24 := by simp [h1, hu, hv]
    refine ⟨hlen, ?_⟩
    have s0 : slice (a ++ [u, v].flatten) 8 8 = u := by simp [slice, ← h1, hu]
    have s1 : slice (a ++ [u, v].flatten) 16 8 = v := by
      have : (a ++ [u, v].flatten) = (a ++ u) ++ v := by simp
      rw [this, slice, List.drop_left' (by simp [h1, hu]), List.take_of_length_le (by omega)]
    have t0 : (a ++ [u, v].flatten).take 8 = a := List.take_left' h1
    simp only [keyUnwrap, hlen]
    rw [show 24 / 8 - 1 = 2 from rfl, show (List.range 2) = [0, 1] from rfl]
    simp only [List.map_cons, List.map_nil, Nat.mul_zero, Nat.mul_one, Nat.zero_add, s0, s1, t0]
    rw [h4]
    by_cases hiv : iv = wrapIv
    · simp [hiv]
    · simp [hiv]

/-- A key of 16 bytes comes back from its wrap. -/
theorem keyUnwrap_keyWrap (kek key : List Byte) (hk : kek.length = 32) (h : key.length = 16) :
    keyUnwrap kek (keyWrap kek key) = some key := by
  have e : keyWrap kek key = wrapFrom kek wrapIv (key.take 8) (key.drop 8) := by
    have : (key.drop 8).take 8 = key.drop 8 := List.take_of_length_le (by simp [h])
    simp [keyWrap, wrapFrom, h, slice, List.range_succ, this]
  rw [e, (keyUnwrap_wrapFrom kek wrapIv _ _ hk rfl (by simp [h]) (by simp [h])).2, if_pos rfl, List.take_append_drop]

end Sys2Proof.Machine
end

