-- ==== Sys2Proof/Laws/Sparse.lean ====
section
/-! SUPPORT. Laws of the sparse tables: a read after a write, and the canonical form that every write keeps. -/

namespace Sys2Proof.Machine

variable {α : Type}

theorem Sparse.get_drop_same (d : α) (k : Nat) (t : Sparse α) : Sparse.get d (Sparse.drop k t) k = d := by
  induction t with
  | nil => rfl
  | cons p t ih =>
    obtain ⟨j, w⟩ := p
    by_cases h : j = k <;> simp [Sparse.drop, Sparse.get, h, ih]

theorem Sparse.get_drop_ne (d : α) {k i : Nat} (h : i ≠ k) (t : Sparse α) :
    Sparse.get d (Sparse.drop k t) i = Sparse.get d t i := by
  induction t with
  | nil => rfl
  | cons p t ih =>
    obtain ⟨j, w⟩ := p
    by_cases hj : j = k
    · subst hj; simp [Sparse.drop, Sparse.get, ih, Ne.symm h]
    · simp [Sparse.drop, Sparse.get, hj, ih]

theorem Sparse.get_ins_ne (d v : α) {k i : Nat} (h : i ≠ k) (t : Sparse α) :
    Sparse.get d (Sparse.ins k v t) i = Sparse.get d t i := by
  induction t with
  | nil => simp [Sparse.ins, Sparse.get, Ne.symm h]
  | cons p t ih =>
    obtain ⟨j, w⟩ := p
    by_cases hj : k < j <;> simp [Sparse.ins, Sparse.get, hj, ih, Ne.symm h]

/-- A key that is not in a table reads as what was inserted for it. -/
theorem Sparse.get_ins_same (d v : α) (k : Nat) (t : Sparse α) (h : ∀ p ∈ t, p.1 ≠ k) :
    Sparse.get d (Sparse.ins k v t) k = v := by
  induction t with
  | nil => simp [Sparse.ins, Sparse.get]
  | cons p t ih =>
    obtain ⟨j, w⟩ := p
    have hj : j ≠ k := h (j, w) (by simp)
    by_cases hk : k < j
    · simp [Sparse.ins, Sparse.get, hk]
    · simp [Sparse.ins, Sparse.get, hk, hj, ih fun p hp => h p (by simp [hp])]

theorem Sparse.mem_drop (k : Nat) (t : Sparse α) : ∀ p ∈ Sparse.drop k t, p ∈ t ∧ p.1 ≠ k := by
  induction t with
  | nil => simp [Sparse.drop]
  | cons p t ih =>
    obtain ⟨j, w⟩ := p
    intro q hq
    by_cases hj : j = k
    · simp only [Sparse.drop, hj, if_true] at hq
      exact ⟨List.mem_cons_of_mem _ (ih q hq).1, (ih q hq).2⟩
    · simp only [Sparse.drop, hj, if_false, List.mem_cons] at hq
      rcases hq with rfl | hq
      · exact ⟨List.mem_cons_self .., hj⟩
      · exact ⟨List.mem_cons_of_mem _ (ih q hq).1, (ih q hq).2⟩

/-- A read of the key just written. -/
@[simp] theorem Sparse.get_put_same [DecidableEq α] (d : α) (t : Sparse α) (k : Nat) (v : α) :
    Sparse.get d (Sparse.put d t k v) k = v := by
  unfold Sparse.put
  split
  · next h => rw [Sparse.get_drop_same, h]
  · exact Sparse.get_ins_same d v k _ fun p hp => (Sparse.mem_drop k t p hp).2

/-- A write leaves every other key alone, whatever either reads as when unlisted. -/
theorem Sparse.get_put_ne [DecidableEq α] (d e : α) (t : Sparse α) {k i : Nat} (v : α) (h : i ≠ k) :
    Sparse.get e (Sparse.put d t k v) i = Sparse.get e t i := by
  unfold Sparse.put
  split
  · exact Sparse.get_drop_ne e h t
  · rw [Sparse.get_ins_ne e v h, Sparse.get_drop_ne e h]

/-! ## The canonical form -/

theorem Sparse.wf_cons [DecidableEq α] (d : Nat → α) (p : Nat × α) (t : Sparse α) :
    Sparse.wf d (p :: t) = true ↔ p.2 ≠ d p.1 ∧ (∀ q ∈ t, p.1 < q.1) ∧ Sparse.wf d t = true := by
  obtain ⟨j, v⟩ := p
  simp [Sparse.wf, and_assoc]

theorem Sparse.wf_drop [DecidableEq α] (d : Nat → α) (k : Nat) (t : Sparse α) (h : Sparse.wf d t = true) :
    Sparse.wf d (Sparse.drop k t) = true := by
  induction t with
  | nil => rfl
  | cons p t ih =>
    rw [Sparse.wf_cons] at h
    obtain ⟨j, w⟩ := p
    by_cases hj : j = k
    · simpa [Sparse.drop, hj] using ih h.2.2
    · simp only [Sparse.drop, hj, if_false]
      rw [Sparse.wf_cons]
      exact ⟨h.1, fun q hq => h.2.1 q (Sparse.mem_drop k t q hq).1, ih h.2.2⟩

theorem Sparse.mem_ins (k : Nat) (v : α) (t : Sparse α) : ∀ p ∈ Sparse.ins k v t, p = (k, v) ∨ p ∈ t := by
  induction t with
  | nil => simp [Sparse.ins]
  | cons q t ih =>
    obtain ⟨j, w⟩ := q
    intro p hp
    by_cases hk : k < j
    · simpa [Sparse.ins, hk] using hp
    · simp only [Sparse.ins, hk, if_false, List.mem_cons] at hp
      rcases hp with rfl | hp
      · simp
      · rcases ih p hp with h | h <;> simp [h]

theorem Sparse.wf_ins [DecidableEq α] (d : Nat → α) (k : Nat) (v : α) (t : Sparse α) (hv : v ≠ d k)
    (hk : ∀ p ∈ t, p.1 ≠ k) (h : Sparse.wf d t = true) : Sparse.wf d (Sparse.ins k v t) = true := by
  induction t with
  | nil => simp [Sparse.ins, Sparse.wf, hv]
  | cons p t ih =>
    obtain ⟨j, w⟩ := p
    have h' := (Sparse.wf_cons d (j, w) t).mp h
    by_cases hlt : k < j
    · simp only [Sparse.ins, hlt, if_true]
      rw [Sparse.wf_cons]
      refine ⟨hv, ?_, h⟩
      intro q hq
      rcases List.mem_cons.mp hq with rfl | hq
      · exact hlt
      · exact Nat.lt_trans hlt (h'.2.1 q hq)
    · have hne : j ≠ k := hk (j, w) (by simp)
      simp only [Sparse.ins, hlt, if_false]
      rw [Sparse.wf_cons]
      refine ⟨h'.1, ?_, ih (fun p hp => hk p (by simp [hp])) h'.2.2⟩
      intro q hq
      rcases Sparse.mem_ins k v t q hq with rfl | hq
      · exact Nat.lt_of_le_of_ne (Nat.le_of_not_lt hlt) hne
      · exact h'.2.1 q hq

/-- Every write keeps the canonical form of its table. -/
theorem Sparse.wf_put [DecidableEq α] (d : Nat → α) (t : Sparse α) (k : Nat) (v : α) (h : Sparse.wf d t = true) :
    Sparse.wf d (Sparse.put (d k) t k v) = true := by
  unfold Sparse.put
  split
  · exact Sparse.wf_drop d k t h
  · next hv => exact Sparse.wf_ins d k v _ hv (fun p hp => (Sparse.mem_drop k t p hp).2) (Sparse.wf_drop d k t h)

end Sys2Proof.Machine
end

