-- ==== Sys2Proof/Laws/State.lean ====
section
/-! SUPPORT. What each small operation leaves alone, one lemma for each operation and part of the block. -/

namespace Sys2Proof.Machine

variable (d : Dev)

/-! ## setReg -/

@[simp] theorem Dev.setReg_eff (a : Nat) (v : Word) : (d.setReg a v).eff = d.eff := rfl
@[simp] theorem Dev.setReg_counters (a : Nat) (v : Word) : (d.setReg a v).counters = d.counters := rfl
@[simp] theorem Dev.setReg_chans (a : Nat) (v : Word) : (d.setReg a v).chans = d.chans := rfl
@[simp] theorem Dev.setReg_r0 (a : Nat) (v : Word) : (d.setReg a v).r0 = d.r0 := rfl
@[simp] theorem Dev.setReg_r1 (a : Nat) (v : Word) : (d.setReg a v).r1 = d.r1 := rfl
@[simp] theorem Dev.setReg_r2 (a : Nat) (v : Word) : (d.setReg a v).r2 = d.r2 := rfl
@[simp] theorem Dev.setReg_sch (a : Nat) (v : Word) : (d.setReg a v).sch = d.sch := rfl
@[simp] theorem Dev.setReg_msh (a : Nat) (v : Word) : (d.setReg a v).msh = d.msh := rfl
@[simp] theorem Dev.setReg_tim (a : Nat) (v : Word) : (d.setReg a v).tim = d.tim := rfl
@[simp] theorem Dev.setReg_fwd (a : Nat) (v : Word) : (d.setReg a v).fwd = d.fwd := rfl
@[simp] theorem Dev.setReg_eth (a : Nat) (v : Word) : (d.setReg a v).eth = d.eth := rfl
@[simp] theorem Dev.setReg_tsk (a : Nat) (v : Word) : (d.setReg a v).tsk = d.tsk := rfl
@[simp] theorem Dev.setReg_kao (a : Nat) (v : Word) : (d.setReg a v).kao = d.kao := rfl
@[simp] theorem Dev.setReg_dmc (a : Nat) (v : Word) : (d.setReg a v).dmc = d.dmc := rfl
@[simp] theorem Dev.setReg_hif (a : Nat) (v : Word) : (d.setReg a v).hif = d.hif := rfl
@[simp] theorem Dev.setReg_pwr (a : Nat) (v : Word) : (d.setReg a v).pwr = d.pwr := rfl
@[simp] theorem Dev.setReg_boot (a : Nat) (v : Word) : (d.setReg a v).boot = d.boot := rfl
@[simp] theorem Dev.setReg_obs (a : Nat) (v : Word) : (d.setReg a v).obs = d.obs := rfl
@[simp] theorem Dev.setReg_pins (a : Nat) (v : Word) : (d.setReg a v).pins = d.pins := rfl
@[simp] theorem Dev.setReg_decodeQ (a : Nat) (v : Word) : (d.setReg a v).decodeQ = d.decodeQ := rfl
@[simp] theorem Dev.setReg_vit (a : Nat) (v : Word) : (d.setReg a v).vit = d.vit := rfl
@[simp] theorem Dev.setReg_outs (a : Nat) (v : Word) : (d.setReg a v).outs = d.outs := rfl
@[simp] theorem Dev.setReg_freeCtr (a : Nat) (v : Word) : (d.setReg a v).freeCtr = d.freeCtr := rfl

/-! ## setFld -/

@[simp] theorem Dev.setFld_eff (f : Field) (v : Nat) : (d.setFld f v).eff = d.eff := rfl
@[simp] theorem Dev.setFld_counters (f : Field) (v : Nat) : (d.setFld f v).counters = d.counters := rfl
@[simp] theorem Dev.setFld_chans (f : Field) (v : Nat) : (d.setFld f v).chans = d.chans := rfl
@[simp] theorem Dev.setFld_r0 (f : Field) (v : Nat) : (d.setFld f v).r0 = d.r0 := rfl
@[simp] theorem Dev.setFld_r1 (f : Field) (v : Nat) : (d.setFld f v).r1 = d.r1 := rfl
@[simp] theorem Dev.setFld_r2 (f : Field) (v : Nat) : (d.setFld f v).r2 = d.r2 := rfl
@[simp] theorem Dev.setFld_sch (f : Field) (v : Nat) : (d.setFld f v).sch = d.sch := rfl
@[simp] theorem Dev.setFld_msh (f : Field) (v : Nat) : (d.setFld f v).msh = d.msh := rfl
@[simp] theorem Dev.setFld_tim (f : Field) (v : Nat) : (d.setFld f v).tim = d.tim := rfl
@[simp] theorem Dev.setFld_fwd (f : Field) (v : Nat) : (d.setFld f v).fwd = d.fwd := rfl
@[simp] theorem Dev.setFld_eth (f : Field) (v : Nat) : (d.setFld f v).eth = d.eth := rfl
@[simp] theorem Dev.setFld_tsk (f : Field) (v : Nat) : (d.setFld f v).tsk = d.tsk := rfl
@[simp] theorem Dev.setFld_kao (f : Field) (v : Nat) : (d.setFld f v).kao = d.kao := rfl
@[simp] theorem Dev.setFld_dmc (f : Field) (v : Nat) : (d.setFld f v).dmc = d.dmc := rfl
@[simp] theorem Dev.setFld_hif (f : Field) (v : Nat) : (d.setFld f v).hif = d.hif := rfl
@[simp] theorem Dev.setFld_pwr (f : Field) (v : Nat) : (d.setFld f v).pwr = d.pwr := rfl
@[simp] theorem Dev.setFld_boot (f : Field) (v : Nat) : (d.setFld f v).boot = d.boot := rfl
@[simp] theorem Dev.setFld_obs (f : Field) (v : Nat) : (d.setFld f v).obs = d.obs := rfl
@[simp] theorem Dev.setFld_pins (f : Field) (v : Nat) : (d.setFld f v).pins = d.pins := rfl
@[simp] theorem Dev.setFld_decodeQ (f : Field) (v : Nat) : (d.setFld f v).decodeQ = d.decodeQ := rfl
@[simp] theorem Dev.setFld_vit (f : Field) (v : Nat) : (d.setFld f v).vit = d.vit := rfl
@[simp] theorem Dev.setFld_outs (f : Field) (v : Nat) : (d.setFld f v).outs = d.outs := rfl
@[simp] theorem Dev.setFld_freeCtr (f : Field) (v : Nat) : (d.setFld f v).freeCtr = d.freeCtr := rfl

/-! ## raise -/

@[simp] theorem Dev.raise_eff (f : Field) : (d.raise f).eff = d.eff := rfl
@[simp] theorem Dev.raise_counters (f : Field) : (d.raise f).counters = d.counters := rfl
@[simp] theorem Dev.raise_chans (f : Field) : (d.raise f).chans = d.chans := rfl
@[simp] theorem Dev.raise_r0 (f : Field) : (d.raise f).r0 = d.r0 := rfl
@[simp] theorem Dev.raise_r1 (f : Field) : (d.raise f).r1 = d.r1 := rfl
@[simp] theorem Dev.raise_r2 (f : Field) : (d.raise f).r2 = d.r2 := rfl
@[simp] theorem Dev.raise_sch (f : Field) : (d.raise f).sch = d.sch := rfl
@[simp] theorem Dev.raise_msh (f : Field) : (d.raise f).msh = d.msh := rfl
@[simp] theorem Dev.raise_tim (f : Field) : (d.raise f).tim = d.tim := rfl
@[simp] theorem Dev.raise_fwd (f : Field) : (d.raise f).fwd = d.fwd := rfl
@[simp] theorem Dev.raise_eth (f : Field) : (d.raise f).eth = d.eth := rfl
@[simp] theorem Dev.raise_tsk (f : Field) : (d.raise f).tsk = d.tsk := rfl
@[simp] theorem Dev.raise_kao (f : Field) : (d.raise f).kao = d.kao := rfl
@[simp] theorem Dev.raise_dmc (f : Field) : (d.raise f).dmc = d.dmc := rfl
@[simp] theorem Dev.raise_hif (f : Field) : (d.raise f).hif = d.hif := rfl
@[simp] theorem Dev.raise_pwr (f : Field) : (d.raise f).pwr = d.pwr := rfl
@[simp] theorem Dev.raise_boot (f : Field) : (d.raise f).boot = d.boot := rfl
@[simp] theorem Dev.raise_obs (f : Field) : (d.raise f).obs = d.obs := rfl
@[simp] theorem Dev.raise_pins (f : Field) : (d.raise f).pins = d.pins := rfl
@[simp] theorem Dev.raise_decodeQ (f : Field) : (d.raise f).decodeQ = d.decodeQ := rfl
@[simp] theorem Dev.raise_vit (f : Field) : (d.raise f).vit = d.vit := rfl
@[simp] theorem Dev.raise_outs (f : Field) : (d.raise f).outs = d.outs := rfl
@[simp] theorem Dev.raise_freeCtr (f : Field) : (d.raise f).freeCtr = d.freeCtr := rfl

/-! ## setBit -/

@[simp] theorem Dev.setBit_eff (f : Field) (b : Bool) : (d.setBit f b).eff = d.eff := rfl
@[simp] theorem Dev.setBit_counters (f : Field) (b : Bool) : (d.setBit f b).counters = d.counters := rfl
@[simp] theorem Dev.setBit_chans (f : Field) (b : Bool) : (d.setBit f b).chans = d.chans := rfl
@[simp] theorem Dev.setBit_r0 (f : Field) (b : Bool) : (d.setBit f b).r0 = d.r0 := rfl
@[simp] theorem Dev.setBit_r1 (f : Field) (b : Bool) : (d.setBit f b).r1 = d.r1 := rfl
@[simp] theorem Dev.setBit_r2 (f : Field) (b : Bool) : (d.setBit f b).r2 = d.r2 := rfl
@[simp] theorem Dev.setBit_sch (f : Field) (b : Bool) : (d.setBit f b).sch = d.sch := rfl
@[simp] theorem Dev.setBit_msh (f : Field) (b : Bool) : (d.setBit f b).msh = d.msh := rfl
@[simp] theorem Dev.setBit_tim (f : Field) (b : Bool) : (d.setBit f b).tim = d.tim := rfl
@[simp] theorem Dev.setBit_fwd (f : Field) (b : Bool) : (d.setBit f b).fwd = d.fwd := rfl
@[simp] theorem Dev.setBit_eth (f : Field) (b : Bool) : (d.setBit f b).eth = d.eth := rfl
@[simp] theorem Dev.setBit_tsk (f : Field) (b : Bool) : (d.setBit f b).tsk = d.tsk := rfl
@[simp] theorem Dev.setBit_kao (f : Field) (b : Bool) : (d.setBit f b).kao = d.kao := rfl
@[simp] theorem Dev.setBit_dmc (f : Field) (b : Bool) : (d.setBit f b).dmc = d.dmc := rfl
@[simp] theorem Dev.setBit_hif (f : Field) (b : Bool) : (d.setBit f b).hif = d.hif := rfl
@[simp] theorem Dev.setBit_pwr (f : Field) (b : Bool) : (d.setBit f b).pwr = d.pwr := rfl
@[simp] theorem Dev.setBit_boot (f : Field) (b : Bool) : (d.setBit f b).boot = d.boot := rfl
@[simp] theorem Dev.setBit_obs (f : Field) (b : Bool) : (d.setBit f b).obs = d.obs := rfl
@[simp] theorem Dev.setBit_pins (f : Field) (b : Bool) : (d.setBit f b).pins = d.pins := rfl
@[simp] theorem Dev.setBit_decodeQ (f : Field) (b : Bool) : (d.setBit f b).decodeQ = d.decodeQ := rfl
@[simp] theorem Dev.setBit_vit (f : Field) (b : Bool) : (d.setBit f b).vit = d.vit := rfl
@[simp] theorem Dev.setBit_outs (f : Field) (b : Bool) : (d.setBit f b).outs = d.outs := rfl
@[simp] theorem Dev.setBit_freeCtr (f : Field) (b : Bool) : (d.setBit f b).freeCtr = d.freeCtr := rfl

/-! ## bumpBy -/

@[simp] theorem Dev.bumpBy_regs (i n : Nat) : (d.bumpBy i n).regs = d.regs := rfl
@[simp] theorem Dev.bumpBy_eff (i n : Nat) : (d.bumpBy i n).eff = d.eff := rfl
@[simp] theorem Dev.bumpBy_chans (i n : Nat) : (d.bumpBy i n).chans = d.chans := rfl
@[simp] theorem Dev.bumpBy_r0 (i n : Nat) : (d.bumpBy i n).r0 = d.r0 := rfl
@[simp] theorem Dev.bumpBy_r1 (i n : Nat) : (d.bumpBy i n).r1 = d.r1 := rfl
@[simp] theorem Dev.bumpBy_r2 (i n : Nat) : (d.bumpBy i n).r2 = d.r2 := rfl
@[simp] theorem Dev.bumpBy_sch (i n : Nat) : (d.bumpBy i n).sch = d.sch := rfl
@[simp] theorem Dev.bumpBy_msh (i n : Nat) : (d.bumpBy i n).msh = d.msh := rfl
@[simp] theorem Dev.bumpBy_tim (i n : Nat) : (d.bumpBy i n).tim = d.tim := rfl
@[simp] theorem Dev.bumpBy_fwd (i n : Nat) : (d.bumpBy i n).fwd = d.fwd := rfl
@[simp] theorem Dev.bumpBy_eth (i n : Nat) : (d.bumpBy i n).eth = d.eth := rfl
@[simp] theorem Dev.bumpBy_tsk (i n : Nat) : (d.bumpBy i n).tsk = d.tsk := rfl
@[simp] theorem Dev.bumpBy_kao (i n : Nat) : (d.bumpBy i n).kao = d.kao := rfl
@[simp] theorem Dev.bumpBy_dmc (i n : Nat) : (d.bumpBy i n).dmc = d.dmc := rfl
@[simp] theorem Dev.bumpBy_hif (i n : Nat) : (d.bumpBy i n).hif = d.hif := rfl
@[simp] theorem Dev.bumpBy_pwr (i n : Nat) : (d.bumpBy i n).pwr = d.pwr := rfl
@[simp] theorem Dev.bumpBy_boot (i n : Nat) : (d.bumpBy i n).boot = d.boot := rfl
@[simp] theorem Dev.bumpBy_obs (i n : Nat) : (d.bumpBy i n).obs = d.obs := rfl
@[simp] theorem Dev.bumpBy_pins (i n : Nat) : (d.bumpBy i n).pins = d.pins := rfl
@[simp] theorem Dev.bumpBy_decodeQ (i n : Nat) : (d.bumpBy i n).decodeQ = d.decodeQ := rfl
@[simp] theorem Dev.bumpBy_vit (i n : Nat) : (d.bumpBy i n).vit = d.vit := rfl
@[simp] theorem Dev.bumpBy_outs (i n : Nat) : (d.bumpBy i n).outs = d.outs := rfl
@[simp] theorem Dev.bumpBy_freeCtr (i n : Nat) : (d.bumpBy i n).freeCtr = d.freeCtr := rfl

/-! ## bump -/

@[simp] theorem Dev.bump_regs (i : Nat) : (d.bump i).regs = d.regs := rfl
@[simp] theorem Dev.bump_eff (i : Nat) : (d.bump i).eff = d.eff := rfl
@[simp] theorem Dev.bump_chans (i : Nat) : (d.bump i).chans = d.chans := rfl
@[simp] theorem Dev.bump_r0 (i : Nat) : (d.bump i).r0 = d.r0 := rfl
@[simp] theorem Dev.bump_r1 (i : Nat) : (d.bump i).r1 = d.r1 := rfl
@[simp] theorem Dev.bump_r2 (i : Nat) : (d.bump i).r2 = d.r2 := rfl
@[simp] theorem Dev.bump_sch (i : Nat) : (d.bump i).sch = d.sch := rfl
@[simp] theorem Dev.bump_msh (i : Nat) : (d.bump i).msh = d.msh := rfl
@[simp] theorem Dev.bump_tim (i : Nat) : (d.bump i).tim = d.tim := rfl
@[simp] theorem Dev.bump_fwd (i : Nat) : (d.bump i).fwd = d.fwd := rfl
@[simp] theorem Dev.bump_eth (i : Nat) : (d.bump i).eth = d.eth := rfl
@[simp] theorem Dev.bump_tsk (i : Nat) : (d.bump i).tsk = d.tsk := rfl
@[simp] theorem Dev.bump_kao (i : Nat) : (d.bump i).kao = d.kao := rfl
@[simp] theorem Dev.bump_dmc (i : Nat) : (d.bump i).dmc = d.dmc := rfl
@[simp] theorem Dev.bump_hif (i : Nat) : (d.bump i).hif = d.hif := rfl
@[simp] theorem Dev.bump_pwr (i : Nat) : (d.bump i).pwr = d.pwr := rfl
@[simp] theorem Dev.bump_boot (i : Nat) : (d.bump i).boot = d.boot := rfl
@[simp] theorem Dev.bump_obs (i : Nat) : (d.bump i).obs = d.obs := rfl
@[simp] theorem Dev.bump_pins (i : Nat) : (d.bump i).pins = d.pins := rfl
@[simp] theorem Dev.bump_decodeQ (i : Nat) : (d.bump i).decodeQ = d.decodeQ := rfl
@[simp] theorem Dev.bump_vit (i : Nat) : (d.bump i).vit = d.vit := rfl
@[simp] theorem Dev.bump_outs (i : Nat) : (d.bump i).outs = d.outs := rfl
@[simp] theorem Dev.bump_freeCtr (i : Nat) : (d.bump i).freeCtr = d.freeCtr := rfl

/-! ## out -/

@[simp] theorem Dev.out_regs (o : Output) : (d.out o).regs = d.regs := rfl
@[simp] theorem Dev.out_eff (o : Output) : (d.out o).eff = d.eff := rfl
@[simp] theorem Dev.out_counters (o : Output) : (d.out o).counters = d.counters := rfl
@[simp] theorem Dev.out_chans (o : Output) : (d.out o).chans = d.chans := rfl
@[simp] theorem Dev.out_r0 (o : Output) : (d.out o).r0 = d.r0 := rfl
@[simp] theorem Dev.out_r1 (o : Output) : (d.out o).r1 = d.r1 := rfl
@[simp] theorem Dev.out_r2 (o : Output) : (d.out o).r2 = d.r2 := rfl
@[simp] theorem Dev.out_sch (o : Output) : (d.out o).sch = d.sch := rfl
@[simp] theorem Dev.out_msh (o : Output) : (d.out o).msh = d.msh := rfl
@[simp] theorem Dev.out_tim (o : Output) : (d.out o).tim = d.tim := rfl
@[simp] theorem Dev.out_fwd (o : Output) : (d.out o).fwd = d.fwd := rfl
@[simp] theorem Dev.out_eth (o : Output) : (d.out o).eth = d.eth := rfl
@[simp] theorem Dev.out_tsk (o : Output) : (d.out o).tsk = d.tsk := rfl
@[simp] theorem Dev.out_kao (o : Output) : (d.out o).kao = d.kao := rfl
@[simp] theorem Dev.out_dmc (o : Output) : (d.out o).dmc = d.dmc := rfl
@[simp] theorem Dev.out_hif (o : Output) : (d.out o).hif = d.hif := rfl
@[simp] theorem Dev.out_pwr (o : Output) : (d.out o).pwr = d.pwr := rfl
@[simp] theorem Dev.out_boot (o : Output) : (d.out o).boot = d.boot := rfl
@[simp] theorem Dev.out_obs (o : Output) : (d.out o).obs = d.obs := rfl
@[simp] theorem Dev.out_pins (o : Output) : (d.out o).pins = d.pins := rfl
@[simp] theorem Dev.out_decodeQ (o : Output) : (d.out o).decodeQ = d.decodeQ := rfl
@[simp] theorem Dev.out_vit (o : Output) : (d.out o).vit = d.vit := rfl
@[simp] theorem Dev.out_freeCtr (o : Output) : (d.out o).freeCtr = d.freeCtr := rfl

/-! ## setRing -/

@[simp] theorem Dev.setRing_regs (i : Nat) (r : Ring) : (d.setRing i r).regs = d.regs := rfl
@[simp] theorem Dev.setRing_eff (i : Nat) (r : Ring) : (d.setRing i r).eff = d.eff := rfl
@[simp] theorem Dev.setRing_counters (i : Nat) (r : Ring) : (d.setRing i r).counters = d.counters := rfl
@[simp] theorem Dev.setRing_chans (i : Nat) (r : Ring) : (d.setRing i r).chans = d.chans := rfl
@[simp] theorem Dev.setRing_r0 (i : Nat) (r : Ring) : (d.setRing i r).r0 = d.r0 := rfl
@[simp] theorem Dev.setRing_r1 (i : Nat) (r : Ring) : (d.setRing i r).r1 = d.r1 := rfl
@[simp] theorem Dev.setRing_r2 (i : Nat) (r : Ring) : (d.setRing i r).r2 = d.r2 := rfl
@[simp] theorem Dev.setRing_sch (i : Nat) (r : Ring) : (d.setRing i r).sch = d.sch := rfl
@[simp] theorem Dev.setRing_msh (i : Nat) (r : Ring) : (d.setRing i r).msh = d.msh := rfl
@[simp] theorem Dev.setRing_tim (i : Nat) (r : Ring) : (d.setRing i r).tim = d.tim := rfl
@[simp] theorem Dev.setRing_fwd (i : Nat) (r : Ring) : (d.setRing i r).fwd = d.fwd := rfl
@[simp] theorem Dev.setRing_eth (i : Nat) (r : Ring) : (d.setRing i r).eth = d.eth := rfl
@[simp] theorem Dev.setRing_tsk (i : Nat) (r : Ring) : (d.setRing i r).tsk = d.tsk := rfl
@[simp] theorem Dev.setRing_kao (i : Nat) (r : Ring) : (d.setRing i r).kao = d.kao := rfl
@[simp] theorem Dev.setRing_dmc (i : Nat) (r : Ring) : (d.setRing i r).dmc = d.dmc := rfl
@[simp] theorem Dev.setRing_pwr (i : Nat) (r : Ring) : (d.setRing i r).pwr = d.pwr := rfl
@[simp] theorem Dev.setRing_boot (i : Nat) (r : Ring) : (d.setRing i r).boot = d.boot := rfl
@[simp] theorem Dev.setRing_obs (i : Nat) (r : Ring) : (d.setRing i r).obs = d.obs := rfl
@[simp] theorem Dev.setRing_pins (i : Nat) (r : Ring) : (d.setRing i r).pins = d.pins := rfl
@[simp] theorem Dev.setRing_decodeQ (i : Nat) (r : Ring) : (d.setRing i r).decodeQ = d.decodeQ := rfl
@[simp] theorem Dev.setRing_vit (i : Nat) (r : Ring) : (d.setRing i r).vit = d.vit := rfl
@[simp] theorem Dev.setRing_outs (i : Nat) (r : Ring) : (d.setRing i r).outs = d.outs := rfl
@[simp] theorem Dev.setRing_freeCtr (i : Nat) (r : Ring) : (d.setRing i r).freeCtr = d.freeCtr := rfl

/-! ## setRadio -/

@[simp] theorem Dev.setRadio_regs (r : RadioId) (x : Radio) : (d.setRadio r x).regs = d.regs := by unfold Dev.setRadio; split <;> rfl
@[simp] theorem Dev.setRadio_eff (r : RadioId) (x : Radio) : (d.setRadio r x).eff = d.eff := by unfold Dev.setRadio; split <;> rfl
@[simp] theorem Dev.setRadio_counters (r : RadioId) (x : Radio) : (d.setRadio r x).counters = d.counters := by unfold Dev.setRadio; split <;> rfl
@[simp] theorem Dev.setRadio_chans (r : RadioId) (x : Radio) : (d.setRadio r x).chans = d.chans := by unfold Dev.setRadio; split <;> rfl
@[simp] theorem Dev.setRadio_sch (r : RadioId) (x : Radio) : (d.setRadio r x).sch = d.sch := by unfold Dev.setRadio; split <;> rfl
@[simp] theorem Dev.setRadio_msh (r : RadioId) (x : Radio) : (d.setRadio r x).msh = d.msh := by unfold Dev.setRadio; split <;> rfl
@[simp] theorem Dev.setRadio_tim (r : RadioId) (x : Radio) : (d.setRadio r x).tim = d.tim := by unfold Dev.setRadio; split <;> rfl
@[simp] theorem Dev.setRadio_fwd (r : RadioId) (x : Radio) : (d.setRadio r x).fwd = d.fwd := by unfold Dev.setRadio; split <;> rfl
@[simp] theorem Dev.setRadio_eth (r : RadioId) (x : Radio) : (d.setRadio r x).eth = d.eth := by unfold Dev.setRadio; split <;> rfl
@[simp] theorem Dev.setRadio_tsk (r : RadioId) (x : Radio) : (d.setRadio r x).tsk = d.tsk := by unfold Dev.setRadio; split <;> rfl
@[simp] theorem Dev.setRadio_kao (r : RadioId) (x : Radio) : (d.setRadio r x).kao = d.kao := by unfold Dev.setRadio; split <;> rfl
@[simp] theorem Dev.setRadio_dmc (r : RadioId) (x : Radio) : (d.setRadio r x).dmc = d.dmc := by unfold Dev.setRadio; split <;> rfl
@[simp] theorem Dev.setRadio_hif (r : RadioId) (x : Radio) : (d.setRadio r x).hif = d.hif := by unfold Dev.setRadio; split <;> rfl
@[simp] theorem Dev.setRadio_pwr (r : RadioId) (x : Radio) : (d.setRadio r x).pwr = d.pwr := by unfold Dev.setRadio; split <;> rfl
@[simp] theorem Dev.setRadio_boot (r : RadioId) (x : Radio) : (d.setRadio r x).boot = d.boot := by unfold Dev.setRadio; split <;> rfl
@[simp] theorem Dev.setRadio_obs (r : RadioId) (x : Radio) : (d.setRadio r x).obs = d.obs := by unfold Dev.setRadio; split <;> rfl
@[simp] theorem Dev.setRadio_pins (r : RadioId) (x : Radio) : (d.setRadio r x).pins = d.pins := by unfold Dev.setRadio; split <;> rfl
@[simp] theorem Dev.setRadio_decodeQ (r : RadioId) (x : Radio) : (d.setRadio r x).decodeQ = d.decodeQ := by unfold Dev.setRadio; split <;> rfl
@[simp] theorem Dev.setRadio_vit (r : RadioId) (x : Radio) : (d.setRadio r x).vit = d.vit := by unfold Dev.setRadio; split <;> rfl
@[simp] theorem Dev.setRadio_outs (r : RadioId) (x : Radio) : (d.setRadio r x).outs = d.outs := by unfold Dev.setRadio; split <;> rfl
@[simp] theorem Dev.setRadio_freeCtr (r : RadioId) (x : Radio) : (d.setRadio r x).freeCtr = d.freeCtr := by unfold Dev.setRadio; split <;> rfl

/-! ## modRadio -/

@[simp] theorem Dev.modRadio_regs (r : RadioId) (f : Radio → Radio) : (d.modRadio r f).regs = d.regs := by unfold Dev.modRadio Dev.setRadio; split <;> rfl
@[simp] theorem Dev.modRadio_eff (r : RadioId) (f : Radio → Radio) : (d.modRadio r f).eff = d.eff := by unfold Dev.modRadio Dev.setRadio; split <;> rfl
@[simp] theorem Dev.modRadio_counters (r : RadioId) (f : Radio → Radio) : (d.modRadio r f).counters = d.counters := by unfold Dev.modRadio Dev.setRadio; split <;> rfl
@[simp] theorem Dev.modRadio_chans (r : RadioId) (f : Radio → Radio) : (d.modRadio r f).chans = d.chans := by unfold Dev.modRadio Dev.setRadio; split <;> rfl
@[simp] theorem Dev.modRadio_sch (r : RadioId) (f : Radio → Radio) : (d.modRadio r f).sch = d.sch := by unfold Dev.modRadio Dev.setRadio; split <;> rfl
@[simp] theorem Dev.modRadio_msh (r : RadioId) (f : Radio → Radio) : (d.modRadio r f).msh = d.msh := by unfold Dev.modRadio Dev.setRadio; split <;> rfl
@[simp] theorem Dev.modRadio_tim (r : RadioId) (f : Radio → Radio) : (d.modRadio r f).tim = d.tim := by unfold Dev.modRadio Dev.setRadio; split <;> rfl
@[simp] theorem Dev.modRadio_fwd (r : RadioId) (f : Radio → Radio) : (d.modRadio r f).fwd = d.fwd := by unfold Dev.modRadio Dev.setRadio; split <;> rfl
@[simp] theorem Dev.modRadio_eth (r : RadioId) (f : Radio → Radio) : (d.modRadio r f).eth = d.eth := by unfold Dev.modRadio Dev.setRadio; split <;> rfl
@[simp] theorem Dev.modRadio_tsk (r : RadioId) (f : Radio → Radio) : (d.modRadio r f).tsk = d.tsk := by unfold Dev.modRadio Dev.setRadio; split <;> rfl
@[simp] theorem Dev.modRadio_kao (r : RadioId) (f : Radio → Radio) : (d.modRadio r f).kao = d.kao := by unfold Dev.modRadio Dev.setRadio; split <;> rfl
@[simp] theorem Dev.modRadio_dmc (r : RadioId) (f : Radio → Radio) : (d.modRadio r f).dmc = d.dmc := by unfold Dev.modRadio Dev.setRadio; split <;> rfl
@[simp] theorem Dev.modRadio_hif (r : RadioId) (f : Radio → Radio) : (d.modRadio r f).hif = d.hif := by unfold Dev.modRadio Dev.setRadio; split <;> rfl
@[simp] theorem Dev.modRadio_pwr (r : RadioId) (f : Radio → Radio) : (d.modRadio r f).pwr = d.pwr := by unfold Dev.modRadio Dev.setRadio; split <;> rfl
@[simp] theorem Dev.modRadio_boot (r : RadioId) (f : Radio → Radio) : (d.modRadio r f).boot = d.boot := by unfold Dev.modRadio Dev.setRadio; split <;> rfl
@[simp] theorem Dev.modRadio_obs (r : RadioId) (f : Radio → Radio) : (d.modRadio r f).obs = d.obs := by unfold Dev.modRadio Dev.setRadio; split <;> rfl
@[simp] theorem Dev.modRadio_pins (r : RadioId) (f : Radio → Radio) : (d.modRadio r f).pins = d.pins := by unfold Dev.modRadio Dev.setRadio; split <;> rfl
@[simp] theorem Dev.modRadio_decodeQ (r : RadioId) (f : Radio → Radio) : (d.modRadio r f).decodeQ = d.decodeQ := by unfold Dev.modRadio Dev.setRadio; split <;> rfl
@[simp] theorem Dev.modRadio_vit (r : RadioId) (f : Radio → Radio) : (d.modRadio r f).vit = d.vit := by unfold Dev.modRadio Dev.setRadio; split <;> rfl
@[simp] theorem Dev.modRadio_outs (r : RadioId) (f : Radio → Radio) : (d.modRadio r f).outs = d.outs := by unfold Dev.modRadio Dev.setRadio; split <;> rfl
@[simp] theorem Dev.modRadio_freeCtr (r : RadioId) (f : Radio → Radio) : (d.modRadio r f).freeCtr = d.freeCtr := by unfold Dev.modRadio Dev.setRadio; split <;> rfl

/-! ## setPort -/

@[simp] theorem Dev.setPort_regs (p : PortId) (x : EthPort) : (d.setPort p x).regs = d.regs := by unfold Dev.setPort; split <;> rfl
@[simp] theorem Dev.setPort_eff (p : PortId) (x : EthPort) : (d.setPort p x).eff = d.eff := by unfold Dev.setPort; split <;> rfl
@[simp] theorem Dev.setPort_counters (p : PortId) (x : EthPort) : (d.setPort p x).counters = d.counters := by unfold Dev.setPort; split <;> rfl
@[simp] theorem Dev.setPort_chans (p : PortId) (x : EthPort) : (d.setPort p x).chans = d.chans := by unfold Dev.setPort; split <;> rfl
@[simp] theorem Dev.setPort_r0 (p : PortId) (x : EthPort) : (d.setPort p x).r0 = d.r0 := by unfold Dev.setPort; split <;> rfl
@[simp] theorem Dev.setPort_r1 (p : PortId) (x : EthPort) : (d.setPort p x).r1 = d.r1 := by unfold Dev.setPort; split <;> rfl
@[simp] theorem Dev.setPort_r2 (p : PortId) (x : EthPort) : (d.setPort p x).r2 = d.r2 := by unfold Dev.setPort; split <;> rfl
@[simp] theorem Dev.setPort_sch (p : PortId) (x : EthPort) : (d.setPort p x).sch = d.sch := by unfold Dev.setPort; split <;> rfl
@[simp] theorem Dev.setPort_msh (p : PortId) (x : EthPort) : (d.setPort p x).msh = d.msh := by unfold Dev.setPort; split <;> rfl
@[simp] theorem Dev.setPort_tim (p : PortId) (x : EthPort) : (d.setPort p x).tim = d.tim := by unfold Dev.setPort; split <;> rfl
@[simp] theorem Dev.setPort_fwd (p : PortId) (x : EthPort) : (d.setPort p x).fwd = d.fwd := by unfold Dev.setPort; split <;> rfl
@[simp] theorem Dev.setPort_tsk (p : PortId) (x : EthPort) : (d.setPort p x).tsk = d.tsk := by unfold Dev.setPort; split <;> rfl
@[simp] theorem Dev.setPort_kao (p : PortId) (x : EthPort) : (d.setPort p x).kao = d.kao := by unfold Dev.setPort; split <;> rfl
@[simp] theorem Dev.setPort_dmc (p : PortId) (x : EthPort) : (d.setPort p x).dmc = d.dmc := by unfold Dev.setPort; split <;> rfl
@[simp] theorem Dev.setPort_hif (p : PortId) (x : EthPort) : (d.setPort p x).hif = d.hif := by unfold Dev.setPort; split <;> rfl
@[simp] theorem Dev.setPort_pwr (p : PortId) (x : EthPort) : (d.setPort p x).pwr = d.pwr := by unfold Dev.setPort; split <;> rfl
@[simp] theorem Dev.setPort_boot (p : PortId) (x : EthPort) : (d.setPort p x).boot = d.boot := by unfold Dev.setPort; split <;> rfl
@[simp] theorem Dev.setPort_obs (p : PortId) (x : EthPort) : (d.setPort p x).obs = d.obs := by unfold Dev.setPort; split <;> rfl
@[simp] theorem Dev.setPort_pins (p : PortId) (x : EthPort) : (d.setPort p x).pins = d.pins := by unfold Dev.setPort; split <;> rfl
@[simp] theorem Dev.setPort_decodeQ (p : PortId) (x : EthPort) : (d.setPort p x).decodeQ = d.decodeQ := by unfold Dev.setPort; split <;> rfl
@[simp] theorem Dev.setPort_vit (p : PortId) (x : EthPort) : (d.setPort p x).vit = d.vit := by unfold Dev.setPort; split <;> rfl
@[simp] theorem Dev.setPort_outs (p : PortId) (x : EthPort) : (d.setPort p x).outs = d.outs := by unfold Dev.setPort; split <;> rfl
@[simp] theorem Dev.setPort_freeCtr (p : PortId) (x : EthPort) : (d.setPort p x).freeCtr = d.freeCtr := by unfold Dev.setPort; split <;> rfl

/-! ## modPort -/

@[simp] theorem Dev.modPort_regs (p : PortId) (f : EthPort → EthPort) : (d.modPort p f).regs = d.regs := by unfold Dev.modPort Dev.setPort; split <;> rfl
@[simp] theorem Dev.modPort_eff (p : PortId) (f : EthPort → EthPort) : (d.modPort p f).eff = d.eff := by unfold Dev.modPort Dev.setPort; split <;> rfl
@[simp] theorem Dev.modPort_counters (p : PortId) (f : EthPort → EthPort) : (d.modPort p f).counters = d.counters := by unfold Dev.modPort Dev.setPort; split <;> rfl
@[simp] theorem Dev.modPort_chans (p : PortId) (f : EthPort → EthPort) : (d.modPort p f).chans = d.chans := by unfold Dev.modPort Dev.setPort; split <;> rfl
@[simp] theorem Dev.modPort_r0 (p : PortId) (f : EthPort → EthPort) : (d.modPort p f).r0 = d.r0 := by unfold Dev.modPort Dev.setPort; split <;> rfl
@[simp] theorem Dev.modPort_r1 (p : PortId) (f : EthPort → EthPort) : (d.modPort p f).r1 = d.r1 := by unfold Dev.modPort Dev.setPort; split <;> rfl
@[simp] theorem Dev.modPort_r2 (p : PortId) (f : EthPort → EthPort) : (d.modPort p f).r2 = d.r2 := by unfold Dev.modPort Dev.setPort; split <;> rfl
@[simp] theorem Dev.modPort_sch (p : PortId) (f : EthPort → EthPort) : (d.modPort p f).sch = d.sch := by unfold Dev.modPort Dev.setPort; split <;> rfl
@[simp] theorem Dev.modPort_msh (p : PortId) (f : EthPort → EthPort) : (d.modPort p f).msh = d.msh := by unfold Dev.modPort Dev.setPort; split <;> rfl
@[simp] theorem Dev.modPort_tim (p : PortId) (f : EthPort → EthPort) : (d.modPort p f).tim = d.tim := by unfold Dev.modPort Dev.setPort; split <;> rfl
@[simp] theorem Dev.modPort_fwd (p : PortId) (f : EthPort → EthPort) : (d.modPort p f).fwd = d.fwd := by unfold Dev.modPort Dev.setPort; split <;> rfl
@[simp] theorem Dev.modPort_tsk (p : PortId) (f : EthPort → EthPort) : (d.modPort p f).tsk = d.tsk := by unfold Dev.modPort Dev.setPort; split <;> rfl
@[simp] theorem Dev.modPort_kao (p : PortId) (f : EthPort → EthPort) : (d.modPort p f).kao = d.kao := by unfold Dev.modPort Dev.setPort; split <;> rfl
@[simp] theorem Dev.modPort_dmc (p : PortId) (f : EthPort → EthPort) : (d.modPort p f).dmc = d.dmc := by unfold Dev.modPort Dev.setPort; split <;> rfl
@[simp] theorem Dev.modPort_hif (p : PortId) (f : EthPort → EthPort) : (d.modPort p f).hif = d.hif := by unfold Dev.modPort Dev.setPort; split <;> rfl
@[simp] theorem Dev.modPort_pwr (p : PortId) (f : EthPort → EthPort) : (d.modPort p f).pwr = d.pwr := by unfold Dev.modPort Dev.setPort; split <;> rfl
@[simp] theorem Dev.modPort_boot (p : PortId) (f : EthPort → EthPort) : (d.modPort p f).boot = d.boot := by unfold Dev.modPort Dev.setPort; split <;> rfl
@[simp] theorem Dev.modPort_obs (p : PortId) (f : EthPort → EthPort) : (d.modPort p f).obs = d.obs := by unfold Dev.modPort Dev.setPort; split <;> rfl
@[simp] theorem Dev.modPort_pins (p : PortId) (f : EthPort → EthPort) : (d.modPort p f).pins = d.pins := by unfold Dev.modPort Dev.setPort; split <;> rfl
@[simp] theorem Dev.modPort_decodeQ (p : PortId) (f : EthPort → EthPort) : (d.modPort p f).decodeQ = d.decodeQ := by unfold Dev.modPort Dev.setPort; split <;> rfl
@[simp] theorem Dev.modPort_vit (p : PortId) (f : EthPort → EthPort) : (d.modPort p f).vit = d.vit := by unfold Dev.modPort Dev.setPort; split <;> rfl
@[simp] theorem Dev.modPort_outs (p : PortId) (f : EthPort → EthPort) : (d.modPort p f).outs = d.outs := by unfold Dev.modPort Dev.setPort; split <;> rfl
@[simp] theorem Dev.modPort_freeCtr (p : PortId) (f : EthPort → EthPort) : (d.modPort p f).freeCtr = d.freeCtr := by unfold Dev.modPort Dev.setPort; split <;> rfl

/-! ## modLink -/

@[simp] theorem Dev.modLink_regs (l : Nat) (f : Link → Link) : (d.modLink l f).regs = d.regs := rfl
@[simp] theorem Dev.modLink_eff (l : Nat) (f : Link → Link) : (d.modLink l f).eff = d.eff := rfl
@[simp] theorem Dev.modLink_counters (l : Nat) (f : Link → Link) : (d.modLink l f).counters = d.counters := rfl
@[simp] theorem Dev.modLink_chans (l : Nat) (f : Link → Link) : (d.modLink l f).chans = d.chans := rfl
@[simp] theorem Dev.modLink_r0 (l : Nat) (f : Link → Link) : (d.modLink l f).r0 = d.r0 := rfl
@[simp] theorem Dev.modLink_r1 (l : Nat) (f : Link → Link) : (d.modLink l f).r1 = d.r1 := rfl
@[simp] theorem Dev.modLink_r2 (l : Nat) (f : Link → Link) : (d.modLink l f).r2 = d.r2 := rfl
@[simp] theorem Dev.modLink_sch (l : Nat) (f : Link → Link) : (d.modLink l f).sch = d.sch := rfl
@[simp] theorem Dev.modLink_tim (l : Nat) (f : Link → Link) : (d.modLink l f).tim = d.tim := rfl
@[simp] theorem Dev.modLink_fwd (l : Nat) (f : Link → Link) : (d.modLink l f).fwd = d.fwd := rfl
@[simp] theorem Dev.modLink_eth (l : Nat) (f : Link → Link) : (d.modLink l f).eth = d.eth := rfl
@[simp] theorem Dev.modLink_tsk (l : Nat) (f : Link → Link) : (d.modLink l f).tsk = d.tsk := rfl
@[simp] theorem Dev.modLink_kao (l : Nat) (f : Link → Link) : (d.modLink l f).kao = d.kao := rfl
@[simp] theorem Dev.modLink_dmc (l : Nat) (f : Link → Link) : (d.modLink l f).dmc = d.dmc := rfl
@[simp] theorem Dev.modLink_hif (l : Nat) (f : Link → Link) : (d.modLink l f).hif = d.hif := rfl
@[simp] theorem Dev.modLink_pwr (l : Nat) (f : Link → Link) : (d.modLink l f).pwr = d.pwr := rfl
@[simp] theorem Dev.modLink_boot (l : Nat) (f : Link → Link) : (d.modLink l f).boot = d.boot := rfl
@[simp] theorem Dev.modLink_obs (l : Nat) (f : Link → Link) : (d.modLink l f).obs = d.obs := rfl
@[simp] theorem Dev.modLink_pins (l : Nat) (f : Link → Link) : (d.modLink l f).pins = d.pins := rfl
@[simp] theorem Dev.modLink_decodeQ (l : Nat) (f : Link → Link) : (d.modLink l f).decodeQ = d.decodeQ := rfl
@[simp] theorem Dev.modLink_vit (l : Nat) (f : Link → Link) : (d.modLink l f).vit = d.vit := rfl
@[simp] theorem Dev.modLink_outs (l : Nat) (f : Link → Link) : (d.modLink l f).outs = d.outs := rfl
@[simp] theorem Dev.modLink_freeCtr (l : Nat) (f : Link → Link) : (d.modLink l f).freeCtr = d.freeCtr := rfl

/-! ## setSensor -/

@[simp] theorem Dev.setSensor_regs (i : Nat) (x : SensorCtx) : (d.setSensor i x).regs = d.regs := rfl
@[simp] theorem Dev.setSensor_eff (i : Nat) (x : SensorCtx) : (d.setSensor i x).eff = d.eff := rfl
@[simp] theorem Dev.setSensor_counters (i : Nat) (x : SensorCtx) : (d.setSensor i x).counters = d.counters := rfl
@[simp] theorem Dev.setSensor_chans (i : Nat) (x : SensorCtx) : (d.setSensor i x).chans = d.chans := rfl
@[simp] theorem Dev.setSensor_r0 (i : Nat) (x : SensorCtx) : (d.setSensor i x).r0 = d.r0 := rfl
@[simp] theorem Dev.setSensor_r1 (i : Nat) (x : SensorCtx) : (d.setSensor i x).r1 = d.r1 := rfl
@[simp] theorem Dev.setSensor_r2 (i : Nat) (x : SensorCtx) : (d.setSensor i x).r2 = d.r2 := rfl
@[simp] theorem Dev.setSensor_msh (i : Nat) (x : SensorCtx) : (d.setSensor i x).msh = d.msh := rfl
@[simp] theorem Dev.setSensor_tim (i : Nat) (x : SensorCtx) : (d.setSensor i x).tim = d.tim := rfl
@[simp] theorem Dev.setSensor_fwd (i : Nat) (x : SensorCtx) : (d.setSensor i x).fwd = d.fwd := rfl
@[simp] theorem Dev.setSensor_eth (i : Nat) (x : SensorCtx) : (d.setSensor i x).eth = d.eth := rfl
@[simp] theorem Dev.setSensor_tsk (i : Nat) (x : SensorCtx) : (d.setSensor i x).tsk = d.tsk := rfl
@[simp] theorem Dev.setSensor_kao (i : Nat) (x : SensorCtx) : (d.setSensor i x).kao = d.kao := rfl
@[simp] theorem Dev.setSensor_dmc (i : Nat) (x : SensorCtx) : (d.setSensor i x).dmc = d.dmc := rfl
@[simp] theorem Dev.setSensor_hif (i : Nat) (x : SensorCtx) : (d.setSensor i x).hif = d.hif := rfl
@[simp] theorem Dev.setSensor_pwr (i : Nat) (x : SensorCtx) : (d.setSensor i x).pwr = d.pwr := rfl
@[simp] theorem Dev.setSensor_boot (i : Nat) (x : SensorCtx) : (d.setSensor i x).boot = d.boot := rfl
@[simp] theorem Dev.setSensor_obs (i : Nat) (x : SensorCtx) : (d.setSensor i x).obs = d.obs := rfl
@[simp] theorem Dev.setSensor_pins (i : Nat) (x : SensorCtx) : (d.setSensor i x).pins = d.pins := rfl
@[simp] theorem Dev.setSensor_decodeQ (i : Nat) (x : SensorCtx) : (d.setSensor i x).decodeQ = d.decodeQ := rfl
@[simp] theorem Dev.setSensor_vit (i : Nat) (x : SensorCtx) : (d.setSensor i x).vit = d.vit := rfl
@[simp] theorem Dev.setSensor_outs (i : Nat) (x : SensorCtx) : (d.setSensor i x).outs = d.outs := rfl
@[simp] theorem Dev.setSensor_freeCtr (i : Nat) (x : SensorCtx) : (d.setSensor i x).freeCtr = d.freeCtr := rfl

/-! ## modSensor -/

@[simp] theorem Dev.modSensor_regs (i : Nat) (f : SensorCtx → SensorCtx) : (d.modSensor i f).regs = d.regs := rfl
@[simp] theorem Dev.modSensor_eff (i : Nat) (f : SensorCtx → SensorCtx) : (d.modSensor i f).eff = d.eff := rfl
@[simp] theorem Dev.modSensor_counters (i : Nat) (f : SensorCtx → SensorCtx) : (d.modSensor i f).counters = d.counters := rfl
@[simp] theorem Dev.modSensor_chans (i : Nat) (f : SensorCtx → SensorCtx) : (d.modSensor i f).chans = d.chans := rfl
@[simp] theorem Dev.modSensor_r0 (i : Nat) (f : SensorCtx → SensorCtx) : (d.modSensor i f).r0 = d.r0 := rfl
@[simp] theorem Dev.modSensor_r1 (i : Nat) (f : SensorCtx → SensorCtx) : (d.modSensor i f).r1 = d.r1 := rfl
@[simp] theorem Dev.modSensor_r2 (i : Nat) (f : SensorCtx → SensorCtx) : (d.modSensor i f).r2 = d.r2 := rfl
@[simp] theorem Dev.modSensor_msh (i : Nat) (f : SensorCtx → SensorCtx) : (d.modSensor i f).msh = d.msh := rfl
@[simp] theorem Dev.modSensor_tim (i : Nat) (f : SensorCtx → SensorCtx) : (d.modSensor i f).tim = d.tim := rfl
@[simp] theorem Dev.modSensor_fwd (i : Nat) (f : SensorCtx → SensorCtx) : (d.modSensor i f).fwd = d.fwd := rfl
@[simp] theorem Dev.modSensor_eth (i : Nat) (f : SensorCtx → SensorCtx) : (d.modSensor i f).eth = d.eth := rfl
@[simp] theorem Dev.modSensor_tsk (i : Nat) (f : SensorCtx → SensorCtx) : (d.modSensor i f).tsk = d.tsk := rfl
@[simp] theorem Dev.modSensor_kao (i : Nat) (f : SensorCtx → SensorCtx) : (d.modSensor i f).kao = d.kao := rfl
@[simp] theorem Dev.modSensor_dmc (i : Nat) (f : SensorCtx → SensorCtx) : (d.modSensor i f).dmc = d.dmc := rfl
@[simp] theorem Dev.modSensor_hif (i : Nat) (f : SensorCtx → SensorCtx) : (d.modSensor i f).hif = d.hif := rfl
@[simp] theorem Dev.modSensor_pwr (i : Nat) (f : SensorCtx → SensorCtx) : (d.modSensor i f).pwr = d.pwr := rfl
@[simp] theorem Dev.modSensor_boot (i : Nat) (f : SensorCtx → SensorCtx) : (d.modSensor i f).boot = d.boot := rfl
@[simp] theorem Dev.modSensor_obs (i : Nat) (f : SensorCtx → SensorCtx) : (d.modSensor i f).obs = d.obs := rfl
@[simp] theorem Dev.modSensor_pins (i : Nat) (f : SensorCtx → SensorCtx) : (d.modSensor i f).pins = d.pins := rfl
@[simp] theorem Dev.modSensor_decodeQ (i : Nat) (f : SensorCtx → SensorCtx) : (d.modSensor i f).decodeQ = d.decodeQ := rfl
@[simp] theorem Dev.modSensor_vit (i : Nat) (f : SensorCtx → SensorCtx) : (d.modSensor i f).vit = d.vit := rfl
@[simp] theorem Dev.modSensor_outs (i : Nat) (f : SensorCtx → SensorCtx) : (d.modSensor i f).outs = d.outs := rfl
@[simp] theorem Dev.modSensor_freeCtr (i : Nat) (f : SensorCtx → SensorCtx) : (d.modSensor i f).freeCtr = d.freeCtr := rfl

/-! ## withUpsets -/

@[simp] theorem Dev.withUpsets_regs (l : List (Fin 5)) : (d.withUpsets l).regs = d.regs := rfl
@[simp] theorem Dev.withUpsets_eff (l : List (Fin 5)) : (d.withUpsets l).eff = d.eff := rfl
@[simp] theorem Dev.withUpsets_counters (l : List (Fin 5)) : (d.withUpsets l).counters = d.counters := rfl
@[simp] theorem Dev.withUpsets_chans (l : List (Fin 5)) : (d.withUpsets l).chans = d.chans := rfl
@[simp] theorem Dev.withUpsets_r0 (l : List (Fin 5)) : (d.withUpsets l).r0 = d.r0 := rfl
@[simp] theorem Dev.withUpsets_r1 (l : List (Fin 5)) : (d.withUpsets l).r1 = d.r1 := rfl
@[simp] theorem Dev.withUpsets_r2 (l : List (Fin 5)) : (d.withUpsets l).r2 = d.r2 := rfl
@[simp] theorem Dev.withUpsets_sch (l : List (Fin 5)) : (d.withUpsets l).sch = d.sch := rfl
@[simp] theorem Dev.withUpsets_msh (l : List (Fin 5)) : (d.withUpsets l).msh = d.msh := rfl
@[simp] theorem Dev.withUpsets_tim (l : List (Fin 5)) : (d.withUpsets l).tim = d.tim := rfl
@[simp] theorem Dev.withUpsets_eth (l : List (Fin 5)) : (d.withUpsets l).eth = d.eth := rfl
@[simp] theorem Dev.withUpsets_tsk (l : List (Fin 5)) : (d.withUpsets l).tsk = d.tsk := rfl
@[simp] theorem Dev.withUpsets_kao (l : List (Fin 5)) : (d.withUpsets l).kao = d.kao := rfl
@[simp] theorem Dev.withUpsets_dmc (l : List (Fin 5)) : (d.withUpsets l).dmc = d.dmc := rfl
@[simp] theorem Dev.withUpsets_hif (l : List (Fin 5)) : (d.withUpsets l).hif = d.hif := rfl
@[simp] theorem Dev.withUpsets_pwr (l : List (Fin 5)) : (d.withUpsets l).pwr = d.pwr := rfl
@[simp] theorem Dev.withUpsets_boot (l : List (Fin 5)) : (d.withUpsets l).boot = d.boot := rfl
@[simp] theorem Dev.withUpsets_obs (l : List (Fin 5)) : (d.withUpsets l).obs = d.obs := rfl
@[simp] theorem Dev.withUpsets_pins (l : List (Fin 5)) : (d.withUpsets l).pins = d.pins := rfl
@[simp] theorem Dev.withUpsets_decodeQ (l : List (Fin 5)) : (d.withUpsets l).decodeQ = d.decodeQ := rfl
@[simp] theorem Dev.withUpsets_vit (l : List (Fin 5)) : (d.withUpsets l).vit = d.vit := rfl
@[simp] theorem Dev.withUpsets_outs (l : List (Fin 5)) : (d.withUpsets l).outs = d.outs := rfl
@[simp] theorem Dev.withUpsets_freeCtr (l : List (Fin 5)) : (d.withUpsets l).freeCtr = d.freeCtr := rfl

end Sys2Proof.Machine
end

