-- ==== Sys2Proof/Laws/Reg.lean ====
section
/-! SUPPORT. Registers, fields, counters and radios: a read after a write. -/

namespace Sys2Proof.Machine

variable (d : Dev)

/-! ## Registers -/

@[simp] theorem Dev.reg_setReg_same (a : Nat) (v : Word) : (d.setReg a v).reg a = v := Sparse.get_put_same _ _ _ _

theorem Dev.reg_setReg_ne {a b : Nat} (h : b ≠ a) (v : Word) : (d.setReg a v).reg b = d.reg b :=
  Sparse.get_put_ne _ _ _ _ h

@[simp] theorem Dev.reg_setReg (a b : Nat) (v : Word) : (d.setReg a v).reg b = if b = a then v else d.reg b := by
  split
  · next h => subst h; simp
  · next h => exact d.reg_setReg_ne h v

/-- Registers depend on nothing but the register file. -/
theorem Dev.reg_congr {d e : Dev} (h : e.regs = d.regs) (a : Nat) : e.reg a = d.reg a := by simp [Dev.reg, h]
theorem Dev.fld_congr {d e : Dev} (h : e.regs = d.regs) (f : Field) : e.fld f = d.fld f := by
  simp [Dev.fld, Dev.reg_congr h]
theorem Dev.bit_congr {d e : Dev} (h : e.regs = d.regs) (f : Field) : e.bit f = d.bit f := by
  simp [Dev.bit, Dev.fld_congr h]

/-- Values in force depend on nothing but the register file and what is in force. -/
theorem Dev.cfg_congr {d e : Dev} (h : e.regs = d.regs) (h' : e.eff = d.eff) (a : Nat) : e.cfg a = d.cfg a := by
  unfold Dev.cfg; split <;> simp [Dev.reg_congr h, h']

/-! ## Fields -/

theorem Field.testBit_put (f : Field) (w : Word) (v i : Nat) (hf : f.lo + f.n ≤ 32) :
    (f.put w v).getLsbD i = if f.lo ≤ i ∧ i < f.lo + f.n then v.testBit (i - f.lo) else w.getLsbD i := by
  simp only [Field.put, BitVec.getLsbD_or, BitVec.getLsbD_and, BitVec.getLsbD_not, BitVec.getLsbD_shiftLeft,
    BitVec.getLsbD_ofNat, Nat.testBit_two_pow_sub_one, Nat.testBit_mod_two_pow]
  by_cases hi : i < 32
  · have h1 : i - f.lo < 32 := by omega
    by_cases hl : i < f.lo
    · have h : ¬ (f.lo ≤ i ∧ i < f.lo + f.n) := by omega
      simp [hi, hl, h]
    · by_cases hn : i - f.lo < f.n
      · have h : f.lo ≤ i ∧ i < f.lo + f.n := by omega
        simp [hi, hl, hn, h, h1]
      · have h : ¬ (f.lo ≤ i ∧ i < f.lo + f.n) := by omega
        simp [hi, hl, hn, h]
  · have h : ¬ (f.lo ≤ i ∧ i < f.lo + f.n) := by omega
    have hw : w.getLsbD i = false := BitVec.getLsbD_of_ge w i (by omega)
    simp [hi, h, hw]

theorem Field.testBit_of (f : Field) (w : Word) (i : Nat) :
    (f.of w).testBit i = (decide (i < f.n) && w.getLsbD (f.lo + i)) := by
  simp [Field.of, Nat.testBit_mod_two_pow, Nat.testBit_shiftRight, BitVec.getLsbD]

/-- A field reads as what was put into it. -/
theorem Field.of_put_same (f : Field) (w : Word) (v : Nat) (hf : f.lo + f.n ≤ 32) : f.of (f.put w v) = v % 2 ^ f.n := by
  apply Nat.eq_of_testBit_eq
  intro i
  rw [Field.testBit_of, Field.testBit_put f w v _ hf, Nat.testBit_mod_two_pow]
  by_cases h : i < f.n <;> simp [h]

/-- A field elsewhere in the register stays. -/
theorem Field.of_put_ne (f g : Field) (w : Word) (v : Nat) (hf : f.lo + f.n ≤ 32)
    (h : g.lo + g.n ≤ f.lo ∨ f.lo + f.n ≤ g.lo) : g.of (f.put w v) = g.of w := by
  apply Nat.eq_of_testBit_eq
  intro i
  rw [Field.testBit_of, Field.testBit_of, Field.testBit_put f w v _ hf]
  by_cases hi : i < g.n
  · have : ¬ (f.lo ≤ g.lo + i ∧ g.lo + i < f.lo + f.n) := by omega
    simp [this]
  · simp [hi]

/-- Does a field lie within a register? -/
def Field.ok (f : Field) : Prop := f.lo + f.n ≤ 32
/-- Do two fields share no bit? -/
def Field.apart (f g : Field) : Prop := f.addr ≠ g.addr ∨ g.lo + g.n ≤ f.lo ∨ f.lo + f.n ≤ g.lo

theorem Dev.fld_setFld_same (f : Field) (v : Nat) (hf : f.ok) : (d.setFld f v).fld f = v % 2 ^ f.n := by
  simp [Dev.setFld, Dev.fld, Field.of_put_same f _ _ hf]

theorem Dev.fld_setFld_ne (f g : Field) (v : Nat) (hf : f.ok) (h : f.apart g) : (d.setFld f v).fld g = d.fld g := by
  by_cases ha : g.addr = f.addr
  · have h : g.lo + g.n ≤ f.lo ∨ f.lo + f.n ≤ g.lo := by
      rcases h with h | h
      · exact absurd ha.symm h
      · exact h
    simp [Dev.setFld, Dev.fld, ha, Field.of_put_ne f g _ _ hf h]
  · simp [Dev.setFld, Dev.fld, ha]

theorem Dev.reg_setFld_ne (f : Field) (a v : Nat) (h : a ≠ f.addr) : (d.setFld f v).reg a = d.reg a := by
  simp [Dev.setFld, h]

/-! ## Counters -/

@[simp] theorem Dev.counter_bumpBy (i j n : Nat) :
    (d.bumpBy i n).counter j = if j = i then d.counter i + BitVec.ofNat 64 n else d.counter j := by
  unfold Dev.counter Dev.bumpBy
  split
  · next h => subst h; simp [Dev.counter]
  · next h => exact Sparse.get_put_ne _ _ _ _ h

/-- Counters depend on nothing but the counter bank. -/
theorem Dev.counter_congr {d e : Dev} (h : e.counters = d.counters) (i : Nat) : e.counter i = d.counter i := by
  simp [Dev.counter, h]

/-! ## Radios and ports -/

@[simp] theorem Dev.radio_setRadio (r q : RadioId) (x : Radio) :
    (d.setRadio r x).radio q = if q = r then x else d.radio q := by
  match r, q with
  | 0, 0 => rfl | 0, 1 => rfl | 0, 2 => rfl | 1, 0 => rfl | 1, 1 => rfl | 1, 2 => rfl | 2, 0 => rfl | 2, 1 => rfl | 2, 2 => rfl

@[simp] theorem Dev.radio_modRadio (r q : RadioId) (f : Radio → Radio) :
    (d.modRadio r f).radio q = if q = r then f (d.radio r) else d.radio q := by simp [Dev.modRadio]

@[simp] theorem Dev.port_setPort (p q : PortId) (x : EthPort) :
    (d.setPort p x).port q = if q = p then x else d.port q := by
  match p, q with
  | 0, 0 => rfl | 0, 1 => rfl | 1, 0 => rfl | 1, 1 => rfl

end Sys2Proof.Machine
end

