-- ==== Sys2Proof/Laws/Book.lean ====
section
/-! SUPPORT. Events, completions and trace messages change nothing but their own books. -/

namespace Sys2Proof.Machine

theorem Dev.Book.refl (d : Dev) : Dev.Book d d := by constructor <;> first | rfl | (intros; rfl)

theorem Dev.Book.trans {a b c : Dev} (h : Dev.Book a b) (k : Dev.Book b c) : Dev.Book a c where
  eff := k.eff.trans h.eff
  chans := k.chans.trans h.chans
  r0 := k.r0.trans h.r0
  r1 := k.r1.trans h.r1
  r2 := k.r2.trans h.r2
  sch := k.sch.trans h.sch
  msh := k.msh.trans h.msh
  tim := k.tim.trans h.tim
  fwd := k.fwd.trans h.fwd
  eth := k.eth.trans h.eth
  tsk := k.tsk.trans h.tsk
  kao := k.kao.trans h.kao
  dmc := k.dmc.trans h.dmc
  pwr := k.pwr.trans h.pwr
  boot := by rw [k.boot, h.boot]
  pins := k.pins.trans h.pins
  decodeQ := k.decodeQ.trans h.decodeQ
  vit := k.vit.trans h.vit
  freeCtr := k.freeCtr.trans h.freeCtr
  reg := fun a ha => (k.reg a ha).trans (h.reg a ha)
  devState := k.devState.trans h.devState
  counter := fun i hi => (k.counter i hi).trans (h.counter i hi)

theorem Dev.Book.ite {d a b : Dev} {p : Prop} [Decidable p] (h : Dev.Book d a) (k : Dev.Book d b) :
    Dev.Book d (if p then a else b) := by split <;> assumption

/-- A change of the rings, of the observation state and of the outputs alone. -/
theorem Dev.Book.of_parts (d : Dev) (hif : Hif) (obs : Obs) (outs : List Output) :
    Dev.Book d { d with hif := hif, obs := obs, outs := outs } := by
  constructor <;> first | rfl | (intros; rfl)

/-- A register of the host interface or of the trace port other than HIF_STAT. -/
theorem Dev.Book.setReg (d : Dev) (a : Nat) (v : Word) (ha : bookAddr a) (hs : a ≠ Reg.hifStat) :
    Dev.Book d (d.setReg a v) := by
  constructor <;> first | rfl | skip
  · intro b hb
    exact d.reg_setReg_ne (by rintro rfl; exact hb ha) v
  · unfold Dev.devState Dev.fld
    rw [d.reg_setReg_ne]
    exact fun h => hs h.symm
  · intros; rfl

theorem Dev.Book.setFld (d : Dev) (f : Field) (v : Nat) (ha : bookAddr f.addr) (hs : f.addr ≠ Reg.hifStat) :
    Dev.Book d (d.setFld f v) := Dev.Book.setReg d _ _ ha hs

/-- A field of HIF_STAT apart from DEV_STATE. -/
theorem Dev.Book.setStat (d : Dev) (f : Field) (v : Nat) (ha : f.addr = Reg.hifStat) (hf : f.ok)
    (h : f.apart Reg.hifStat_dev_state) : Dev.Book d (d.setFld f v) := by
  constructor <;> first | rfl | skip
  · intro b hb
    refine d.reg_setReg_ne ?_ _
    rintro rfl
    rw [ha] at hb
    exact hb (by unfold bookAddr; decide)
  · exact d.fld_setFld_ne f Reg.hifStat_dev_state v hf h
  · intros; rfl

theorem Dev.Book.bump (d : Dev) (c n : Nat) (h : bookCnt c) : Dev.Book d (d.bumpBy c n) := by
  constructor <;> first | rfl | skip
  · intros; rfl
  · intro i hi
    have : i ≠ c := by rintro rfl; exact hi h
    simp [this]

theorem Dev.Book.hif (d : Dev) (x : Hif) : Dev.Book d { d with hif := x } := Dev.Book.of_parts d x d.obs d.outs
theorem Dev.Book.obs (d : Dev) (x : Obs) : Dev.Book d { d with obs := x } := Dev.Book.of_parts d d.hif x d.outs
theorem Dev.Book.out (d : Dev) (o : Output) : Dev.Book d (d.out o) := Dev.Book.of_parts d d.hif d.obs _
theorem Dev.Book.setRing (d : Dev) (i : Nat) (r : Ring) : Dev.Book d (d.setRing i r) := Dev.Book.hif d _

/-! ## The trace port -/

theorem Dev.Book.tracePush (d : Dev) (m : List Byte) : Dev.Book d (d.tracePush m) :=
  (Dev.Book.obs d _).trans (Dev.Book.setFld _ _ _ (by unfold bookAddr; exact .inr rfl) (by decide))

theorem Dev.Book.traceLostMsg (d : Dev) : Dev.Book d d.traceLostMsg := by
  unfold Dev.traceLostMsg
  dsimp only
  split
  · exact Dev.Book.refl d
  · exact (Dev.Book.obs d _).trans (Dev.Book.tracePush _ _)

theorem Dev.Book.trace (d : Dev) (ty : Nat) (l : List Byte) : Dev.Book d (d.trace ty l) := by
  unfold Dev.trace
  split
  · exact Dev.Book.refl d
  · refine Dev.Book.ite ?_ ?_
    · exact (Dev.Book.traceLostMsg d).trans (Dev.Book.tracePush _ _)
    · exact ((Dev.Book.obs d _).trans (Dev.Book.bump _ Cnt.traceDrop 1 (by unfold bookCnt; decide))).trans
        (Dev.Book.setFld _ Reg.obsTraceStat_drop 1 (by unfold bookAddr; exact .inr rfl) (by decide))

/-! ## Rings -/

theorem Dev.Book.setRingDev (d : Dev) (i k : Nat) (hi : i < 48) : Dev.Book d (d.setRingDev i k) := by
  refine (Dev.Book.setRing d i _).trans (Dev.Book.setFld _ _ _ ?_ ?_)
  · show bookAddr (Reg.hifRingStat i); unfold bookAddr Reg.hifRingStat; omega
  · show Reg.hifRingStat i ≠ Reg.hifStat; unfold Reg.hifRingStat Reg.hifStat; omega

theorem Dev.Book.hostWrite (d : Dev) (a : Nat) (b : List Byte) : Dev.Book d (d.hostWrite a b) := by
  unfold Dev.hostWrite; split
  · exact Dev.Book.out d _
  · exact Dev.Book.refl d

theorem Dev.Book.msix (d : Dev) (v : Nat) : Dev.Book d (d.msix v) := by
  unfold Dev.msix; split
  · exact Dev.Book.setReg _ _ _ (by unfold bookAddr; decide) (by decide)
  · exact (Dev.Book.out d _).trans (Dev.Book.bump _ _ _ (by unfold bookCnt; decide))

theorem Dev.Book.signal (d : Dev) (i : Nat) : Dev.Book d (d.signal i) := by
  unfold Dev.signal
  split
  · exact Dev.Book.refl d
  · split
    · exact Dev.Book.msix d _
    · exact Dev.Book.ite (Dev.Book.refl d) (Dev.Book.setRing d _ _)

theorem Dev.Book.ringWrite (d : Dev) (i pb : Nat) (e : List Byte) (hi : i < 48) : Dev.Book d (d.ringWrite i pb e) :=
  ((Dev.Book.hostWrite d _ _).trans (Dev.Book.setRingDev _ i _ hi)).trans (Dev.Book.signal _ i)

/-! ## The journal of what the pair has put out -/

theorem Dev.Book.record (d : Dev) (w : Written) : Dev.Book d (d.record w) := Dev.Book.hif d _

/-! ## Events -/

theorem Dev.Book.writeEvent (d : Dev) (e : List Byte) : Dev.Book d (d.writeEvent e) := by
  unfold Dev.writeEvent
  refine (Dev.Book.trans ?_ (Dev.Book.bump _ _ _ (by unfold bookCnt; decide))).trans (Dev.Book.record _ _)
  split
  · exact Dev.Book.ringWrite d 2 2 e (by decide)
  · exact Dev.Book.out d _

theorem Dev.Book.drainEvents (n : Nat) (d : Dev) : Dev.Book d (Dev.drainEvents n d) := by
  induction n generalizing d with
  | zero => exact Dev.Book.refl d
  | succ n ih =>
    unfold Dev.drainEvents
    split
    · exact Dev.Book.refl d
    · split
      · exact ((Dev.Book.hif d _).trans (Dev.Book.writeEvent _ _)).trans (ih _)
      · split
        · exact Dev.Book.refl d
        · exact ((Dev.Book.hif d _).trans (Dev.Book.writeEvent _ _)).trans (ih _)

/-- An event changes nothing but the books (R420, R421). -/
theorem Dev.Book.eventR (d : Dev) (ty code : Nat) (recov : Bool) (l : List (Nat × List Byte)) :
    Dev.Book d (d.eventR ty code recov l) := by
  unfold Dev.eventR
  dsimp only
  refine (Dev.Book.trace d 2 (d.eventEntry ty code recov (evData l))).trans ?_
  split
  · exact (Dev.Book.hif _ _).trans (Dev.Book.drainEvents 258 _)
  · exact ((Dev.Book.hif _ _).trans (Dev.Book.bump _ Cnt.eventLost 1 (by unfold bookCnt; decide))).trans
      (Dev.Book.setStat _ Reg.hifStat_evt_lost 1 rfl (by unfold Field.ok; decide) (by unfold Field.apart; decide))

theorem Dev.Book.event (d : Dev) (ty code : Nat) (l : List (Nat × List Byte)) : Dev.Book d (d.event ty code l) :=
  Dev.Book.eventR d ty code false l

/-! ## Completions -/

theorem Dev.Book.writeCompl (d : Dev) (e : List Byte) (k : Nat) : Dev.Book d (d.writeCompl e k) := by
  unfold Dev.writeCompl
  have h : Dev.Book d (if d.hosted then d.ringWrite 1 7 e else d.out (.localCompl e)) :=
    Dev.Book.ite (Dev.Book.ringWrite d 1 7 e (by decide)) (Dev.Book.out d _)
  have h2 := h.trans (Dev.Book.trace _ 5 (complTrace e))
  have hc : ∀ b : Bool, bookCnt (if b then Cnt.cmdDone else Cnt.cmdInProgress) := by unfold bookCnt; decide
  have h3 := (h2.trans (Dev.Book.bump _ _ 1 (hc (beAt e 7 1 % 2 == 1)))).trans
    (Dev.Book.record _ (.compl k (beAt e 7 1 % 2 == 1)))
  exact Dev.Book.ite (h3.trans (Dev.Book.setRing _ _ _)) h3

theorem Dev.Book.drainCompl (n : Nat) (d : Dev) : Dev.Book d (Dev.drainCompl n d) := by
  induction n generalizing d with
  | zero => exact Dev.Book.refl d
  | succ n ih =>
    unfold Dev.drainCompl
    split
    · exact Dev.Book.refl d
    · split
      · exact Dev.Book.refl d
      · exact ((Dev.Book.hif d _).trans (Dev.Book.writeCompl _ _ _)).trans (ih _)

theorem Dev.Book.tellLocal (d : Dev) (c : Cmd) (st : Nat) : Dev.Book d (d.tellLocal c st) := by
  unfold Dev.tellLocal
  split
  · split
    · constructor <;> first | rfl | (intros; rfl)
    · exact Dev.Book.refl d
  · exact Dev.Book.refl d

/-- A completion changes nothing but the books (R409). -/
theorem Dev.Book.completion (d : Dev) (c : Cmd) (st : Nat) (final : Bool) (res : Nat) :
    Dev.Book d (d.completion c st final res) := by
  unfold Dev.completion
  dsimp only
  have h : Dev.Book d (if final then d.tellLocal c st else d) := by
    split
    · exact Dev.Book.tellLocal d c st
    · exact Dev.Book.refl d
  generalize (if final then d.tellLocal c st else d) = x at h ⊢
  split
  · exact h
  · exact (h.trans (Dev.Book.hif _ _)).trans (Dev.Book.drainCompl _ _)

theorem Dev.Book.complete (d : Dev) (c : Cmd) (st res : Nat) : Dev.Book d (d.complete c st res) :=
  Dev.Book.completion d c st true res

theorem Dev.Book.refuseState (d : Dev) (c : Cmd) (radio : Nat) : Dev.Book d (d.refuseState c radio) :=
  ((Dev.Book.complete d c _ _).trans (Dev.Book.bump _ _ _ (by unfold bookCnt; decide))).trans (Dev.Book.event _ _ _ _)

/-! ## Outstanding commands -/

theorem Dev.Book.writeStatus (d : Dev) (r : Running) (st : Nat) : Dev.Book d (d.writeStatus r st).2 := by
  unfold Dev.writeStatus
  dsimp only
  split
  · exact Dev.Book.refl d
  · exact Dev.Book.hostWrite d _ _

theorem Dev.Book.startDeferred (d : Dev) (c : Cmd) : Dev.Book d (d.startDeferred c) := Dev.Book.hif d _

theorem Dev.Book.startLong (d : Dev) (c : Cmd) (res arg : Nat) : Dev.Book d (d.startLong c res arg) :=
  ((Dev.Book.completion d c _ _ _).trans (Dev.Book.writeStatus _ _ _)).trans (Dev.Book.hif _ _)

theorem Dev.Book.finish (d : Dev) (c : Cmd) (st res : Nat) : Dev.Book d (d.finish c st res) := by
  unfold Dev.finish
  split
  · exact Dev.Book.refl d
  · exact ((Dev.Book.writeStatus d _ _).trans (Dev.Book.hif _ _)).trans (Dev.Book.complete _ _ _ _)

end Sys2Proof.Machine
end

