-- ==== Sys2Proof/WellFormed.lean ====
section
/-! DEFINITION. Which commands are well formed: an operand stands for something that can occur. A command that is not
well formed still has a meaning; nothing in the machine asks. -/

namespace Sys2Proof

/-- A list has a given length. -/
def lengthIs {α : Type} (n : Nat) (l : List α) : Bool := l.length == n

/-- A level lies within the range of the receiver's levels, in hundredths of a decibel. -/
def levelOk (x : Cdb) : Bool := decide (-30000 ≤ x) && decide (x ≤ 10000)

/-- A subchannel number (Table 2.1). -/
def subchOk (n : Nat) : Bool := decide (n < 96)

/-- A Kaolin request holds 1 to 256 blocks (R350). -/
def KaoReq.wellFormed (r : KaoReq) : Bool := decide (1 ≤ r.blocks.length) && decide (r.blocks.length ≤ 256)

/-- A rise: levels of the receiver, and a declaration within the slot or the acquisition span before it. -/
def WbRise.wellFormed (w : WbRise) : Bool :=
  levelOk w.block0 && levelOk w.block1 && levelOk w.level && decide (-46875000 ≤ w.whenPs) &&
    decide (w.whenPs < 2500000000)

/-- Samples of a window lie within full scale (log entry 176) and number one of the lengths that a mode gives it: 2^15 is
full scale. -/
def samplesOk (lens : List Nat) (w : Samples) : Bool :=
  lens.contains (w.foldl (fun a l => a + l.length) 0) &&
    w.all fun l => l.all fun x => decide (-32768 ≤ x.1) && decide (x.1 < 32768) && decide (-32768 ≤ x.2) &&
      decide (x.2 < 32768)

/-- Receive windows hold 125 µs of samples in a mode, SYNC half-windows 62.5 µs (R81, R91, Table 2.1). -/
def windowLens : List Nat := [128, 512, 2048]
def halfLens : List Nat := [64, 256, 1024]

/-- A closed window: 16 periods, and shifted by no more than the largest acquisition span (R214, R215). -/
def WindowObs.wellFormed (w : WindowObs) : Bool :=
  decide (w.period < 16) && decide (w.anchor.natAbs ≤ 1246875000) && samplesOk windowLens w.samples

/-- An access to a register: 1, 2 or 4 bytes. -/
def widthOk (bytes : Nat) : Bool := bytes == 1 || bytes == 2 || bytes == 4

/-- The well-formed commands. -/
def Instr.wellFormed : Instr → Bool
  | .patternWrite _ _ _ value mask => lengthIs 16 value && lengthIs 16 mask
  | .hashWrite _ _ _ key => lengthIs 40 key
  | .registerWrite _ bytes _ _ => widthOk bytes
  | .timNowNsRead _ bytes _ => widthOk bytes
  | .counterLowRead _ _ _ _ bytes _ => widthOk bytes
  | .tskLevelRead _ bytes _ _ => widthOk bytes
  | .clkTjRead _ bytes _ _ => widthOk bytes
  | .ringEnable ring _ => decide (ring < 48)
  | .ringDisable ring _ => decide (ring < 48)
  | .acquisitionOpen _ _ _ n => levelOk n
  | .widebandDetection _ w => w.wellFormed
  | .laterPreamble _ w cells => w.wellFormed && cells.all fun x => subchOk x.1
  | .syncEvaluation _ half => samplesOk halfLens half
  | .sigVerdict _ subch => subchOk subch
  | .windowClose _ w => w.wellFormed
  | .crcVerdict _ subch _ => subchOk subch
  | .ackSymbolReceive _ subch window => subchOk subch && samplesOk windowLens window
  | .searchSyncAcquired _ _ half ws => samplesOk halfLens half && lengthIs 12 ws && ws.all (samplesOk windowLens)
  | .channelEntryBuild _ index => decide (index < 512)
  | .kaoRequest r => r.wellFormed
  | .doorbellPoll r => lengthIs 64 r.words
  | .txDescriptor _ desc _ _ => lengthIs 32 desc
  | .msixModerationExpiry ring => decide (ring < 48)
  | .dmaError ring => decide (ring < 48)
  | _ => true

end Sys2Proof
end

