-- ==== Sys2Proof/Laws/PerInstr.lean ====
section
/-! SUPPORT. What holds of every command as a term: how the classes of commands that the machine tells apart relate. -/

namespace Sys2Proof.Laws.Shape

open Sys2Proof.Machine

/-- A command that Table 13.5 lists with an opcode is neither a reset pin nor a TAP instruction, and those take every operand:
they are always well formed. -/
def Statement (i : Instr) : Prop :=
  (∀ p, hostHdr i = some p → tapOrReset i = false) ∧ (tapOrReset i = true → i.wellFormed = true)

theorem nop (h : CmdHdr) : Statement (.nop h) :=
  ⟨fun _ h => (by first | rfl | cases h), fun h => (by first | rfl | cases h)⟩
theorem chanConfig (h : CmdHdr) (p : ChanParams) : Statement (.chanConfig h p) :=
  ⟨fun _ h => (by first | rfl | cases h), fun h => (by first | rfl | cases h)⟩
theorem schedWrite (h : CmdHdr) (radio : Byte) (first count : BitVec 16) (buf : Buf)
    : Statement (.schedWrite h radio first count buf) :=
  ⟨fun _ h => (by first | rfl | cases h), fun h => (by first | rfl | cases h)⟩
theorem rotWrite (h : CmdHdr) (first : BitVec 32) (count : BitVec 16) (buf : Buf)
    : Statement (.rotWrite h first count buf) :=
  ⟨fun _ h => (by first | rfl | cases h), fun h => (by first | rfl | cases h)⟩
theorem scheduleCommit (h : CmdHdr) : Statement (.scheduleCommit h) :=
  ⟨fun _ h => (by first | rfl | cases h), fun h => (by first | rfl | cases h)⟩
theorem rfEnable (h : CmdHdr) (radio : Byte) : Statement (.rfEnable h radio) :=
  ⟨fun _ h => (by first | rfl | cases h), fun h => (by first | rfl | cases h)⟩
theorem rfDisable (h : CmdHdr) (radio : Byte) : Statement (.rfDisable h radio) :=
  ⟨fun _ h => (by first | rfl | cases h), fun h => (by first | rfl | cases h)⟩
theorem rfReset (h : CmdHdr) (radio : Byte) : Statement (.rfReset h radio) :=
  ⟨fun _ h => (by first | rfl | cases h), fun h => (by first | rfl | cases h)⟩
theorem rfCalSweep (h : CmdHdr) (radio : Byte) : Statement (.rfCalSweep h radio) :=
  ⟨fun _ h => (by first | rfl | cases h), fun h => (by first | rfl | cases h)⟩
theorem rfAntEnable (h : CmdHdr) (radio ports : Byte) : Statement (.rfAntEnable h radio ports) :=
  ⟨fun _ h => (by first | rfl | cases h), fun h => (by first | rfl | cases h)⟩
theorem wakeSend (h : CmdHdr) (chan : BitVec 16) (code : BitVec 32) : Statement (.wakeSend h chan code) :=
  ⟨fun _ h => (by first | rfl | cases h), fun h => (by first | rfl | cases h)⟩
theorem spectrumSurvey (h : CmdHdr) (mask : Byte) (first count : BitVec 16) (dwell : Byte) (buf : Buf)
    : Statement (.spectrumSurvey h mask first count dwell buf) :=
  ⟨fun _ h => (by first | rfl | cases h), fun h => (by first | rfl | cases h)⟩
theorem sensorSet (h : CmdHdr) (p : SensorParams) : Statement (.sensorSet h p) :=
  ⟨fun _ h => (by first | rfl | cases h), fun h => (by first | rfl | cases h)⟩
theorem meshFlood (h : CmdHdr) (kind ttl : Byte) (buf : Buf) : Statement (.meshFlood h kind ttl buf) :=
  ⟨fun _ h => (by first | rfl | cases h), fun h => (by first | rfl | cases h)⟩
theorem timeForceAccept (h : CmdHdr) : Statement (.timeForceAccept h) :=
  ⟨fun _ h => (by first | rfl | cases h), fun h => (by first | rfl | cases h)⟩
theorem timeForceSet (h : CmdHdr) (form : Byte) (sec : BitVec 48) (ns : BitVec 32)
    : Statement (.timeForceSet h form sec ns) :=
  ⟨fun _ h => (by first | rfl | cases h), fun h => (by first | rfl | cases h)⟩
theorem ruleWrite (h : CmdHdr) (first count : BitVec 16) (buf : Buf) : Statement (.ruleWrite h first count buf) :=
  ⟨fun _ h => (by first | rfl | cases h), fun h => (by first | rfl | cases h)⟩
theorem patternWrite (h : CmdHdr) (pattern len : Byte) (value mask : List Byte)
    : Statement (.patternWrite h pattern len value mask) :=
  ⟨fun _ h => (by first | rfl | cases h), fun h => (by first | rfl | cases h)⟩
theorem hashWrite (h : CmdHdr) (which bits : Byte) (key : List Byte) : Statement (.hashWrite h which bits key) :=
  ⟨fun _ h => (by first | rfl | cases h), fun h => (by first | rfl | cases h)⟩
theorem indirWrite (h : CmdHdr) (first count : BitVec 16) (buf : Buf) : Statement (.indirWrite h first count buf) :=
  ⟨fun _ h => (by first | rfl | cases h), fun h => (by first | rfl | cases h)⟩
theorem rulesetCommit (h : CmdHdr) : Statement (.rulesetCommit h) :=
  ⟨fun _ h => (by first | rfl | cases h), fun h => (by first | rfl | cases h)⟩
theorem fwdWrite (h : CmdHdr) (table op : Byte) (index : BitVec 16) (buf : Buf)
    : Statement (.fwdWrite h table op index buf) :=
  ⟨fun _ h => (by first | rfl | cases h), fun h => (by first | rfl | cases h)⟩
theorem tableRebuild (h : CmdHdr) (table : Byte) : Statement (.tableRebuild h table) :=
  ⟨fun _ h => (by first | rfl | cases h), fun h => (by first | rfl | cases h)⟩
theorem keyInstall (h : CmdHdr) (p : KeyParams) : Statement (.keyInstall h p) :=
  ⟨fun _ h => (by first | rfl | cases h), fun h => (by first | rfl | cases h)⟩
theorem keyInstallWrapped (h : CmdHdr) (p : KeyParams) : Statement (.keyInstallWrapped h p) :=
  ⟨fun _ h => (by first | rfl | cases h), fun h => (by first | rfl | cases h)⟩
theorem keyExport (h : CmdHdr) (keyidx : Byte) (sidx : BitVec 32) (dst : BitVec 64)
    : Statement (.keyExport h keyidx sidx dst) :=
  ⟨fun _ h => (by first | rfl | cases h), fun h => (by first | rfl | cases h)⟩
theorem keyDelete (h : CmdHdr) (target slot len keyidx : Byte) (sidx : BitVec 32)
    : Statement (.keyDelete h target slot len keyidx sidx) :=
  ⟨fun _ h => (by first | rfl | cases h), fun h => (by first | rfl | cases h)⟩
theorem kaoOp (h : CmdHdr) (p : KaoOpParams) : Statement (.kaoOp h p) :=
  ⟨fun _ h => (by first | rfl | cases h), fun h => (by first | rfl | cases h)⟩
theorem dramTrain (h : CmdHdr) : Statement (.dramTrain h) :=
  ⟨fun _ h => (by first | rfl | cases h), fun h => (by first | rfl | cases h)⟩
theorem ccSwitch (h : CmdHdr) : Statement (.ccSwitch h) :=
  ⟨fun _ h => (by first | rfl | cases h), fun h => (by first | rfl | cases h)⟩
theorem pwrStateActive (h : CmdHdr) : Statement (.pwrStateActive h) :=
  ⟨fun _ h => (by first | rfl | cases h), fun h => (by first | rfl | cases h)⟩
theorem pwrStateLean (h : CmdHdr) : Statement (.pwrStateLean h) :=
  ⟨fun _ h => (by first | rfl | cases h), fun h => (by first | rfl | cases h)⟩
theorem pwrStateSentinel (h : CmdHdr) (p0 : Byte) : Statement (.pwrStateSentinel h p0) :=
  ⟨fun _ h => (by first | rfl | cases h), fun h => (by first | rfl | cases h)⟩
theorem fwBlock (h : CmdHdr) (offset : BitVec 32) (len : BitVec 16) (bufAddr : BitVec 64) (data : HostRead)
    : Statement (.fwBlock h offset len bufAddr data) :=
  ⟨fun _ h => (by first | rfl | cases h), fun h => (by first | rfl | cases h)⟩
theorem fwApply (h : CmdHdr) : Statement (.fwApply h) :=
  ⟨fun _ h => (by first | rfl | cases h), fun h => (by first | rfl | cases h)⟩
theorem fwActivate (h : CmdHdr) (p0 : Byte) : Statement (.fwActivate h p0) :=
  ⟨fun _ h => (by first | rfl | cases h), fun h => (by first | rfl | cases h)⟩
theorem profileWrite (h : CmdHdr) (buf : Buf) : Statement (.profileWrite h buf) :=
  ⟨fun _ h => (by first | rfl | cases h), fun h => (by first | rfl | cases h)⟩
theorem unlistedOpcode (h : CmdHdr) (opcode : BitVec 16) : Statement (.unlistedOpcode h opcode) :=
  ⟨fun _ h => (by first | rfl | cases h), fun h => (by first | rfl | cases h)⟩
theorem registerWrite (addr : BitVec 24) (bytes : Nat) (value same : Word)
    : Statement (.registerWrite addr bytes value same) :=
  ⟨fun _ h => (by first | rfl | cases h), fun h => (by first | rfl | cases h)⟩
theorem timNowNsRead (ofs : BitVec 2) (bytes : Nat) (upset : Bool) : Statement (.timNowNsRead ofs bytes upset) :=
  ⟨fun _ h => (by first | rfl | cases h), fun h => (by first | rfl | cases h)⟩
theorem counterLowRead (reader : Reader) (snapshot : Bool) (index : BitVec 11) (ofs : BitVec 2) (bytes : Nat) (upset : Bool)
    : Statement (.counterLowRead reader snapshot index ofs bytes upset) :=
  ⟨fun _ h => (by first | rfl | cases h), fun h => (by first | rfl | cases h)⟩
theorem tskLevelRead (ofs : BitVec 2) (bytes : Nat) (same upset : Bool) : Statement (.tskLevelRead ofs bytes same upset) :=
  ⟨fun _ h => (by first | rfl | cases h), fun h => (by first | rfl | cases h)⟩
theorem clkTjRead (ofs : BitVec 2) (bytes : Nat) (same upset : Bool) : Statement (.clkTjRead ofs bytes same upset) :=
  ⟨fun _ h => (by first | rfl | cases h), fun h => (by first | rfl | cases h)⟩
theorem snapshotRequest (value : Word) : Statement (.snapshotRequest value) :=
  ⟨fun _ h => (by first | rfl | cases h), fun h => (by first | rfl | cases h)⟩
theorem obsTraceMark (value : Word) : Statement (.obsTraceMark value) :=
  ⟨fun _ h => (by first | rfl | cases h), fun h => (by first | rfl | cases h)⟩
theorem gclCommit (port : PortId) (value : Word) : Statement (.gclCommit port value) :=
  ⟨fun _ h => (by first | rfl | cases h), fun h => (by first | rfl | cases h)⟩
theorem mdioStart (value : Word) : Statement (.mdioStart value) :=
  ⟨fun _ h => (by first | rfl | cases h), fun h => (by first | rfl | cases h)⟩
theorem pwrRelease (value : Word) : Statement (.pwrRelease value) :=
  ⟨fun _ h => (by first | rfl | cases h), fun h => (by first | rfl | cases h)⟩
theorem bootPcieGo (value : Word) (image : HostRead) : Statement (.bootPcieGo value image) :=
  ⟨fun _ h => (by first | rfl | cases h), fun h => (by first | rfl | cases h)⟩
theorem hostAttach (value : Word) : Statement (.hostAttach value) :=
  ⟨fun _ h => (by first | rfl | cases h), fun h => (by first | rfl | cases h)⟩
theorem hostDetach (value : Word) : Statement (.hostDetach value) :=
  ⟨fun _ h => (by first | rfl | cases h), fun h => (by first | rfl | cases h)⟩
theorem ringEnable (ring : Nat) (value : Word) : Statement (.ringEnable ring value) :=
  ⟨fun _ h => (by first | rfl | cases h), fun h => (by first | rfl | cases h)⟩
theorem ringDisable (ring : Nat) (value : Word) : Statement (.ringDisable ring value) :=
  ⟨fun _ h => (by first | rfl | cases h), fun h => (by first | rfl | cases h)⟩
theorem timSlotOffsetWrite (value : Word) : Statement (.timSlotOffsetWrite value) :=
  ⟨fun _ h => (by first | rfl | cases h), fun h => (by first | rfl | cases h)⟩
theorem ethModeWrite (port : PortId) (value : Word) : Statement (.ethModeWrite port value) :=
  ⟨fun _ h => (by first | rfl | cases h), fun h => (by first | rfl | cases h)⟩
theorem kaoCfgWrite (value : Word) : Statement (.kaoCfgWrite value) :=
  ⟨fun _ h => (by first | rfl | cases h), fun h => (by first | rfl | cases h)⟩
theorem siltPortAccess (offset : BitVec 16) (op : SiltOp) (bar0SameCycle : Bool)
    : Statement (.siltPortAccess offset op bar0SameCycle) :=
  ⟨fun _ h => (by first | rfl | cases h), fun h => (by first | rfl | cases h)⟩
theorem slotTick (m : TickMeasure) : Statement (.slotTick m) :=
  ⟨fun _ h => (by first | rfl | cases h), fun h => (by first | rfl | cases h)⟩
theorem tableCopyDone : Statement .tableCopyDone :=
  ⟨fun _ h => (by first | rfl | cases h), fun h => (by first | rfl | cases h)⟩
theorem acquisitionOpen (radio : RadioId) (lock coexGnt : Bool) (wbNoise : Cdb)
    : Statement (.acquisitionOpen radio lock coexGnt wbNoise) :=
  ⟨fun _ h => (by first | rfl | cases h), fun h => (by first | rfl | cases h)⟩
theorem widebandDetection (radio : RadioId) (w : WbRise) : Statement (.widebandDetection radio w) :=
  ⟨fun _ h => (by first | rfl | cases h), fun h => (by first | rfl | cases h)⟩
theorem laterPreamble (radio : RadioId) (w : WbRise) (cells : List (Nat × Cdb))
    : Statement (.laterPreamble radio w cells) :=
  ⟨fun _ h => (by first | rfl | cases h), fun h => (by first | rfl | cases h)⟩
theorem syncEvaluation (radio : RadioId) (half : Samples) : Statement (.syncEvaluation radio half) :=
  ⟨fun _ h => (by first | rfl | cases h), fun h => (by first | rfl | cases h)⟩
theorem sigVerdict (radio : RadioId) (subch : Nat) : Statement (.sigVerdict radio subch) :=
  ⟨fun _ h => (by first | rfl | cases h), fun h => (by first | rfl | cases h)⟩
theorem windowClose (radio : RadioId) (w : WindowObs) : Statement (.windowClose radio w) :=
  ⟨fun _ h => (by first | rfl | cases h), fun h => (by first | rfl | cases h)⟩
theorem crcVerdict (radio : RadioId) (subch : Nat) (upsets : List (Fin 5)) : Statement (.crcVerdict radio subch upsets) :=
  ⟨fun _ h => (by first | rfl | cases h), fun h => (by first | rfl | cases h)⟩
theorem stuckSlotDetection (radio : RadioId) : Statement (.stuckSlotDetection radio) :=
  ⟨fun _ h => (by first | rfl | cases h), fun h => (by first | rfl | cases h)⟩
theorem ackrxPreset (radio : RadioId) : Statement (.ackrxPreset radio) :=
  ⟨fun _ h => (by first | rfl | cases h), fun h => (by first | rfl | cases h)⟩
theorem ackSymbolReceive (radio : RadioId) (subch : Nat) (window : Samples)
    : Statement (.ackSymbolReceive radio subch window) :=
  ⟨fun _ h => (by first | rfl | cases h), fun h => (by first | rfl | cases h)⟩
theorem decodeAndContext : Statement .decodeAndContext :=
  ⟨fun _ h => (by first | rfl | cases h), fun h => (by first | rfl | cases h)⟩
theorem delivery : Statement .delivery :=
  ⟨fun _ h => (by first | rfl | cases h), fun h => (by first | rfl | cases h)⟩
theorem loadmapResend (sidx : BitVec 20) : Statement (.loadmapResend sidx) :=
  ⟨fun _ h => (by first | rfl | cases h), fun h => (by first | rfl | cases h)⟩
theorem downlinkAgeTimeout (sidx : BitVec 20) : Statement (.downlinkAgeTimeout sidx) :=
  ⟨fun _ h => (by first | rfl | cases h), fun h => (by first | rfl | cases h)⟩
theorem wakeRequestTimeout : Statement .wakeRequestTimeout :=
  ⟨fun _ h => (by first | rfl | cases h), fun h => (by first | rfl | cases h)⟩
theorem coexReqAssert (radio : RadioId) : Statement (.coexReqAssert radio) :=
  ⟨fun _ h => (by first | rfl | cases h), fun h => (by first | rfl | cases h)⟩
theorem coexGntWithdrawn (radio : RadioId) : Statement (.coexGntWithdrawn radio) :=
  ⟨fun _ h => (by first | rfl | cases h), fun h => (by first | rfl | cases h)⟩
theorem burstCheck (radio : RadioId) (lock coexGnt : Bool) : Statement (.burstCheck radio lock coexGnt) :=
  ⟨fun _ h => (by first | rfl | cases h), fun h => (by first | rfl | cases h)⟩
theorem burstEnd (radio : RadioId) (fwd refl expected : Cdb) : Statement (.burstEnd radio fwd refl expected) :=
  ⟨fun _ h => (by first | rfl | cases h), fun h => (by first | rfl | cases h)⟩
theorem tgStart : Statement .tgStart :=
  ⟨fun _ h => (by first | rfl | cases h), fun h => (by first | rfl | cases h)⟩
theorem synthLock (radio : RadioId) : Statement (.synthLock radio) :=
  ⟨fun _ h => (by first | rfl | cases h), fun h => (by first | rfl | cases h)⟩
theorem calChunk (radio : RadioId) (startPs : Int) : Statement (.calChunk radio startPs) :=
  ⟨fun _ h => (by first | rfl | cases h), fun h => (by first | rfl | cases h)⟩
theorem sweepDone (radio : RadioId) (ok : Bool) : Statement (.sweepDone radio ok) :=
  ⟨fun _ h => (by first | rfl | cases h), fun h => (by first | rfl | cases h)⟩
theorem channelEntryBuild (radio : RadioId) (index : Nat) : Statement (.channelEntryBuild radio index) :=
  ⟨fun _ h => (by first | rfl | cases h), fun h => (by first | rfl | cases h)⟩
theorem wakePatternReceived (code : BitVec 32) (crc : Byte) : Statement (.wakePatternReceived code crc) :=
  ⟨fun _ h => (by first | rfl | cases h), fun h => (by first | rfl | cases h)⟩
theorem workerAsk (worker : WorkerId) : Statement (.workerAsk worker) :=
  ⟨fun _ h => (by first | rfl | cases h), fun h => (by first | rfl | cases h)⟩
theorem itemComplete (worker : WorkerId) (upsets : List (Fin 5)) : Statement (.itemComplete worker upsets) :=
  ⟨fun _ h => (by first | rfl | cases h), fun h => (by first | rfl | cases h)⟩
theorem delayPost (list : Fin 8) (delay : BitVec 16) (flowKey : BitVec 20) : Statement (.delayPost list delay flowKey) :=
  ⟨fun _ h => (by first | rfl | cases h), fun h => (by first | rfl | cases h)⟩
theorem delayTick : Statement .delayTick :=
  ⟨fun _ h => (by first | rfl | cases h), fun h => (by first | rfl | cases h)⟩
theorem watchdogFire (worker : WorkerId) : Statement (.watchdogFire worker) :=
  ⟨fun _ h => (by first | rfl | cases h), fun h => (by first | rfl | cases h)⟩
theorem workerResetDone (worker : WorkerId) : Statement (.workerResetDone worker) :=
  ⟨fun _ h => (by first | rfl | cases h), fun h => (by first | rfl | cases h)⟩
theorem journalCheckpoint : Statement .journalCheckpoint :=
  ⟨fun _ h => (by first | rfl | cases h), fun h => (by first | rfl | cases h)⟩
theorem lockstepMismatch : Statement .lockstepMismatch :=
  ⟨fun _ h => (by first | rfl | cases h), fun h => (by first | rfl | cases h)⟩
theorem heartbeatMiss : Statement .heartbeatMiss :=
  ⟨fun _ h => (by first | rfl | cases h), fun h => (by first | rfl | cases h)⟩
theorem takeoverDone : Statement .takeoverDone :=
  ⟨fun _ h => (by first | rfl | cases h), fun h => (by first | rfl | cases h)⟩
theorem pairSelftestDone (pass : Bool) : Statement (.pairSelftestDone pass) :=
  ⟨fun _ h => (by first | rfl | cases h), fun h => (by first | rfl | cases h)⟩
theorem kaoRequest (r : KaoReq) : Statement (.kaoRequest r) :=
  ⟨fun _ h => (by first | rfl | cases h), fun h => (by first | rfl | cases h)⟩
theorem keyLoad (sidx : BitVec 20) (keyidx : BitVec 4) : Statement (.keyLoad sidx keyidx) :=
  ⟨fun _ h => (by first | rfl | cases h), fun h => (by first | rfl | cases h)⟩
theorem kaoBlockResult (lane : LaneId) (agree repeatAgree : Bool) : Statement (.kaoBlockResult lane agree repeatAgree) :=
  ⟨fun _ h => (by first | rfl | cases h), fun h => (by first | rfl | cases h)⟩
theorem laneSelftestDone (lane : LaneId) (pass : Bool) : Statement (.laneSelftestDone lane pass) :=
  ⟨fun _ h => (by first | rfl | cases h), fun h => (by first | rfl | cases h)⟩
theorem lockRevoke : Statement .lockRevoke :=
  ⟨fun _ h => (by first | rfl | cases h), fun h => (by first | rfl | cases h)⟩
theorem drbgReseed (healthy : Bool) : Statement (.drbgReseed healthy) :=
  ⟨fun _ h => (by first | rfl | cases h), fun h => (by first | rfl | cases h)⟩
theorem kaoModeApply : Statement .kaoModeApply :=
  ⟨fun _ h => (by first | rfl | cases h), fun h => (by first | rfl | cases h)⟩
theorem dramReadDone (arrived : List DramReq) (id : Nat) (codewords : List Codeword)
    : Statement (.dramReadDone arrived id codewords) :=
  ⟨fun _ h => (by first | rfl | cases h), fun h => (by first | rfl | cases h)⟩
theorem alertNFall (arrived : List DramReq) (rank : Bool) : Statement (.alertNFall arrived rank) :=
  ⟨fun _ h => (by first | rfl | cases h), fun h => (by first | rfl | cases h)⟩
theorem alertNRise : Statement .alertNRise :=
  ⟨fun _ h => (by first | rfl | cases h), fun h => (by first | rfl | cases h)⟩
theorem retryEntryRetire (rank : Bool) : Statement (.retryEntryRetire rank) :=
  ⟨fun _ h => (by first | rfl | cases h), fun h => (by first | rfl | cases h)⟩
theorem refresh (rank : Bool) : Statement (.refresh rank) :=
  ⟨fun _ h => (by first | rfl | cases h), fun h => (by first | rfl | cases h)⟩
theorem retrainMeasured (shifts : List Int) : Statement (.retrainMeasured shifts) :=
  ⟨fun _ h => (by first | rfl | cases h), fun h => (by first | rfl | cases h)⟩
theorem scrubVisit (block : BitVec 29) (codewords : List Codeword) : Statement (.scrubVisit block codewords) :=
  ⟨fun _ h => (by first | rfl | cases h), fun h => (by first | rfl | cases h)⟩
theorem urgencyChange (arrived : List DramReq) (port : Fin 8) : Statement (.urgencyChange arrived port) :=
  ⟨fun _ h => (by first | rfl | cases h), fun h => (by first | rfl | cases h)⟩
theorem dramWriteRetire (arrived : List DramReq) (id : Nat) : Statement (.dramWriteRetire arrived id) :=
  ⟨fun _ h => (by first | rfl | cases h), fun h => (by first | rfl | cases h)⟩
theorem doorbellPoll (r : PollRead) : Statement (.doorbellPoll r) :=
  ⟨fun _ h => (by first | rfl | cases h), fun h => (by first | rfl | cases h)⟩
theorem txDescriptor (ring : Fin 16) (desc : List Byte) (payload : HostRead) (upsets : List (Fin 5))
    : Statement (.txDescriptor ring desc payload upsets) :=
  ⟨fun _ h => (by first | rfl | cases h), fun h => (by first | rfl | cases h)⟩
theorem msixModerationExpiry (ring : Nat) : Statement (.msixModerationExpiry ring) :=
  ⟨fun _ h => (by first | rfl | cases h), fun h => (by first | rfl | cases h)⟩
theorem statusWordUpdate (opcode : BitVec 16) : Statement (.statusWordUpdate opcode) :=
  ⟨fun _ h => (by first | rfl | cases h), fun h => (by first | rfl | cases h)⟩
theorem dmaError (ring : Nat) : Statement (.dmaError ring) :=
  ⟨fun _ h => (by first | rfl | cases h), fun h => (by first | rfl | cases h)⟩
theorem perstNAssert : Statement .perstNAssert :=
  ⟨fun _ h => (by first | rfl | cases h), fun h => (by first | rfl | cases h)⟩
theorem perstNDeassert : Statement .perstNDeassert :=
  ⟨fun _ h => (by first | rfl | cases h), fun h => (by first | rfl | cases h)⟩
theorem pcieLinkLoss : Statement .pcieLinkLoss :=
  ⟨fun _ h => (by first | rfl | cases h), fun h => (by first | rfl | cases h)⟩
theorem frameReceived (port : PortId) (f : EthRx) (upsets : List (Fin 5)) : Statement (.frameReceived port f upsets) :=
  ⟨fun _ h => (by first | rfl | cases h), fun h => (by first | rfl | cases h)⟩
theorem staticRestore (table : Fin 5) (index : Nat) : Statement (.staticRestore table index) :=
  ⟨fun _ h => (by first | rfl | cases h), fun h => (by first | rfl | cases h)⟩
theorem pauseInterval (port : PortId) : Statement (.pauseInterval port) :=
  ⟨fun _ h => (by first | rfl | cases h), fun h => (by first | rfl | cases h)⟩
theorem pauseExpiry (port : PortId) : Statement (.pauseExpiry port) :=
  ⟨fun _ h => (by first | rfl | cases h), fun h => (by first | rfl | cases h)⟩
theorem pauseStorm (port : PortId) : Statement (.pauseStorm port) :=
  ⟨fun _ h => (by first | rfl | cases h), fun h => (by first | rfl | cases h)⟩
theorem stormEnd (port : PortId) : Statement (.stormEnd port) :=
  ⟨fun _ h => (by first | rfl | cases h), fun h => (by first | rfl | cases h)⟩
theorem frameBoundary (port : PortId) : Statement (.frameBoundary port) :=
  ⟨fun _ h => (by first | rfl | cases h), fun h => (by first | rfl | cases h)⟩
theorem gateEntryChange (port : PortId) : Statement (.gateEntryChange port) :=
  ⟨fun _ h => (by first | rfl | cases h), fun h => (by first | rfl | cases h)⟩
theorem shaperRefill : Statement .shaperRefill :=
  ⟨fun _ h => (by first | rfl | cases h), fun h => (by first | rfl | cases h)⟩
theorem linkDown (port : PortId) : Statement (.linkDown port) :=
  ⟨fun _ h => (by first | rfl | cases h), fun h => (by first | rfl | cases h)⟩
theorem linkUp (port : PortId) : Statement (.linkUp port) :=
  ⟨fun _ h => (by first | rfl | cases h), fun h => (by first | rfl | cases h)⟩
theorem loadWindow (rxBits txBits : Nat) : Statement (.loadWindow rxBits txBits) :=
  ⟨fun _ h => (by first | rfl | cases h), fun h => (by first | rfl | cases h)⟩
theorem flowMoveComplete : Statement .flowMoveComplete :=
  ⟨fun _ h => (by first | rfl | cases h), fun h => (by first | rfl | cases h)⟩
theorem pairStepChange : Statement .pairStepChange :=
  ⟨fun _ h => (by first | rfl | cases h), fun h => (by first | rfl | cases h)⟩
theorem pairStepTimeout : Statement .pairStepTimeout :=
  ⟨fun _ h => (by first | rfl | cases h), fun h => (by first | rfl | cases h)⟩
theorem mdioFrameDone (ack : Bool) (data : BitVec 16) : Statement (.mdioFrameDone ack data) :=
  ⟨fun _ h => (by first | rfl | cases h), fun h => (by first | rfl | cases h)⟩
theorem agingVisit (table : Fin 2) (index : Nat) (hit : Bool) : Statement (.agingVisit table index hit) :=
  ⟨fun _ h => (by first | rfl | cases h), fun h => (by first | rfl | cases h)⟩
theorem ptpIntervalExpiry (port : PortId) (msg : Fin 3) : Statement (.ptpIntervalExpiry port msg) :=
  ⟨fun _ h => (by first | rfl | cases h), fun h => (by first | rfl | cases h)⟩
theorem ppsInEdge (rising : Bool) (widthNs : Nat) : Statement (.ppsInEdge rising widthNs) :=
  ⟨fun _ h => (by first | rfl | cases h), fun h => (by first | rfl | cases h)⟩
theorem ppsLoss : Statement .ppsLoss :=
  ⟨fun _ h => (by first | rfl | cases h), fun h => (by first | rfl | cases h)⟩
theorem ppsOutRise : Statement .ppsOutRise :=
  ⟨fun _ h => (by first | rfl | cases h), fun h => (by first | rfl | cases h)⟩
theorem ppsOutFall : Statement .ppsOutFall :=
  ⟨fun _ h => (by first | rfl | cases h), fun h => (by first | rfl | cases h)⟩
theorem servoLossTimeout : Statement .servoLossTimeout :=
  ⟨fun _ h => (by first | rfl | cases h), fun h => (by first | rfl | cases h)⟩
theorem uvloRelease : Statement .uvloRelease :=
  ⟨fun _ h => (by first | rfl | cases h), fun h => (by first | rfl | cases h)⟩
theorem uvloEngage : Statement .uvloEngage :=
  ⟨fun _ h => (by first | rfl | cases h), fun h => (by first | rfl | cases h)⟩
theorem powerStepDone (siltTicks : Nat) : Statement (.powerStepDone siltTicks) :=
  ⟨fun _ h => (by first | rfl | cases h), fun h => (by first | rfl | cases h)⟩
theorem powerStepTimeout (siltTicks : Nat) : Statement (.powerStepTimeout siltTicks) :=
  ⟨fun _ h => (by first | rfl | cases h), fun h => (by first | rfl | cases h)⟩
theorem attemptRestart : Statement .attemptRestart :=
  ⟨fun _ h => (by first | rfl | cases h), fun h => (by first | rfl | cases h)⟩
theorem vcorePhaseFault (phase : Fin 4) : Statement (.vcorePhaseFault phase) :=
  ⟨fun _ h => (by first | rfl | cases h), fun h => (by first | rfl | cases h)⟩
theorem vcoreAdjust (up : Bool) : Statement (.vcoreAdjust up) :=
  ⟨fun _ h => (by first | rfl | cases h), fun h => (by first | rfl | cases h)⟩
theorem brownout : Statement .brownout :=
  ⟨fun _ h => (by first | rfl | cases h), fun h => (by first | rfl | cases h)⟩
theorem domainAccess (d : Domain) (isolated : Bool) : Statement (.domainAccess d isolated) :=
  ⟨fun _ h => (by first | rfl | cases h), fun h => (by first | rfl | cases h)⟩
theorem domainReady (d : Domain) : Statement (.domainReady d) :=
  ⟨fun _ h => (by first | rfl | cases h), fun h => (by first | rfl | cases h)⟩
theorem sentinelArm (active : BitVec 6) : Statement (.sentinelArm active) :=
  ⟨fun _ h => (by first | rfl | cases h), fun h => (by first | rfl | cases h)⟩
theorem ethEnergyWake (port : PortId) : Statement (.ethEnergyWake port) :=
  ⟨fun _ h => (by first | rfl | cases h), fun h => (by first | rfl | cases h)⟩
theorem wakeFrame (port : PortId) (frame : List Byte) (fcsOk : Bool) : Statement (.wakeFrame port frame fcsOk) :=
  ⟨fun _ h => (by first | rfl | cases h), fun h => (by first | rfl | cases h)⟩
theorem gpioWake (levels : BitVec 16) : Statement (.gpioWake levels) :=
  ⟨fun _ h => (by first | rfl | cases h), fun h => (by first | rfl | cases h)⟩
theorem siltTimerExpiry : Statement .siltTimerExpiry :=
  ⟨fun _ h => (by first | rfl | cases h), fun h => (by first | rfl | cases h)⟩
theorem listenWindowOpen (port : PortId) : Statement (.listenWindowOpen port) :=
  ⟨fun _ h => (by first | rfl | cases h), fun h => (by first | rfl | cases h)⟩
theorem listenWindowClose (port : PortId) : Statement (.listenWindowClose port) :=
  ⟨fun _ h => (by first | rfl | cases h), fun h => (by first | rfl | cases h)⟩
theorem wakeNTimeout : Statement .wakeNTimeout :=
  ⟨fun _ h => (by first | rfl | cases h), fun h => (by first | rfl | cases h)⟩
theorem refclk40Loss : Statement .refclk40Loss :=
  ⟨fun _ h => (by first | rfl | cases h), fun h => (by first | rfl | cases h)⟩
theorem powerOnReset (strap : BitVec 4) (testEn extSupply vio18Kept : Bool)
    : Statement (.powerOnReset strap testEn extSupply vio18Kept) :=
  ⟨fun _ h => (by first | rfl | cases h), fun h => (by first | rfl | cases h)⟩
theorem sysRstN (strap : BitVec 4) : Statement (.sysRstN strap) :=
  ⟨fun _ h => (by first | rfl | cases h), fun h => (by first | rfl | cases h)⟩
theorem bootComplete (find : DramFind) : Statement (.bootComplete find) :=
  ⟨fun _ h => (by first | rfl | cases h), fun h => (by first | rfl | cases h)⟩
theorem uartImageReceived (image : List Byte) : Statement (.uartImageReceived image) :=
  ⟨fun _ h => (by first | rfl | cases h), fun h => (by first | rfl | cases h)⟩
theorem fwChunk (body : List Byte) : Statement (.fwChunk body) :=
  ⟨fun _ h => (by first | rfl | cases h), fun h => (by first | rfl | cases h)⟩
theorem standaloneModeTry (port : PortId) : Statement (.standaloneModeTry port) :=
  ⟨fun _ h => (by first | rfl | cases h), fun h => (by first | rfl | cases h)⟩
theorem activationResume (pauseUs : BitVec 32) : Statement (.activationResume pauseUs) :=
  ⟨fun _ h => (by first | rfl | cases h), fun h => (by first | rfl | cases h)⟩
theorem activationAbandon (pauseUs : BitVec 32) : Statement (.activationAbandon pauseUs) :=
  ⟨fun _ h => (by first | rfl | cases h), fun h => (by first | rfl | cases h)⟩
theorem sramPatrol (upset : Bool) : Statement (.sramPatrol upset) :=
  ⟨fun _ h => (by first | rfl | cases h), fun h => (by first | rfl | cases h)⟩
theorem extest : Statement .extest :=
  ⟨fun _ h => (by first | rfl | cases h), fun h => (by first | rfl | cases h)⟩
theorem samplePreload (capture : List Bool) : Statement (.samplePreload capture) :=
  ⟨fun _ h => (by first | rfl | cases h), fun h => (by first | rfl | cases h)⟩
theorem idcode : Statement .idcode :=
  ⟨fun _ h => (by first | rfl | cases h), fun h => (by first | rfl | cases h)⟩
theorem clamp : Statement .clamp :=
  ⟨fun _ h => (by first | rfl | cases h), fun h => (by first | rfl | cases h)⟩
theorem highz : Statement .highz :=
  ⟨fun _ h => (by first | rfl | cases h), fun h => (by first | rfl | cases h)⟩
theorem bypass (opcode : BitVec 4) : Statement (.bypass opcode) :=
  ⟨fun _ h => (by first | rfl | cases h), fun h => (by first | rfl | cases h)⟩
theorem searchSyncAcquired (radio : RadioId) (arrivalPs : Int) (half : Samples) (windows : List Samples)
    : Statement (.searchSyncAcquired radio arrivalPs half windows) :=
  ⟨fun _ h => (by first | rfl | cases h), fun h => (by first | rfl | cases h)⟩
theorem fwApplyDone (flashError : Bool) : Statement (.fwApplyDone flashError) :=
  ⟨fun _ h => (by first | rfl | cases h), fun h => (by first | rfl | cases h)⟩
theorem tableRebuildDone : Statement .tableRebuildDone :=
  ⟨fun _ h => (by first | rfl | cases h), fun h => (by first | rfl | cases h)⟩
theorem traceMsgSent : Statement .traceMsgSent :=
  ⟨fun _ h => (by first | rfl | cases h), fun h => (by first | rfl | cases h)⟩
theorem announceReceiptTimeout (port : PortId) : Statement (.announceReceiptTimeout port) :=
  ⟨fun _ h => (by first | rfl | cases h), fun h => (by first | rfl | cases h)⟩
theorem porNAssert : Statement .porNAssert :=
  ⟨fun _ h => (by first | rfl | cases h), fun h => (by first | rfl | cases h)⟩
theorem sysRstNAssert : Statement .sysRstNAssert :=
  ⟨fun _ h => (by first | rfl | cases h), fun h => (by first | rfl | cases h)⟩

end Sys2Proof.Laws.Shape
end

