-- ==== Sys2Proof/Laws/Run.lean ====
section
/-! SUPPORT. How a meaning becomes an outcome, and what the end of every command leaves. -/

namespace Sys2Proof.Machine

theorem run_defined (f : Dev → Dev) {s : State} (h : Defined s) :
    run f s = .next { s with dev := (f s.dev).settle (s.dev.bit Reg.glbFault_dram_lost) } := by
  unfold run; rw [if_neg (by rw [h]; exact Bool.false_ne_true)]; rfl

theorem run_undefined (f : Dev → Dev) {s : State} (h : s.dev.obs.tapUndef = true) : run f s = .fault .stateUndefined := by
  unfold run; rw [if_pos h]

theorem runUp_up (f : Dev → Dev) {s : State} (h : Up s) :
    runUp f s = .next { s with dev := (f s.dev).settle (s.dev.bit Reg.glbFault_dram_lost) } := by
  unfold runUp; rw [run_defined _ h.1, if_pos h.2]

theorem runOp_operates (f : Dev → Dev) {s : State} (h : Operates s) :
    runOp f s = .next { s with dev := (f s.dev).settle (s.dev.bit Reg.glbFault_dram_lost) } := by
  unfold runOp; rw [run_defined _ h.1, if_pos h.2]

/-! ## From a meaning to a command's answer -/

theorem Gives.of_run {i : Instr} {s : State} {f : Dev → Dev} {d : Dev} (h : Defined s) (hi : exec i s = run f s)
    (hd : f s.dev = d) : Gives i s d := by unfold Gives; rw [hi, run_defined f h, hd]

theorem Gives.of_runUp {i : Instr} {s : State} {f : Dev → Dev} {d : Dev} (h : Up s) (hi : exec i s = runUp f s)
    (hd : f s.dev = d) : Gives i s d := by unfold Gives; rw [hi, runUp_up f h, hd]

theorem Gives.of_runOp {i : Instr} {s : State} {f : Dev → Dev} {d : Dev} (h : Operates s) (hi : exec i s = runOp f s)
    (hd : f s.dev = d) : Gives i s d := by unfold Gives; rw [hi, runOp_operates f h, hd]

/-- A host command that is fetched has the effect of its body on the fetched command. -/
theorem Gives.of_host {i : Instr} {s : State} {op : Half} {h : CmdHdr} {body : Cmd → Dev → Dev} {d : Dev} (hf : Fetching s)
    (hi : exec i s = runOp (hostCmd op h body) s) (hd : body (s.dev.fetch op h).1 (s.dev.fetch op h).2 = d) :
    Gives i s d := by
  refine Gives.of_runOp hf.1 hi ?_
  unfold hostCmd
  rw [if_pos hf.2]
  exact hd

/-! ## Fetching -/

/-- Fetching a command moves the ring on and writes the journal; nothing else changes (R401, R334). -/
theorem Dev.fetch_tsk (d : Dev) (op : Half) (h : CmdHdr) :
    (d.fetch op h).2.tsk = { d.tsk with journal := d.tsk.journal ++ [(d.fetch op h).1] } := by
  have e : ∀ t, ({ d with tsk := t } : Dev).hosted = d.hosted := fun _ => rfl
  unfold Dev.fetch
  simp only [e]
  cases d.hosted <;> rfl

@[simp] theorem Dev.fetch_eff (d : Dev) (op : Half) (h : CmdHdr) : (d.fetch op h).2.eff = d.eff := by
  have e : ∀ t, ({ d with tsk := t } : Dev).hosted = d.hosted := fun _ => rfl
  unfold Dev.fetch; simp only [e]; cases d.hosted <;> rfl
@[simp] theorem Dev.fetch_counters (d : Dev) (op : Half) (h : CmdHdr) : (d.fetch op h).2.counters = d.counters := by
  have e : ∀ t, ({ d with tsk := t } : Dev).hosted = d.hosted := fun _ => rfl
  unfold Dev.fetch; simp only [e]; cases d.hosted <;> rfl
@[simp] theorem Dev.fetch_chans (d : Dev) (op : Half) (h : CmdHdr) : (d.fetch op h).2.chans = d.chans := by
  have e : ∀ t, ({ d with tsk := t } : Dev).hosted = d.hosted := fun _ => rfl
  unfold Dev.fetch; simp only [e]; cases d.hosted <;> rfl
@[simp] theorem Dev.fetch_r0 (d : Dev) (op : Half) (h : CmdHdr) : (d.fetch op h).2.r0 = d.r0 := by
  have e : ∀ t, ({ d with tsk := t } : Dev).hosted = d.hosted := fun _ => rfl
  unfold Dev.fetch; simp only [e]; cases d.hosted <;> rfl
@[simp] theorem Dev.fetch_r1 (d : Dev) (op : Half) (h : CmdHdr) : (d.fetch op h).2.r1 = d.r1 := by
  have e : ∀ t, ({ d with tsk := t } : Dev).hosted = d.hosted := fun _ => rfl
  unfold Dev.fetch; simp only [e]; cases d.hosted <;> rfl
@[simp] theorem Dev.fetch_r2 (d : Dev) (op : Half) (h : CmdHdr) : (d.fetch op h).2.r2 = d.r2 := by
  have e : ∀ t, ({ d with tsk := t } : Dev).hosted = d.hosted := fun _ => rfl
  unfold Dev.fetch; simp only [e]; cases d.hosted <;> rfl
@[simp] theorem Dev.fetch_sch (d : Dev) (op : Half) (h : CmdHdr) : (d.fetch op h).2.sch = d.sch := by
  have e : ∀ t, ({ d with tsk := t } : Dev).hosted = d.hosted := fun _ => rfl
  unfold Dev.fetch; simp only [e]; cases d.hosted <;> rfl
@[simp] theorem Dev.fetch_msh (d : Dev) (op : Half) (h : CmdHdr) : (d.fetch op h).2.msh = d.msh := by
  have e : ∀ t, ({ d with tsk := t } : Dev).hosted = d.hosted := fun _ => rfl
  unfold Dev.fetch; simp only [e]; cases d.hosted <;> rfl
@[simp] theorem Dev.fetch_tim (d : Dev) (op : Half) (h : CmdHdr) : (d.fetch op h).2.tim = d.tim := by
  have e : ∀ t, ({ d with tsk := t } : Dev).hosted = d.hosted := fun _ => rfl
  unfold Dev.fetch; simp only [e]; cases d.hosted <;> rfl
@[simp] theorem Dev.fetch_fwd (d : Dev) (op : Half) (h : CmdHdr) : (d.fetch op h).2.fwd = d.fwd := by
  have e : ∀ t, ({ d with tsk := t } : Dev).hosted = d.hosted := fun _ => rfl
  unfold Dev.fetch; simp only [e]; cases d.hosted <;> rfl
@[simp] theorem Dev.fetch_eth (d : Dev) (op : Half) (h : CmdHdr) : (d.fetch op h).2.eth = d.eth := by
  have e : ∀ t, ({ d with tsk := t } : Dev).hosted = d.hosted := fun _ => rfl
  unfold Dev.fetch; simp only [e]; cases d.hosted <;> rfl
@[simp] theorem Dev.fetch_kao (d : Dev) (op : Half) (h : CmdHdr) : (d.fetch op h).2.kao = d.kao := by
  have e : ∀ t, ({ d with tsk := t } : Dev).hosted = d.hosted := fun _ => rfl
  unfold Dev.fetch; simp only [e]; cases d.hosted <;> rfl
@[simp] theorem Dev.fetch_dmc (d : Dev) (op : Half) (h : CmdHdr) : (d.fetch op h).2.dmc = d.dmc := by
  have e : ∀ t, ({ d with tsk := t } : Dev).hosted = d.hosted := fun _ => rfl
  unfold Dev.fetch; simp only [e]; cases d.hosted <;> rfl
@[simp] theorem Dev.fetch_pwr (d : Dev) (op : Half) (h : CmdHdr) : (d.fetch op h).2.pwr = d.pwr := by
  have e : ∀ t, ({ d with tsk := t } : Dev).hosted = d.hosted := fun _ => rfl
  unfold Dev.fetch; simp only [e]; cases d.hosted <;> rfl
@[simp] theorem Dev.fetch_boot (d : Dev) (op : Half) (h : CmdHdr) : (d.fetch op h).2.boot = d.boot := by
  have e : ∀ t, ({ d with tsk := t } : Dev).hosted = d.hosted := fun _ => rfl
  unfold Dev.fetch; simp only [e]; cases d.hosted <;> rfl
@[simp] theorem Dev.fetch_obs (d : Dev) (op : Half) (h : CmdHdr) : (d.fetch op h).2.obs = d.obs := by
  have e : ∀ t, ({ d with tsk := t } : Dev).hosted = d.hosted := fun _ => rfl
  unfold Dev.fetch; simp only [e]; cases d.hosted <;> rfl
@[simp] theorem Dev.fetch_pins (d : Dev) (op : Half) (h : CmdHdr) : (d.fetch op h).2.pins = d.pins := by
  have e : ∀ t, ({ d with tsk := t } : Dev).hosted = d.hosted := fun _ => rfl
  unfold Dev.fetch; simp only [e]; cases d.hosted <;> rfl
@[simp] theorem Dev.fetch_decodeQ (d : Dev) (op : Half) (h : CmdHdr) : (d.fetch op h).2.decodeQ = d.decodeQ := by
  have e : ∀ t, ({ d with tsk := t } : Dev).hosted = d.hosted := fun _ => rfl
  unfold Dev.fetch; simp only [e]; cases d.hosted <;> rfl
@[simp] theorem Dev.fetch_vit (d : Dev) (op : Half) (h : CmdHdr) : (d.fetch op h).2.vit = d.vit := by
  have e : ∀ t, ({ d with tsk := t } : Dev).hosted = d.hosted := fun _ => rfl
  unfold Dev.fetch; simp only [e]; cases d.hosted <;> rfl
@[simp] theorem Dev.fetch_outs (d : Dev) (op : Half) (h : CmdHdr) : (d.fetch op h).2.outs = d.outs := by
  have e : ∀ t, ({ d with tsk := t } : Dev).hosted = d.hosted := fun _ => rfl
  unfold Dev.fetch; simp only [e]; cases d.hosted <;> rfl
@[simp] theorem Dev.fetch_freeCtr (d : Dev) (op : Half) (h : CmdHdr) : (d.fetch op h).2.freeCtr = d.freeCtr := by
  have e : ∀ t, ({ d with tsk := t } : Dev).hosted = d.hosted := fun _ => rfl
  unfold Dev.fetch; simp only [e]; cases d.hosted <;> rfl

@[simp] theorem Dev.fetch_opcode (d : Dev) (op : Half) (h : CmdHdr) : (d.fetch op h).1.opcode = op := by
  have e : ∀ t, ({ d with tsk := t } : Dev).hosted = d.hosted := fun _ => rfl
  unfold Dev.fetch; simp only [e]; cases d.hosted <;> rfl
@[simp] theorem Dev.fetch_runs (d : Dev) (op : Half) (h : CmdHdr) : (d.fetch op h).2.hif.runs = d.hif.runs := by
  have e : ∀ t, ({ d with tsk := t } : Dev).hosted = d.hosted := fun _ => rfl
  unfold Dev.fetch; simp only [e]; cases d.hosted <;> rfl
@[simp] theorem Dev.fetch_txWait (d : Dev) (op : Half) (h : CmdHdr) : (d.fetch op h).2.hif.txWait = d.hif.txWait := by
  have e : ∀ t, ({ d with tsk := t } : Dev).hosted = d.hosted := fun _ => rfl
  unfold Dev.fetch; simp only [e]; cases d.hosted <;> rfl
theorem Dev.fetch_runningOp (d : Dev) (op : Half) (h : CmdHdr) (o : Half) :
    (d.fetch op h).2.runningOp o = d.runningOp o := by simp [Dev.runningOp]
theorem Dev.fetch_reg (d : Dev) (op : Half) (h : CmdHdr) (a : Nat) (ha : ¬ bookAddr a) :
    (d.fetch op h).2.reg a = d.reg a := by
  have e : ∀ t, ({ d with tsk := t } : Dev).hosted = d.hosted := fun _ => rfl
  unfold Dev.fetch
  simp only [e]
  cases d.hosted
  · rfl
  · exact ((Dev.Book.setRingDev _ 0 _ (by decide)).trans (Dev.Book.setRing _ _ _)).reg a ha

theorem Dev.fetch_fld (d : Dev) (op : Half) (h : CmdHdr) (f : Field) (ha : ¬ bookAddr f.addr) :
    (d.fetch op h).2.fld f = d.fld f := by unfold Dev.fld; rw [d.fetch_reg op h _ ha]
theorem Dev.fetch_bit (d : Dev) (op : Half) (h : CmdHdr) (f : Field) (ha : ¬ bookAddr f.addr) :
    (d.fetch op h).2.bit f = d.bit f := by unfold Dev.bit; rw [d.fetch_fld op h f ha]

theorem Dev.fetch_devState (d : Dev) (op : Half) (h : CmdHdr) : (d.fetch op h).2.devState = d.devState := by
  have e : ∀ t, ({ d with tsk := t } : Dev).hosted = d.hosted := fun _ => rfl
  unfold Dev.fetch
  simp only [e]
  cases d.hosted
  · rfl
  · exact ((Dev.Book.setRingDev _ 0 _ (by decide)).trans (Dev.Book.setRing _ _ _)).devState

theorem Dev.fetch_cfg (d : Dev) (op : Half) (h : CmdHdr) (a : Nat) (ha : ¬ bookAddr a) :
    (d.fetch op h).2.cfg a = d.cfg a := by
  have he : (d.fetch op h).2.eff = d.eff := d.fetch_eff op h
  unfold Dev.cfg
  split
  · exact d.fetch_reg op h a ha
  · rw [he]

/-! ## The power state on the registers and pins -/

theorem Dev.mainUp_congr {d e : Dev} (hp : e.pwr = d.pwr) (hs : e.devState = d.devState) : e.mainUp = d.mainUp := by
  unfold Dev.mainUp; rw [hp, hs]

end Sys2Proof.Machine
end

