-- ==== Sys2Proof/Tests/Slice0.lean ====
section
/-! SUPPORT. The model's own tests: ill-formed commands are refused by `wellFormed`, single steps give what the manual's
tables say, and for every statement with hypotheses a concrete state and operands meet them (`…_premises`). -/

namespace Sys2Proof.Tests

open Sys2Proof.Machine

set_option Elab.async false
set_option linter.unusedSimpArgs false

/-! ## Small states -/

/-- A machine with this device and no command waiting. -/
def st (d : Dev) : State := { State.reset with dev := d }
/-- Right after reset: BOOT. -/
def dev0 : Dev := State.reset.dev
def alone : Dev := dev0.setFld Reg.hifStat_dev_state dsStandalone
/-- HOSTED, with the rings 0, 1 and 2 enabled and one command on ring 0. -/
def withHost : Dev :=
  ((((dev0.setFld Reg.hifStat_dev_state dsHosted).setBit (Reg.hifRingCfg_en 0) true).setBit (Reg.hifRingCfg_en 1) true).setBit
    (Reg.hifRingCfg_en 2) true).setRing 0 { emptyRing with host := 1 }
/-- The device with a field set, and in force where its register waits for a boundary. -/
def inForce (d : Dev) (f : Field) (v : Nat) : Dev :=
  { d.setFld f v with eff := Sparse.put (resetVal f.addr) d.eff f.addr ((d.setFld f v).reg f.addr) }
def hdr : CmdHdr := ⟨7, 0x2000⟩
def cmd : Cmd := ⟨0x0012, hdr, 0, 0⟩
def bufOf (l : List Byte) : Buf := ⟨0x1000, BitVec.ofNat 32 l.length, .ok l⟩
/-- A host read of a buffer that gave `l`. -/
def zeros (n : Nat) : List Byte := List.replicate n 0

/-! ## Well-formed commands -/

/-- A window of 128 samples without a signal, and a half-window of 64. -/
def quietWindow : Samples := [List.replicate 128 (0, 0)]
def quietHalf : Samples := [List.replicate 64 (0, 0)]
def rise0 : WbRise := ⟨0, 0, 0, 0⟩

theorem test_illformed_refused :
    (Instr.patternWrite hdr 0 0 (zeros 15) (zeros 16)).wellFormed = false ∧
    (Instr.patternWrite hdr 0 0 (zeros 16) (zeros 17)).wellFormed = false ∧
    (Instr.hashWrite hdr 4 0 (zeros 39)).wellFormed = false ∧ (Instr.registerWrite 0 3 0 0).wellFormed = false ∧
    (Instr.timNowNsRead 0 3 false).wellFormed = false ∧
    (Instr.counterLowRead .host false 0 0 0 false).wellFormed = false ∧
    (Instr.tskLevelRead 0 8 false false).wellFormed = false ∧ (Instr.clkTjRead 0 5 false false).wellFormed = false ∧
    (Instr.ringEnable 48 0).wellFormed = false ∧ (Instr.ringDisable 48 0).wellFormed = false ∧
    (Instr.acquisitionOpen 0 true true (-30001)).wellFormed = false ∧
    (Instr.channelEntryBuild 0 512).wellFormed = false ∧ (Instr.doorbellPoll ⟨[], []⟩).wellFormed = false ∧
    (Instr.txDescriptor 0 (zeros 31) .err []).wellFormed = false ∧ (Instr.msixModerationExpiry 48).wellFormed = false ∧
    (Instr.dmaError 48).wellFormed = false := by decide

theorem test_illformed_reception_refused :
    (Instr.widebandDetection 0 { rise0 with block0 := 10001 }).wellFormed = false ∧
    (Instr.widebandDetection 0 { rise0 with whenPs := 2500000000 }).wellFormed = false ∧
    (Instr.laterPreamble 0 { rise0 with level := -30001 } []).wellFormed = false ∧
    (Instr.laterPreamble 0 rise0 [(96, 0)]).wellFormed = false ∧
    (Instr.syncEvaluation 0 [List.replicate 63 (0, 0)]).wellFormed = false ∧
    (Instr.syncEvaluation 0 [List.replicate 64 (32768, 0)]).wellFormed = false ∧
    (Instr.sigVerdict 0 96).wellFormed = false ∧ (Instr.crcVerdict 0 96 []).wellFormed = false ∧
    (Instr.ackSymbolReceive 0 96 quietWindow).wellFormed = false ∧
    (Instr.ackSymbolReceive 0 95 quietHalf).wellFormed = false ∧
    (Instr.searchSyncAcquired 0 0 quietHalf (List.replicate 11 quietWindow)).wellFormed = false := by decide +kernel

theorem test_illformed_windows_refused :
    (Instr.windowClose 0 ⟨16, 0, 0, false, false, quietWindow⟩).wellFormed = false ∧
    (Instr.windowClose 0 ⟨0, -1246875001, 0, false, false, quietWindow⟩).wellFormed = false ∧
    (Instr.windowClose 0 ⟨0, 0, 0, false, false, quietHalf⟩).wellFormed = false ∧
    (Instr.windowClose 0 ⟨0, 0, 0, false, false, [List.replicate 128 (0, -32769)]⟩).wellFormed = false := by
  decide +kernel

theorem test_illformed_blocks_refused :
    (Instr.kaoRequest ⟨0, true, 0, 0, 0, false, false, []⟩).wellFormed = false ∧
    (Instr.kaoRequest ⟨0, true, 0, 0, 0, false, false, List.replicate 257 0⟩).wellFormed = false := by decide +kernel

theorem test_wellformed_accepted :
    (Instr.registerWrite 0 4 0 0).wellFormed = true ∧ (Instr.ringEnable 47 0).wellFormed = true ∧
    (Instr.timNowNsRead 3 1 true).wellFormed = true ∧
    (Instr.acquisitionOpen 0 true true (-30000)).wellFormed = true ∧ (Instr.channelEntryBuild 0 511).wellFormed = true ∧
    (Instr.ackSymbolReceive 0 95 [List.replicate 100 (1, 0), List.replicate 28 (0, -32768)]).wellFormed = true ∧
    (Instr.windowClose 0 ⟨15, 31250000, 0, false, false, quietWindow⟩).wellFormed = true := by decide +kernel
/-! ## The machine and the rings -/

/-- A HOSTED device with nothing waiting, and one after EXTEST. -/
def afterExtest : Dev := { dev0 with obs := { dev0.obs with tapUndef := true } }

theorem test_whole_premises :
    (∃ s : State, s.pending ≠ []) ∧ (∃ s t : State, exec (.gpioWake 0) s = .next t) ∧
    tapOrReset (.gpioWake 0) = false ∧ (st afterExtest).dev.obs.tapUndef = true ∧ Defined (st dev0) ∧ tapOrReset .extest = true ∧
    (st dev0).dev.PinsFollow ∧ (∃ t, step (st dev0) = .next t) ∧ (hostHdr (.nop hdr)).isSome ∧ withHost.mainUp = true :=
  ⟨⟨⟨[.gpioWake 0], dev0⟩, by decide⟩, ⟨st dev0, _, rfl⟩, rfl, rfl, rfl, rfl, by unfold Dev.PinsFollow; decide +kernel,
    ⟨_, rfl⟩, rfl, by decide +kernel⟩

theorem test_calm_premises : withHost.Calm := by
  constructor <;> first | decide +kernel | (intro c; decide +revert +kernel) | (intro c h; cases h)

theorem test_NoCommandOutsideOperation_premises :
    ∀ n : Fin 4, let d := dev0.setFld Reg.hifStat_dev_state ([dsOff, dsBoot, dsSentinel, dsFaultLock].getD n 0)
      d.devState = [dsOff, dsBoot, dsSentinel, dsFaultLock].getD n 0 ∧ d.obs.tapUndef = false := by decide +kernel

/-- Ring 1 has no room: it is full. -/
def fullHost : Dev := withHost.setRing 1 { emptyRing with dev := withHost.ringSize 1 }

theorem test_rings_premises :
    withHost.hosted = true ∧ withHost.hif.complQ = [] ∧ cmd.epoch = withHost.hif.epoch ∧ withHost.complRoom = true ∧
    withHost.boot.localCur = none ∧ fullHost.complRoom = false ∧ fullHost.boot.localCur = none ∧
    cmd.epoch = fullHost.hif.epoch ∧ withHost.cfgBit Reg.obsTraceCfg_en = false ∧ withHost.hif.eventQ = [] ∧
    withHost.hif.lost = 0 ∧ withHost.eventRoom = true ∧
    256 ≤ (List.replicate 256 ([] : List Byte)).length := by decide +kernel

/-! ## Host commands: schedule, rulesets and tables -/

theorem test_fetching : Fetching (st withHost) ∧ Fetching (st alone) := by
  simp only [Fetching, Up, Operates, Defined]; decide +kernel

/-- One row of 4 bytes without cells. -/
def rowBuf : Buf := bufOf (zeros 4)
/-- A pending table with one row, and channel 5 configured. -/
def withRow (w : Row) : Dev :=
  { withHost with
    sch := { withHost.sch with pending := [(0, w)] }
    chans := [(5, some ⟨9152000, 0, 0, []⟩)] }
def row (type chan : Nat) : Row := ⟨BitVec.ofNat 9 chan, BitVec.ofNat 3 type, 0, 0, []⟩
/-- The staged rotation entries fill their room but for 536. -/
def stagedFull : Dev := { withHost with sch := { withHost.sch with staged := List.replicate 65000 (0, 0) } }

theorem test_ScheduleCommands_premises :
    let s := st withHost
    (2 : Byte).toNat < 3 ∧ (511 : BitVec 16).toNat ≤ 511 ∧ (511 : BitVec 16).toNat + (1 : BitVec 16).toNat ≤ 512 ∧
    s.dev.sch.copying = false ∧ s.dev.bit Reg.schCommit_pending = false ∧ rowBuf.addr ≠ 0 ∧ rowBuf.data = .ok (zeros 4) ∧
    (readRows 1 ((zeros 4).take rowBuf.len.toNat)).isSome ∧
    (4096 : BitVec 16).toNat ≤ 4096 ∧ (1044480 : BitVec 32).toNat + 4096 ≤ s.dev.rotSize ∧
    4 * 4096 ≤ (bufOf (zeros 16384)).len.toNat ∧ s.dev.sch.staged.length + 4096 ≤ 65536 ∧
    65536 < stagedFull.sch.staged.length + 4096 ∧ 4096 ≤ stagedFull.rotSize ∧ Fetching (st stagedFull) := by
  simp only [Fetching, Operates, Defined]; decide +kernel

/-- Every outcome of SCHEDULE_COMMIT: an illegal row, a row on a channel that is not configured, a transmitting row without a
region, a table that a protected commit does not admit, and tables that commit. -/
theorem test_ScheduleCommands_commit_premises :
    let region := fun d : Dev => d.setReg Reg.bootRegion 1
    let a := withRow (row 7 5)
    let b := withRow (row 2 6)
    let c := withRow (row 2 5)
    let tight := region { c with sch := { c.sch with pending := [(0, row 2 5), (512, row 2 5), (1024, row 2 5)] } }
    let free := region (withRow (row 0 0))
    a.tableLegal a.sch.pending = false ∧
    b.tableLegal b.sch.pending = true ∧ b.tableChannels b.sch.pending = false ∧
    c.tableLegal c.sch.pending = true ∧ (tableTransmits c.sch.pending && c.noRegion) = true ∧
    tight.tableLegal tight.sch.pending = true ∧ tight.tableChannels tight.sch.pending = true ∧
    (tableTransmits tight.sch.pending && tight.noRegion) = false ∧
    (tight.bit Reg.schAdmcfg_protected && !admitted tight.sch.pending) = true ∧
    free.tableLegal free.sch.pending = true ∧ free.tableChannels free.sch.pending = true ∧
    (free.bit Reg.schAdmcfg_protected && !admitted free.sch.pending) = false ∧
    [a, b, c, tight, free].all (fun d => d.firmwareUp && d.fetches && !d.bit Reg.schCommit_pending) = true := by decide +kernel

/-- The same with a copy running, and with a commit pending. -/
theorem test_ScheduleCommands_waiting_premises :
    let a := st { withHost with sch := { withHost.sch with copying := true } }
    let b := st (withHost.raise Reg.schCommit_pending)
    Fetching a ∧ a.dev.sch.copying = true ∧ Fetching b ∧ b.dev.bit Reg.schCommit_pending = true := by
  simp only [Fetching, Up, Operates, Defined]; decide +kernel

/-- An earlier commit copies. -/
def rulesetCopies : Dev := { withHost with fwd := { withHost.fwd with copying := some (cmd, 1, 5, 16000) } }

theorem test_RulesetStagingWrites_premises :
    withHost.fwd.copying = none ∧ rulesetCopies.fwd.copying ≠ none ∧ Fetching (st rulesetCopies) ∧
    (1023 : BitVec 16).toNat ≤ 1023 ∧ (1023 : BitVec 16).toNat + (1 : BitVec 16).toNat ≤ 1024 ∧
    (bufOf (zeros 48)).addr ≠ 0 ∧ 48 * (1 : BitVec 16).toNat ≤ (bufOf (zeros 48)).len.toNat ∧ (63 : Byte).toNat ≤ 63 ∧
    (16 : Byte).toNat ≤ 16 ∧ (3 : Byte).toNat < 4 ∧ (511 : BitVec 16).toNat ≤ 511 ∧ (511 : BitVec 16).toNat + 1 ≤ 512 ∧
    2 * 1 ≤ (bufOf (zeros 2)).len.toNat ∧ (bufOf (zeros 2)).data = .ok (zeros 2) := by
  simp only [Fetching, Operates, Defined]; decide +kernel

def pfxEntry : PfxEntry := ⟨0, 8, 0, true, 0⟩
def sensorParams : SensorParams := ⟨0x0003FFFF, 1, 1, 0, 7, 63, 0, 2, 0, 0, 0⟩
def sensorEntry : SensorEntry := ⟨1, 0x0003FFFF, 0, 7, 63, false, 0⟩
def otherEntry : SensorEntry := ⟨2, 9, 0, 0, 0, false, 0⟩
def withSensor : Dev := (withHost.sensorInsert sensorEntry).getD withHost
/-- All four buckets of sensors 1 and 2 hold entries of sensor 2. -/
def fullBuckets : Dev :=
  let a := withHost.candidates 1
  let b := withHost.candidates 2
  { withHost with fwd := { withHost.fwd with sensor :=
    (ways8 a.1 ++ ways8 a.2 ++ ways8 b.1 ++ ways8 b.2).foldl (fun t k => Sparse.put none t k (some otherEntry)) [] } }
/-- A prefix, a server and a station in the tables. -/
def withEntries : Dev :=
  (withHost.setPfx 2047 (some pfxEntry)).setServer 63 (some ⟨0, 7⟩) |>.setMac (4 * macBucket 0 0 + 3) (some ⟨0, 0, 2, true, false, 0, 0⟩)

theorem test_TableWrites_premises :
    let d := withEntries
    (63 : BitVec 16).toNat < 64 ∧ 35 ≤ ((zeros 35).take (bufOf (zeros 35)).len.toNat).length ∧
    (2047 : BitVec 16).toNat < 2048 ∧ (Sparse.get none d.fwd.pfx 2047).isSome ∧
    (Sparse.get none d.restoreServer.fwd.server 63).isSome ∧ (d.restoreMac.macIndex 0 0).isSome ∧
    leAt (zeros 35) 0 6 = 0 ∧ leAt (zeros 35) 6 2 = 0 ∧ leAt (zeros 35) 8 1 ≤ 3 ∧ leAt (zeros 35) 16 1 ≤ 128 ∧
    leAt (zeros 35) 33 1 ≤ 1 ∧ 2048 ≤ (2048 : BitVec 16).toNat ∧
    (1 : Byte).toNat ≤ 1 ∧ 4 < (5 : Byte).toNat ∧ 1 < (2 : Byte).toNat ∧ (bufOf (zeros 35)).addr ≠ 0 := by decide +kernel

theorem test_SensorWrites_premises :
    sensorParams.sidx.toNat < withHost.maxSensors ∧ sensorParams.write.getLsbD 0 = true ∧ sensorParams.ulKind.toNat ≤ 7 ∧
    sensorParams.ulIndex.toNat ≤ 63 ∧ sensorParams.members.toNat ≤ 2 ∧ (withSensor.sensorIndex sensorParams.addr).isSome ∧
    withHost.sensorIndex sensorParams.addr = none ∧ (withHost.freeWay (withHost.candidates sensorParams.addr).1).isSome ∧
    fullBuckets.sensorInsert sensorEntry = none ∧ { sensorParams with write := 0 }.write.getLsbD 0 = false := by
  decide +kernel

theorem test_TableWrites_states :
    Fetching (st withEntries) ∧ Fetching (st withSensor) ∧ Fetching (st fullBuckets) := by
  simp only [Fetching, Up, Operates, Defined]; decide +kernel

/-- A rebuild of a table runs. -/
def rebuilding (table : Nat) : Dev :=
  { withHost with hif := { withHost.hif with runs := [⟨⟨opRebuild, hdr, 0, 0⟩, true, 0, 0, 0, table⟩] } }
/-- Every version slot but the current one holds a waiting ingress frame's version. -/
def allHeld : Dev :=
  { withHost with hif := { withHost.hif with txWait := (List.range 16).map fun v => { (default : HostWait) with ver := v } } }

theorem test_CommitAndRebuild_premises :
    (4 : Byte).toNat ≤ 4 ∧ withHost.runningOp opRebuild = none ∧ Operates (st (rebuilding 4)) ∧ Operates (st (rebuilding 0)) ∧
    Operates (st (rebuilding 1)) ∧ ((rebuilding 4).runningOp opRebuild).map (·.arg) = some 4 ∧
    ((rebuilding 0).runningOp opRebuild).map (·.arg) = some 0 ∧ ((rebuilding 1).runningOp opRebuild).map (·.arg) = some 1 ∧
    withHost.fwd.copying = none ∧
    ((List.range 16).find? fun v => v != withHost.curVer && !withHost.held v) = some 1 ∧ Fetching (st allHeld) ∧
    ((List.range 16).find? fun v => v != allHeld.curVer && !allHeld.held v) = none ∧
    rulesetCopies.fwd.copying = some (cmd, 1, 5, 16000) ∧ rulesetCopies.tim.cyc < 16000 ∧
    rulesetCopies.fwd.copying = some (cmd, 1, 5, 16000) := by
  simp only [Fetching, Up, Operates, Defined]; decide +kernel

/-- The copy has run its 40 µs. -/
theorem test_CommitAndRebuild_copied :
    let d := { rulesetCopies with tim := { rulesetCopies.tim with cyc := 16000 } }
    d.fwd.copying = some (cmd, 1, 5, 16000) ∧ 16000 ≤ d.tim.cyc := by decide +kernel

/-! ## Host commands: radios, channels, air -/

def rfIn (n : Nat) (d : Dev) : Dev := d.setFld (Reg.rfStat_state 2) n
/-- Radio 2 in READY with a valid entry for channel index 511. -/
def ready2 : Dev := ((rfIn rsReady withHost).modRadio 2 fun x => { x with entries := [(511, some ⟨0, 0, 0, 0⟩)] })
def chanCfg : ChanCfg := ⟨868000000, 0, 63, []⟩
def withChan : Dev := { withHost.setReg Reg.bootRegion 1 with chans := [(511, some chanCfg)] }

theorem test_radio_states :
    ∀ n : Fin 8, (rfIn n.val withHost).rfState 2 = n.val ∧ (rfIn n.val withHost).leanFull = false ∧
      (rfIn n.val withHost).runningOp opRfCalSweep = none ∧ (rfIn n.val withHost).fetches = true ∧
      (rfIn n.val withHost).firmwareUp = true ∧ (rfIn n.val withHost).obs.tapUndef = false := by decide +kernel

theorem test_RadioEndAndPorts_premises :
    let s := st (withHost.setBit (Reg.rfStat_hb_inhibit 2) true)
    Fetching s ∧ s.dev.inhibited 2 &&& ((3 : Byte).toNat % 4) ≠ 0 ∧ s.dev.inhibited 2 &&& ((1 : Byte).toNat % 4) = 0 := by
  simp only [Fetching, Up, Operates, Defined]; decide +kernel

theorem test_ChanConfigResult_premises :
    let p : ChanParams := ⟨511, 0, 63, 340000000 + 100000000, 4, 0, 0, 0, 0⟩
    let used := st { withHost with sch := { withHost.sch with pending := [(0, row 1 511)] } }
    let held : Dev := { withChan with chans := [(511, some ⟨440000000, 0, 63, []⟩)] }
    let busy := st { withHost with hif := { withHost.hif with runs := [⟨⟨0x0010, hdr, 0, 0⟩, true, 0, 0, 0, 5⟩] } }
    let lacks := rfIn rsReady withHost
    let uses (s : State) := (s.dev.sch.active.any fun x => x.2.uses 511) || s.dev.sch.pending.any fun x => x.2.uses 511
    Fetching used ∧ p.mode.toNat = (0 : Fin 3).val ∧ p.index.toNat ≤ 511 ∧ p.txTrim.toNat ≤ 63 ∧ p.tuneN.toNat ≤ 4 ∧
    freqFits p.freq.toNat 0 = true ∧ freqFits 0 0 = false ∧ Fetching busy ∧ busy.dev.runningOp 0x0010 ≠ none ∧ uses busy = false ∧
    held.chan 511 = some ⟨p.freq, 0, 63, []⟩ ∧ Fetching (st held) ∧ lacks.rfReadyRun 2 = true ∧ lacks.entryValid 2 511 = false ∧
    Fetching (st lacks) ∧ uses used = true ∧ uses (st withHost) = false ∧
    withHost.runningOp 0x0010 = none ∧ withHost.chan 511 = none := by
  simp only [Fetching, Up, Operates, Defined]; decide +kernel

theorem test_WakeAndSurvey_premises :
    let s := st withChan
    let wakes := withChan.setRadio 1 { initRadio with sweep := some ⟨none, [], [], 0, 20⟩ }
    let waits (slot : Nat) : State := st { wakes with sch := { wakes.sch with
      active := [(512 + slot, row 4 511)], wakeQ := [] } }
    let full := st { withChan with sch := { withChan.sch with wakeQ := List.replicate 64 ⟨cmd, 511, 1, 0, none, false⟩ } }
    Fetching s ∧ (511 : BitVec 16).toNat ≤ 511 ∧ s.dev.noRegion = false ∧ s.dev.chanValid 511 = true ∧
    s.dev.sch.wakeQ.length < 64 ∧ s.dev.nextWakeRow 511 512 (s.dev.curS + 2) = none ∧ Fetching (waits 40) ∧
    (waits 40).dev.nextWakeRow 511 512 ((waits 40).dev.curS + 2) = some (40, 1) ∧
    (waits 20).dev.nextWakeRow 511 512 ((waits 20).dev.curS + 2) = some (20, 1) ∧
    ((waits 20).dev.radio 1).sweep = some ⟨none, [], [], 0, 20⟩ ∧ Fetching full ∧
    full.dev.noRegion = false ∧ full.dev.chanValid 511 = true ∧ 64 ≤ full.dev.sch.wakeQ.length := by
  simp only [Fetching, Up, Operates, Defined]; decide +kernel

theorem test_SpectrumSurvey_premises :
    let named (d : Dev) := radios.filter fun r => (4 : Byte).toNat.testBit r.val && d.rfReadyRun r
    let todo := (named ready2).flatMap fun r => ((List.range 1).map (511 + ·)).filterMap fun i =>
      if ready2.entryValid r i then some (r, i) else none
    Fetching (st ready2) ∧ named withHost = [] ∧ named ready2 ≠ [] ∧ todo = [(2, 511)] ∧
    100 * todo.length ≤ (bufOf (zeros 100)).len.toNat ∧ ready2.runningOp 0x001A = none := by
  simp only [Fetching, Up, Operates, Defined]; decide +kernel

theorem test_MeshFloodResult_premises :
    kindFlood (8 : Byte).toNat = true ∧ (0 : Byte).toNat ≤ withHost.cfgFld Reg.mshCfg_ttl_max ∧
    (bufOf [1]).addr ≠ 0 ∧ (bufOf [1]).data = .ok [1] := by decide +kernel

theorem test_TimeForceResult_premises :
    let a := st { withHost with tim := { withHost.tim with step := some ⟨5, some cmd⟩ } }
    let b := st { withHost with tim := { withHost.tim with blocked := true } }
    Fetching a ∧ a.dev.forceWaits = true ∧ Fetching b ∧ b.dev.forceWaits = false ∧ b.dev.tim.blocked = true ∧
    withHost.forceWaits = false ∧ withHost.tim.blocked = false ∧ (999999999 : BitVec 32).toNat ≤ 999999999 := by
  simp only [Fetching, Up, Operates, Defined]; decide +kernel

/-! ## Keys and Kaolin -/

def keyParams (target len : Byte) : KeyParams := ⟨target, 31, len, 15, 0, 0, 1, 0x3000, .ok (zeros 40)⟩
def slot0 (ctr : BitVec 48) : KeySlot := ⟨5, true, ctr, true, none, 0⟩
def withSlot (ctr : BitVec 48) (d : Dev) : Dev := d.setKslot 31 (some (slot0 ctr))
/-- A key of 16 zero bytes wrapped under the device key, and the same from an initial value that is not that of RFC 3394. -/
def goodWrap : List Byte := wrapFrom deviceKey wrapIv (zeros 8) (zeros 8)
def badWrap : List Byte := wrapFrom deviceKey (zeros 8) (zeros 8) (zeros 8)
def keyRecord : KeyRec := ⟨false, true, 15, 9, goodWrap⟩
def withRecord : Dev := withHost.setKeyRec 7 1 (some keyRecord)
def fullRecord : Dev := (withHost.setKeyRec 0 0 (some { keyRecord with keyidx := 1 })).setKeyRec 0 1 (some { keyRecord with keyidx := 2 })

theorem test_unwraps : keyUnwrap deviceKey (fit 24 goodWrap) = some (zeros 16) ∧ keyUnwrap deviceKey (fit 24 badWrap) = none := by
  have k : deviceKey.length = 32 := by simp [deviceKey, be, le]
  have g := keyUnwrap_wrapFrom deviceKey wrapIv (zeros 8) (zeros 8) k rfl rfl rfl
  have b := keyUnwrap_wrapFrom deviceKey (zeros 8) (zeros 8) (zeros 8) k rfl rfl rfl
  have f (l : List Byte) (h : l.length = 24) : fit 24 l = l := by simp [fit, h]
  constructor
  · rw [goodWrap, f _ g.1, g.2]; decide
  · rw [badWrap, f _ b.1, b.2]; decide

theorem test_KeyInstallPinned_premises :
    let s := st withHost
    (keyParams 0 1).target = 0 ∧ (keyParams 0 1).slot.toNat < s.dev.kao.pinned ∧ (keyParams 0 1).keyidx.toNat < 16 ∧
    (keyParams 0 1).len.toNat ≤ 1 ∧ (keyParams 0 1).addr ≠ 0 ∧ (keyParams 0 1).data = .ok (zeros 40) := by decide +kernel

theorem test_KeyRecordCommands_premises :
    (keyParams 1 0).target = 1 ∧ (keyParams 1 0).sidx.toNat < withHost.maxSensors ∧
    withHost.installEntry 0 15 = some 0 ∧ fullRecord.installEntry 0 15 = none ∧ fullRecord.fetches = true ∧
    (15 : Byte).toNat < 16 ∧ (7 : BitVec 32).toNat < withRecord.maxSensors ∧ withRecord.fetches = true ∧
    withRecord.findKey 7 15 = none ∧ (31 : Byte).toNat < (withSlot 0 withHost).kao.pinned ∧
    ((withSlot 0 withHost).kslot 31).isSome ∧ (withHost.kslot 31).isNone ∧ (withSlot 0 withHost).fetches = true := by
  decide +kernel

theorem test_KeyRecordCommands_record : withRecord.findRec 7 15 = some (1, keyRecord) := rfl

theorem test_CounterNeverWraps_premises :
    (withSlot 0xFFFFFFFFFFFE dev0).kslot 31 = some (slot0 0xFFFFFFFFFFFE) ∧ (0xFFFFFFFFFFFE : BitVec 48) ≠ BitVec.allOnes 48 ∧
    (withSlot 0xFFFFFFFFFFFF dev0).kslot 31 = some (slot0 0xFFFFFFFFFFFF) ∧ 0xFFFFFFFFFFFF = BitVec.allOnes 48 := by decide +kernel

def kaoReq (draw : Bool) : KaoReq := ⟨17, true, 31, 0, 0, false, draw, List.replicate 256 0⟩

theorem test_KaoRequests_premises :
    let ok (s : State) := s.dev.kao.modePend = none ∧ s.dev.kao.locked = false ∧ s.dev.kaoBehind 17 = false ∧
      s.dev.kaoCount 17 < 64 ∧ (s.dev.kslot 31).isSome
    ok (st (withSlot 0 withHost)) ∧ ok (st (withSlot 0xFFFFFFFFFFFF withHost)) ∧ Operates (st (withSlot 0xFFFFFFFFFFFF withHost)) ∧
    (kaoReq true).pinned = true ∧ (kaoReq true).blocks ≠ [] ∧ (kaoReq true).blocks.length ≤ 256 ∧
    (let p : KaoOpParams := ⟨0, 32, 0, 0, 1, 1, 256, 0x100, .ok (zeros 4096), 0x200⟩;
      p.op.toNat ≤ 1 ∧ 1 ≤ p.blocks.toNat ∧ p.blocks.toNat ≤ 256 ∧ p.srcAddr ≠ 0 ∧ p.dst ≠ 0 ∧ withHost.kao.pinned ≤ p.slot.toNat) ∧
    (31 : Byte).toNat < withHost.kao.pinned ∧ withHost.kslot 31 = none := by
  simp only [Fetching, Up, Operates, Defined]; decide +kernel

def job : KaoJob := ⟨{ kaoReq false with requester := 0, blocks := [1, 2] }, 31, 0, false, none, [], none⟩
def withJob : Dev := { alone with kao := { alone.kao with queue := [job] } }

/-- A host's request whose last block is in work. -/
def hostJob : KaoJob := { job with req := { job.req with requester := 17, blocks := [1] }, drawn := some 3, host := some (cmd, 0x200) }
def withHostJob : Dev := { withHost with kao := { withHost.kao with queue := [hostJob] } }

theorem test_KaoBlockResults_premises :
    hostJob.outputs.length + 1 = hostJob.req.blocks.length ∧ hostJob.host = some (cmd, 0x200) ∧
    Operates (st withHostJob) ∧ withHostJob.kaoNext = some hostJob ∧ withHostJob.laneUp 1 = true ∧
    withHostJob.kao.waitMode = [] ∧ withHostJob.kao.pinPend = none ∧ withHostJob.kao.locked = false ∧
    Operates (st withJob) ∧ withJob.kaoNext = some job ∧ withJob.laneUp 1 = true ∧
    job.outputs.length + 1 < job.req.blocks.length ∧ job.host = none ∧ withJob.kao.waitMode = [] ∧
    withJob.kao.pinPend = none ∧ withJob.kao.locked = false := by
  simp only [Fetching, Up, Operates, Defined]; decide +kernel

/-- The single-block product of FIPS 197, appendix B: the key and the block whose AES-128 the manual's Kaolin computes. -/
theorem test_kaoBlock_fips197 :
    ({ job with key := 0x2b7e151628aed2a6abf7158809cf4f3c } : KaoJob).block 0x3243f6a8885a308d313198a2e0370734 =
      0x3925841d02dc09fbdc118597196a0b32 := by decide +kernel

def kaoWait : KaoWait := (⟨0, false, 0, 7, 15, false, false, [0]⟩, none)
def waiting (d : Dev) : Dev :=
  let d := d.setFld Reg.hifStat_dev_state dsStandalone
  { d with kao := { d.kao with waitKey := [kaoWait] } }

theorem test_KaolinEnds_premises :
    let a := { alone with kao := { alone.kao with testing := [1] } }
    let b := { alone with kao := { alone.kao with modePend := some true } }
    let c := { alone with kao := { alone.kao with lock := some 17 } }
    let q := { b with kao := { b.kao with queue := [job] } }
    let w := { b with kao := { b.kao with waitKey := [kaoWait] } }
    let e := { alone with kao := { alone.kao with sinceTry := 1048576 } }
    Operates (st e) ∧ 1048576 ≤ e.kao.sinceTry ∧ alone.kao.sinceTry < 1048576 ∧
    (a.reachCycle (Sparse.get 0 a.kao.testEnd 1)).isSome ∧ (c.reachCycle (c.kao.lockFrom + 400 * c.kao.holdMax)).isSome ∧
    b.pinnedWritten = b.kao.pinned ∧ Operates (st q) ∧ q.kao.queue ≠ [] ∧ Operates (st w) ∧ w.kao.waitKey ≠ [] ∧
    Operates (st a) ∧ a.kao.testing.contains 1 = true ∧ Operates (st b) ∧ b.kao.queue = [] ∧ b.kao.waitKey = [] ∧
    b.kao.waitMode = [] ∧ b.kao.modePend = some true ∧ Operates (st c) ∧ c.kao.queue = [] ∧ c.kao.waitKey = [] ∧
    c.kao.waitMode = [] ∧ c.kao.lockQ = [] ∧ c.kao.lock = some 17 ∧ Operates (st (waiting dev0)) ∧
    (waiting dev0).kao.waitKey = [kaoWait] ∧ kaoWait.1.sidx = 7 ∧ kaoWait.1.keyidx = 15 ∧ kaoWait.2 = none ∧
    kaoWait.1.draw = false ∧ (waiting dev0).kao.waitMode = [] ∧ (waiting dev0).kao.locked = false ∧
    (waiting dev0).findKey 7 15 = none ∧ (waiting dev0).findRec 7 15 = none := by
  simp only [Fetching, Up, Operates, Defined]; decide +kernel

theorem test_KaolinEnds_loaded :
    (waiting withRecord).findRec 7 15 = some (1, keyRecord) ∧ keyRecord.unwrap = some 0 ∧
    (waiting withRecord).victim = some 32 ∧ (waiting withRecord).kslot 32 = none ∧ (waiting withRecord).findKey 7 15 = none ∧
    (waiting withRecord).firmwareUp = true := by
  refine ⟨rfl, ?_, by decide +kernel, by decide +kernel, by decide +kernel, by decide +kernel⟩
  have h := test_unwraps.1
  have f : fit 24 goodWrap = goodWrap.take 24 := by
    have k : deviceKey.length = 32 := by simp [deviceKey, be, le]
    have g := keyUnwrap_wrapFrom deviceKey wrapIv (zeros 8) (zeros 8) k rfl rfl rfl
    simp [fit, goodWrap, g.1]
  rw [f] at h
  show (keyUnwrap deviceKey (goodWrap.take 24)).map _ = _
  rw [h]; decide +kernel

/-! ## DRAM, the control pairs, the power state, firmware -/

theorem test_SwitchAndTrainCommands_premises :
    let a := withHost.setFld Reg.tskCcstat_stby 3
    let b := { withHost with tsk := { withHost.tsk with takeover := some 1 } }
    let c := { withHost with dmc := { withHost.dmc with run := some ⟨25, false, none, []⟩ } }
    a.fld Reg.tskCcstat_stby = 3 ∧ a.tsk.takeover = none ∧ a.fetches = true ∧ b.tsk.takeover ≠ none ∧
    c.dmc.run.isSome ∧ c.fetches = true ∧ withHost.fld Reg.tskCcstat_stby ≠ 3 ∧ withHost.dmc.run = none := by decide +kernel

theorem test_SwitchAndTrainCommands_alone :
    let b := { alone with tsk := { alone.tsk with takeover := some 1 } }
    b.tsk.takeover ≠ none ∧ b.firmwareUp = true := by decide +kernel

theorem test_PowerStateCommands_premises :
    let lean := withHost.setFld Reg.pwrState_state psLean
    let only := withHost.setBit Reg.pwrFltCause_lean_only true
    let three := ((withHost.setFld (Reg.rfStat_state 0) rsReady).setFld (Reg.rfStat_state 1) rsReady)
    let wake := withHost.setFld Reg.pwrWakecfg_en 1
    let busy := { withHost with pwr := { withHost.pwr with leanCmd := some cmd } }
    Fetching (st busy) ∧ busy.powerBusy = true ∧ three.powerBusy = false ∧ only.powerBusy = false ∧ wake.powerBusy = false ∧
    Fetching (st lean) ∧ lean.powerState = psLean ∧ lean.leanOnly = false ∧ lean.pwr.woken = [] ∧ lean.pwr.stalled = [] ∧
    lean.powerBusy = false ∧ Fetching (st only) ∧ only.leanOnly = true ∧ Fetching (st three) ∧ three.leanOk = false ∧
    three.powerState ≠ psLean ∧ withHost.powerState = psActive ∧ withHost.leanOnly = false ∧ withHost.powerBusy = false ∧
    Fetching (st wake) ∧ wake.sentinelOk = true ∧ three.sentinelOk = false ∧ 2 < (3 : Byte).toNat := by
  simp only [Fetching, Up, Operates, Defined]; decide +kernel

/-- Both ports in a 10G mode or slower: LEAN's conditions hold. -/
theorem test_PowerStateCommands_lean :
    let d := (withHost.setFld (Reg.ethCfg_mode 0) 3).setFld (Reg.ethCfg_mode 1) 4
    Fetching (st d) ∧ d.leanOk = true ∧ d.powerState ≠ psLean ∧ d.powerBusy = false := by
  simp only [Fetching, Up, Operates, Defined]; decide +kernel

/-- A signed image without stage or main part, and a container of one chunk that sends it whole. The signatures are those of
the private key 1 with the nonce 1, computed outside the model. -/
def imageHash : BitVec 256 := 0xd875db7def232236aec738c6b0bb3e80142f5d0fd8f4df24fed6eef5cbb50d9f
def emptyHash : List Byte := be 32 0xe3b0c44298fc1c149afbf4c8996fb92427ae41e4649b934ca495991b7852b855
def sigTail (s : Nat) : List Byte :=
  be 32 0x6b17d1f2e12c4247f8bce6e563a440f277037d812deb33a0f4a13945d898c296 ++ be 32 s
def pub : List Byte := be 32 gx256 ++ be 32 gy256
def image : List Byte :=
  zeros 32 ++ emptyHash ++ emptyHash ++ pub ++
    sigTail 0xdbc7f9ff5dd08a2a81bf0c288980e99d02adcf5cb8739871b70ee6ec208ea854 ++ zeros 32
def container : List Byte :=
  zeros 7 ++ [1] ++ zeros 40 ++ be 32 0x0de4ad74efcfea746698f5370ce2f4fbd4254e0df09858e4578238cee80ebf11 ++ be 4 256 ++
    zeros 4 ++ be 32 0x3937a7eb4e30c5b177e2b4d7e0b1203d34c934fd7588e68adc1a7a643ed8de1f ++ pub ++
    sigTail 0x6f54c0e0e9aa0f9a888f23aba1210fb56ae6b773abd977bd3d5c358267a45e8c
def keyed (d : Dev) : Dev := { d with boot := { d.boot with keyHash := imageHash } }
/-- The whole update of `container` is staged. -/
def updated : Dev :=
  { keyed withHost with boot := { (keyed withHost).boot with
    stageId := some (0, 1), marked := [0, 1], chunks := [(0, container), (1, [2, 1, 0] ++ image ++ [0])] } }

theorem test_image_accepted : updated.imageOk image = true := by decide +kernel
theorem test_header_accepted : updated.headerOk (updated.chunk 0) = true := by decide +kernel
theorem test_body : sha256 (updated.chunk 1) = slice (updated.chunk 0) 88 32 ∧ sha256 image = slice (updated.chunk 0) 48 32 := by
  decide +kernel
theorem applies (d : Dev) (img : List Byte) (h1 : d.headerOk (d.chunk 0) = true) (h2 : d.imageOk img = true)
    (h3 : sha256 (d.chunk 1) = slice (d.chunk 0) 88 32) (h4 : sha256 img = slice (d.chunk 0) 48 32)
    (h5 : d.boot.marked.length = 2) (h6 : slice (d.chunk 0) 16 32 = List.replicate 32 0)
    (h7 : img.length = beAt (d.chunk 0) 80 4)
    (h8 : runBody none ((d.chunk 1).length + 1) (d.chunk 1) [] = some img) : (d.applyResult false).1 = stOk := by
  unfold Dev.applyResult
  simp [h1, h2, h3, h4, h5, h6, h7, h8]

theorem test_container : updated.boot.marked.length = 2 ∧ slice (updated.chunk 0) 16 32 = List.replicate 32 0 ∧
    image.length = beAt (updated.chunk 0) 80 4 ∧
    runBody none ((updated.chunk 1).length + 1) (updated.chunk 1) [] = some image := by decide +kernel
theorem test_UpdateEnds_applies : (updated.applyResult false).1 = stOk :=
  applies updated image test_header_accepted test_image_accepted test_body.1 test_body.2 test_container.1 test_container.2.1
    test_container.2.2.1 test_container.2.2.2

def profileBytes : List Byte := [0x10, 0xA3, 0, 0, 16, 0, 0, 0, 1, 0, 0, 0, 0, 0, 0, 0]

def applyingDev : Dev := { withHost with boot := { withHost.boot with applying := some cmd } }
def appliedDev : Dev := { withHost.setFld Reg.tskCcstat_stby 3 with boot := { withHost.boot with applied := true } }
/-- The profile in force has another schema than the image. -/
def otherSchema : Dev := { appliedDev with boot := { appliedDev.boot with profile := some (9, 0) } }
def activates : Dev := { withHost with boot := { withHost.boot with activation := some ⟨cmd, 512, true, false⟩ } }
def stagedDev : Dev := { withHost with boot := { withHost.boot with stageId := some (5, 2) } }

theorem test_UpdateCommands_blocks :
    let len : BitVec 16 := 512
    let b := updated.chunk 0
    fit len.toNat b = b ∧ 248 ≤ len.toNat ∧ len.toNat ≤ 4096 ∧
    (0 : BitVec 32).toNat + len.toNat ≤ withHost.chunkLimit * 512 ∧ updated.boot.applying = none ∧ beAt b 6 2 < withHost.chunkLimit ∧
    len.toNat ≤ (beAt b 6 2 + 1) * 512 ∧ (512 : BitVec 32).toNat ≠ 0 ∧ withHost.headerStaged = false ∧
    withHost.boot.applying = none ∧ Fetching (st updated) ∧ Fetching (st stagedDev) ∧ stagedDev.boot.stageId = some (5, 2) ∧
    512 + len.toNat ≤ (2 + 1) * 512 ∧ stagedDev.boot.applying = none ∧ Fetching (st (keyed withHost)) ∧
    (keyed withHost).headerOk (zeros 512) = false := by
  simp only [Fetching, Up, Operates, Defined]; decide +kernel

theorem test_UpdateCommands_premises :
    Fetching (st applyingDev) ∧ applyingDev.boot.applying ≠ none ∧ updated.staged = true ∧ updated.boot.activation = none ∧
    withHost.staged = false ∧ Fetching (st appliedDev) ∧ appliedDev.boot.applied = true ∧ appliedDev.boot.activation = none ∧
    appliedDev.boot.applying = none ∧ appliedDev.fld Reg.tskCcstat_stby = 3 ∧ appliedDev.boot.profile = none ∧
    Fetching (st otherSchema) ∧ otherSchema.boot.profile = some (9, 0) ∧
    (9 : Half).toNat ≠ imgSchema (otherSchema.bank (!otherSchema.boot.activeB)) ∧ withHost.boot.activation = none ∧
    withHost.boot.applied = false ∧ Fetching (st activates) ∧ activates.boot.activation ≠ none := by
  simp only [Fetching, Up, Operates, Defined]; decide +kernel

theorem test_UpdateCommands_profiles :
    let p0 := { withHost with boot := { withHost.boot with prof0 := profileBytes } }
    let p1 := { p0 with boot := { p0.boot with prof1 := patch profileBytes 8 [2] } }
    (bufOf profileBytes).len.toNat ≤ 65536 ∧ (bufOf profileBytes).len ≠ 0 ∧ profileOk (fit 16 profileBytes) = true ∧
    Fetching (st p0) ∧ profileOk p0.boot.prof0 = true ∧ profileOk p0.boot.prof1 = false ∧ profileOk withHost.boot.prof0 = false ∧
    Fetching (st p1) ∧ profileOk p1.boot.prof1 = true ∧ profGenOf p1.boot.prof0 < profGenOf p1.boot.prof1 ∧
    profileOk (fit 16 (zeros 16)) = false := by
  simp only [Fetching, Up, Operates, Defined]; decide +kernel

/-- A chunk of update 5, of which 2 is the last. -/
def chunkBody (i : Byte) : List Byte := [0, 0, 0, 5, 0, i, 0, 2] ++ zeros 512
def receiving : Dev := { withHost with boot := { withHost.boot with keyHash := 0, stageId := some (5, 2), marked := [1] } }

theorem test_ChunkResult_premises :
    Operates (st withHost) ∧ (slice (chunkBody 3) 8 512).length = 512 ∧ beAt (chunkBody 3) 6 2 < beAt (chunkBody 3) 4 2 ∧
    beAt (chunkBody 2) 4 2 ≤ beAt (chunkBody 2) 6 2 ∧ beAt (chunkBody 2) 6 2 < withHost.chunkLimit ∧
    withHost.boot.stageId = none ∧ withHost.boot.applying = none ∧ Operates (st receiving) ∧
    receiving.boot.stageId = some (BitVec.ofNat 32 (beAt (chunkBody 1) 0 4), beAt (chunkBody 1) 6 2) ∧
    receiving.boot.marked.contains (beAt (chunkBody 1) 4 2) = true ∧
    receiving.boot.marked.contains (beAt (chunkBody 2) 4 2) = false ∧
    receiving.headerOk (slice (chunkBody 0) 8 512) = false ∧
    (5, 2) ≠ (BitVec.ofNat 32 (beAt ([0, 0, 0, 6, 0, 1, 0, 2] : List Byte) 0 4), 2) := by
  simp only [Fetching, Up, Operates, Defined]; decide +kernel

theorem test_UpdateEnds_premises :
    let a := { updated with boot := { updated.boot with applying := some cmd } }
    let b := { withHost with boot := { withHost.boot with activation := some ⟨cmd, 0, true, true⟩ } }.setTai 1000000000
    Operates (st a) ∧ a.boot.applying = some cmd ∧ a.devState = dsHosted ∧ Operates (st b) ∧
    b.boot.activation = some ⟨cmd, 0, true, true⟩ ∧ b.tickTai 0 + 1000 * 110000 ≤ b.tai ∧ b.boot.hold = [] ∧ b.tsk.waiting = [] ∧
    (receiving.applyResult true).1 ≠ stOk := by
  simp only [Fetching, Up, Operates, Defined]; decide +kernel

theorem test_ControlPairs_premises :
    let a := withHost.setFld Reg.tskCcstat_stby 3
    let b := { withHost with tsk := { withHost.tsk with takeover := some 2 } }
    let c := { withHost with tsk := { withHost.tsk with testing := true } }
    let e := { withHost with tsk := { withHost.tsk with journal := List.replicate 2048 cmd } }
    Operates (st a) ∧ a.boot.activation = none ∧ a.fld Reg.tskCcstat_stby = 3 ∧ a.tsk.takeover = none ∧ Operates (st b) ∧
    b.tsk.takeover = some 2 ∧ b.tsk.ccSwitch = none ∧ Operates (st c) ∧ c.tsk.testing = true ∧ Operates (st e) ∧
    e.tsk.takeover = none ∧ 2048 ≤ e.journalLength := by
  simp only [Fetching, Up, Operates, Defined]; decide +kernel

/-! ## Register accesses -/

theorem test_RegisterWriteResult_premises :
    (dev0.obs.tapUndef = false ∧ (2 : Nat) ≠ 4 ∧ (0x41002 : BitVec 24).toNat % 4 ≠ 0 ∧ regDesc (0x000FFC : BitVec 24).toNat = none) ∧
    (0x100004 : BitVec 24).toNat % 4 = 0 ∧ (regDesc Reg.schRacfg).isSome ∧ dev0.bar0 Reg.schRacfg = true ∧
    Reg.schRacfg % 4 = 0 ∧ ¬ actingAddr Reg.schRacfg := by
  unfold actingAddr; decide +kernel

theorem test_ReadEffects_premises :
    dev0.bar0 Reg.timNowNs = true ∧ dev0.bar0 (Reg.counterLow (2047 : BitVec 11).toNat) = true ∧
    dev0.bar0 (Reg.snapshotLow (2047 : BitVec 11).toNat) = true ∧ dev0.bar0 Reg.tskLevel = true ∧ dev0.bar0 Reg.clkTj = true ∧
    (3 : BitVec 2) ≠ 0 ∧ (2 : Nat) ≠ 4 ∧ dev0.siltUp = true ∧ (Reg.pwrAonStatus - 0x10000) < 0x100 ∧ (Reg.pwrAonStatus - 0x10000) % 4 = 0 ∧
    (regDesc Reg.pwrAonStatus).map (·.wo) = some 0 := by decide +kernel

theorem test_ActingWrites_premises :
    let traced := (inForce dev0 Reg.obsTraceCfg_en 1).setReg Reg.obsTraceTypes 0x7F
    let busy := dev0.setBit Reg.ethMdio_busy true
    let locked := dev0.setFld Reg.hifStat_dev_state dsFaultLock
    let up := (dev0.setBit (Reg.ethStat_link 1) true).setFld (Reg.ethStat_rate 1) 3
    dev0.bar0 Reg.obsSnapCtl = true ∧ (0x80000001 : Word).getLsbD 31 = true ∧ (1 : Word).getLsbD 31 = false ∧
    dev0.bar0 Reg.obsTraceMark = true ∧ dev0.cfgBit Reg.obsTraceCfg_en = false ∧ traced.bar0 Reg.obsTraceMark = true ∧
    traced.cfgBit Reg.obsTraceCfg_en = true ∧ (traced.reg Reg.obsTraceTypes).getLsbD 6 = true ∧ traced.obs.traceLost = 0 ∧
    traced.traceLevel + (traceMsg 6 traced.tim.elapsed (le 4 (5 : Word).toNat)).length ≤ 8128 ∧
    dev0.bar0 (Reg.tshGclCfg 1) = true ∧ (0x40000000 : Word).getLsbD 30 = true ∧ dev0.bar0 Reg.ethMdio = true ∧
    dev0.bit Reg.ethMdio_busy = false ∧ busy.bit Reg.ethMdio_busy = true ∧ busy.bar0 Reg.ethMdio = true ∧
    dev0.siltUp = true ∧ locked.siltUp = true ∧ locked.devState = dsFaultLock ∧ (0xFFFF0A55 : Word).toNat % 65536 = 0x0A55 ∧
    dev0.bar0 Reg.timSlotOffset = true ∧ dev0.bar0 (Reg.ethCfg 1) = true ∧ up.bar0 (Reg.ethCfg 1) = true ∧
    up.linkUp 1 = true ∧ dev0.linkUp 1 = false ∧
    (up.setReg (Reg.ethCfg 1) ((0x20000 : Word) &&& 0x00073FFF)).fld (Reg.ethCfg_mode 1) ≠ up.fld (Reg.ethCfg_mode 1) := by
  decide +kernel

theorem test_ActingWrites_kaolin :
    let a := { dev0 with kao := { dev0.kao with queue := [job] } }
    let b := { dev0 with kao := { dev0.kao with waitKey := [kaoWait] } }
    b.bar0 Reg.kaoCfg = true ∧ (0x80000020 : Word).getLsbD 31 ≠ b.kao.locked ∧ b.kao.waitKey ≠ [] ∧
    (0x80000020 : Word).getLsbD 31 ≠ dev0.kao.locked ∧ dev0.kao.queue = [] ∧ dev0.kao.waitKey = [] ∧
    dev0.bar0 Reg.kaoCfg = true ∧ min 128 ((32 : Word).toNat % 256) = dev0.kao.pinned ∧
    (32 : Word).getLsbD 31 = dev0.kao.locked ∧ dev0.kao.waitMode = [] ∧ a.bar0 Reg.kaoCfg = true ∧
    min 128 ((0x80000020 : Word).toNat % 256) = a.kao.pinned ∧ (0x80000020 : Word).getLsbD 31 ≠ a.kao.locked ∧ a.kao.queue ≠ [] ∧
    dev0.siltUp = true ∧ (Reg.pwrWakecfg - 0x10000) < 0x100 ∧ (Reg.pwrWakecfg - 0x10000) % 4 = 0 ∧
    (regDesc Reg.pwrWakecfg).isSome ∧ ¬ actingAddr Reg.pwrWakecfg := by
  unfold actingAddr; decide +kernel

theorem test_HostAndRings_premises :
    let a := ((alone.setReg Reg.hifDbBaseLo 0x1000).setBit (Reg.hifRingCfg_en 0) true).setBit (Reg.hifRingCfg_en 1) true
    let go := { keyed dev0 with regs := ((keyed dev0).setFld Reg.bootStat_strap 4).regs }
    a.obs.tapUndef = false ∧ a.bar0 Reg.hifCtrl = true ∧ a.devState = dsStandalone ∧ a.reg Reg.hifDbBaseLo ≠ 0 ∧
    a.ringEn 0 = true ∧ a.ringEn 1 = true ∧ withHost.bar0 Reg.hifCtrl = true ∧ (1 : Word).getLsbD 0 = true ∧
    (2 : Word).getLsbD 0 = false ∧ withHost.devState = dsHosted ∧ withHost.mainUp = true ∧ ringExists 47 = true ∧
    dev0.bar0 (Reg.hifRingCfg 47) = true ∧ (dev0.reg (Reg.hifRingCfg 47)).getLsbD 31 = false ∧
    (0x80000000 : Word).getLsbD 31 = true ∧ ringExists 2 = true ∧ withHost.bar0 (Reg.hifRingCfg 2) = true ∧
    (withHost.reg (Reg.hifRingCfg 2)).getLsbD 31 = true ∧ go.mainUp = true ∧ go.devState = dsBoot ∧
    go.fld Reg.bootStat_strap = 4 ∧ go.imageOk (zeros 256) = false ∧ go.obs.tapUndef = false := by decide +kernel

theorem test_HostAndRings_image : (keyed (dev0.setFld Reg.bootStat_strap 4)).imageOk image = true := test_image_accepted

/-! ## The slot and reception -/

theorem test_reset_up : Up (st dev0) ∧ Operates (st alone) := by
  simp only [Up, Operates, Defined]; decide +kernel

def sch (d : Dev) (f : Sch → Sch) : Dev := { d with sch := f d.sch }
def tim (d : Dev) (f : Tim → Tim) : Dev := { d with tim := f d.tim }

theorem test_SlotAndTgStart_premises :
    let a := sch dev0 fun x => { x with copying := true }
    let b := sch dev0 fun x => { x with copying := true, held := [(cmd, 0, 0, 1, rowBuf)] }
    let c := tim dev0 fun x => { x with tgBegun := true }
    let r := ((sch (rfIn rsReady dev0) fun x => { x with active := [(1025, row 1 511)] }).modRadio 2 fun x => { x with
      entries := [(511, some ⟨0, 0, 0, 0⟩)] })
    let r := { r with chans := [(511, some chanCfg)] }
    Up (st a) ∧ a.sch.copying = true ∧ a.sch.held = [] ∧ dev0.sch.copying = false ∧ Up (st b) ∧
    b.sch.held = [(cmd, 0, 0, 1, rowBuf)] ∧ Up (st c) ∧ c.tim.tgBegun = true ∧ Up (st r) ∧ r.tim.tgBegun = false ∧
    r.tim.step = none ∧ r.tim.offStep = none ∧ r.nextS = r.tim.slotS + 1 ∧
    r.tickTai (r.tim.slotS + 1) ≤ 281474976710656 * 1000000000 ∧ r.rfReadyRun 2 = true ∧
    (r.radio 2).tempRun = none ∧ (r.radio 2).onAir = [] ∧ r.entryValid 2 511 = true ∧ r.rowContinues 2 (r.tim.slotS + 1) = false ∧ r.rowChan 2 (r.tim.slotS + 1) = some 511 ∧
    r.chan 511 = some chanCfg ∧ (r.radio 2).chan ≠ some 511 := by
  simp only [Up, Defined]; decide +kernel

theorem test_TickEffects_premises :
    let a := dev0.raise Reg.schCommit_pending
    let b := sch a fun x => { x with target := 1 }
    let c := sch dev0 fun x => { x with raA := 1, raK := 16 }
    let w := dev0.setFld Reg.pwrVin_mv 65535
    a.bit Reg.schCommit_pending = true ∧ a.sch.target ≤ a.tim.slotS / 512 ∧ b.bit Reg.schCommit_pending = true ∧
    b.tim.slotS / 512 < b.sch.target ∧ c.sf % 4 = 0 ∧ c.sch.raA ≠ 0 ∧ c.boMin ≤ c.fld Reg.schStat_bo ∧
    c.fld Reg.schStat_bo < c.boMax ∧ c.cfgFld Reg.schRacfg_ra_hi * c.sch.raA ≤ 16 * c.sch.raK ∧
    50 * dev0.cfgFld Reg.pwrVincfg_warn_v ≤ 65535 ∧ 0 < 50 * w.cfgFld Reg.pwrVincfg_warn_v ∧
    50 * w.cfgFld Reg.pwrVincfg_warn_v ≤ w.fld Reg.pwrVin_mv := by decide +kernel

/-- Radio 2 in READY, receiving in the slot that runs. -/
def rx2 (f : Radio → Radio) : Dev :=
  ({ rfIn rsReady dev0 with chans := [(0, some chanCfg)] } : Dev).modRadio 2 fun x => f { x with rxS := some 0, agc := .preset }

theorem test_Acquisition_premises :
    let a := sch (rfIn rsRunning dev0) fun x => { x with active := [(1025, row 1 511)] }
    let g := fun x : Radio => { x with agc := .frozen, pfrz := -6000 }
    let f := (rx2 g).setBit (Reg.bbpCapcfg_cap_en 2) true
    let k := rx2 fun x => { x with stuck := true, stuckRun := 3 }
    Up (st a) ∧ a.willRun 2 a.nextS = true ∧ a.rxRow (a.rowCarried 2 a.nextS) a.nextS = true ∧ (a.radio 2).cells = [] ∧
    a.granted 2 true = true ∧ (a.radio 2).missRun < 3 ∧ Up (st (rx2 id)) ∧ (rx2 id).receives 2 = true ∧
    ((rx2 id).radio 2).released = false ∧ ((rx2 id).radio 2).agc = .preset ∧ ((rx2 id).radio 2).rxCont = false ∧ Up (st f) ∧
    f.receives 2 = true ∧ (f.radio 2).released = false ∧ (f.radio 2).agc = .frozen ∧ (f.radio 2).rxCont = false ∧
    f.capEn 2 = true ∧ riseReaches rise0 ((f.radio 2).pfrz + f.riseDb 2) = true ∧ riseIn rise0 (f.rowSpan 2) = true ∧
    (f.radio 2).pfrz + f.captureDb 2 ≤ rise0.level ∧ { rise0 with level := -6000 }.level < (f.radio 2).pfrz + f.captureDb 2 ∧
    riseReaches { rise0 with block1 := -6000 } ((f.radio 2).pfrz + f.riseDb 2) = false ∧
    riseAbove { rise0 with block0 := 10000, block1 := 10000 } (((rx2 id).radio 2).wbNoise + (rx2 id).riseDb 2) = true ∧
    riseAbove { rise0 with block0 := 10000 } (((rx2 id).radio 2).wbNoise + (rx2 id).riseDb 2) = false ∧
    riseIn rise0 ((rx2 id).rowSpan 2) = true ∧ Up (st k) ∧ k.receives 2 = true ∧
    (k.radio 2).rxS = some k.tim.slotS ∧ (k.radio 2).stuck = true ∧ 3 ≤ (k.radio 2).stuckRun ∧
    ((rx2 fun x => { x with stuck := true }).radio 2).stuckRun < 3 := by
  simp only [Up, Defined]; decide +kernel

/-- The one granted uplink of sensor 7 on subchannel 0, with quiet floors there. -/
def cell (st : CellState) : Cell := { newCell .uplink (some 7) none 0 0 1 1 0 0 with state := st }
def oneCell (st : CellState) : Dev :=
  rx2 fun x => { x with cells := [cell st], floors := (List.range 96).map fun i => (i, some ⟨-13000, 65535, []⟩) }
def sigOf (hi : Nat) : BitVec 24 := BitVec.ofNat 24 (hi * 256 + sigCrcOf hi)
/-- The half-window of a SYNC on subchannel 0 of mode 0 alone, on time: the 64 samples of Table 2.3's content at 1.024 MS/s,
computed outside the model, with an amplitude of 256 for each subcarrier at nominal amplitude. -/
def syncHalf : Samples := [[
  (1086, -724), (-1171, -710), (-88, 1345), (1119, -519), (-840, -618), (-121, 797), (543, -153), (-192, -309), (-212, 150),
  (168, 189), (110, -243), (-253, 65), (226, 106), (-139, -223), (-21, 303), (246, -242), (-362, 0), (246, 242),
  (-21, -303), (-139, 223), (226, -106), (-253, -65), (110, 243), (168, -189), (-212, -150), (-192, 309), (543, 153),
  (-121, -797), (-840, 618), (1119, 519), (-88, -1345), (-1171, 710), (1086, 724), (261, -1161), (-1093, 58), (292, 1059),
  (1052, -618), (-1093, -865), (-308, 1503), (1492, -531), (-1236, -874), (111, 1333), (679, -878), (-895, 337),
  (1010, 106), (-958, -815), (178, 1524), (1134, -1315), (-1810, 0), (1134, 1315), (178, -1524), (-958, 815), (1010, -106),
  (-895, -337), (679, 878), (111, -1333), (-1236, 874), (1492, 531), (-308, -1503), (-1093, 865), (1052, 618), (292, -1059),
  (-1093, -58), (261, 1161)]]
/-- A SIG cell whose decoder has answered `sig`. -/
def sigCell (sig : BitVec 24) : Dev := rx2 fun x => { x with cells := [{ cell .acq with sig := sig }] }

theorem test_SyncAndVerdicts_premises :
    let s := oneCell .idle
    Up (st s) ∧ (s.radio 2).cells = [cell .idle] ∧ (cell .idle).kind = .uplink ∧ (cell .idle).link = none ∧
    s.receives 2 = true ∧ (cell .idle).firstS = s.rxSlot 2 ∧ s.airChan (s.rowCarried 2 (s.rxSlot 2)) = (cell .idle).chan ∧
    s.chan (cell .idle).chan = some chanCfg ∧ (cell .idle).subch < modeSubch chanCfg.mode ∧
    (sigCell (sigOf 2)).receives 2 = true ∧ (sigCell (sigOf 2)).vit.jobs = [] ∧ sigPasses (sigOf 2) = true ∧
    sigAgrees { cell .acq with sig := sigOf 2 } (sigOf 2) = true ∧ sigPasses (sigOf 2 ^^^ 1) = false ∧
    (oneCell .data).rfReadyRun 2 = true ∧ (cell .data).judged = false ∧ (cell .data).stripe = 1 ∧
    (cell .data).firstS + (cell .data).train = (oneCell .data).rxSlot 2 + 1 := by
  simp only [Up, Defined]; decide +kernel

/-- What the SYNC evaluation makes of `syncHalf` on the six subchannels: only on subchannel 0 it has the form and the level of a
SYNC, and it is on time. -/
def syncOf (k : Nat) : SyncEval := syncEvalOf 0 (compensate [0] syncHalf) 0 k
theorem syncHalf_evals : (List.range 6).map (fun k => (rhoPass 0 k (syncOf k).bins 80, (syncOf k).level, roundE (syncOf k).ePs)) =
    [(true, -10914, 0), (false, -18780, 0), (true, -19195, -31250000), (false, -18697, -31250000), (false, -18739, -31250000),
      (false, -19017, 0)] := by decide +kernel

/-- With quiet floors on the radio, it passes on subchannel 0 alone. -/
theorem syncHalf_passes (d : Dev) (h : d.chan 0 = some chanCfg) (t : d.cfgFld (Reg.bbpDetcfg_sync_thr 2) = 80)
    (f : (List.range 6).map (fun k => d.evenNoise 2 0 k 0 + 50 * (d.cfgFld (Reg.bbpDetcfg_cell_min 2) : Cdb)) = List.replicate 6 (-12600)) :
    (List.range 6).map (fun k => d.syncPass 2 0 (syncOf k)) = [true, false, false, false, false, false] := by
  have e := syncHalf_evals
  simp only [show List.range 6 = [0, 1, 2, 3, 4, 5] from rfl, List.map_cons, List.map_nil, List.replicate, List.cons.injEq,
    Prod.mk.injEq, and_true] at e f ⊢
  have n (k : Nat) : (syncOf k).subch = k := rfl
  simp [Dev.syncPass, h, t, n, e, f, chanCfg, modeSubch, modeBlocks]

theorem test_SyncAndVerdicts_sync :
    let s := oneCell .idle
    let x := compensate ((s.radio 2).gain :: (s.radio 2).gainHist) syncHalf
    let v (k : Nat) := syncEvalOf 0 x ((s.radio 2).coarse.getD 0) k
    (roundE ((v 0).ePs - s.extDelayRx 2)).natAbs ≤ 15625000 ∧
      (List.range 6).map (fun k => s.syncPass 2 0 (v k)) = [true, false, false, false, false, false] := by
  have x : (fun k => syncEvalOf 0 (compensate (((oneCell .idle).radio 2).gain :: ((oneCell .idle).radio 2).gainHist) syncHalf)
    (((oneCell .idle).radio 2).coarse.getD 0) k) = syncOf := rfl
  have z : (oneCell .idle).extDelayRx 2 = 0 := by decide +kernel
  have e := syncHalf_evals
  simp only [show List.range 6 = [0, 1, 2, 3, 4, 5] from rfl, List.map_cons, List.cons.injEq, Prod.mk.injEq] at e
  refine ⟨?_, syncHalf_passes (oneCell .idle) (by decide +kernel) (by decide +kernel) (by decide +kernel)⟩
  simp only [x, z, Int.sub_zero, e.1.2.2]; decide

def part : TxPart := { what := .head 7, subch := 0, train := 1, stripe := 1, member := 0, sig := 0, mpdu := zeros 18, codes := [], coded := [], firstS := 0, ack := none }
def downlink : Downlink :=
  { origin := .device, ftype := 2, addr := 5, sidx := 7, aport := 0, sec := false, keyidx := 0, chan := 0, tag := 0, payload := [],
    seq := 0, mpdu := zeros 18, repeats := 0, noFit := 0, sent := true, enterS := 0, enterSf := 0, ver := none }
def awaiting : Dev :=
  (sch (rx2 fun x => { x with chan := some 0, await := [part], floors := (List.range 96).map fun i => (i, some ⟨-13000, 65535, []⟩) })
    fun x => { x with sensors := [(7, { emptySensor with queue := [downlink] })] })
def rx (owner link : Option Nat) : Rx :=
  { radio := 2, chan := 0, subch := 0, firstS := -1, sidx := owner, link := link, sig := sigOf 2, mpdu := zeros 14, e := 0, cfo := 0,
    level := 0, clipped := false, lmStale := false, recovery := false, members := 1, crcOk := false, accepted := owner.isNone,
    uldef := false, mem := [], cell0 := (0, 0), stage := 2 }

theorem test_ReceptionEnds_premises :
    let s := awaiting
    let d := { dev0 with decodeQ := [rx none none] }
    let e := { d with boot := { d.boot with paused := true } }
    let f := { dev0 with decodeQ := [rx (some 7) none] }
    Up (st (oneCell .acq)) ∧ (oneCell .acq).windowTaken 2 ⟨2, 0, 9, false, false, quietWindow⟩ = true ∧
    (oneCell .acq).windowTaken 2 ⟨2, 31250000, 9, false, false, quietWindow⟩ = false ∧ Up (st s) ∧ s.rfReadyRun 2 = true ∧ (s.radio 2).await = [part] ∧
    (∀ q, q ≠ 2 → (s.radio q).await = []) ∧ part.ack = none ∧ part.firstS + part.train - 1 = s.tim.slotS ∧
    part.what = .head 7 ∧ (s.sensor 7).queue = [downlink] ∧ downlink.mpdu = part.mpdu ∧ downlink.ftype ≠ tJoinRsp ∧
    downlink.addr ≠ bcastAddr ∧ downlink.sent = true ∧ downlink.sidx = 7 ∧ downlink.origin = .device ∧ part.member < 96 ∧
    s.chan (((s.radio 2).chan).getD 0) = some chanCfg ∧
    downlink.repeats + 1 ≤ s.retryMax ∧ Up (st d) ∧ 1 ≤ (rx none none).stage ∧ (rx none none).accepted = true ∧ d.boot.paused = false ∧ Up (st e) ∧ e.boot.paused = true ∧ Up (st f) ∧
    (rx (some 7) none).accepted = false := by
  simp only [Up, Defined]; decide +kernel

/-- The ACK symbol of ACK with no correction: C is +1 on every used subcarrier, so that a window of it taken half-way through
the prefix is an impulse at its sample 16. -/
def ackWindow : Samples := [List.replicate 16 (0, 0) ++ [(32767, 0)] ++ List.replicate 111 (0, 0)]

/-- A window without a signal has empty bins. -/
theorem quiet_bins (gains : List Int) : windowBin 0 (compensate gains quietWindow) = fun _ => (0, 0) := by
  funext k
  have c : compensate gains quietWindow = List.replicate 128 (0, 0) := by
    simp [compensate, quietWindow, cscale]
  have z : ∀ (l : List (Nat × Cplx)) (a : Nat), (∀ p ∈ l, p.2 = (0, 0)) →
      csum (l.map fun p => cmul p.2 (cis (-(k * ((p.1 : Int) + -16))) 128)) = (0, 0) := by
    intro l a h
    induction l with
    | nil => rfl
    | cons p t ih =>
      have e := h p (by simp)
      simp only [csum, List.map_cons, List.foldl_cons, e, cmul, cadd] at ih ⊢
      simpa using ih fun q hq => h q (by simp [hq])
  rw [windowBin, c]
  show cshift (csum _) = _
  rw [show (-(prefixSamples 0 / 2 : Nat) : Int) = -16 from rfl, show fftSize 0 = 128 from rfl, z _ 0 ?_]
  · rfl
  · intro p hp; exact List.eq_of_mem_replicate (List.of_mem_zip hp).2

theorem test_ReceptionEnds_missing :
    let s := awaiting
    let y := (subchK 0 part.subch).map (windowBin 0 (compensate ((s.radio 2).gain :: (s.radio 2).gainHist) quietWindow))
    let energy := ofLin (y.foldl (fun a z => a + binPower (fftSize 0) z) 0 / y.length)
    ackPresent (ackSoft y) (ackDecode (ackSoft y)) energy
      (s.noiseOf 2 (((s.radio 2).chan).getD 0) part.subch + 100 * s.cfgFld (Reg.bbpRxcfg_ack_det 2)) = false := by
  simp only [quiet_bins]; decide +kernel

theorem test_ReceptionEnds_present :
    let s := awaiting
    let y := (subchK 0 part.subch).map (windowBin 0 (compensate ((s.radio 2).gain :: (s.radio 2).gainHist) ackWindow))
    let energy := ofLin (y.foldl (fun a z => a + binPower (fftSize 0) z) 0 / y.length)
    ackPresent (ackSoft y) (ackDecode (ackSoft y)) energy
      (s.noiseOf 2 (((s.radio 2).chan).getD 0) part.subch + 100 * s.cfgFld (Reg.bbpRxcfg_ack_det 2)) = true ∧
    ackCode (ackDecode (ackSoft y)) = 0 := by
  have q : (subchK 0 part.subch).map (windowBin 0 (compensate ((awaiting.radio 2).gain :: (awaiting.radio 2).gainHist)
      ackWindow)) = List.replicate 17 (32767000000, 0) := by decide +kernel
  simp only [q]; decide +kernel

theorem test_ReceptionEnds_ackrx :
    let a := sch (rfIn rsRunning dev0) fun x => { x with active := [(1024, row 2 0)] }
    let b := a.drive 2 true false
    Up (st a) ∧ a.rfReadyRun 2 = true ∧ (a.rowCarried 2 a.tim.slotS).type = rowDown ∧ a.paEn 2 = false ∧ b.paEn 2 = true ∧
    b.rfReadyRun 2 = true ∧ (b.rowCarried 2 b.tim.slotS).type = rowDown := by
  simp only [Up, Defined]; decide +kernel

theorem test_AgeTimeouts_premises :
    let late (d : Dev) := tim d fun x => { x with slotS := 512 * 70000 }
    let lm := sch dev0 fun x => { x with sensors := [(7, { emptySensor with lmWait := true })] }
    let dl (b : Bool) := sch dev0 fun x => { x with sensors := [(7, { emptySensor with queue := [{ downlink with sent := b }] })] }
    let wk (b : Bool) := sch dev0 fun x => { x with wakeQ := [⟨cmd, 0, 1, 0, none, b⟩] }
    Up (st (late lm)) ∧ ((late lm).sensor 7).lmWait = true ∧
    ((late lm).sensor 7).lmSince + (late lm).lmResend ≤ (late lm).tim.slotS / 512 ∧
    lm.tim.slotS / 512 < (lm.sensor 7).lmSince + lm.lmResend ∧ (7 : BitVec 20) ≠ 0xFFFFF ∧
    ((late (dl false)).sensor (7 : BitVec 20).toNat).queue = [{ downlink with sent := false }] ∧
    downlink.enterSf + (late (dl false)).ageMax ≤ (late (dl false)).tim.slotS / 512 ∧
    (dl false).tim.slotS / 512 < downlink.enterSf + (dl false).ageMax ∧
    (late (wk false)).sch.wakeQ = [⟨cmd, 0, 1, 0, none, false⟩] ∧
    (0 : Int) + (late (wk false)).ageMax ≤ (late (wk false)).tim.slotS / 512 ∧
    (wk false).tim.slotS / 512 < 0 + (wk false).ageMax := by
  simp only [Up, Defined]; decide +kernel

/-- An ACK symbol's burst, and the two members of a stripe on radios 1 and 2. -/
def burst : Burst := ⟨.ack, 0, 1, [], [(0, 0, 0)], [], none, 0⟩
def member (m : Nat) : Burst := ⟨.data, 0, 1, [{ part with stripe := 3, member := m }], [], [], none, 0⟩

theorem test_BurstsAndCalibration_premises :
    let en := inForce (rfIn rsReady dev0) (Reg.rfCoexcfg_en 2) 1
    let pl := en.modRadio 2 fun x => { x with planned := [burst] }
    let un := pl.modRadio 2 fun x => { x with planned := [⟨.wake, 0, 1, [], [], [], some 1, 0⟩] }
    let two := (pl.modRadio 2 fun x => { x with planned := [member 0] }).modRadio 1 fun x => { x with planned := [member 1] }
    let air := en.modRadio 2 fun x => { x with onAir := [burst], target := some 0 }
    Up (st pl) ∧ pl.cfgBit (Reg.rfCoexcfg_en 2) = true ∧ pl.rfReadyRun 2 = true ∧ (pl.radio 2).planned = [burst] ∧
    pl.portInhibited 2 burst.chan = false ∧ pl.checkGroup 2 = [2] ∧ burst.acks ≠ [] ∧
    pl.granted 2 (!pl.cfgBit (Reg.rfCoexcfg_gnt_pol 2)) = true ∧ pl.granted 2 (pl.cfgBit (Reg.rfCoexcfg_gnt_pol 2)) = false ∧
    (pl.radio 2).missRun < 3 ∧ burst.parts = [] ∧ burst.wake = none ∧ (pl.radio 2).onAir = [] ∧
    un.checkGroup 2 = [2] ∧ Up (st un) ∧ Up (st two) ∧ 1 ∈ two.checkGroup 2 ∧ (two.radio 1).checked = none ∧
    (two.radio 2).planned = [member 0] ∧ two.rfReadyRun 2 = true ∧ two.portInhibited 2 0 = false ∧ Up (st air) ∧
    (air.radio 2).onAir = [burst] ∧ (air.radio 2).target.isSome = true ∧ air.cfgBit (Reg.rfCoexcfg_en 2) = true := by
  simp only [Up, Defined]; decide +kernel

theorem test_BurstsAndCalibration_calibration :
    let run := (rfIn rsReady dev0).modRadio 2 fun x => { x with tempRun := some ⟨1, 25, 0, false, -1, 0⟩ }
    let sw (slot : Int) := tim ((rfIn rsCalibrating dev0).modRadio 2 fun x => { x with sweep := some ⟨none, [0, 511], [0], 25, 42⟩ })
      fun x => { x with slotS := slot }
    let bq := ({ rfIn rsReady dev0 with chans := [(0, some chanCfg)] } : Dev).modRadio 2 fun x => { x with buildQ := [0] }
    Up (st run) ∧ (run.radio 2).tempRun = some ⟨1, 25, 0, false, -1, 0⟩ ∧ run.tim.tgBegun = false ∧
    run.chunkPlace 2 ⟨1, 25, 0, false, -1, 0⟩ 0 = true ∧ run.chunkPlace 2 ⟨1, 25, 0, false, -1, 0⟩ 2500000000 = false ∧
    Up (st (sw 41)) ∧ ((sw 41).radio 2).sweep = some ⟨none, [0, 511], [0], 25, 42⟩ ∧ (sw 41).tim.slotS < 42 ∧ Up (st (sw 42)) ∧
    ((sw 42).radio 2).sweep = some ⟨none, [0, 511], [0], 25, 42⟩ ∧ 42 ≤ (sw 42).tim.slotS ∧ Up (st bq) ∧ bq.rfReadyRun 2 = true ∧
    (bq.radio 2).buildQ.contains 0 = true ∧ bq.chan 0 = some chanCfg ∧ bq.rowFree 2 (bq.tim.slotS - 1) = true ∧
    bq.rowFree 2 bq.tim.slotS = true := by
  simp only [Up, Defined]; decide +kernel

/-- Link 0 is the parent's, on channel 0 of mode 0, with its key in slot 0 under KEYIDX 3. -/
def linked (state : Nat) : Dev :=
  let d := { rfIn rsReady alone with chans := [(0, some chanCfg)] }
  let d := inForce (inForce (inForce d (Reg.mshLink_role 0) 1) (Reg.mshLink_en 0) 1) Reg.mshCfg_track_en 1
  let d := (d.setFld Reg.mshStat_state state).setKslot 0 (some ⟨5, false, 0, false, none, 0⟩)
  { d with kao := { d.kao with linkKidx := [(0, 3)] }, msh := { d.msh with searchRadio := 2 } }
/-- A LINKMAP and a link beacon of the parent 9, sealed for that link by `ccmSeal` with the nonce of R360. -/
def linkmapFrame : List Byte :=
  [0x72, 0x30, 0, 0, 0, 9, 0, 0, 0, 0x22, 0x20, 0, 0, 0, 0, 9, 0, 0, 0x42, 0xCA, 0x47, 0xB3, 0x31, 0xAA, 0x9F, 0x5F,
   0x9E, 0xA5, 0x90, 0xE3, 0x4F, 0x81, 0xCB, 0x18]
def beaconFrame : List Byte :=
  [0x72, 0x30, 0, 0, 0, 9, 0, 0, 0, 0x2A, 0, 0x0E, 0, 0, 0, 9, 0, 0, 0x52, 0xCA, 0x47, 0xB3, 0xA6, 0xB4, 0x36, 0x3D,
   0x9E, 0x31, 0x27, 0x60, 0x9C, 0x15, 0xCC, 0x34, 0x34, 0xF8, 0x9F, 0x8E, 0x2D, 2, 0xFA, 0xA1]
def meshRx (m : List Byte) : Rx := { rx none (some 0) with firstS := -2, mpdu := m }
def delivering (m : List Byte) : Dev := { linked 0 with msh := { (linked 0).msh with rxQ := [meshRx m] } }

theorem test_MeshDelivery_premises :
    let d := delivering linkmapFrame
    let e := delivering (zeros 40)
    let codes (plain : List Byte) : List (BitVec 4) := (List.range (d.chanSubch 0)).map fun k =>
      let x := beAt plain (1 + k / 2) 1
      BitVec.ofNat 4 (if k % 2 = 0 then x / 16 else x)
    Up (st d) ∧ d.msh.rxQ = [meshRx linkmapFrame] ∧ 2 ≤ (meshRx linkmapFrame).stage ∧ (meshRx linkmapFrame).link = some 0 ∧
    (d.openMladol 0 linkmapFrame).2 = some (0x10 :: zeros 3) ∧ beAt linkmapFrame 10 1 / 16 = mkLinkmap ∧
    0 < d.chanSubch 0 ∧ ((codes (0x10 :: zeros 3)).all fun c => decide (c.toNat < 12)) = true ∧
    (e.openMladol 0 (zeros 40)).2 = none := by
  simp only [Up, Defined]; decide +kernel

/-- A gateway in SEARCH with quiet floors, whose decoder bank holds a SIG job of subchannel 0, the coded bits of a single-slot
SIG (worked out by hand from R47), and the decoded and still scrambled bits of the beacon. -/
def searchSoft : List Int :=
  "01111001110000000001011010000111".toList.map fun c => if c = '1' then -15 else 15
def searching : Dev :=
  let d := (linked 3).modRadio 2 fun x => { x with floors := (List.range 96).map fun i => (i, some ⟨-13000, 65535, []⟩) }
  { d with vit := ⟨[0, 0, 0, 0], [⟨0, 2, 0, .sig searchSoft⟩],
    [⟨2, 0, 0, 1, { vitZero with out := scramble (scrambleSeed 0) (bytesBits beaconFrame) }, [], 10⟩]⟩ }
def searchCell : Cell :=
  { newCell .mesh none (some 0) 0 0 1 1 0 0 with state := .acq, e := 0, anchor := 0, level := -10914 }

theorem search_cells : searching.searchCells 2 0 0 0 syncHalf 0 = [searchCell] := by
  have p := syncHalf_passes searching (by decide +kernel) (by decide +kernel) (by decide +kernel)
  have e := syncHalf_evals
  have x : compensate [(searching.radio 2).gain] syncHalf = compensate [0] syncHalf := by rw [show (searching.radio 2).gain = 0 from by decide +kernel]
  have z : searching.extDelayRx 2 = 0 := by decide +kernel
  have t : searching.tim.slotS = 0 := by decide +kernel
  simp only [show List.range 6 = [0, 1, 2, 3, 4, 5] from rfl, List.map_cons, List.map_nil, List.cons.injEq, Prod.mk.injEq,
    syncOf] at e p
  simp [Dev.searchCells, x, z, t, show List.range (modeSubch 0) = [0, 1, 2, 3, 4, 5] from rfl, p, e, searchCell]

theorem one_cell (l : List Cell) (f : Cell → Option (List Byte)) (m : List Byte)
    (h : (match l with | [x] => f x == some m | _ => false) = true) : ∃ x, l = [x] ∧ f x = some m := by
  split at h
  · exact ⟨_, rfl, by simpa using h⟩
  · cases h

theorem search_decoded :
    let e := searching.searchRun 2 0 0 0 0 syncHalf [quietWindow]
    ∃ x, ((e.radio 2).cells.filter fun (y : Cell) => y.state == .data) = [x] ∧
      searchFrame (vitFinish (e.vit.recOf (e.rxKey 2 x) x.train).st) = some beaconFrame := by
  simp only [Dev.searchRun, search_cells]
  simp only [show (List.range 2).zip [quietWindow] = [(0, quietWindow)] from rfl,
    show ((List.range 12).zip [quietWindow]).drop 2 = [] from rfl, List.foldl_cons, List.foldl_nil, Nat.zero_add, Dev.searchWindow, quiet_bins]
  exact one_cell _ _ _ (by decide +kernel)

theorem test_MeshDelivery_search :
    let d := searching
    let m := beaconFrame
    Up (st d) ∧ d.searchChan 2 (d.rowCarried 2 d.tim.slotS) = some 0 ∧ (d.parentLink.map (·.1)) = some 0 ∧
    d.chan 0 = some chanCfg ∧ d.rfReadyRun 2 = true ∧ d.tracks = true ∧ (readHdr m).ftype = tMesh ∧
    beAt m 10 1 / 16 = mkLinkBeacon ∧ d.searchAccepts 0 m = true ∧ (d.openMladol 0 m).2.isSome ∧ d.forceWaits = false := by
  simp only [Up, Defined]; decide +kernel

/-! ## Work items and DRAM -/

def item (id : Nat) (state : ItemState) (work : Work) : Item :=
  { id := id, cls := 7, prio := 3, tag := some 5, pool := .shared, state := state, order := id, staged := false, since := 0,
    excluded := [], work := work }
def tsk (d : Dev) (f : Tsk → Tsk) : Dev := { d with tsk := f d.tsk }
def dmc (d : Dev) (f : Dmc → Dmc) : Dev := { d with dmc := f d.dmc }

theorem test_Workers_premises :
    let a := tsk alone fun x => { x with items := [item 0 .ready .timer] }
    let b := tsk alone fun x => { x with items := [item 1 (.running 15) .house] }
    let c := tsk alone fun x => { x with items := [item 0 (.running 3) .timer, item 1 (.running 15) .nothing] }
    let i : Item := { item 0 (.running 15) .timer with excluded := [3] }
    let e := inForce (tsk alone fun x => { x with items := [i] }) Reg.tskWdcfg_retire 1
    let f := inForce (tsk alone fun x => { x with items := [item 1 (.running 15) .house] }) Reg.tskWdcfg_retire 0
    let g := alone.setFld (Reg.tskWstat_state 15) 2
    let h := tsk alone fun x => { x with items := [{ item 1 (.running 15) .house with since := 2000000 }] }
    (e.reachCycle (i.since + e.watchdogCycles)).isSome ∧ (f.reachCycle (0 + f.watchdogCycles)).isSome ∧
    f.tsk.waiting = [] ∧ Operates (st h) ∧ (h.runningItem 15).map (·.since) = some 2000000 ∧
    h.reachCycle (2000000 + h.watchdogCycles) = none ∧
    Operates (st a) ∧ a.runningItem 15 = none ∧ a.fld (Reg.tskWstat_state 15) ≤ 1 ∧ alone.tsk.items = [] ∧
    (item 0 .ready .timer).runs 15 = true ∧ a.mayTake 15 = true ∧ Operates (st b) ∧ b.tsk.items = [item 1 (.running 15) .house] ∧
    Operates (st c) ∧ (3 : WorkerId) ≠ 15 ∧ (item 0 (.running 3) .timer).staged = false ∧ (item 0 (.running 3) .timer).order < (item 1 (.running 15) .nothing).order ∧
    (item 0 (.running 3) .timer).tag = (item 1 (.running 15) .nothing).tag ∧ Operates (st e) ∧
    e.cfgFld Reg.tskWdcfg_retire = 1 ∧ e.tsk.waiting = [] ∧ i.excluded = [3] ∧ Operates (st f) ∧
    f.cfgFld Reg.tskWdcfg_retire = 0 ∧ Operates (st g) ∧ g.fld (Reg.tskWstat_state 15) = 2 ∧ g.tsk.items = [] := by
  simp only [Operates, Defined]; decide +kernel

theorem test_Workers_delays :
    let a := tsk alone fun x => { x with items := [item 0 (.delayed 7 2) .timer] }
    let b := tsk alone fun x => { x with items := [item 0 (.delayed 7 1) .timer] }
    let c := tsk alone fun x => { x with items := List.replicate 4096 (item 0 .ready .timer) }
    (alone.poolFor .device).isSome ∧ c.poolFor .device = none ∧ Operates (st c) ∧ Operates (st a) ∧ a.tsk.dtick + 1 < 2 ∧
    (a.reachCycle (delayTickCycles * (a.tsk.dtick + 1))).isSome ∧ (b.reachCycle (delayTickCycles * (b.tsk.dtick + 1))).isSome ∧
    Operates (st b) ∧ 1 ≤ b.tsk.dtick + 1 ∧ b.tsk.waiting = [] := by
  simp only [Operates, Defined]; decide +kernel

def read : DramReq := ⟨1, .other, 7, false, false, 0x1FFFFFFF, true, 3, 3, 0x3FFFF, 0⟩
def merge : DramReq := { read with write := true }
def whole : DramReq := { merge with whole := true }
def reqs (l : List DramReq) : Dev := dmc dev0 fun x => { x with reqs := l }

theorem test_DramAccesses_premises :
    Up (st (reqs [read])) ∧ (reqs [read]).dmc.waiting = [] ∧ (reqs [read]).dmc.unissued = [] ∧
    (reqs [read]).dmc.inorder = [] ∧ (reqs [read]).dmc.recovery = none ∧ read.block.toNat ∉ (reqs [read]).dmc.poison ∧
    badWords (dev0.checkWords [[], []]).2 = [] ∧ fixedWords (dev0.checkWords [[], []]).2 = 0 ∧ read.use = .other ∧
    badWords (dev0.checkWords [[(true, 39), (false, 0)]]).2 ≠ [] ∧
    Up (st (reqs [merge])) ∧ merge.write = true ∧ merge.whole = false ∧ Up (st (reqs [whole])) ∧ whole.whole = true := by
  simp only [Up, Defined]; decide +kernel

theorem test_DramAccesses_scrub :
    let on := tim (inForce dev0 Reg.dmcScrubcfg_en 1) fun x => { x with cyc := 2000000 }
    let last := dmc on fun x => { x with scrubPos := on.areaBlocks - 1 }
    let off := tim (inForce dev0 Reg.dmcScrubcfg_en 0) fun x => { x with cyc := 2000000 }
    let late := dmc dev0 fun x => { x with scrubFrom := 2000000 }
    let go (d : Dev) : Dev := match d.reachCycle (d.dmc.scrubFrom + d.scrubCycles) with
      | some e => ({ e with dmc := { e.dmc with scrubFrom := d.dmc.scrubFrom + d.scrubCycles } } : Dev).applyBoundary .scrub
      | none => d
    Up (st late) ∧ late.reachCycle (late.dmc.scrubFrom + late.scrubCycles) = none ∧ Up (st off) ∧
    (off.reachCycle (off.dmc.scrubFrom + off.scrubCycles)).isSome ∧ (go off).cfgBit Reg.dmcScrubcfg_en = false ∧ Up (st on) ∧
    (on.reachCycle (on.dmc.scrubFrom + on.scrubCycles)).isSome ∧ (go on).cfgBit Reg.dmcScrubcfg_en = true ∧ on.dmc.reqs = [] ∧
    (0 : BitVec 29).toNat ∉ on.dmc.poison ∧ badWords ((go on).checkWords [[]]).2 = [] ∧
    fixedWords ((go on).checkWords [[]]).2 = 0 ∧ on.dmc.scrubPos + 1 < on.areaBlocks ∧ Up (st last) ∧
    (go last).cfgBit Reg.dmcScrubcfg_en = true ∧ last.areaBlocks ≤ last.dmc.scrubPos + 1 := by
  simp only [Up, Defined]; decide +kernel

theorem test_DramRecovery_premises :
    let full := dev0.setBit Reg.dmcCfg_conf true
    let compact := (reqs [read]).setBit Reg.dmcCfg_conf false
    let low (n : Nat) := dmc dev0 fun x => { x with recovery := some ⟨true, n, true, 0⟩ }
    let buf := dmc dev0 fun x => { x with retry1 := [whole] }
    let last := dmc buf fun x => { x with recovery := some ⟨true, 1, false, 1⟩ }
    Up (st full) ∧ full.fullConf = true ∧ full.dmc.recovery = none ∧ Up (st compact) ∧ compact.fullConf = false ∧
    compact.dmc.reqs = [read] ∧ compact.dmc.waiting = [] ∧ Up (st (low 3)) ∧ 3 ≤ 3 ∧ Up (st (low 2)) ∧ (2 : Nat) < 3 ∧
    Up (st buf) ∧ buf.retryBuf true = [whole] ∧ buf.dmc.unissued = [] ∧ buf.dmc.recovery = none ∧ Up (st last) ∧
    last.retryBuf true = [whole] ∧ last.dmc.recovery = some ⟨true, 1, false, 1⟩ := by
  simp only [Up, Defined]; decide +kernel

/-- A request of port 7 that was admitted at cycle 0, at a later cycle. -/
def waitsSince (cyc : Nat) : Dev := tim (reqs [read]) fun x => { x with cyc := cyc }

theorem test_DramUrgency_premises :
    let t := max 100 (dev0.fld (Reg.dmcPortcfg_target 7))
    let c (u : Nat) := urgencyCycles t u
    let late := dmc (reqs [read]) fun x => { x with admitted := [(read.id, 2000000)] }
    Up (st late) ∧ late.oldestReq 7 = some 2000000 ∧ late.reachCycle (2000000 + c 1) = none ∧
    Up (st (waitsSince (c 1))) ∧ (waitsSince (c 1)).oldestReq 7 = some 0 ∧ ((waitsSince (c 1)).reachCycle (0 + c 1)).isSome ∧
    4 * (5 * c 1) < 6 * t ∧ 6 * t ≤ 4 * (5 * c 2) ∧ 5 * c 2 < 2 * t ∧ 2 * t ≤ 5 * c 3 ∧
    ((waitsSince (c 2)).reachCycle (0 + c 1)).isSome ∧ ((waitsSince (c 3)).reachCycle (0 + c 1)).isSome := by
  simp only [Up, Defined]; decide +kernel

theorem test_DramRefresh_premises :
    let urgent := dmc dev0 fun x => { x with urgency := [(7, 3)], postponed1 := 3 }
    let most := dmc urgent fun x => { x with postponed1 := 4 }
    let done := dmc dev0 fun x => { x with run := some ⟨25, false, some ([1], [true]), []⟩ }
    let new := dmc dev0 fun x => { x with run := some ⟨25, false, none, []⟩ }
    let late := dmc dev0 fun x => { x with refFrom1 := 2000000 }
    let due (d : Dev) := (d.reachCycle (d.dmc.refFrom1 + d.refreshCycles)).isSome
    Up (st late) ∧ due late = false ∧ Up (st urgent) ∧ due urgent = true ∧ (∃ x ∈ urgent.dmc.urgency, x.2 = 3) ∧
    urgent.dmc.postponed1 < 4 ∧ Up (st most) ∧ due most = true ∧ 4 ≤ most.dmc.postponed1 ∧ most.dmc.run = none ∧
    (∀ x ∈ dev0.dmc.urgency, x.2 ≠ 3) ∧ Up (st done) ∧ due done = true ∧
    done.dmc.run = some ⟨25, false, some ([1], [true]), []⟩ ∧ done.dmc.recovery = none ∧ Up (st new) ∧
    new.dmc.run = some ⟨25, false, none, []⟩ ∧ (∀ x ∈ [(16 : Int), -16], x.natAbs ≤ 16) ∧
    (∃ x ∈ [(17 : Int)], 16 < x.natAbs) := by
  simp only [Up, Defined]; decide +kernel

/-! ## Rings, Ethernet -/

/-- HOSTED with every ring of the list enabled. -/
def rings (l : List Nat) : Dev := l.foldl (fun d i => d.setBit (Reg.hifRingCfg_en i) true) withHost

theorem test_RingEvents_premises :
    let a := rings [47]
    let p : PollRead := ⟨List.replicate 64 1, []⟩
    let v := (p.words.getD (doorbellWord 47) 0).toNat
    let b := (rings [31]).setRing 31 { emptyRing with host := 1 }
    let tx : List Byte := [1, 0, 0, 0, 0, 0, 0, 0, 60, 0, 0, 0] ++ zeros 20
    let dl : List Byte := [1, 0, 0, 0, 0, 0, 0, 0, 60, 0, 16, 0] ++ zeros 20
    a.hif.polls < a.pollsPerSlot ∧
    a.tickTai a.tim.slotS + (2500000 * a.hif.polls + a.pollsPerSlot - 1 : Nat) / a.pollsPerSlot ≤ a.tai ∧
    Up (st a) ∧ a.devState = dsHosted ∧ a.hif.attachDue = false ∧ ringExists 47 = true ∧ a.ringLive 47 = true ∧
    (a.ring 47).host ≤ v ∧ v ≤ a.ringLimit 47 ∧ a.ringLimit 47 < 2 ^ 63 ∧
    v < (((rings [47]).setRing 47 { emptyRing with host := 2, back := [0] }).ring 47).host ∧ Up (st b) ∧
    b.hif.fetchStop = false ∧ b.ringLive (16 + (15 : Fin 16).val) = true ∧ (b.ring 31).dev < (b.ring 31).host ∧
    b.hif.txWait = [] ∧ b.txOk tx = true ∧ leAt tx 10 1 / 16 = 0 ∧ b.txOk dl = true ∧ leAt dl 10 1 / 16 = 1 ∧
    b.txOk (zeros 32) = false := by
  simp only [Up, Defined]; decide +kernel

theorem test_RingEvents_rest :
    let a := withHost.setRing 1 { emptyRing with modWait := true }
    let b := a.setReg (Reg.msixTable (a.fld (Reg.hifRingCfg_vector 1)) 3) 1
    let c := a.setReg (Reg.msixTable (a.fld (Reg.hifRingCfg_vector 1)) 3) 0
    let r : Running := ⟨⟨opRebuild, hdr, 0, 0⟩, true, 0, 0, 0, 4⟩
    let late := withHost.setRing 1 { emptyRing with modWait := true, modFrom := 2000000 }
    Up (st late) ∧ (late.ring 1).modWait = true ∧
    late.reachCycle ((late.ring 1).modFrom + cyclesPerUs * late.fld (Reg.hifRingCfg_mod_us 1)) = none ∧
    (b.reachCycle ((b.ring 1).modFrom + cyclesPerUs * b.fld (Reg.hifRingCfg_mod_us 1))).isSome ∧
    Up (st b) ∧ (b.ring 1).modWait = true ∧ (b.reg (Reg.msixTable (b.fld (Reg.hifRingCfg_vector 1)) 3)).getLsbD 0 = true ∧
    (c.ring 1).modWait = true ∧ (c.reg (Reg.msixTable (c.fld (Reg.hifRingCfg_vector 1)) 3)).getLsbD 0 = false ∧
    (rebuilding 4).hif.runs = [r] ∧ r.cmd.opcode = opRebuild ∧ r.long = true ∧ r.cmd.hdr.statusAddr ≠ 0 ∧
    r.cmd.epoch = (rebuilding 4).hif.epoch ∧ (rebuilding 4).devState = dsHosted ∧ Up (st (rebuilding 4)) ∧
    withHost.ringLive 2 = true ∧ ringExists 2 = true := by
  simp only [Up, Defined]; decide +kernel

def eth (p : PortId) (f : EthPort → EthPort) (d : Dev) : Dev := d.modPort p f
/-- Port 1 is up at 10 Gb/s. -/
def port1Up (d : Dev) : Dev := (d.setBit (Reg.ethStat_link 1) true).setFld (Reg.ethStat_rate 1) 2
def frame (l : List Byte) : EthRx := ⟨l, BitVec.ofNat 32 (ethFcs l), false, false, false⟩
/-- A later fabric cycle. -/
def atCycle (c : Nat) (d : Dev) : Dev := tim d fun x => { x with cyc := c }
def pauseBytes (op : Byte) : List Byte := [1, 0x80, 0xC2, 0, 0, 1] ++ zeros 6 ++ [0x88, 0x08, 0, op, 0xFF, 0xFF] ++ zeros 42
/-- A frame too long, of which an IPv6 extension header of 1,456 bytes leaves no payload within reach. -/
def longFrame : List Byte := zeros 12 ++ [0x86, 0xDD, 0x60] ++ zeros 5 ++ [0, 64] ++ zeros 32 ++ [59, 181] ++ zeros 1546
def inFrame (n : Nat) : InFrame := ⟨n, 0, .air, []⟩

theorem test_Frames_premises :
    let d := port1Up dev0
    let e := (d.setBit (Reg.ethPausecfg_rx_en 1) true).setBit (Reg.ethStat_storm 1) false
    let full := eth 1 (fun x => { x with inBuf := [inFrame 524288] }) d
    let short := d.setFld (Reg.ethCfg_maxlen 1) 1518
    let ok (b : List Byte) := (frame b).fcs.toNat = ethFcs (frame b).bytes
    Up (st d) ∧ dev0.linkUp 1 = false ∧ d.linkUp 1 = true ∧ (zeros 59).length + 4 < 64 ∧ 64 ≤ (zeros 60).length + 4 ∧
    Up (st short) ∧ short.linkUp 1 = true ∧ short.maxLen 1 < longFrame.length + 4 ∧ 64 ≤ longFrame.length + 4 ∧ (zeros 60).length + 4 ≤ d.maxLen 1 ∧ ok (zeros 60) ∧
    (0 : Word).toNat ≠ ethFcs (zeros 60) ∧ ok (pauseBytes 1) ∧ beAt (pauseBytes 1) 12 2 = 0x8808 ∧
    beAt (pauseBytes 1) 14 2 = 1 ∧ beAt (pauseBytes 2) 14 2 ≠ 1 ∧ (pauseBytes 1).length + 4 = 64 ∧ ok (pauseBytes 2) ∧
    short.classifiedEarly (longFrame.take (short.maxLen 1 - 3)) = false ∧ d.classifiedEarly (zeros 60) = false ∧
    Up (st e) ∧ e.linkUp 1 = true ∧ e.bit (Reg.ethPausecfg_rx_en 1) = true ∧ e.bit (Reg.ethStat_storm 1) = false ∧
    e.paused 1 = false ∧ beAt (zeros 60) 12 2 ≠ 0x8808 ∧ d.occ 1 + 64 ≤ 524288 ∧ Up (st full) ∧
    524288 < full.occ 1 + 64 ∧ (full.port 1).xoffIntervals < 2 ∧ full.linkUp 1 = true := by
  simp only [Up, Defined]; decide +kernel

/-- Both ports up at one rate, and a station behind port 0. -/
def bridging : Dev :=
  ((port1Up dev0).setBit (Reg.ethStat_link 0) true).setFld (Reg.ethStat_rate 0) 2 |>.setMac (4 * macBucket 0x020000000001 1)
    (some ⟨0x020000000001, 1, 0, true, false, 0, 0⟩)
def stationFrame : List Byte := [2, 0, 0, 0, 0, 1, 2, 0, 0, 0, 0, 2, 0x12, 0x34] ++ zeros 46
/-- Is a frame received at port 1 cut through? -/
def cuts (d : Dev) (b : List Byte) : Bool :=
  let c := (d.bump (Cnt.rxOk 1)).bumpBy (Cnt.rxBytes 1) (b.length + 4)
  let o := c.pplFrame (c.ethMsg 1 (frame b)) (some 1) none fun d x => d.learn x 1 false false
  match o.2 with | [.port x q g] => o.1.cutsThrough 1 x q g | _ => false

theorem test_Frames_cut : Up (st bridging) ∧ bridging.linkUp 1 = true ∧ (frame stationFrame).fcs.toNat = ethFcs stationFrame ∧
    cuts bridging stationFrame = true ∧ cuts (port1Up dev0) (zeros 60) = false := by
  simp only [Up, Defined]; decide +kernel

theorem test_Pause_premises :
    let x := ((port1Up dev0).setBit (Reg.ethStat_xoff 1) true).setBit (Reg.ethPausecfg_tx_en 1) true
    let full := eth 1 (fun x => { x with inBuf := [inFrame 524288] }) x
    let p := ((port1Up dev0).setBit (Reg.ethStat_paused 1) true).setFld (Reg.ethPausecfg_storm_ms 1) 1
    let storm := atCycle 400000000 (dev0.setBit (Reg.ethStat_storm 1) true)
    Up (st x) ∧ x.bit (Reg.ethStat_xoff 1) = true ∧ x.bit (Reg.ethPausecfg_tx_en 1) = true ∧ x.occ 1 ≤ x.low 1 ∧ Up (st full) ∧
    full.low 1 < full.occ 1 ∧ full.high 1 ≤ full.occ 1 ∧ Up (st p) ∧ p.paused 1 = true ∧ p.rateMb 1 ≠ 0 ∧
    p.fld (Reg.ethPausecfg_storm_ms 1) ≠ 0 ∧
    (x.reachCycle ((x.port 1).xoffFrom + x.quantaCycles 1 2048)).isSome ∧
    (full.reachCycle ((full.port 1).xoffFrom + full.quantaCycles 1 2048)).isSome ∧
    (p.reachCycle ((p.port 1).pauseFrom.toNat + p.quantaCycles 1 (p.port 1).pauseLeft)).isSome ∧
    (p.reachCycle ((p.port 1).heldFrom + p.fld (Reg.ethPausecfg_storm_ms 1) * cyclesPerMs)).isSome ∧ Up (st storm) ∧
    storm.bit (Reg.ethStat_storm 1) = true ∧ (storm.reachCycle ((storm.port 1).stormFrom + cyclesPerS)).isSome := by
  simp only [Up, Defined]; decide +kernel

def egFrame : EgFrame :=
  { bytes := zeros 14, src := .air, ver := 0, pick := 1, bounded := false, part := .strict, tsId := none, resid := none, own := none,
    encap := false, marked := false, held := false, stomp := false }

theorem test_EgressResult_premises :
    let d := (port1Up dev0).setBit (Reg.tshGclCfg_en 1) false
    let a := eth 1 (fun x => { x with pauseQ := [0] }) d
    let b := eth 1 (fun x => { x with sending := some (7, egFrame) }) d
    let c := eth 1 (fun x => { x with queues := [(7, ⟨[egFrame], 0, 0, false⟩)] }) d
    let g := eth 1 (fun x => { x with pendGates := some ⟨[(255, 1000)], 1000, 0, 0⟩ }) dev0
    let soon := eth 1 (fun x => { x with pendGates := some ⟨[(255, 1000)], 1000, 0, 1000000⟩ }) dev0
    Up (st soon) ∧ (soon.port 1).pendGates = some ⟨[(255, 1000)], 1000, 0, 1000000⟩ ∧ soon.tai < 1000000 ∧
    (1000000 : Int) < soon.tickTai soon.nextS ∧ (1000000 : Int) < 281474976710656 * 1000000000 ∧ (soon.port 1).gates = none ∧
    (a.reachCycle (a.port 1).busyUntil).isSome ∧ (b.reachCycle (b.port 1).busyUntil).isSome ∧
    (c.reachCycle (c.port 1).busyUntil).isSome ∧ (dev0.reachCycle (400 * (dev0.eth.refills + 1))).isSome ∧
    egFrame.src = .air ∧ egFrame.stomp = false ∧ egFrame.held = false ∧ egFrame.tsId = none ∧ egFrame.resid = none ∧ egFrame.own = none ∧
    Up (st a) ∧ a.linkUp 1 = true ∧ a.bit (Reg.tshGclCfg_en 1) = false ∧ (a.port 1).sending = none ∧ (a.port 1).pauseQ = [0] ∧
    Up (st b) ∧ (b.port 1).sending = some (7, egFrame) ∧ (b.port 1).pauseQ = [] ∧ (b.port 1).queues = [] ∧
    b.linkUp 1 = true ∧ b.bit (Reg.tshGclCfg_en 1) = false ∧ Up (st c) ∧ (c.port 1).sending = none ∧
    (c.port 1).pauseQ = [] ∧ c.paused 1 = false ∧ (c.queue 1 7).frames = [egFrame] ∧ (c.queue 1 7).shapeOn = false ∧
    c.linkUp 1 = true ∧ c.bit (Reg.tshGclCfg_en 1) = false ∧ (d.port 1).pendGates = none ∧ Up (st g) ∧
    (g.port 1).pendGates = some ⟨[(255, 1000)], 1000, 0, 0⟩ ∧ (0 : Int) ≤ g.tai := by
  simp only [Up, Defined]; decide +kernel

theorem test_Links_premises :
    let d := port1Up dev0
    let pair := d.setBit Reg.ethPaircfg_en true
    let both := atCycle cyclesPerS <| ((((pair.setBit (Reg.ethStat_link 0) true).setFld (Reg.ethCfg_mode 0) 2).setFld (Reg.ethCfg_mode 1) 2).setBit
      Reg.ethPaircfg_step_en true).setFld Reg.ethPaircfg_up_pct 80
    let mode := dev0.setFld (Reg.ethCfg_mode 1) 3
    Up (st d) ∧ d.linkUp 1 = true ∧ (d.port 1).tryMode = none ∧ d.pairOn = false ∧ Up (st pair) ∧ pair.pairOn = true ∧
    pair.linkUp 1 = true ∧ pair.eth.pairStep = none ∧ Up (st mode) ∧ mode.linkUp 1 = false ∧
    mode.fld (Reg.ethCfg_mode 1) = 3 ∧ mode.pairOn = false ∧ (both.reachCycle (both.eth.loadFrom + cyclesPerS)).isSome ∧
    ((atCycle cyclesPerS d).reachCycle (d.eth.loadFrom + cyclesPerS)).isSome ∧ (atCycle cyclesPerS d).pairOn = false ∧
    Up (st both) ∧ both.pairOn = true ∧
    Reg.ethPaircfg_step_en.of both.pairWord = 1 ∧ both.eth.pairStep = none ∧ both.eth.moving = none ∧
    both.fld (Reg.ethCfg_mode 0) = 2 ∧ both.fld (Reg.ethCfg_mode 1) = 2 ∧ both.linkUp 0 = true ∧ both.linkUp 1 = true ∧
    (both.port 1).queues = [] ∧ (both.port 1).sending = none ∧
    Reg.ethPaircfg_up_pct.of both.pairWord * 5000000000 < max 0 5000000000 * 100 := by
  simp only [Up, Defined]; decide +kernel

theorem test_LinksAndTables_premises :
    let moving (m : Bool) := eth 0 (fun x => { x with queues := [(3, ⟨[{ egFrame with marked := m }], 0, 0, false⟩)] })
      { dev0 with eth := { dev0.eth with moving := some ⟨1, 0⟩ } }
    let step (p : PairPhase) := atCycle (100 * cyclesPerMs) { dev0 with eth := { dev0.eth with pairStep := some ⟨1, p, 2, 1, 0⟩ } }
    let md (r : Bool) := { dev0.setBit Reg.ethMdio_busy true with eth := { dev0.eth with mdioRead := r } }
    let mac (hit : Bool) (clear : Nat) := (dev0.setBit (Reg.fwdTblcfg_age_en 0) true).setMac 9 (some ⟨1, 0, 0, false, hit, clear, 0⟩)
    let ip6 := (dev0.setBit (Reg.fwdTblcfg_age_en 1) true).setIp6 9 (some ⟨1, 0, 0, 0, false, 0, false, false, 1, 0⟩)
    let swept (d : Dev) : Dev := atCycle (d.ageCycles 0 + d.ageCycles 1) d
    let fixed := (dev0.setBit (Reg.fwdTblcfg_age_en 0) true).setMac 9 (some ⟨1, 0, 0, true, false, 0, 0⟩)
    let lost := { dev0 with fwd := { dev0.fwd with lostMac := [(9, some ⟨1, 0, 0, true, false, 0, 0⟩)] } }
    let try1 := atCycle cyclesPerS (eth 1 (fun x => { x with tryMode := some 3 }) alone)
    let due0 (d : Dev) := ((swept d).reachCycle (d.fwd.macSwept + d.ageCycles 0)).isSome
    due0 (mac true 0) = true ∧ due0 (mac false 0) = true ∧ due0 (mac false 1) = true ∧ due0 fixed = true ∧
    (fixed.macAt 9).map (·.stat) = some true ∧
    ((swept ip6).reachCycle (ip6.fwd.ip6Swept + ip6.ageCycles 1)).isSome ∧
    ((step .announce).reachCycle (0 + 10 * cyclesPerMs)).isSome ∧ ((step .change).reachCycle (0 + 100 * cyclesPerMs)).isSome ∧
    (try1.reachCycle ((try1.port 1).tryFrom + cyclesPerS)).isSome ∧
    Up (st (moving true)) ∧ (moving true).markedOn (otherPort 1) = true ∧ (moving false).markedOn (otherPort 1) = false ∧
    (moving true).eth.moving = some ⟨1, 0⟩ ∧ (moving true).eth.pairStep = none ∧ Up (st (step .announce)) ∧
    Up (st (step .change)) ∧ (md true).bit Reg.ethMdio_busy = true ∧ Up (st (md false)) ∧ Up (st (mac true 0)) ∧
    (mac true 0).bit (Reg.fwdTblcfg_age_en 0) = true ∧ ((mac false 1).macAt 9).isSome ∧ Up (st ip6) ∧
    ip6.bit (Reg.fwdTblcfg_age_en 1) = true ∧ (ip6.ip6At 9).isSome ∧ Up (st lost) ∧
    (Sparse.get none lost.fwd.lostMac 9).isSome ∧ Up (st try1) ∧ (try1.port 1).tryMode = some 3 ∧
    try1.devState = dsStandalone ∧ try1.linkUp 1 = false := by
  simp only [Up, Defined]; decide +kernel

/-! ## The network clock -/

theorem test_NetworkClock_ptp :
    let bc := inForce dev0 Reg.timPtpcfg_bc_en 1
    let m := inForce bc Reg.timPtpcfg_p1_en 1
    let s := inForce (tim dev0 fun x => { x with ptp1 := { initPtp with master := some (zeros 64) } }) Reg.timPtpcfg_p1_en 1
    Up (st m) ∧ m.masterPort 1 = true ∧ Up (st s) ∧ s.slavePort = some 1 ∧ (dev0.ptpPort 1).foreign = [] := by
  simp only [Up, Defined]; decide +kernel

theorem test_NetworkClock_premises :
    let src (n : Nat) := inForce (inForce dev0 Reg.mshCfg_track_en 0) Reg.timSrccfg_src n
    let seen (gap : Nat) := tim (src 3) fun x => { x with ppsSeen := true, cyc := gap }
    let near := tim (src 3) fun x => { x with ns := 1 }
    let half := tim (src 3) fun x => { x with ns := 400000000 }
    let theta (d : Dev) := foldSecond ((d.tim.ns.toNat : Int) - d.fld Reg.timPpsCorr_in)
    (99 : Nat) < 100 ∧ false = dev0.bit Reg.timPpscfg_in_pol ∧ true ≠ dev0.bit Reg.timPpscfg_in_pol ∧ Up (st (src 1)) ∧
    (src 1).tim.ppsSeen = false ∧ (src 1).timeSrc < 2 ∧ (seen 399600000).tim.ppsSeen = true ∧
    (seen 399600000).tim.cyc - (seen 399600000).tim.ppsAt = 399600000 ∧ 800000000 ≤ (seen 800000000).tim.cyc - 0 ∧
    Up (st (src 2)) ∧ (src 2).timeSrc = 2 ∧ (src 2).tim.ptpOfs = none ∧ Up (st (src 3)) ∧ (src 3).trackEn = false ∧
    (src 3).timeSrc = 3 ∧ (src 3).tim.step = none ∧ (src 3).tsk.takeover = none ∧ (src 3).tim.fresh = true ∧ Up (st near) ∧
    (theta near).natAbs < near.stepMin ∧ Up (st half) ∧ half.stepMin ≤ (theta half).natAbs := by
  simp only [Up, Defined]; decide +kernel

theorem test_NetworkClock_timers :
    let lost := atCycle (2 * cyclesPerS) dev0
    let on := dev0.setFld Reg.timPpscfg_out_mode 1
    let done := tim on fun x => { x with ppsOutS := some 0 }
    let early := on.setFld Reg.timPpsCorr_out 5
    let hold (n : Nat) := atCycle (100 * cyclesPerS) (inForce (dev0.setFld Reg.timStat_state n) Reg.timServocfg_loss_to 1)
    let due (d : Dev) := (d.reachCycle (d.tim.measAt + orElse0 (d.cfgFld Reg.timServocfg_loss_to) 1 * cyclesPerS)).isSome
    Up (st lost) ∧ (lost.reachCycle (lost.tim.ppsAt + 2 * cyclesPerS)).isSome ∧ Up (st on) ∧ on.fld Reg.timPpscfg_out_mode = 1 ∧
    on.fld Reg.timPpsCorr_out ≤ on.tim.ns.toNat ∧ on.tim.ppsOutS ≠ some on.tim.sec ∧ Up (st done) ∧
    done.tim.ppsOutS = some done.tim.sec ∧ Up (st early) ∧ early.tim.ns.toNat < early.fld Reg.timPpsCorr_out ∧
    dev0.fld Reg.timPpscfg_out_mode = 0 ∧ (dev0.reachCycle dev0.tim.ppsOutEnd).isSome ∧ Up (st (hold 2)) ∧ due (hold 2) = true ∧
    (hold 2).fld Reg.timStat_state = 2 ∧ Up (st (hold 1)) ∧ due (hold 1) = true ∧ (hold 1).fld Reg.timStat_state ≠ 2 := by
  simp only [Up, Defined]; decide +kernel

/-! ## Power -/

def pwr (d : Dev) (f : Pwr → Pwr) : Dev := { d with pwr := f d.pwr }
def seqAt (n : Nat) (retried cold : Bool) (attempts : Nat) : Dev :=
  pwr ((dev0.setFld Reg.hifStat_dev_state dsOff).setFld Reg.pwrAonStatus_attempts attempts) fun x =>
    { x with seq := some ⟨n, retried, false⟩, coldBoot := cold }

theorem test_SupplyAndSequence_vcore : (dev0.reachCycle dev0.pwr.vcoreNext).isSome := by decide +kernel

theorem test_SupplyAndSequence_premises :
    let off := pwr dev0 fun x => { x with vinUp := false }
    let re := pwr dev0 fun x => { x with restart := true }
    let one := dev0.setFld Reg.pwrRailstat_ph_fail 8
    off.pwr.vinUp = false ∧ off.pwr.extSupply = false ∧ dev0.pwr.vinUp = true ∧
    (seqAt 7 false true 0).pwr.seq = some ⟨7, false, false⟩ ∧ (seqAt 7 true true 7).fld Reg.pwrAonStatus_attempts < 8 ∧
    (seqAt 7 true true 8).fld Reg.pwrAonStatus_attempts = 8 ∧ (seqAt 8 false true 0).pwr.coldBoot = true ∧
    (seqAt 8 false false 0).pwr.coldBoot = false ∧ (seqAt 8 false false 0).obs.tapUndef = false ∧ re.pwr.restart = true ∧
    dev0.mainUp = true ∧ dev0.pwr.extSupply = false ∧ dev0.fld Reg.pwrRailstat_ph_fail = 0 ∧ one.mainUp = true ∧
    one.fld Reg.pwrRailstat_ph_fail ≠ 0 ∧ (one.fld Reg.pwrRailstat_ph_fail).testBit (2 : Fin 4).val = false := by decide +kernel

theorem test_DomainAccesses_premises :
    let a := pwr dev0 fun x => { x with stalled := [.rf 2] }
    let b := pwr dev0 fun x => { x with stalled := [.loam 3], activeCmd := some cmd }
    Up (st dev0) ∧ dev0.domainOff (.rf 2) = true ∧ Domain.rf 2 ∉ dev0.pwr.woken ∧ Domain.rf 2 ∉ dev0.pwr.stalled ∧
    dev0.domainOff .core = false ∧ Up (st a) ∧ a.pwr.stalled = [.rf 2] ∧ a.pwr.activeCmd = none ∧ Up (st b) ∧
    b.pwr.stalled = [.loam 3] ∧ b.pwr.activeCmd = some cmd := by
  simp only [Up, Defined]; decide +kernel

/-- In SENTINEL with every wake source enabled. -/
def sentinel : Dev := inForce (pwr (dev0.setFld Reg.hifStat_dev_state dsSentinel) fun x => { x with armed := true }) Reg.pwrWakecfg_en 63
def wakeFrameBytes (d : Dev) : List Byte :=
  List.replicate 6 0xFF ++ zeros 6 ++ [0x88, 0xB5, 0x4E, 0x52] ++ be 4 (d.cfgFld Reg.pwrEthwake_code) ++ zeros 40

theorem test_WakeSources_premises :
    let arm := pwr withHost fun x => { x with entering := some (cmd, true) }
    let wak := pwr sentinel fun x => { x with seq := some ⟨3, false, true⟩ }
    let off := inForce sentinel Reg.pwrWakecfg_en 0
    let lis := inForce (eth 1 (fun x => { x with listenOn := true }) sentinel) Reg.pwrWakecfg_eth1_mode 1
    let per := { sentinel with pins := { sentinel.pins with perstN := false } }
    let air := inForce (inForce sentinel Reg.mshWakefreq_freq 340000000) ⟨Reg.mshWakecodeB, 0, 32⟩ 5
    let crc := byte (crc8 (be 4 5))
    let timer := inForce sentinel Reg.pwrTimer_count 1
    let out := atCycle cyclesPerS { withHost with pins := { withHost.pins with wakeN := true } }
    let pol := inForce sentinel Reg.pwrWakecfg_gpio_pol 1
    (1 : BitVec 16).getLsbD (pol.cfgFld Reg.pwrWakecfg_gpio_sel) = pol.cfgBit Reg.pwrWakecfg_gpio_pol ∧
    (0 : BitVec 16).getLsbD (pol.cfgFld Reg.pwrWakecfg_gpio_sel) ≠ pol.cfgBit Reg.pwrWakecfg_gpio_pol ∧
    pol.devState = dsSentinel ∧ pol.pwr.armed = true ∧ (sentinel.port 1).listenOn = false ∧
    (lis.cfgFld Reg.pwrWakecfg_en).testBit (1 : PortId).val = true ∧ lis.waking = false ∧
    (out.reachCycle (out.pwr.wakeNFrom + cyclesPerS)).isSome ∧
    arm.pwr.entering = some (cmd, true) ∧ arm.hif.complQ = [] ∧ sentinel.devState = dsSentinel ∧ sentinel.pwr.armed = true ∧
    (sentinel.cfgFld Reg.pwrWakecfg_en).testBit 5 = true ∧ sentinel.waking = false ∧ wak.waking = true ∧
    wak.devState = dsSentinel ∧ wak.pwr.armed = true ∧ (off.cfgFld Reg.pwrWakecfg_en).testBit 0 = false ∧
    sentinel.frameMode 1 = false ∧ lis.frameMode 1 = true ∧ (lis.port 1).listenOn = true ∧
    lis.isWakeFrame (wakeFrameBytes lis) = true ∧ (lis.cfgFld Reg.pwrWakecfg_en).testBit 1 = true ∧ per.pins.perstN = false ∧
    340000000 ≤ air.cfgFld Reg.mshWakefreq_freq ∧ air.cfgFld Reg.mshWakefreq_freq ≤ 1050000000 ∧ wakeCrcOk 5 crc = true ∧
    air.cfg Reg.mshWakecodeB = 5 ∧ wakeCrcOk 5 (crc + 1) = false ∧ timer.cfgFld Reg.pwrTimer_count ≠ 0 ∧
    out.pins.wakeN = true ∧ out.devState = dsHosted ∧ withHost.pins.wakeN = false := by decide +kernel

theorem test_WakeSources_states :
    let air := inForce (inForce sentinel Reg.mshWakefreq_freq 1050000000) ⟨Reg.mshWakecodeB, 0, 32⟩ 5
    air.devState = dsSentinel ∧ air.pwr.armed = true ∧ air.cfgFld Reg.mshWakefreq_freq ≤ 1050000000 ∧ air.obs.tapUndef = false := by
  decide +kernel

/-! ## Resets, TAP, boot and trace -/

theorem test_ResetPinsAndTap_premises :
    let off := pwr dev0 fun x => { x with vinUp := false }
    let low := pwr dev0 fun x => { x with porLow := true }
    let tap := { dev0 with obs := { dev0.obs with testEn := true } }
    dev0.pwr.vinUp = true ∧ dev0.pwr.seq = none ∧ dev0.railsUp = true ∧ off.pwr.vinUp = false ∧ dev0.pwr.porLow = false ∧
    low.pwr.porLow = true ∧ dev0.obs.testEn = false ∧ tap.obs.testEn = true ∧ 4 < (5 : BitVec 4).toNat := by decide +kernel

theorem test_BootAndTrace_premises :
    let a := { keyed dev0 with boot := { (keyed dev0).boot with bankA := image } }
    let b := { keyed dev0 with boot := { (keyed dev0).boot with bankB := image } }
    let rejected := { dev0 with boot := { dev0.boot with bothRejected := true } }
    let uart := dev0.setFld Reg.bootStat_strap 8
    let tr := { dev0 with obs := { dev0.obs with traceQ := [[1]], traceOn := true } }
    Up (st a) ∧ a.devState = dsBoot ∧ a.boot.bothRejected = false ∧ a.fld Reg.bootStat_strap = 0 ∧ a.bank a.boot.activeB = image ∧
    a.imageOk [] = false ∧ Up (st b) ∧ b.bank b.boot.activeB = [] ∧ b.bank (!b.boot.activeB) = image ∧
    (keyed dev0).bank false = [] ∧ (keyed dev0).bank true = [] ∧ profileOk a.boot.prof0 = false ∧
    profileOk a.boot.prof1 = false ∧ Up (st rejected) ∧ rejected.boot.bothRejected = true ∧ Up (st uart) ∧
    uart.fld Reg.bootStat_strap = 8 ∧ Up (st tr) ∧ tr.obs.traceQ = [[1]] ∧ tr.obs.traceOn = true ∧ tr.obs.traceLost = 0 ∧
    dev0.obs.traceQ = [] := by
  simp only [Up, Defined]; decide +kernel

theorem test_BootAndTrace_image : ({ keyed dev0 with boot := { (keyed dev0).boot with bankA := image } } : Dev).imageOk image = true :=
  test_image_accepted

/-! ## Single steps against the manual's tables -/

/-- R515: IDCODE gives 0xB734854F with TEST_EN high. -/
theorem test_idcode :
    (match exec .idcode (st { dev0 with obs := { dev0.obs with testEn := true } }) with
      | .next t => t.dev.outs.contains (.value 0xB734854F)
      | _ => false) = true := by decide +kernel

/-- R5, Table 0.3: counters read 0 and GLB_ID its reset value. -/
theorem test_reset_id : State.reset.dev.reg Reg.glbId = 0x734800B0 ∧ State.reset.dev.counter Cnt.cmdDone = 0 := by decide +kernel

/-- R10: a write of two bytes leaves a register as it is; four bytes set it. -/
theorem test_register_widths :
    (match exec (.registerWrite (BitVec.ofNat 24 Reg.mshWakecodeB) 2 0x15 0) (st dev0) with
      | .next t => t.dev.reg Reg.mshWakecodeB == dev0.reg Reg.mshWakecodeB
      | _ => false) = true ∧
    (match exec (.registerWrite (BitVec.ofNat 24 Reg.mshWakecodeB) 4 0x15 0) (st dev0) with
      | .next t => t.dev.reg Reg.mshWakecodeB == 0x15
      | _ => false) = true := by decide +kernel

/-- R412, R401: NOP completes with OK on ring 1, and the device's index of ring 0 moves on. -/
theorem test_nop :
    (match exec (.nop hdr) (st withHost) with
      | .next t => decide ((t.dev.ring 0).dev = 1) && decide ((t.dev.ring 1).dev = 1) && decide (t.dev.counter Cnt.cmdDone = 1)
      | _ => false) = true := by decide +kernel

/-- R516: after EXTEST every other command stops the machine. -/
theorem test_undefined_stops : exec (.gpioWake 0) (st afterExtest) = .fault .stateUndefined := rfl

end Sys2Proof.Tests
end

section
/-! # The commands CC_SWITCH and DRAM_TRAIN (R338, R391) -/

namespace Sys2Proof.Machine

/-! ## Outstanding commands -/

/-- A status word written for a running command changes its update count alone (R414). -/
theorem Dev.writeStatus_fst (d : Dev) (r : Running) (status : Nat) :
    (d.writeStatus r status).1 = { r with upd := r.upd + 1 } := by
  unfold Dev.writeStatus
  dsimp only
  split <;> rfl

/-- A long operation that starts is outstanding (R410). -/
theorem Dev.exists_run_startLong (d : Dev) (c : Cmd) (result arg : Nat) :
    ∃ r ∈ (d.startLong c result arg).hif.runs, r.cmd = c ∧ r.long = true := by
  refine ⟨_, List.mem_append_right _ (List.mem_singleton_self _), ?_⟩
  rw [Dev.writeStatus_fst]
  exact ⟨rfl, rfl⟩

/-! ## CC_SWITCH -/

theorem exec_ccSwitch (h : CmdHdr) (s : State) :
    exec (.ccSwitch h) s = runOp (hostCmd 0x0051 h fun c d => d.ccSwitchCmd c) s := rfl

theorem Dev.fetch_takeover (d : Dev) (op : Half) (h : CmdHdr) :
    (d.fetch op h).2.tsk.takeover = d.tsk.takeover := by rw [d.fetch_tsk]

theorem Dev.fetch_stby (d : Dev) (op : Half) (h : CmdHdr) :
    (d.fetch op h).2.fld Reg.tskCcstat_stby = d.fld Reg.tskCcstat_stby :=
  d.fetch_fld op h _ (by unfold bookAddr; decide)

/-- With a READY standby and no takeover under way, CC_SWITCH starts a takeover of cause 3 and is outstanding. -/
theorem Dev.ccSwitchCmd_of_ready {d : Dev} (c : Cmd) (hs : d.fld Reg.tskCcstat_stby = 3) (ht : d.tsk.takeover = none) :
    d.ccSwitchCmd c = { d.startDeferred c with tsk := { d.tsk with ccSwitch := some c, takeover := some 3 } } := by
  unfold Dev.ccSwitchCmd
  rw [if_neg (by simp [hs, ht])]
  rfl

theorem Dev.ccSwitchCmd_of_not_ready {d : Dev} (c : Cmd) (h : d.fld Reg.tskCcstat_stby ≠ 3 ∨ d.tsk.takeover ≠ none) :
    d.ccSwitchCmd c = d.refuseState c 0xFF := by
  unfold Dev.ccSwitchCmd
  rw [if_pos (h.imp_right Option.isSome_iff_ne_none.mpr)]

/-! ## DRAM_TRAIN -/

theorem exec_dramTrain (h : CmdHdr) (s : State) :
    exec (.dramTrain h) s = runOp (hostCmd 0x0050 h fun c d => d.dramTrain c) s := rfl

theorem Dev.fetch_phyTemp (d : Dev) (op : Half) (h : CmdHdr) :
    (d.fetch op h).2.fld Reg.dmcTemp_now = d.fld Reg.dmcTemp_now :=
  d.fetch_fld op h _ (by unfold bookAddr; decide)

theorem Dev.startTrain_of_run {d : Dev} {run : TrainRun} (h : d.dmc.run = some run) : d.startTrain = d := by
  unfold Dev.startTrain
  rw [h]

theorem Dev.startTrain_of_idle {d : Dev} (h : d.dmc.run = none) :
    d.startTrain = { d with dmc := { d.dmc with
      run := some ⟨byte (d.fld Reg.dmcTemp_now), false, none, []⟩ } }.setFld Reg.dmcStat_train 1 := by
  unfold Dev.startTrain
  rw [h]

/-- A long operation that starts leaves the DRAM controller alone. -/
theorem Dev.startLong_dmc (d : Dev) (c : Cmd) (result arg : Nat) : (d.startLong c result arg).dmc = d.dmc :=
  (Dev.Book.startLong d c result arg).dmc

/-- DRAM_TRAIN joins the run under way. -/
theorem Dev.dramTrain_of_run {d : Dev} {run : TrainRun} (c : Cmd) (h : d.dmc.run = some run) :
    d.dramTrain c = { d.startLong c 0 0 with dmc := { d.dmc with run := some { run with joined := run.joined ++ [c] } } } := by
  have hl : (d.startLong c 0 0).dmc.run = some run := by rw [d.startLong_dmc, h]
  unfold Dev.dramTrain
  rw [Dev.startTrain_of_run hl]
  simp only [d.startLong_dmc, h]

/-- DRAM_TRAIN with no run under way starts one from the temperature of the PHY, and waits for it. -/
theorem Dev.dramTrain_of_idle {d : Dev} (c : Cmd) (h : d.dmc.run = none) :
    d.dramTrain c = { (d.startLong c 0 0).setFld Reg.dmcStat_train 1 with
      dmc := { d.dmc with run := some ⟨byte (d.fld Reg.dmcTemp_now), false, none, [c]⟩ } } := by
  have hl : (d.startLong c 0 0).dmc.run = none := by rw [d.startLong_dmc, h]
  have ht : (d.startLong c 0 0).fld Reg.dmcTemp_now = d.fld Reg.dmcTemp_now :=
    congrArg Reg.dmcTemp_now.of ((Dev.Book.startLong d c 0 0).reg Reg.dmcTemp (by unfold bookAddr; decide))
  unfold Dev.dramTrain
  rw [Dev.startTrain_of_idle hl, ht, d.startLong_dmc]
  rfl

/-- DMC_STAT.TRAIN shows the run that DRAM_TRAIN starts. -/
theorem Dev.dramTrain_train {d : Dev} (c : Cmd) (h : d.dmc.run = none) :
    (d.dramTrain c).bit Reg.dmcStat_train = true := by
  have hf : ((d.startLong c 0 0).setFld Reg.dmcStat_train 1).fld Reg.dmcStat_train = 1 :=
    Dev.fld_setFld_same _ _ _ (by unfold Field.ok; decide)
  rw [Dev.dramTrain_of_idle c h]
  exact beq_iff_eq.mpr hf

/-- DRAM_TRAIN that starts a run is a long operation. -/
theorem Dev.exists_run_dramTrain {d : Dev} (c : Cmd) (h : d.dmc.run = none) :
    ∃ r ∈ (d.dramTrain c).hif.runs, r.cmd = c ∧ r.long = true := by
  rw [Dev.dramTrain_of_idle c h]
  exact d.exists_run_startLong c 0 0

/-! ## The obligation -/

/-- Settles O30: each clause is the command's own equation on the device after the fetch, which leaves the standby's state,
the takeover, the DRAM controller and its temperature as they are. -/
theorem switchAndTrainCommands : Obligations.SwitchAndTrainCommands := by
  unfold Obligations.SwitchAndTrainCommands
  intro s h hf
  have hrun : (s.dev.fetch 0x0050 h).2.dmc.run = s.dev.dmc.run := by rw [Dev.fetch_dmc]
  refine ⟨fun hs ht => ?_, fun hr => ?_, fun run hr => ?_, fun hr => ?_⟩
  · exact .of_host hf (exec_ccSwitch h s)
      (Dev.ccSwitchCmd_of_ready _ ((s.dev.fetch_stby _ h).trans hs) ((s.dev.fetch_takeover _ h).trans ht))
  · refine .of_host hf (exec_ccSwitch h s) (Dev.ccSwitchCmd_of_not_ready _ ?_)
    rwa [s.dev.fetch_stby, s.dev.fetch_takeover]
  · refine .of_host hf (exec_dramTrain h s) ?_
    rw [Dev.dramTrain_of_run _ (hrun.trans hr), Dev.fetch_dmc]
  · refine ⟨_, .of_host hf (exec_dramTrain h s) rfl, Dev.dramTrain_train _ (hrun.trans hr), ?_,
      Dev.exists_run_dramTrain _ (hrun.trans hr)⟩
    rw [Dev.dramTrain_of_idle _ (hrun.trans hr), Dev.fetch_dmc, s.dev.fetch_phyTemp]

end Sys2Proof.Machine
end

section
/-! # Outside STANDALONE and HOSTED (R425) -/

namespace Sys2Proof.Machine

/-! ## What a host command and a poll are to the device -/

/-- A host command has an effect through the firmware alone, and the same one whichever host issues it. -/
theorem exec_of_hostHdr {c : Instr} {p : Half × CmdHdr} (hc : hostHdr c = some p) (s : State) :
    exec c s = runOp (issueLocal c) s := by
  cases c with
  | nop | chanConfig | schedWrite | rotWrite | scheduleCommit | rfEnable | rfDisable | rfReset | rfCalSweep | rfAntEnable
  | wakeSend | spectrumSurvey | sensorSet | meshFlood | timeForceAccept | timeForceSet | ruleWrite | patternWrite
  | hashWrite | indirWrite | rulesetCommit | fwdWrite | tableRebuild | keyInstall | keyInstallWrapped | keyExport
  | keyDelete | kaoOp | dramTrain | ccSwitch | pwrStateActive | pwrStateLean | pwrStateSentinel | fwBlock | fwApply
  | fwActivate | profileWrite | unlistedOpcode => rfl
  | _ => cases hc

theorem exec_doorbellPoll (p : PollRead) (s : State) :
    exec (.doorbellPoll p) s = runUp (fun d => d.doorbellPoll p) s := rfl

/-! ## A device that does not operate -/

theorem Dev.operating_eq_false_of_devState {d : Dev}
    (h : d.devState = dsOff ∨ d.devState = dsBoot ∨ d.devState = dsSentinel ∨ d.devState = dsFaultLock) :
    d.operating = false := by
  unfold Dev.operating
  rcases h with h | h | h | h <;> rw [h] <;> rfl

theorem Dev.firmwareUp_of_not_operating {d : Dev} (h : d.operating = false) : d.firmwareUp = false := by
  rw [Dev.firmwareUp, h, Bool.and_false]

theorem Dev.hosted_of_not_operating {d : Dev} (h : d.operating = false) : d.hosted = false :=
  (Bool.or_eq_false_iff.mp h).2

/-- The page of host indices is read for an external host only (R403). -/
theorem Dev.doorbellPoll_of_not_hosted {d : Dev} (h : d.hosted = false) (p : PollRead) : d.doorbellPoll p = d := by
  unfold Dev.doorbellPoll
  rw [if_pos (by simp [h])]

/-- Without its firmware the device leaves out what the firmware takes part in. -/
theorem Gives.of_runOp_down {i : Instr} {s : State} {f : Dev → Dev} (hs : Defined s) (hi : exec i s = runOp f s)
    (hd : s.dev.firmwareUp = false) : Gives i s s.dev :=
  .of_run hs hi (if_neg (by simp [hd]))

/-- What leaves the device as it is does so with the main die up or down. -/
theorem Gives.of_runUp_fixed {i : Instr} {s : State} {f : Dev → Dev} (hs : Defined s) (hi : exec i s = runUp f s)
    (hd : f s.dev = s.dev) : Gives i s s.dev :=
  .of_run hs hi (by rw [hd, ite_self])

/-! ## The obligation -/

/-- Settles O9: in the four states the device does not operate, so the firmware takes no command and no host is attached
whose page could be read. -/
theorem noCommandOutsideOperation : Obligations.NoCommandOutsideOperation := by
  unfold Obligations.NoCommandOutsideOperation
  intro s hs hstate
  have hop : s.dev.operating = false := Dev.operating_eq_false_of_devState hstate
  constructor
  · intro c op h hc
    exact .of_runOp_down hs (exec_of_hostHdr hc s) (Dev.firmwareUp_of_not_operating hop)
  · intro p
    exact .of_runUp_fixed hs (exec_doorbellPoll p s)
      (Dev.doorbellPoll_of_not_hosted (Dev.hosted_of_not_operating hop) p)

end Sys2Proof.Machine
end

section
/-! # Wake sources in SENTINEL (R223, R449, R452, R453, R455) -/

namespace Sys2Proof.Machine

/-! ## Entering SENTINEL -/

/-- What SENTINEL_ARM settles before it takes anything down: the boundary of the registers, and the bitmap of a staged
container. -/
def Dev.sentinelSave (d : Dev) : Dev :=
  if (d.applyBoundary .sentinel).boot.stageId.isSome then (d.applyBoundary .sentinel).persist else d.applyBoundary .sentinel

/-- The DRAM refreshes itself, and the wake sources are armed. -/
def Dev.armSources (d : Dev) : Dev :=
  { d with
    dmc := { d.dmc with selfRefresh := true, run := none }
    hif := { d.hif with fetchStop := false }
    pwr := { d.pwr with
      entering := none, armed := true, backTo := BitVec.ofNat 3 d.devState, entryTai := d.tai, entrySilt := d.pwr.silt,
      woken := [], stalled := [] } }

/-- A port goes down, and its first listen window is set. -/
def Dev.portDown (d : Dev) (p : PortId) : Dev :=
  (d.setReg (Reg.ethStat p) (d.reg (Reg.ethStat p) &&& 0x4C)).modPort p fun x => { x with
    pauseLeft := 0, pauseQ := [], xoffIntervals := 0, listenOn := false, listenAt := d.pwr.silt + d.listenPeriod }

/-- HIF_STAT and PWR_STATE show SENTINEL, and the entry is counted. -/
def Dev.showSentinel (d : Dev) : Dev :=
  ((d.setFld Reg.hifStat_dev_state dsSentinel).setFld Reg.pwrState_state psSentinel).bump Cnt.sentinelEntry

/-- The entry to SENTINEL with no source at its wake level. -/
theorem Dev.sentinelArm_zero {d : Dev} {c : Cmd} (he : d.pwr.entering = some (c, true)) (hq : d.hif.complQ = []) :
    d.sentinelArm 0 = ((d.sentinelSave.armSources.portDown 0).portDown 1).showSentinel := by
  unfold Dev.sentinelArm
  simp only [he, hq, List.isEmpty_nil, Bool.not_true, Bool.false_eq_true, if_false]
  rfl

theorem Dev.sentinelSave_regs (d : Dev) : d.sentinelSave.regs = d.regs := by
  unfold Dev.sentinelSave
  split <;> rfl

theorem Dev.sentinelSave_counter (d : Dev) : d.sentinelSave.counter Cnt.sentinelEntry = d.counter Cnt.sentinelEntry := by
  unfold Dev.sentinelSave
  split
  · exact Dev.counter_bumpBy _ _ _ _
  · rfl

@[simp] theorem Dev.portDown_pwr (d : Dev) (p : PortId) : (d.portDown p).pwr = d.pwr := by simp [Dev.portDown]
@[simp] theorem Dev.portDown_dmc (d : Dev) (p : PortId) : (d.portDown p).dmc = d.dmc := by simp [Dev.portDown]
@[simp] theorem Dev.portDown_counters (d : Dev) (p : PortId) : (d.portDown p).counters = d.counters := by
  simp [Dev.portDown]

theorem Dev.showSentinel_devState (d : Dev) : d.showSentinel.devState = dsSentinel := by
  have hstay : d.showSentinel.devState = (d.setFld Reg.hifStat_dev_state dsSentinel).devState :=
    Dev.fld_setFld_ne _ _ _ _ (by unfold Field.ok; decide) (by unfold Field.apart; decide)
  exact hstay.trans (Dev.fld_setFld_same _ _ _ (by unfold Field.ok; decide))

theorem Dev.showSentinel_powerState (d : Dev) : d.showSentinel.fld Reg.pwrState_state = psSentinel :=
  Dev.fld_setFld_same _ _ _ (by unfold Field.ok; decide)

theorem Dev.showSentinel_counter (d : Dev) :
    d.showSentinel.counter Cnt.sentinelEntry = d.counter Cnt.sentinelEntry + 1 := by
  unfold Dev.showSentinel Dev.bump
  rw [Dev.counter_bumpBy, if_pos rfl]
  rfl

@[simp] theorem Dev.showSentinel_pwr (d : Dev) : d.showSentinel.pwr = d.pwr := rfl
@[simp] theorem Dev.showSentinel_dmc (d : Dev) : d.showSentinel.dmc = d.dmc := rfl

/-- What is seen of the entry to SENTINEL with no source at its wake level. -/
theorem Dev.sentinelArm_shows {d : Dev} {c : Cmd} (he : d.pwr.entering = some (c, true)) (hq : d.hif.complQ = []) :
    (d.sentinelArm 0).devState = dsSentinel ∧ (d.sentinelArm 0).fld Reg.pwrState_state = psSentinel ∧
      (d.sentinelArm 0).pwr.armed = true ∧ (d.sentinelArm 0).pwr.entering = none ∧
      (d.sentinelArm 0).dmc.selfRefresh = true ∧ (d.sentinelArm 0).pwr.backTo = BitVec.ofNat 3 d.devState ∧
      (d.sentinelArm 0).counter Cnt.sentinelEntry = d.counter Cnt.sentinelEntry + 1 := by
  have hpwr : (d.sentinelArm 0).pwr = d.sentinelSave.armSources.pwr := by
    rw [Dev.sentinelArm_zero he hq]; simp
  have hdmc : (d.sentinelArm 0).dmc = d.sentinelSave.armSources.dmc := by
    rw [Dev.sentinelArm_zero he hq]; simp
  have hstate : d.sentinelSave.devState = d.devState := Dev.fld_congr d.sentinelSave_regs _
  have hcounters : ((d.sentinelSave.armSources.portDown 0).portDown 1).counters = d.sentinelSave.counters := by
    simp [Dev.armSources]
  rw [hpwr, hdmc, Dev.sentinelArm_zero he hq]
  refine ⟨Dev.showSentinel_devState _, Dev.showSentinel_powerState _, rfl, rfl, rfl, congrArg (BitVec.ofNat 3) hstate, ?_⟩
  rw [Dev.showSentinel_counter, Dev.counter_congr hcounters, d.sentinelSave_counter]

/-! ## A source that fires -/

/-- `e` shows the wake logic of the power die what `d` shows it. -/
structure Dev.SameWake (d e : Dev) : Prop where
  devState : e.devState = d.devState
  armed : e.pwr.armed = d.pwr.armed
  waking : e.waking = d.waking
  wakecfg : e.cfg Reg.pwrWakecfg = d.cfg Reg.pwrWakecfg
  status : e.reg Reg.pwrAonStatus = d.reg Reg.pwrAonStatus

theorem Dev.SameWake.refl (d : Dev) : d.SameWake d := ⟨rfl, rfl, rfl, rfl, rfl⟩

theorem Dev.SameWake.siltTo (d : Dev) (t : Nat) : d.SameWake (d.siltTo t) := ⟨rfl, rfl, rfl, rfl, rfl⟩

theorem Dev.SameWake.pins (d : Dev) (p : Pins) : d.SameWake { d with pins := p } := ⟨rfl, rfl, rfl, rfl, rfl⟩

/-- A received wake pattern is counted and shown in MSH_STAT, of which the power die sees nothing. -/
theorem Dev.SameWake.wakeMatch (d : Dev) : d.SameWake ((d.bump Cnt.wakeMatch).raise Reg.mshStat_wake_match) where
  devState := Dev.fld_setFld_ne _ _ _ _ (by unfold Field.ok; decide) (by unfold Field.apart; decide)
  armed := rfl
  waking := rfl
  wakecfg := by
    have hb : boundOf Reg.pwrWakecfg = .sentinel := by decide +kernel
    unfold Dev.cfg
    rw [hb]
    rfl
  status := Dev.reg_setFld_ne _ _ _ _ (by decide)

/-- `x` after source `b` has fired in a device that shows what `d` does: an enabled source is latched, and the first one is
recorded and starts the wake sequence; of a source that is not enabled nothing is seen (R452). `p` is the power die before it
fires. -/
def Dev.Fired (d : Dev) (p : Pwr) (b : Nat) (x : Dev) : Prop :=
  ((d.cfgFld Reg.pwrWakecfg_en).testBit b = true →
    x.fld Reg.pwrAonStatus_src = d.fld Reg.pwrAonStatus_src ||| 2 ^ b ∧
    (d.waking = false → x.fld Reg.pwrAonStatus_first = b ∧ x.pwr.seq = some ⟨1, false, true⟩) ∧
    (d.waking = true → x.fld Reg.pwrAonStatus_first = d.fld Reg.pwrAonStatus_first ∧ x.pwr = p)) ∧
  ((d.cfgFld Reg.pwrWakecfg_en).testBit b = false →
    x.reg Reg.pwrAonStatus = d.reg Reg.pwrAonStatus ∧ x.pwr = p)

theorem Dev.SameWake.fired {d e x : Dev} {p : Pwr} {b : Nat} (h : d.SameWake e) (hf : e.Fired p b x) : d.Fired p b x := by
  have hen : e.cfgFld Reg.pwrWakecfg_en = d.cfgFld Reg.pwrWakecfg_en := congrArg Reg.pwrWakecfg_en.of h.wakecfg
  have hsrc : e.fld Reg.pwrAonStatus_src = d.fld Reg.pwrAonStatus_src := congrArg Reg.pwrAonStatus_src.of h.status
  have hfirst : e.fld Reg.pwrAonStatus_first = d.fld Reg.pwrAonStatus_first := congrArg Reg.pwrAonStatus_first.of h.status
  unfold Dev.Fired at hf ⊢
  rwa [hen, hsrc, hfirst, h.waking, h.status] at hf

theorem Dev.fireSource_of_disabled {d : Dev} {b : Nat} (h : (d.cfgFld Reg.pwrWakecfg_en).testBit b = false) :
    d.fireSource b = d := by
  unfold Dev.fireSource
  rw [if_pos (by simp [h])]

/-- Latch a source in SRC. -/
def Dev.latchSource (d : Dev) (b : Nat) : Dev := d.setFld Reg.pwrAonStatus_src (d.fld Reg.pwrAonStatus_src ||| 2 ^ b)

theorem Dev.fireSource_of_enabled {d : Dev} {b : Nat} (hs : d.devState = dsSentinel) (ha : d.pwr.armed = true)
    (h : (d.cfgFld Reg.pwrWakecfg_en).testBit b = true) :
    d.fireSource b = if d.waking then d.latchSource b
      else ((d.latchSource b).setFld Reg.pwrAonStatus_first b).startSeq true := by
  unfold Dev.fireSource
  rw [if_neg (by simp [hs, ha, h])]
  rfl

/-- SRC has a bit for each of the six sources. -/
theorem Dev.latchSource_src (d : Dev) {b : Nat} (hb : b < 6) :
    (d.latchSource b).fld Reg.pwrAonStatus_src = d.fld Reg.pwrAonStatus_src ||| 2 ^ b := by
  have hlt : d.fld Reg.pwrAonStatus_src < 2 ^ 6 := Nat.mod_lt _ (by decide)
  have hor : d.fld Reg.pwrAonStatus_src ||| 2 ^ b < 2 ^ 6 := Nat.or_lt_two_pow hlt (Nat.pow_lt_pow_right (by decide) hb)
  exact (Dev.fld_setFld_same _ _ _ (by unfold Field.ok; decide)).trans (Nat.mod_eq_of_lt hor)

theorem Dev.fireSource_fired {d : Dev} {b : Nat} (hs : d.devState = dsSentinel) (ha : d.pwr.armed = true) (hb : b < 6) :
    d.Fired d.pwr b (d.fireSource b) := by
  refine ⟨fun h => ?_, fun h => by rw [Dev.fireSource_of_disabled h]; exact ⟨rfl, rfl⟩⟩
  rw [Dev.fireSource_of_enabled hs ha h]
  cases hw : d.waking with
  | true =>
    have hfirst : (d.latchSource b).fld Reg.pwrAonStatus_first = d.fld Reg.pwrAonStatus_first :=
      Dev.fld_setFld_ne _ _ _ _ (by unfold Field.ok; decide) (by unfold Field.apart; decide)
    exact ⟨d.latchSource_src hb, nofun, fun _ => ⟨hfirst, rfl⟩⟩
  | false =>
    have hfirst : ((d.latchSource b).setFld Reg.pwrAonStatus_first b).fld Reg.pwrAonStatus_first = b :=
      (Dev.fld_setFld_same _ _ _ (by unfold Field.ok; decide)).trans (Nat.mod_eq_of_lt (hb.trans (by decide)))
    have hsrc : ((d.latchSource b).setFld Reg.pwrAonStatus_first b).fld Reg.pwrAonStatus_src =
        (d.latchSource b).fld Reg.pwrAonStatus_src :=
      Dev.fld_setFld_ne _ _ _ _ (by unfold Field.ok; decide) (by unfold Field.apart; decide)
    exact ⟨hsrc.trans (d.latchSource_src hb), fun _ => ⟨hfirst, rfl⟩, nofun⟩

/-- In SENTINEL a command fires a source on a device that shows the wake logic what the state's device does. -/
theorem Gives.fires {i : Instr} {s : State} {f : Dev → Dev} {e : Dev} {p : Pwr} {b : Nat} (hdef : Defined s)
    (hs : s.dev.devState = dsSentinel) (ha : s.dev.pwr.armed = true) (hi : exec i s = run f s)
    (hf : f s.dev = e.fireSource b) (h : s.dev.SameWake e) (hp : e.pwr = p) (hb : b < 6) :
    ∃ d : Dev, Gives i s d ∧ s.dev.Fired p b d := by
  subst hp
  exact ⟨_, .of_run hdef hi hf, h.fired (Dev.fireSource_fired (h.devState.trans hs) (h.armed.trans ha) hb)⟩

/-! ## What makes a source fire -/

theorem Dev.energyWake_of_energy {d : Dev} {p : PortId} (h : d.frameMode p = false) : d.energyWake p = d.fireSource p.val := by
  unfold Dev.energyWake
  rw [if_neg (by simp [h])]

theorem Dev.wakeFrameIn_of_listening {d : Dev} {p : PortId} {b : List Byte} (hl : (d.port p).listenOn = true)
    (hw : d.isWakeFrame b = true) : d.wakeFrameIn p b true = d.fireSource p.val := by
  unfold Dev.wakeFrameIn
  rw [if_pos (by simp [hl, hw])]

theorem Dev.wakeFrameIn_of_badFcs (d : Dev) (p : PortId) (b : List Byte) : d.wakeFrameIn p b false = d := by
  unfold Dev.wakeFrameIn
  rw [if_neg (by simp)]

theorem Dev.perstDeassert_of_low {d : Dev} (h : d.pins.perstN = false) :
    d.perstDeassert = { d with pins := { d.pins with perstN := true, wakeN := false } }.fireSource 2 := by
  unfold Dev.perstDeassert
  rw [if_neg (by simp [h])]

/-- Within its range the receiver counts a pattern whose CRC fails. -/
theorem Dev.wakePattern_of_badCrc {d : Dev} {code : BitVec 32} {crc : Byte}
    (hlo : 340000000 ≤ d.cfgFld Reg.mshWakefreq_freq) (hhi : d.cfgFld Reg.mshWakefreq_freq ≤ 1050000000)
    (hc : wakeCrcOk code crc = false) : d.wakePattern code crc = d.bump Cnt.wakeCrcFail := by
  unfold Dev.wakePattern
  dsimp only
  rw [if_neg (by omega), if_pos (by simp [hc])]

/-- Within its range the receiver fires on one of its two codes. -/
theorem Dev.wakePattern_of_match {d : Dev} {code : BitVec 32} {crc : Byte}
    (hlo : 340000000 ≤ d.cfgFld Reg.mshWakefreq_freq) (hhi : d.cfgFld Reg.mshWakefreq_freq ≤ 1050000000)
    (hc : wakeCrcOk code crc = true) (h0 : code ≠ 0) (hm : code = d.cfg Reg.mshWakecodeA ∨ code = d.cfg Reg.mshWakecodeB) :
    d.wakePattern code crc = ((d.bump Cnt.wakeMatch).raise Reg.mshStat_wake_match).fireSource 3 := by
  unfold Dev.wakePattern
  dsimp only
  rw [if_neg (by omega), if_neg (by simp [hc]), if_pos ⟨h0, hm⟩]

/-- GPIO_SEL fires at the level GPIO_POL, and at no other. -/
theorem Dev.gpioHeld_of_level {d : Dev} {levels : BitVec 16}
    (h : levels.getLsbD (d.cfgFld Reg.pwrWakecfg_gpio_sel) = d.cfgBit Reg.pwrWakecfg_gpio_pol) :
    d.gpioHeld levels = d.fireSource 4 := if_pos h

theorem Dev.gpioHeld_of_other {d : Dev} {levels : BitVec 16}
    (h : levels.getLsbD (d.cfgFld Reg.pwrWakecfg_gpio_sel) ≠ d.cfgBit Reg.pwrWakecfg_gpio_pol) : d.gpioHeld levels = d :=
  if_neg h

theorem Dev.siltExpiry_of_loaded {d : Dev} (hs : d.devState = dsSentinel) (hc : d.cfgFld Reg.pwrTimer_count ≠ 0) :
    d.siltExpiry = (d.siltTo (d.pwr.entrySilt + siltNs (d.cfgFld Reg.pwrTimer_count))).fireSource 5 := by
  unfold Dev.siltExpiry
  rw [if_neg (not_or.mpr ⟨hc, not_not.mpr hs⟩)]

/-! ## Listen windows -/

theorem Dev.listenOpen_of_due {d : Dev} {p : PortId} (hs : d.devState = dsSentinel) (ha : d.pwr.armed = true)
    (hw : d.waking = false) (hf : d.frameMode p = true) (he : (d.cfgFld Reg.pwrWakecfg_en).testBit p.val = true) :
    d.listenOpen p = ((d.siltTo (d.port p).listenAt).modPort p fun x => { x with
      listenOn := true, listenAt := x.listenAt + d.listenPeriod }).bump Cnt.ethListen := by
  unfold Dev.listenOpen
  rw [if_neg (by simp [hs, ha, hw, hf, he])]

theorem Dev.listenClose_of_closed {d : Dev} {p : PortId} (h : (d.port p).listenOn = false) : d.listenClose p = d := by
  unfold Dev.listenClose
  rw [if_pos (by simp [h])]

theorem Dev.listenClose_of_open {d : Dev} {p : PortId} (h : (d.port p).listenOn = true) :
    d.listenClose p = (d.siltTo ((d.port p).listenAt - d.listenPeriod + max 5 (d.cfgFld Reg.pwrListen_win_ms) * 1000000)).modPort
      p fun x => { x with listenOn := false } := by
  unfold Dev.listenClose
  rw [if_neg (by simp [h])]

/-! ## WAKE_N -/

@[simp] theorem Dev.fireSource_pins (d : Dev) (b : Nat) : (d.fireSource b).pins = d.pins := by
  unfold Dev.fireSource
  split
  · rfl
  · dsimp only
    split <;> rfl

theorem Dev.due_of_reached {d e : Dev} {c : Nat} (h : d.reachCycle c = some e) (k : Dev → Dev) : d.due c k = k e := by
  unfold Dev.due
  rw [h]

theorem Dev.setTai_frame (d : Dev) (t : Int) : (d.setTai t).regs = d.regs ∧ (d.setTai t).counters = d.counters := ⟨rfl, rfl⟩

/-- Time that passes leaves the registers and the counters as they are. -/
theorem Dev.reachCycle_frame {d e : Dev} {c : Nat} (h : d.reachCycle c = some e) :
    e.regs = d.regs ∧ e.counters = d.counters := by
  unfold Dev.reachCycle at h
  split at h
  · exact Option.some.inj h ▸ ⟨rfl, rfl⟩
  · extract_lets n v t x at h
    split at h
    · exact nomatch h
    · have he := Option.some.inj h
      obtain ⟨hregs, hcounters⟩ := d.setTai_frame t
      exact ⟨(congrArg Dev.regs he).symm.trans hregs, (congrArg Dev.counters he).symm.trans hcounters⟩

/-- The registers, counters and pins of a device that loses its host. -/
theorem Dev.leaveHosted_lost {d : Dev} (h : d.devState = dsHosted) :
    (d.leaveHosted true).regs = ((d.setFld Reg.hifStat_dev_state dsStandalone).raise Reg.hifStat_link_down).regs ∧
      (d.leaveHosted true).counters = (d.bump Cnt.hostDetach).counters ∧ (d.leaveHosted true).pins = d.pins := by
  have hh : d.hosted = true := beq_iff_eq.mpr h
  unfold Dev.leaveHosted
  rw [if_neg (by simp [hh])]
  exact ⟨rfl, rfl, rfl⟩

/-- The loss of the host ends HOSTED: HIF_STAT shows STANDALONE and latches the loss. -/
theorem Dev.leaveHosted_stat {d : Dev} (h : d.devState = dsHosted) :
    (d.leaveHosted true).devState = dsStandalone ∧ (d.leaveHosted true).bit Reg.hifStat_link_down = true ∧
      (d.leaveHosted true).bit Reg.hifStat_link_up = d.bit Reg.hifStat_link_up := by
  obtain ⟨hregs, -, -⟩ := Dev.leaveHosted_lost h
  have hok : Reg.hifStat_dev_state.ok ∧ Reg.hifStat_link_down.ok := by unfold Field.ok; decide
  have hdown : Reg.hifStat_link_down.apart Reg.hifStat_dev_state ∧ Reg.hifStat_link_down.apart Reg.hifStat_link_up := by
    unfold Field.apart; decide
  have hup : Reg.hifStat_dev_state.apart Reg.hifStat_link_up := by unfold Field.apart; decide
  refine ⟨(Dev.fld_congr hregs _).trans ?_, (Dev.bit_congr hregs _).trans ?_, (Dev.bit_congr hregs _).trans ?_⟩
  · exact (Dev.fld_setFld_ne _ _ _ _ hok.2 hdown.1).trans (Dev.fld_setFld_same _ _ _ hok.1)
  · exact beq_iff_eq.mpr (Dev.fld_setFld_same _ _ _ hok.2)
  · exact congrArg (· == 1) ((Dev.fld_setFld_ne _ _ _ _ hok.2 hdown.2).trans (Dev.fld_setFld_ne _ _ _ _ hok.1 hup))

/-- WAKE_N is released and LINK_UP cleared. -/
def Dev.releaseWakeN (d : Dev) : Dev := { d with pins := { d.pins with wakeN := false } }.setBit Reg.hifStat_link_up false

theorem Dev.releaseWakeN_devState (d : Dev) : d.releaseWakeN.devState = d.devState :=
  Dev.fld_setFld_ne _ _ _ _ (by unfold Field.ok; decide) (by unfold Field.apart; decide)

theorem Dev.releaseWakeN_link_up (d : Dev) : d.releaseWakeN.bit Reg.hifStat_link_up = false :=
  congrArg (· == 1) (Dev.fld_setFld_same _ _ _ (by unfold Field.ok; decide))

theorem Dev.wakeNEnd_of_idle {d : Dev} (h : d.pins.wakeN = false) : d.wakeNEnd = d := by
  unfold Dev.wakeNEnd
  rw [if_pos (by simp [h])]

theorem Dev.wakeNEnd_of_due {d e : Dev} (h : d.pins.wakeN = true)
    (he : d.reachCycle (d.pwr.wakeNFrom + cyclesPerS) = some e) : d.wakeNEnd = e.releaseWakeN.leaveHosted true := by
  unfold Dev.wakeNEnd
  rw [if_neg (by simp [h]), Dev.due_of_reached he]
  rfl

/-- Once WAKE_N has been driven for one second, HOSTED ends (R455). -/
theorem Dev.wakeNEnd_shows {d e : Dev} (h : d.pins.wakeN = true) (hs : d.devState = dsHosted)
    (he : d.reachCycle (d.pwr.wakeNFrom + cyclesPerS) = some e) :
    d.wakeNEnd.pins.wakeN = false ∧ d.wakeNEnd.devState = dsStandalone ∧ d.wakeNEnd.bit Reg.hifStat_link_up = false ∧
      d.wakeNEnd.bit Reg.hifStat_link_down = true ∧
      d.wakeNEnd.counter Cnt.hostDetach = d.counter Cnt.hostDetach + 1 := by
  obtain ⟨hregs, hcounters⟩ := Dev.reachCycle_frame he
  have hr : e.releaseWakeN.devState = dsHosted :=
    e.releaseWakeN_devState.trans ((Dev.fld_congr hregs Reg.hifStat_dev_state).trans hs)
  obtain ⟨-, hlcounters, hlpins⟩ := Dev.leaveHosted_lost hr
  obtain ⟨hstate, hdown, hup⟩ := Dev.leaveHosted_stat hr
  have hcnt : e.releaseWakeN.counter Cnt.hostDetach = d.counter Cnt.hostDetach := Dev.counter_congr hcounters _
  rw [Dev.wakeNEnd_of_due h he]
  refine ⟨congrArg Pins.wakeN hlpins, hstate, hup.trans e.releaseWakeN_link_up, hdown, ?_⟩
  rw [Dev.counter_congr hlcounters, Dev.bump, Dev.counter_bumpBy, if_pos rfl, hcnt]
  rfl

/-! ## The obligation -/

/-- Settles O58: each command is its equation in the case at hand; a source that fires does so on a device that shows the
wake logic what the state's device does. -/
theorem wakeSources : Obligations.WakeSources := by
  unfold Obligations.WakeSources
  intro s hdef
  refine ⟨fun c he hq => ⟨_, .of_run hdef rfl rfl, Dev.sentinelArm_shows he hq⟩, fun hs ha => ?_,
    fun p => ⟨fun h => .of_run hdef rfl (Dev.listenClose_of_closed h), fun h => .of_run hdef rfl (Dev.listenClose_of_open h)⟩,
    fun h => ?_, fun e h hs he => ⟨_, .of_run hdef rfl rfl, Dev.wakeNEnd_shows h hs he⟩,
    fun h => .of_run hdef rfl (Dev.wakeNEnd_of_idle h)⟩
  · intro FiresOn Fires
    refine ⟨fun p hp => ?_, fun p b hl hw => ⟨?_, ?_⟩, fun hp => ?_,
      fun code crc hlo hhi => ⟨fun hc h0 hm => ?_, fun hc => ?_⟩, fun levels => ⟨fun hl => ?_, fun hl => ?_⟩, fun hc => ?_, fun p hw hf he => ?_⟩
    · exact Gives.fires hdef hs ha rfl (Dev.energyWake_of_energy hp) (.refl _) rfl (by omega)
    · exact Gives.fires hdef hs ha rfl (Dev.wakeFrameIn_of_listening hl hw) (.refl _) rfl (by omega)
    · exact .of_run hdef rfl (Dev.wakeFrameIn_of_badFcs _ p b)
    · exact Gives.fires hdef hs ha rfl (Dev.perstDeassert_of_low hp) (.pins _ _) rfl (by decide)
    · exact Gives.fires hdef hs ha rfl (Dev.wakePattern_of_match hlo hhi hc h0 hm) (.wakeMatch _) rfl (by decide)
    · exact .of_run hdef rfl (Dev.wakePattern_of_badCrc hlo hhi hc)
    · exact Gives.fires hdef hs ha rfl (Dev.gpioHeld_of_level hl) (.refl _) rfl (by decide)
    · exact .of_run hdef rfl (Dev.gpioHeld_of_other hl)
    · exact Gives.fires hdef hs ha rfl (Dev.siltExpiry_of_loaded hs hc) (.siltTo _ _) rfl (by decide)
    · exact .of_run hdef rfl (Dev.listenOpen_of_due hs ha hw hf he)
  · exact ⟨_, .of_run hdef rfl (Dev.perstDeassert_of_low h), congrArg Pins.perstN (Dev.fireSource_pins _ _),
      congrArg Pins.wakeN (Dev.fireSource_pins _ _)⟩

end Sys2Proof.Machine
end

section
/-! # Registers, fields and the books, as the statements of this part use them -/

namespace Sys2Proof.Machine

/-! ## Fields that are given by name -/

/-- Do two fields lie within their registers and share no bit? It computes, so that fields given by name need no proof. -/
def Field.separate (f g : Field) : Bool :=
  decide (f.lo + f.n ≤ 32) && (f.addr != g.addr || decide (g.lo + g.n ≤ f.lo) || decide (f.lo + f.n ≤ g.lo))

theorem Field.separate_iff (f g : Field) : f.separate g = true ↔ f.ok ∧ f.apart g := by
  unfold Field.separate Field.ok Field.apart
  simp [or_assoc]

theorem Dev.fld_setFld_of_separate (d : Dev) (f g : Field) (v : Nat) (h : f.separate g = true) :
    (d.setFld f v).fld g = d.fld g :=
  have ⟨hok, hapart⟩ := (Field.separate_iff f g).mp h
  Dev.fld_setFld_ne _ _ _ _ hok hapart

theorem Dev.bit_setFld_of_separate (d : Dev) (f g : Field) (v : Nat) (h : f.separate g = true) :
    (d.setFld f v).bit g = d.bit g := congrArg (· == 1) (d.fld_setFld_of_separate f g v h)

theorem Dev.fld_setFld_self (d : Dev) (f : Field) (v : Nat) (h : f.lo + f.n ≤ 32) :
    (d.setFld f v).fld f = v % 2 ^ f.n := Dev.fld_setFld_same _ _ _ h

theorem Dev.bit_setBit_self (d : Dev) (f : Field) (b : Bool) (h : f.lo + f.n ≤ 32 ∧ f.n = 1 := by decide) :
    (d.setBit f b).bit f = b := by
  unfold Dev.bit Dev.setBit
  rw [Dev.fld_setFld_same _ _ _ h.1, h.2]
  cases b <;> rfl

theorem Dev.bit_raise_self (d : Dev) (f : Field) (h : f.lo + f.n ≤ 32 ∧ f.n = 1 := by decide) : (d.raise f).bit f = true :=
  d.bit_setBit_self f true h

/-- A register that a field does not lie in stays. -/
theorem Dev.reg_setFld_of_ne (d : Dev) (f : Field) (a v : Nat) (h : a ≠ f.addr) :
    (d.setFld f v).reg a = d.reg a := Dev.reg_setFld_ne _ _ _ _ h

end Sys2Proof.Machine
end

section
/-! # What a command is to the machine (R516) -/

namespace Sys2Proof.Machine

/-- Every command but the reset pins and the TAP instructions takes effect only while the state is defined. -/
theorem exec_eq_run {c : Instr} (h : tapOrReset c = false) : ∃ f : Dev → Dev, ∀ s, exec c s = run f s := by
  cases c with
  | powerOnReset | sysRstN | porNAssert | sysRstNAssert | extest | samplePreload | idcode | clamp | highz | bypass => cases h
  | _ => exact ⟨_, fun _ => rfl⟩

theorem exec_eq_runReset {c : Instr} (h : tapOrReset c = true) : ∃ f : Dev → Dev, ∀ s, exec c s = runReset f s := by
  cases c with
  | powerOnReset a b c d => exact ⟨fun x => x.powerOn a b c d, fun _ => rfl⟩
  | sysRstN a => exact ⟨fun d => d.sysReset a, fun _ => rfl⟩
  | porNAssert => exact ⟨Dev.porAssert, fun _ => rfl⟩
  | sysRstNAssert => exact ⟨Dev.sysAssert, fun _ => rfl⟩
  | extest => exact ⟨fun d => d.tapSelect 0 true, fun _ => rfl⟩
  | samplePreload l => exact ⟨fun d => d.tapSample l, fun _ => rfl⟩
  | idcode => exact ⟨Dev.tapIdcode, fun _ => rfl⟩
  | clamp => exact ⟨fun d => d.tapSelect 3 true, fun _ => rfl⟩
  | highz => exact ⟨fun d => d.tapSelect 4 true, fun _ => rfl⟩
  | bypass o => exact ⟨fun d => d.tapSelect (tapBypass o) false, fun _ => rfl⟩
  | _ => exact Bool.noConfusion h

/-- A command either has an effect on the device, which then goes on by itself, or finds the state undefined. -/
theorem exec_cases (c : Instr) (s : State) :
    (∃ d : Dev, exec c s = .next { s with dev := d.settle (s.dev.bit Reg.glbFault_dram_lost) }) ∨
      (tapOrReset c = false ∧ s.dev.obs.tapUndef = true ∧ exec c s = .fault .stateUndefined) := by
  cases hc : tapOrReset c with
  | true =>
    obtain ⟨f, hf⟩ := exec_eq_runReset hc
    exact .inl ⟨f s.dev, hf s⟩
  | false =>
    obtain ⟨f, hf⟩ := exec_eq_run hc
    cases hu : s.dev.obs.tapUndef with
    | true => exact .inr ⟨rfl, rfl, (hf s).trans (run_undefined f hu)⟩
    | false => exact .inl ⟨f s.dev, (hf s).trans (run_defined f hu)⟩

theorem step_of_empty {s : State} (h : s.pending = []) : step s = .next { s with dev := s.dev.idle } := by
  unfold step
  rw [h]

theorem step_of_cons {s : State} {c : Instr} {q : List Instr} (h : s.pending = c :: q) :
    step s = exec c { s with pending := q } := by
  unfold step
  rw [h]

/-- Settles O1: the two cases of the queue. -/
theorem stepRunsFront : Obligations.StepRunsFront :=
  ⟨fun _ _ _ h => step_of_cons h, fun _ h => step_of_empty h⟩

/-- Settles O2: an outcome that has a next state changes the device alone. -/
theorem execKeepsQueue : Obligations.ExecKeepsQueue := by
  intro c s t h
  obtain ⟨d, hd⟩ | ⟨-, -, hf⟩ := exec_cases c s
  · rw [hd] at h
    injection h with h
    rw [← h]
  · rw [hf] at h
    cases h

/-- Settles O3: a command stops where it is neither a reset nor a TAP instruction and the state is undefined, and nowhere
else. -/
theorem undefinedStateStops : Obligations.UndefinedStateStops := by
  refine ⟨fun c s hc hu => ?_, fun c s h => ?_⟩
  · obtain ⟨f, hf⟩ := exec_eq_run hc
    exact (hf s).trans (run_undefined f hu)
  · obtain ⟨d, hd⟩ | ⟨hc, hu, -⟩ := exec_cases c s
    · exact ⟨_, hd⟩
    · rcases h with h | h
      · exact absurd (hu.symm.trans h) (by decide)
      · exact absurd (hc.symm.trans h) (by decide)

/-! ## The pins -/

/-- The registers that `showPower` sets before the pins follow. -/
def Dev.showRails (d : Dev) : Dev :=
  ((((d.setFld Reg.pwrRailstat_pg d.railsGood).setBit Reg.clkStat_ref_ok d.mainUp).setBit Reg.clkStat_pll_lock d.mainUp).setBit
    Reg.clkStat_xo32k (d.pwr.vinUp || d.pwr.extSupply)).setFld Reg.pwrFltCause_resets d.recentResets.length

/-- The pins of a device that shows its rails. -/
def Dev.followPins (e : Dev) (up : Bool) (pg : Nat) : Pins :=
  { e.pins with faultN := e.faultHigh, pgOut := up && e.operating && pg == 0x7F, rstOutN := e.rstOutHigh }

theorem Dev.showPower_eq (d : Dev) :
    d.showPower = { d.showRails with pins := d.showRails.followPins d.mainUp d.railsGood } := rfl

theorem Dev.railsGood_congr {d e : Dev} (hp : e.pwr = d.pwr) (hs : e.devState = d.devState) : e.railsGood = d.railsGood := by
  unfold Dev.railsGood
  rw [hp, hs]

theorem Dev.showRails_devState (d : Dev) : d.showRails.devState = d.devState := by
  show d.showRails.fld Reg.hifStat_dev_state = d.fld Reg.hifStat_dev_state
  unfold Dev.showRails Dev.setBit
  simp (disch := decide) only [Dev.fld_setFld_of_separate]

theorem Dev.followPins_pinsFollow (e : Dev) : Dev.PinsFollow { e with pins := e.followPins e.mainUp e.railsGood } :=
  ⟨rfl, rfl, rfl⟩

/-- After the pins follow they show the state (R434, R498, R526). -/
theorem Dev.showPower_pinsFollow (d : Dev) : d.showPower.PinsFollow := by
  have hp : d.showRails.pwr = d.pwr := rfl
  rw [d.showPower_eq, ← Dev.mainUp_congr hp d.showRails_devState, ← Dev.railsGood_congr hp d.showRails_devState]
  exact d.showRails.followPins_pinsFollow

/-- Settles O4: a command and a cycle of the main die both end with the pins following; a cycle of a device that is down or
undefined changes nothing. -/
theorem pinsFollowKept : Obligations.PinsFollowKept := by
  intro s t hs ht
  cases hq : s.pending with
  | nil =>
    rw [step_of_empty hq] at ht
    injection ht with ht
    rw [← ht]
    show s.dev.idle.PinsFollow
    unfold Dev.idle
    split
    · exact Dev.showPower_pinsFollow _
    · exact hs
  | cons c q =>
    rw [step_of_cons hq] at ht
    obtain ⟨d, hd⟩ | ⟨-, -, hf⟩ := exec_cases c { s with pending := q }
    · rw [hd] at ht
      injection ht with ht
      rw [← ht]
      exact Dev.showPower_pinsFollow _
    · rw [hf] at ht
      cases ht

/-- Settles O5. -/
theorem pinsFollowAtReset : Obligations.PinsFollowAtReset := by
  unfold Obligations.PinsFollowAtReset Dev.PinsFollow
  decide +kernel

/-! ## After reset -/

/-- No boundary has anything but Reset values in force. -/
theorem cfg_reset (a : Nat) : State.reset.dev.cfg a = resetVal a := by
  unfold Dev.cfg
  split <;> rfl

/-- Settles O6: nothing in the tables of the machine differs from its Reset value. -/
theorem resetState : Obligations.ResetState :=
  ⟨rfl, by decide +kernel, by decide +kernel, fun a => ⟨rfl, cfg_reset a⟩, fun _ => rfl, rfl, rfl, rfl, rfl, rfl, rfl⟩

end Sys2Proof.Machine
end

section
/-! # What follows every command at once (R498, Table 16.6) -/

namespace Sys2Proof.Machine

/-! ## A calm device has nothing to go on with -/

theorem Dev.drainEvents_of_none {d : Dev} (hq : d.hif.eventQ = []) (hl : d.hif.lost = 0) (n : Nat) :
    Dev.drainEvents n d = d := by
  cases n with
  | zero => rfl
  | succ n =>
    unfold Dev.drainEvents
    split
    · rfl
    · rw [if_neg (by simp [hl]), hq]

theorem Dev.drainCompl_of_none {d : Dev} (h : d.hif.complQ = []) (n : Nat) : Dev.drainCompl n d = d := by
  cases n with
  | zero => rfl
  | succ n =>
    unfold Dev.drainCompl
    split
    · rfl
    · rw [h]

theorem Dev.drainStamps_of_none {d : Dev} {p : PortId} (h : (if p = 0 then d.tim.stamps0 else d.tim.stamps1) = []) (n : Nat) :
    Dev.drainStamps p n d = d := by
  cases n with
  | zero => rfl
  | succ n =>
    unfold Dev.drainStamps
    split
    · rfl
    · rw [h]

theorem Dev.pumpIn_of_none {d : Dev} {p : PortId} (h : (d.port p).inBuf = []) (n : Nat) : Dev.pumpIn p n d = d := by
  cases n with
  | zero => rfl
  | succ n =>
    unfold Dev.pumpIn
    rw [h]

theorem Dev.pumpTx_of_none {d : Dev} (h : d.hif.txWait = []) : d.pumpTx = d := by
  unfold Dev.pumpTx
  dsimp only
  rw [h, List.foldl_nil, ← h]

theorem Dev.pump_of_none {d : Dev} (h0 : d.eth.p0.inBuf = []) (h1 : d.eth.p1.inBuf = []) (ht : d.hif.txWait = []) :
    d.pump = d := by
  unfold Dev.pump
  dsimp only
  rw [Dev.pumpIn_of_none (p := 0) h0, Dev.pumpIn_of_none (p := 1) h1, Dev.pumpTx_of_none ht]

theorem Dev.sendComposed_of_none {d : Dev} (h : d.tim.compose = []) : d.sendComposed = d := by
  unfold Dev.sendComposed
  rw [h, List.foldl_nil, ← h]

theorem Dev.copyDone_of_none {d : Dev} (h : d.fwd.copying = none) : d.copyDone = d := by
  unfold Dev.copyDone
  rw [h]

theorem Dev.pinApply_of_none {d : Dev} (h : d.kao.pinPend = none) : d.pinApply = d := by
  unfold Dev.pinApply
  rw [h]

theorem Dev.localPump_of_not_standalone {d : Dev} (h : d.devState ≠ dsStandalone) : d.localPump = d := by
  unfold Dev.localPump
  rw [if_pos (by simpa using h)]

theorem Dev.powerPump_of_none {d : Dev} (hl : d.pwr.leanCmd = none) (he : ∀ c, d.pwr.entering ≠ some (c, false)) :
    d.powerPump = d := by
  unfold Dev.powerPump
  dsimp only
  rw [hl]
  split
  · next c h => exact absurd h (he c)
  · rfl

theorem Dev.Calm.goOn {d : Dev} (h : d.Calm) : d.goOn = d := by
  have hs : d.devState ≠ dsStandalone := by rw [h.hosted]; decide
  unfold Dev.goOn
  dsimp only
  rw [Dev.localPump_of_not_standalone hs, Dev.powerPump_of_none h.lean h.entering, Dev.sendComposed_of_none h.compose,
    Dev.copyDone_of_none h.copying, Dev.pump_of_none h.in0 h.in1 h.tx, Dev.pinApply_of_none h.pin,
    Dev.drainEvents_of_none h.events h.lost, Dev.drainStamps_of_none (p := 0) h.stamps0,
    Dev.drainStamps_of_none (p := 1) h.stamps1, Dev.drainCompl_of_none h.compl]

/-- The device whose upset bits have been used up, and which no longer holds domains on that their policy has turned on. -/
def Dev.dropUpsets (d : Dev) : Dev := { d with fwd := { d.fwd with upsets := [] } }.dropWoken

theorem Dev.Calm.dropUpsets {d : Dev} (h : d.Calm) : d.dropUpsets.Calm where
  hosted := h.hosted
  lean := h.lean
  entering := h.entering
  in0 := h.in0
  in1 := h.in1
  tx := h.tx
  pin := h.pin
  compose := h.compose
  copying := h.copying
  events := h.events
  lost := h.lost
  stamps0 := h.stamps0
  stamps1 := h.stamps1
  compl := h.compl

/-! ## What shows the state -/

/-- From `d` to `e` nothing has changed but the books, the registers that show what the device does, and the count of
DEGRADED events. -/
structure Dev.Shows (d e : Dev) : Prop where
  eff : e.eff = d.eff
  chans : e.chans = d.chans
  r0 : e.r0 = d.r0
  r1 : e.r1 = d.r1
  r2 : e.r2 = d.r2
  sch : e.sch = d.sch
  msh : e.msh = d.msh
  tim : e.tim = d.tim
  fwd : e.fwd = d.fwd
  eth : e.eth = d.eth
  tsk : e.tsk = d.tsk
  kao : e.kao = d.kao
  dmc : e.dmc = d.dmc
  pwr : e.pwr = d.pwr
  boot : e.boot = { d.boot with localEnd := e.boot.localEnd }
  decodeQ : e.decodeQ = d.decodeQ
  vit : e.vit = d.vit
  freeCtr : e.freeCtr = d.freeCtr
  reg : ∀ a, ¬ shownAddr a → e.reg a = d.reg a
  devState : e.devState = d.devState
  counter : ∀ c, ¬ bookCnt c → c ≠ Cnt.degraded → e.counter c = d.counter c

theorem Dev.Shows.trans {a b c : Dev} (h : a.Shows b) (k : b.Shows c) : a.Shows c where
  eff := k.eff.trans h.eff
  chans := k.chans.trans h.chans
  r0 := k.r0.trans h.r0
  r1 := k.r1.trans h.r1
  r2 := k.r2.trans h.r2
  sch := k.sch.trans h.sch
  msh := k.msh.trans h.msh
  tim := k.tim.trans h.tim
  fwd := k.fwd.trans h.fwd
  eth := k.eth.trans h.eth
  tsk := k.tsk.trans h.tsk
  kao := k.kao.trans h.kao
  dmc := k.dmc.trans h.dmc
  pwr := k.pwr.trans h.pwr
  boot := by rw [k.boot, h.boot]
  decodeQ := k.decodeQ.trans h.decodeQ
  vit := k.vit.trans h.vit
  freeCtr := k.freeCtr.trans h.freeCtr
  reg := fun a ha => (k.reg a ha).trans (h.reg a ha)
  devState := k.devState.trans h.devState
  counter := fun i hi hd => (k.counter i hi hd).trans (h.counter i hi hd)

theorem Dev.Shows.of_book {d e : Dev} (h : d.Book e) : d.Shows e :=
  { h with
    reg := fun a ha => h.reg a fun hb => ha (.inl hb)
    counter := fun i hi _ => h.counter i hi }

theorem Dev.Shows.refl (d : Dev) : d.Shows d := .of_book (.refl d)

/-- The registers that follow what the device does, apart from those of the books. -/
def shownRegs : List Nat :=
  [Reg.glbFault, Reg.pwrRailstat, Reg.clkStat, Reg.pwrFltCause, Reg.ethPairstat, Reg.pplVerstat]

theorem shownAddr_of_mem {a : Nat} (h : a ∈ shownRegs) : shownAddr a := by
  unfold shownAddr
  exact .inr (by simpa [shownRegs] using h)

/-- A register that shows what the device does is set. -/
theorem Dev.Shows.setReg (d : Dev) (a : Nat) (v : Word) (ha : a ∈ shownRegs) : d.Shows (d.setReg a v) :=
  have hs : Reg.hifStat ≠ a := fun h : Reg.hifStat = a => absurd (h ▸ ha) (by decide)
  { Dev.Shows.refl d with
    reg := fun b hb => d.reg_setReg_ne (fun h : b = a => hb (shownAddr_of_mem (h ▸ ha))) v
    devState := congrArg Reg.hifStat_dev_state.of (d.reg_setReg_ne hs v)
    counter := fun _ _ _ => rfl }

theorem Dev.Shows.setFld (d : Dev) (f : Field) (v : Nat) (ha : f.addr ∈ shownRegs := by decide) :
    d.Shows (d.setFld f v) := .setReg d _ _ ha

theorem Dev.Shows.degraded (d : Dev) : d.Shows (d.bump Cnt.degraded) :=
  { Dev.Shows.refl d with
    reg := fun _ _ => rfl
    devState := rfl
    counter := fun c _ hc => by rw [Dev.bump, Dev.counter_bumpBy, if_neg hc] }

theorem Dev.Shows.pins (d : Dev) (p : Pins) : d.Shows { d with pins := p } :=
  { Dev.Shows.refl d with
    reg := fun _ _ => rfl
    devState := rfl
    counter := fun _ _ _ => rfl }

theorem Dev.Shows.showPair (d : Dev) : d.Shows d.showPair :=
  (Dev.Shows.setFld d Reg.ethPairstat_carry _).trans
    (.setFld _ Reg.ethPairstat_stepping _)

theorem Dev.Shows.showHeld (d : Dev) : d.Shows d.showHeld :=
  .setFld d Reg.pplVerstat_held _

theorem Dev.Shows.showRails (d : Dev) : d.Shows d.showRails :=
  ((((Dev.Shows.setFld d Reg.pwrRailstat_pg _).trans
    (.setFld _ Reg.clkStat_ref_ok _)).trans
    (.setFld _ Reg.clkStat_pll_lock _)).trans
    (.setFld _ Reg.clkStat_xo32k _)).trans
    (.setFld _ Reg.pwrFltCause_resets _)

theorem Dev.Shows.showPower (d : Dev) : d.Shows d.showPower := by
  rw [d.showPower_eq]
  exact (Dev.Shows.showRails d).trans (.pins _ _)

theorem Dev.reg_pins (d : Dev) (p : Pins) (a : Nat) : Dev.reg { d with pins := p } a = d.reg a := rfl

/-- The status registers of the rails are the only ones that follow with the pins. -/
theorem Dev.showPower_reg {d : Dev} {a : Nat} (h : a ≠ Reg.pwrRailstat ∧ a ≠ Reg.clkStat ∧ a ≠ Reg.pwrFltCause) :
    d.showPower.reg a = d.reg a := by
  obtain ⟨hrail, hclk, hflt⟩ := h
  rw [d.showPower_eq, Dev.reg_pins]
  unfold Dev.showRails Dev.setBit
  rw [Dev.reg_setFld_ne _ _ _ _ hflt, Dev.reg_setFld_ne _ _ _ _ hclk, Dev.reg_setFld_ne _ _ _ _ hclk,
    Dev.reg_setFld_ne _ _ _ _ hclk, Dev.reg_setFld_ne _ _ _ _ hrail]

/-! ## GLB_FAULT -/

/-- The conditions of GLB_FAULT as its new value, with DRAM_LOST as it stands. -/
def Dev.faultNew (d : Dev) : Nat := ofBits (d.faultBits ++ [d.bit Reg.glbFault_dram_lost])

/-- One bit of GLB_FAULT that rises counts, and writes DEGRADED. -/
def Dev.degrade (new old : Nat) (d : Dev) (b : Nat) : Dev :=
  if new.testBit b && !old.testBit b then (d.bump Cnt.degraded).event 0x0044 b [(12, le 4 new)] else d

theorem Dev.faultUpdate_eq (d : Dev) (lost : Bool) :
    d.faultUpdate lost = (List.range 9).foldl
      (Dev.degrade d.faultNew (d.fld ⟨Reg.glbFault, 0, 8⟩ + if lost then 256 else 0))
      (d.setReg Reg.glbFault (BitVec.ofNat 32 d.faultNew)) := rfl

/-- What rises shows itself in the books and the count of DEGRADED alone, and leaves GLB_FAULT as it is. -/
theorem Dev.degrade_shows (new old b : Nat) (d : Dev) :
    d.Shows (Dev.degrade new old d b) ∧ (Dev.degrade new old d b).reg Reg.glbFault = d.reg Reg.glbFault := by
  unfold Dev.degrade
  split
  · have h := Dev.Book.event (d.bump Cnt.degraded) 0x0044 b [(12, le 4 new)]
    exact ⟨(Dev.Shows.degraded d).trans (.of_book h), h.reg _ (by unfold bookAddr; decide)⟩
  · exact ⟨.refl d, rfl⟩

theorem Dev.foldl_degrade_shows (new old : Nat) (l : List Nat) (d : Dev) :
    d.Shows (l.foldl (Dev.degrade new old) d) ∧
      (l.foldl (Dev.degrade new old) d).reg Reg.glbFault = d.reg Reg.glbFault := by
  induction l generalizing d with
  | nil => exact ⟨.refl d, rfl⟩
  | cons b l ih =>
    obtain ⟨hs, hr⟩ := Dev.degrade_shows new old b d
    obtain ⟨is, ir⟩ := ih (Dev.degrade new old d b)
    exact ⟨hs.trans is, ir.trans hr⟩

theorem Dev.faultUpdate_shows (d : Dev) (lost : Bool) :
    d.Shows (d.faultUpdate lost) ∧ (d.faultUpdate lost).reg Reg.glbFault = BitVec.ofNat 32 d.faultNew := by
  rw [d.faultUpdate_eq]
  obtain ⟨hs, hr⟩ := Dev.foldl_degrade_shows d.faultNew (d.fld ⟨Reg.glbFault, 0, 8⟩ + if lost then 256 else 0) (List.range 9)
    (d.setReg Reg.glbFault (BitVec.ofNat 32 d.faultNew))
  exact ⟨(Dev.Shows.setReg d _ _ (by decide)).trans hs, hr.trans (d.reg_setReg_same _ _)⟩

/-- The conditions of GLB_FAULT look at the ports and at registers, but neither at ETH_PAIRSTAT nor at PPL_VERSTAT. -/
theorem Dev.faultNew_congr {d e : Dev} (he : e.eth = d.eth)
    (h : ∀ a, a ≠ Reg.ethPairstat → a ≠ Reg.pplVerstat → e.reg a = d.reg a) : e.faultNew = d.faultNew := by
  have hf (f : Field) (h1 : f.addr ≠ Reg.ethPairstat) (h2 : f.addr ≠ Reg.pplVerstat) : e.fld f = d.fld f :=
    congrArg f.of (h _ h1 h2)
  have hb (f : Field) (h1 : f.addr ≠ Reg.ethPairstat) (h2 : f.addr ≠ Reg.pplVerstat) : e.bit f = d.bit f :=
    congrArg (· == 1) (hf f h1 h2)
  have hrf : ∀ r : RadioId, Reg.rfStat r ≠ Reg.ethPairstat ∧ Reg.rfStat r ≠ Reg.pplVerstat := by decide
  have hw (w : Nat) : Reg.tskWstat w ≠ Reg.ethPairstat ∧ Reg.tskWstat w ≠ Reg.pplVerstat := by
    unfold Reg.tskWstat Reg.ethPairstat Reg.pplVerstat
    omega
  have hradio (r : RadioId) : e.rfState r = d.rfState r ∧ e.inhibited r = d.inhibited r := by
    obtain ⟨h1, h2⟩ := hrf r
    unfold Dev.rfState Dev.inhibited
    exact ⟨hf _ h1 h2, by rw [hb _ h1 h2, hb _ h1 h2]⟩
  have hworker (w : Nat) : e.fld (Reg.tskWstat_state w) = d.fld (Reg.tskWstat_state w) := hf _ (hw w).1 (hw w).2
  have hop : e.operating = d.operating := by
    unfold Dev.operating Dev.devState
    rw [hf _ (by decide) (by decide)]
  have hpair : e.pairOn = d.pairOn := by
    unfold Dev.pairOn Dev.pairWord
    rw [he, h _ (by decide) (by decide)]
  have hlink : e.linkUp 0 = d.linkUp 0 ∧ e.linkUp 1 = d.linkUp 1 :=
    ⟨hb _ (by decide) (by decide), hb _ (by decide) (by decide)⟩
  unfold Dev.faultNew Dev.faultBits
  simp only [hradio, hworker, hop, hpair, hlink]
  rw [hf Reg.tskCcstat_stby (by decide) (by decide), hb Reg.kaoStat_lane0_off (by decide) (by decide),
    hb Reg.kaoStat_lane1_off (by decide) (by decide), hf Reg.pwrRailstat_ph_fail (by decide) (by decide),
    hb Reg.schStat_nocarry (by decide) (by decide), hb Reg.dmcStat_ca_fail (by decide) (by decide),
    hb Reg.glbFault_dram_lost (by decide) (by decide)]

/-! ## A calm device settles -/

/-- The device that settling has brought to its last step. -/
def Dev.settling (lost : Bool) (d : Dev) : Dev := Dev.drainEvents 300 (d.dropUpsets.showPair.showHeld.faultUpdate lost)

theorem Dev.settling_shows (lost : Bool) (d : Dev) : d.dropUpsets.Shows (d.settling lost) :=
  (((Dev.Shows.showPair _).trans (.showHeld _)).trans (Dev.faultUpdate_shows _ lost).1).trans
    (.of_book (.drainEvents _ _))

theorem Dev.settling_glbFault (lost : Bool) (d : Dev) : (d.settling lost).reg Reg.glbFault = BitVec.ofNat 32 d.faultNew := by
  have hdrop : d.dropUpsets.faultNew = d.faultNew := Dev.faultNew_congr rfl fun _ _ _ => rfl
  have hshow : d.dropUpsets.showPair.showHeld.faultNew = d.dropUpsets.faultNew :=
    Dev.faultNew_congr rfl fun a h1 h2 =>
      (Dev.reg_setFld_ne _ _ _ _ h2).trans ((Dev.reg_setFld_ne _ _ _ _ h1).trans (Dev.reg_setFld_ne _ _ _ _ h1))
  have hupd := (Dev.faultUpdate_shows d.dropUpsets.showPair.showHeld lost).2
  rw [hshow, hdrop] at hupd
  exact ((Dev.Book.drainEvents 300 _).reg _ (by unfold bookAddr; decide)).trans hupd

theorem Dev.Calm.settle {d : Dev} (h : d.Calm) (hu : d.mainUp = true) (lost : Bool) :
    d.settle lost = (d.settling lost).showPower := by
  have hdrop : d.dropUpsets.mainUp = true := hu
  have hfault := (((Dev.Shows.showPair d.dropUpsets).trans (.showHeld _)).trans (Dev.faultUpdate_shows _ lost).1)
  have hup : (d.dropUpsets.showPair.showHeld.faultUpdate lost).mainUp = true :=
    (Dev.mainUp_congr hfault.pwr hfault.devState).trans hdrop
  unfold Dev.settle
  dsimp only
  rw [← Dev.dropUpsets, if_pos hdrop, h.dropUpsets.goOn, if_pos hup]
  rfl

/-- Settles O7. -/
theorem settleKeeps : Obligations.SettleKeeps := by
  intro d lost hc hu
  have h : d.dropUpsets.Shows (d.settle lost) := by
    rw [hc.settle hu]
    exact (d.settling_shows lost).trans (.showPower _)
  exact ⟨h.r0, h.r1, h.r2, h.chans, h.eff, h.sch, h.msh, h.tim, h.fwd, h.eth, h.tsk, h.kao, h.dmc, h.boot, h.decodeQ, h.vit,
    h.freeCtr, h.devState, h.pwr, h.reg, h.counter⟩

/-- Settles O8. -/
theorem glbFaultFollows : Obligations.GlbFaultFollows := by
  intro d lost hc hu
  rw [hc.settle hu, Dev.showPower_reg (by decide)]
  exact d.settling_glbFault lost

end Sys2Proof.Machine
end

section
/-! # Rings, completions and events (R401, R405, R409, R420, R421) -/

namespace Sys2Proof.Machine

/-! ## Reading a ring -/

@[simp] theorem Dev.ring_setRing_same (d : Dev) (i : Nat) (r : Ring) : (d.setRing i r).ring i = r :=
  Sparse.get_put_same _ _ _ _

theorem Dev.ring_setRing_ne (d : Dev) {i j : Nat} (r : Ring) (h : j ≠ i) : (d.setRing i r).ring j = d.ring j :=
  Sparse.get_put_ne _ _ _ _ h

/-- The rings depend on nothing but the host interface. -/
theorem Dev.ring_congr {d e : Dev} (h : e.hif.rings = d.hif.rings) (i : Nat) : e.ring i = d.ring i :=
  congrArg (Sparse.get emptyRing · i) h

theorem Dev.setRingDev_ring (d : Dev) (i k : Nat) : (d.setRingDev i k).ring i = { d.ring i with dev := k } :=
  (Dev.ring_congr (d := d.setRing i { d.ring i with dev := k }) rfl i).trans (d.ring_setRing_same i _)

theorem Dev.setRingDev_ring_ne (d : Dev) {i j : Nat} (k : Nat) (h : j ≠ i) : (d.setRingDev i k).ring j = d.ring j :=
  (Dev.ring_congr (d := d.setRing i { d.ring i with dev := k }) rfl j).trans (d.ring_setRing_ne _ h)

/-! ## Fetching -/

/-- The journal takes a command. -/
def Dev.journal (d : Dev) (c : Cmd) : Dev := { d with tsk := { d.tsk with journal := d.tsk.journal ++ [c] } }

/-- Fetching from a host's ring. -/
theorem Dev.fetch_of_hosted {d : Dev} (op : Half) (h : CmdHdr) (hd : d.hosted = true) :
    d.fetch op h = (⟨op, h, (d.ring 0).dev, d.hif.epoch⟩,
      ((d.journal ⟨op, h, (d.ring 0).dev, d.hif.epoch⟩).setRingDev 0 ((d.ring 0).dev + 1)).setRing 0
        { d.ring 0 with dev := (d.ring 0).dev + 1, back := (d.ring 0).back ++ [(d.ring 0).dev] }) := by
  have hj (c : Cmd) : (d.journal c).hosted = true := hd
  unfold Dev.fetch
  dsimp only
  rw [if_pos hd, ← Dev.journal, if_pos (hj _)]
  rfl

/-- Settles O10. -/
theorem fetchTakesCommand : Obligations.FetchTakesCommand := by
  intro d op h hd c e
  have hf : d.fetch op h = _ := Dev.fetch_of_hosted op h hd
  subst e
  rw [hf]
  refine ⟨rfl, congrArg Ring.dev (Dev.ring_setRing_same _ _ _), Dev.fld_setFld_self _ _ _ (by decide), rfl, fun i hi => ?_⟩
  rw [Dev.ring_setRing_ne _ _ hi, Dev.setRingDev_ring_ne _ _ hi]
  rfl

/-! ## What a ring write does -/

/-- From `d` to `e` the device has signalled: rings keep their index, no counter but MSIX_SENT moves, and what is put out goes on
top. -/
structure Dev.Signals (d e : Dev) : Prop where
  dev : ∀ i, (e.ring i).dev = (d.ring i).dev
  complQ : e.hif.complQ = d.hif.complQ
  eventQ : e.hif.eventQ = d.hif.eventQ
  lost : e.hif.lost = d.hif.lost
  counter : ∀ c, c ≠ Cnt.msixSent → c ≠ Cnt.traceDrop → e.counter c = d.counter c
  outs : ∃ l, e.outs = l ++ d.outs

theorem Dev.Signals.refl (d : Dev) : d.Signals d := ⟨fun _ => rfl, rfl, rfl, rfl, fun _ _ _ => rfl, [], rfl⟩

theorem Dev.Signals.trans {a b c : Dev} (h : a.Signals b) (k : b.Signals c) : a.Signals c where
  dev i := (k.dev i).trans (h.dev i)
  complQ := k.complQ.trans h.complQ
  eventQ := k.eventQ.trans h.eventQ
  lost := k.lost.trans h.lost
  counter i h1 h2 := (k.counter i h1 h2).trans (h.counter i h1 h2)
  outs := by
    obtain ⟨l, hl⟩ := h.outs
    obtain ⟨m, hm⟩ := k.outs
    exact ⟨m ++ l, by rw [hm, hl, List.append_assoc]⟩

theorem Dev.Signals.msix (d : Dev) (v : Nat) : d.Signals (d.msix v) := by
  unfold Dev.msix
  split
  · exact ⟨fun _ => rfl, rfl, rfl, rfl, fun _ _ _ => rfl, [], rfl⟩
  · exact ⟨fun _ => rfl, rfl, rfl, rfl, fun c hc _ => by rw [Dev.bump, Dev.counter_bumpBy, if_neg hc]; rfl, [_], rfl⟩

/-- A ring is changed beside its index. -/
theorem Dev.Signals.setRing {d : Dev} {i : Nat} {r : Ring} (h : r.dev = (d.ring i).dev) : d.Signals (d.setRing i r) where
  dev j := by
    by_cases hj : j = i
    · rw [hj, Dev.ring_setRing_same, h]
    · rw [Dev.ring_setRing_ne _ _ hj]
  complQ := rfl
  eventQ := rfl
  lost := rfl
  counter _ _ _ := rfl
  outs := ⟨[], rfl⟩

theorem Dev.Signals.signal (d : Dev) (i : Nat) : d.Signals (d.signal i) := by
  unfold Dev.signal
  split
  · exact .refl d
  · split
    · exact .msix d _
    · split
      · exact .refl d
      · exact .setRing rfl

/-- Trace messages leave the host interface, and what has been put out, as they are. -/
theorem Dev.Signals.tracePush (d : Dev) (m : List Byte) : d.Signals (d.tracePush m) :=
  ⟨fun _ => rfl, rfl, rfl, rfl, fun _ _ _ => rfl, [], rfl⟩

theorem Dev.Signals.traceLostMsg (d : Dev) : d.Signals d.traceLostMsg := by
  unfold Dev.traceLostMsg
  dsimp only
  split
  · exact .refl d
  · exact Dev.Signals.trans (b := { d with obs := { d.obs with traceLost := 0 } })
      ⟨fun _ => rfl, rfl, rfl, rfl, fun _ _ _ => rfl, [], rfl⟩ (.tracePush _ _)

theorem Dev.Signals.trace (d : Dev) (ty : Nat) (l : List Byte) : d.Signals (d.trace ty l) := by
  unfold Dev.trace
  split
  · exact .refl d
  · dsimp only
    generalize (if ty = 1 then true else _) = room
    split
    · exact (Dev.Signals.traceLostMsg d).trans (.tracePush _ _)
    · exact ⟨fun _ => rfl, rfl, rfl, rfl,
        fun c _ hc => (Dev.counter_bumpBy _ _ _ _).trans (if_neg hc), [], rfl⟩

/-- An entry written to the completion or event ring of a host. -/
theorem Dev.ringWrite_of_hosted {d : Dev} (i pb : Nat) (entry : List Byte) (h : d.hosted = true) :
    let e := d.ringWrite i pb entry
    (e.ring i).dev = (d.ring i).dev + 1 ∧ e.hif.complQ = d.hif.complQ ∧ e.hif.eventQ = d.hif.eventQ ∧
      e.hif.lost = d.hif.lost ∧ (∀ c, c ≠ Cnt.msixSent → c ≠ Cnt.traceDrop → e.counter c = d.counter c) ∧
      ∃ l, e.outs = l ++ .hostWrite (d.entryAddr i (d.ring i).dev)
        (patch entry pb [byte ((entry.getD pb 0).toNat + 128 * d.phase i (d.ring i).dev)]) :: d.outs := by
  unfold Dev.ringWrite Dev.hostWrite
  dsimp only
  rw [if_pos h]
  generalize hx : (d.out _).setRingDev i _ = x
  have hs := Dev.Signals.signal x i
  subst hx
  exact ⟨(hs.dev i).trans (congrArg Ring.dev (Dev.setRingDev_ring _ i _)), hs.complQ, hs.eventQ, hs.lost, hs.counter, hs.outs⟩

/-! ## Completions -/

theorem Dev.tellLocal_of_none {d : Dev} (h : d.boot.localCur = none) (c : Cmd) (st : Nat) : d.tellLocal c st = d := by
  unfold Dev.tellLocal
  rw [h]

/-- A completion that joins the completions that wait. -/
def Dev.pushCompl (d : Dev) (e : List Byte) (k : Nat) : Dev :=
  { d with hif := { d.hif with complQ := d.hif.complQ ++ [(e, k)] } }

theorem Dev.complete_of_not_local {d : Dev} {c : Cmd} (st res : Nat) (hc : c.epoch = d.hif.epoch)
    (hl : d.boot.localCur = none) :
    d.complete c st res = Dev.drainCompl 64 (d.pushCompl (complEntry c st true res) c.idx) := by
  unfold Dev.complete Dev.completion
  dsimp only
  rw [if_pos rfl, Dev.tellLocal_of_none hl, if_neg (not_not.mpr hc)]
  rfl

theorem Dev.drainCompl_of_no_room {d : Dev} (h : d.complRoom = false) (n : Nat) : Dev.drainCompl n d = d := by
  cases n with
  | zero => rfl
  | succ n =>
    unfold Dev.drainCompl
    rw [if_pos (by simp [h])]

/-- With room the first of the completions that wait is written. -/
theorem Dev.drainCompl_succ_of_room {d : Dev} {e : List Byte} {k : Nat} {t : List (List Byte × Nat)} (h : d.complRoom = true)
    (hq : d.hif.complQ = (e, k) :: t) (n : Nat) :
    Dev.drainCompl (n + 1) d = Dev.drainCompl n ({ d with hif := { d.hif with complQ := t } }.writeCompl e k) := by
  conv_lhs => unfold Dev.drainCompl
  rw [if_neg (by simp [h])]
  split
  · next h' => exact nomatch hq.symm.trans h'
  · next h' =>
    obtain ⟨h1, rfl⟩ := List.cons.inj (hq.symm.trans h')
    obtain ⟨rfl, rfl⟩ := Prod.mk.inj h1
    rfl

/-- The byte of a completion entry that says whether it is the final one (Table 13.4). -/
theorem complEntry_final (c : Cmd) (st : Nat) (final : Bool) (res : Nat) :
    beAt (complEntry c st final res) 7 1 = final.toNat ∧ ((complEntry c st final res).getD 7 0).toNat = final.toNat := by
  cases final <;> exact ⟨rfl, rfl⟩

/-- A final completion written to a host's ring. -/
theorem Dev.writeCompl_of_hosted {d : Dev} {e : List Byte} (k : Nat) (h : d.hosted = true) (he : beAt e 7 1 = 1) :
    let x := d.writeCompl e k
    (x.ring 1).dev = (d.ring 1).dev + 1 ∧ x.hif.complQ = d.hif.complQ ∧ x.counter Cnt.cmdDone = d.counter Cnt.cmdDone + 1 ∧
      ∃ l, x.outs = l ++ .hostWrite (d.entryAddr 1 (d.ring 1).dev)
        (patch e 7 [byte ((e.getD 7 0).toNat + 128 * d.phase 1 (d.ring 1).dev)]) :: d.outs := by
  obtain ⟨hdev, hcompl, -, -, hcnt, l, hl⟩ := Dev.ringWrite_of_hosted 1 7 e h
  unfold Dev.writeCompl
  dsimp only
  rw [if_pos h, he]
  generalize d.ringWrite 1 7 e = x at hdev hcompl hcnt hl
  have ht := Dev.Signals.trace x 5 (complTrace e)
  generalize x.trace 5 (complTrace e) = y at ht
  obtain ⟨m, hm⟩ := ht.outs
  have hdone (y' : Dev) (hy : y'.counters = (y.bump Cnt.cmdDone).counters) :
      y'.counter Cnt.cmdDone = d.counter Cnt.cmdDone + 1 := by
    rw [Dev.counter_congr hy, Dev.bump, Dev.counter_bumpBy, if_pos rfl, ht.counter _ (by decide) (by decide),
      hcnt _ (by decide) (by decide)]
    rfl
  have houts := hm.trans (congrArg (m ++ ·) hl)
  simp only [← List.append_assoc] at houts
  have hfinal : ((1 : Nat) % 2 == 1) = true := rfl
  rw [hfinal, Bool.true_and, if_pos rfl]
  split
  · refine ⟨?_, ht.complQ.trans hcompl, hdone _ rfl, m ++ l, houts⟩
    rw [Dev.ring_setRing_ne _ _ (by decide)]
    exact (ht.dev 1).trans hdev
  · exact ⟨(ht.dev 1).trans hdev, ht.complQ.trans hcompl, hdone _ rfl, m ++ l, houts⟩

/-- Settles O11: a completion joins those that wait, which are written while there is room. -/
theorem completionWrittenOrWaits : Obligations.CompletionWrittenOrWaits := by
  refine ⟨fun d c st res hd hq hc hr hl => ?_, fun d c st res hc hr hl => ?_⟩
  · intro e
    have he : e = d.writeCompl (complEntry c st true res) c.idx := by
      have hroom : (d.pushCompl (complEntry c st true res) c.idx).complRoom = true := hr
      have hpush : (d.pushCompl (complEntry c st true res) c.idx).hif.complQ = [(complEntry c st true res, c.idx)] := by
        rw [Dev.pushCompl, hq, List.nil_append]
      have hback : { d.pushCompl (complEntry c st true res) c.idx with
          hif := { (d.pushCompl (complEntry c st true res) c.idx).hif with complQ := [] } } = d := by
        rw [← hq]
        rfl
      have hwritten := (Dev.writeCompl_of_hosted c.idx hd (complEntry_final c st true res).1).2.1
      show d.complete c st res = _
      rw [Dev.complete_of_not_local st res hc hl, Dev.drainCompl_succ_of_room hroom hpush, hback,
        Dev.drainCompl_of_none (hwritten.trans hq)]
    obtain ⟨hdev, hcompl, hdone, l, hout⟩ :=
      Dev.writeCompl_of_hosted (e := complEntry c st true res) c.idx hd (complEntry_final c st true res).1
    rw [he]
    rw [(complEntry_final c st true res).2, ← (complEntry_final c st true res).1] at hout
    exact ⟨hdev, hcompl.trans hq, hdone, l, hout⟩
  · have hroom : (d.pushCompl (complEntry c st true res) c.idx).complRoom = false := hr
    rw [Dev.complete_of_not_local st res hc hl, Dev.drainCompl_of_no_room hroom]
    rfl

/-! ## Events -/

theorem Dev.trace_of_off {d : Dev} (h : d.cfgBit Reg.obsTraceCfg_en = false) (ty : Nat) (l : List Byte) : d.trace ty l = d := by
  unfold Dev.trace
  rw [if_pos (by simp [h])]

/-- With room, and nothing lost, the first of the events that wait is written. -/
theorem Dev.drainEvents_succ_of_room {d : Dev} {e : List Byte} {t : List (List Byte)} (h : d.eventRoom = true)
    (hl : d.hif.lost = 0) (hq : d.hif.eventQ = e :: t) (n : Nat) :
    Dev.drainEvents (n + 1) d = Dev.drainEvents n ({ d with hif := { d.hif with eventQ := t } }.writeEvent e) := by
  conv_lhs => unfold Dev.drainEvents
  rw [if_neg (by simp [h]), if_neg (by simp [hl])]
  split
  · next h' => exact nomatch hq.symm.trans h'
  · next h' =>
    obtain ⟨rfl, rfl⟩ := List.cons.inj (hq.symm.trans h')
    rfl

theorem eventEntry_phase (d : Dev) (ty code : Nat) (l : List Byte) : ((d.eventEntry ty code false l).getD 2 0).toNat = 0 := rfl

theorem Dev.writeEvent_of_hosted {d : Dev} (e : List Byte) (h : d.hosted = true) :
    let x := d.writeEvent e
    (x.ring 2).dev = (d.ring 2).dev + 1 ∧ x.hif.eventQ = d.hif.eventQ ∧ x.hif.lost = d.hif.lost ∧
      x.counter Cnt.eventWritten = d.counter Cnt.eventWritten + 1 ∧
      ∃ l, x.outs = l ++ .hostWrite (d.entryAddr 2 (d.ring 2).dev)
        (patch e 2 [byte ((e.getD 2 0).toNat + 128 * d.phase 2 (d.ring 2).dev)]) :: d.outs := by
  obtain ⟨hdev, -, hq, hlost, hcnt, hout⟩ := Dev.ringWrite_of_hosted 2 2 e h
  unfold Dev.writeEvent
  rw [if_pos h]
  generalize d.ringWrite 2 2 e = x at hdev hq hlost hcnt hout
  refine ⟨hdev, hq, hlost, ?_, hout⟩
  refine (Dev.counter_congr (d := x.bump Cnt.eventWritten) rfl _).trans ?_
  rw [Dev.bump, Dev.counter_bumpBy, if_pos rfl, hcnt _ (by decide) (by decide)]
  rfl

/-- Settles O12: an event joins those that wait, which are written while there is room, or is lost when 256 wait. -/
theorem eventWrittenOrLost : Obligations.EventWrittenOrLost := by
  intro d ty code l hoff
  refine ⟨fun hd hq hlost hroom => ?_, fun hfull => ?_⟩
  · intro e
    have he : e = d.writeEvent (d.eventEntry ty code false (evData l)) := by
      obtain ⟨-, hwq, hwl, -, -⟩ := Dev.writeEvent_of_hosted (d.eventEntry ty code false (evData l)) hd
      show d.eventR ty code false l = _
      unfold Dev.eventR
      dsimp only
      rw [Dev.trace_of_off hoff, if_pos (by rw [hq]; decide), hq, List.nil_append,
        Dev.drainEvents_succ_of_room (d := { d with hif := { d.hif with eventQ := [_] } }) hroom hlost rfl 257]
      show Dev.drainEvents 257 (Dev.writeEvent { d with hif := { d.hif with eventQ := [] } } _) = _
      rw [← hq]
      exact Dev.drainEvents_of_none (hwq.trans hq) (hwl.trans hlost) 257
    obtain ⟨hdev, hwq, -, hcnt, o, hout⟩ := Dev.writeEvent_of_hosted (d.eventEntry ty code false (evData l)) hd
    rw [he]
    rw [eventEntry_phase, Nat.zero_add] at hout
    exact ⟨hdev, hwq.trans hq, hcnt, o, hout⟩
  · intro e
    have he : e = (({ d with hif := { d.hif with lost := d.hif.lost + 1 } }.bump Cnt.eventLost).raise Reg.hifStat_evt_lost) := by
      show d.eventR ty code false l = _
      unfold Dev.eventR
      dsimp only
      rw [Dev.trace_of_off hoff, if_neg (by omega)]
    rw [he]
    exact ⟨rfl, rfl, (Dev.counter_bumpBy _ _ _ _).trans (if_pos rfl), Dev.bit_raise_self _ _⟩

/-! ## Commands without an effect -/

/-- A host command whose body only completes. -/
theorem Completes.of_host {i : Instr} {s : State} {op : Half} {h : CmdHdr} {body : Cmd → Dev → Dev} {e : Dev → Dev}
    {st res : Nat} (hf : Fetching s) (hi : exec i s = runOp (hostCmd op h body) s)
    (hd : body (s.dev.fetch op h).1 (s.dev.fetch op h).2 = (e (s.dev.fetch op h).2).complete (s.dev.fetch op h).1 st res) :
    Completes i op h s e st res := Gives.of_host hf hi hd

/-- Settles O13. -/
theorem nopAndUnlisted : Obligations.NopAndUnlisted := fun _ _ _ hf =>
  ⟨.of_host (body := fun c d => d.complete c stOk 0) hf rfl rfl,
    .of_host (body := fun c d => d.complete c stNotSupported 0) hf rfl rfl⟩

end Sys2Proof.Machine
end

section
/-! # What fetching a command leaves (R401, R334)

The functions of the model that look at a device look at the same parts before and after a fetch: all but the host
interface, its registers, and the journal. -/

namespace Sys2Proof.Machine

/-- `e` is `d` but for the books of the host interface and the journal. -/
structure Dev.Alike (d e : Dev) : Prop where
  eff : e.eff = d.eff
  chans : e.chans = d.chans
  r0 : e.r0 = d.r0
  r1 : e.r1 = d.r1
  r2 : e.r2 = d.r2
  sch : e.sch = d.sch
  msh : e.msh = d.msh
  tim : e.tim = d.tim
  fwd : e.fwd = d.fwd
  eth : e.eth = d.eth
  tsk : e.tsk = { d.tsk with journal := e.tsk.journal }
  kao : e.kao = d.kao
  dmc : e.dmc = d.dmc
  pwr : e.pwr = d.pwr
  boot : e.boot = d.boot
  pins : e.pins = d.pins
  runs : e.hif.runs = d.hif.runs
  txWait : e.hif.txWait = d.hif.txWait
  reg : ∀ a, ¬ bookAddr a → e.reg a = d.reg a
  devState : e.devState = d.devState
  /-- The registers whose writes wait for a boundary (R505). -/
  bound : ∀ b, b ≠ .atOnce → (e.regs.filter fun p => boundOf p.1 == b) = d.regs.filter fun p => boundOf p.1 == b
  counters : e.counters = d.counters

/-- What a filter leaves out may be written at will. -/
theorem Sparse.filter_put {α : Type} [DecidableEq α] (d : α) (p : Nat × α → Bool) (k : Nat) (v : α)
    (h : ∀ v, p (k, v) = false) (t : Sparse α) : (Sparse.put d t k v).filter p = t.filter p := by
  have hdrop (t : Sparse α) : (Sparse.drop k t).filter p = t.filter p := by
    induction t with
    | nil => rfl
    | cons x t ih =>
      obtain ⟨j, w⟩ := x
      unfold Sparse.drop
      split
      · next hj => rw [ih, List.filter_cons, hj, h w, if_neg Bool.false_ne_true]
      · rw [List.filter_cons, List.filter_cons, ih]
  have hins (t : Sparse α) : (Sparse.ins k v t).filter p = t.filter p := by
    induction t with
    | nil => rw [Sparse.ins, List.filter_cons, h v, if_neg Bool.false_ne_true]
    | cons x t ih =>
      obtain ⟨j, w⟩ := x
      unfold Sparse.ins
      split
      · rw [List.filter_cons, h v, if_neg Bool.false_ne_true]
      · rw [List.filter_cons, List.filter_cons, ih]
  unfold Sparse.put
  split
  · exact hdrop t
  · rw [hins, hdrop]

/-- The registers of the rings act at once. -/
theorem boundOf_hifRingStat0 : boundOf (Reg.hifRingStat_idx 0).addr = .atOnce := by decide +kernel

theorem Dev.fetch_of_not_hosted {d : Dev} (op : Half) (h : CmdHdr) (hd : d.hosted = false) :
    d.fetch op h = (⟨op, h, d.hif.localIdx, d.hif.epoch⟩,
      { d.journal ⟨op, h, d.hif.localIdx, d.hif.epoch⟩ with hif := { d.hif with localIdx := d.hif.localIdx + 1 } }) := by
  have hj (c : Cmd) : ({ d with tsk := { d.tsk with journal := d.tsk.journal ++ [c] } } : Dev).hosted = false := hd
  unfold Dev.fetch
  dsimp only
  simp only [hd, hj, Bool.false_eq_true, if_false]
  rfl

theorem Dev.fetch_alike (d : Dev) (op : Half) (h : CmdHdr) : d.Alike (d.fetch op h).2 where
  eff := d.fetch_eff op h
  chans := d.fetch_chans op h
  r0 := d.fetch_r0 op h
  r1 := d.fetch_r1 op h
  r2 := d.fetch_r2 op h
  sch := d.fetch_sch op h
  msh := d.fetch_msh op h
  tim := d.fetch_tim op h
  fwd := d.fetch_fwd op h
  eth := d.fetch_eth op h
  tsk := by rw [d.fetch_tsk]
  kao := d.fetch_kao op h
  dmc := d.fetch_dmc op h
  pwr := d.fetch_pwr op h
  boot := d.fetch_boot op h
  pins := d.fetch_pins op h
  runs := d.fetch_runs op h
  txWait := d.fetch_txWait op h
  reg := fun a ha => d.fetch_reg op h a ha
  devState := d.fetch_devState op h
  bound := fun b hb => by
    cases hd : d.hosted with
    | true =>
      rw [Dev.fetch_of_hosted op h hd]
      refine Sparse.filter_put _ _ _ _ (fun _ => ?_) _
      exact beq_eq_false_iff_ne.mpr fun e => hb (e.symm.trans boundOf_hifRingStat0)
    | false => rw [Dev.fetch_of_not_hosted op h hd]; rfl
  counters := d.fetch_counters op h

section
variable {d e : Dev} (h : d.Alike e)
include h

theorem Dev.Alike.fld {f : Field} (hf : ¬ bookAddr f.addr) : e.fld f = d.fld f := congrArg f.of (h.reg _ hf)

theorem Dev.Alike.bit {f : Field} (hf : ¬ bookAddr f.addr) : e.bit f = d.bit f := congrArg (· == 1) (h.fld hf)

theorem Dev.Alike.cfg {a : Nat} (ha : ¬ bookAddr a) : e.cfg a = d.cfg a := by
  unfold Dev.cfg
  split
  · exact h.reg a ha
  · rw [h.eff]

theorem Dev.Alike.cfgFld {f : Field} (hf : ¬ bookAddr f.addr) : e.cfgFld f = d.cfgFld f := congrArg f.of (h.cfg hf)

theorem Dev.Alike.cfgBit {f : Field} (hf : ¬ bookAddr f.addr) : e.cfgBit f = d.cfgBit f := congrArg (· == 1) (h.cfgFld hf)

theorem Dev.Alike.hosted : e.hosted = d.hosted := congrArg (· == dsHosted) h.devState

theorem Dev.Alike.operating : e.operating = d.operating := by
  unfold Dev.operating
  rw [h.devState]

theorem Dev.Alike.runningOp (op : Half) : e.runningOp op = d.runningOp op := by
  unfold Dev.runningOp
  rw [h.runs]

theorem Dev.Alike.radio (r : RadioId) : e.radio r = d.radio r := by
  match r with
  | 0 => exact h.r0
  | 1 => exact h.r1
  | 2 => exact h.r2

end

/-- The enabled links are those of eight words. -/
theorem linksOf_congr {w v : Nat → Word} (h : ∀ i < 8, w i = v i) : linksOf w = linksOf v := by
  have hl : ((List.range 8).filter fun i => (w i).getLsbD 31) = (List.range 8).filter fun i => (v i).getLsbD 31 :=
    List.filter_congr fun i hi => by rw [h i (List.mem_range.mp hi)]
  have hm : (((List.range 8).filter fun i => (v i).getLsbD 31).map fun i => (i, (w i).toNat % 512, (w i).getLsbD 30)) =
      ((List.range 8).filter fun i => (v i).getLsbD 31).map fun i => (i, (v i).toNat % 512, (v i).getLsbD 30) :=
    List.map_congr_left fun i hi => by rw [h i (List.mem_range.mp (List.mem_filter.mp hi).1)]
  unfold linksOf
  rw [hl, hm]

/-- No register of a radio is one of the books. -/
theorem not_bookAddr_rfStat (r : RadioId) : ¬ bookAddr (Reg.rfStat r) := by
  unfold bookAddr Reg.rfStat Reg.obsTraceStat
  omega

section
variable {d e : Dev} (h : d.Alike e)
include h

theorem Dev.Alike.rfState (r : RadioId) : e.rfState r = d.rfState r := h.fld (not_bookAddr_rfStat r)

theorem Dev.Alike.rfReadyRun (r : RadioId) : e.rfReadyRun r = d.rfReadyRun r := by
  unfold Dev.rfReadyRun
  rw [h.rfState]

theorem Dev.Alike.inhibited (r : RadioId) : e.inhibited r = d.inhibited r := by
  unfold Dev.inhibited
  rw [h.bit (not_bookAddr_rfStat r), h.bit (not_bookAddr_rfStat r)]

theorem Dev.Alike.chan (i : Nat) : e.chan i = d.chan i := by
  unfold Dev.chan
  rw [h.chans]

theorem Dev.Alike.entryValid (r : RadioId) (i : Nat) : e.entryValid r i = d.entryValid r i := by
  unfold Dev.entryValid
  rw [h.radio]

theorem Dev.Alike.chanValid (i : Nat) : e.chanValid i = d.chanValid i := by
  unfold Dev.chanValid
  simp only [h.chan, h.rfReadyRun, h.entryValid]

theorem Dev.Alike.fullConf : e.fullConf = d.fullConf := h.bit (by unfold bookAddr; decide)

theorem Dev.Alike.rotSize : e.rotSize = d.rotSize := by
  unfold Dev.rotSize
  rw [h.fullConf]

theorem Dev.Alike.maxSensors : e.maxSensors = d.maxSensors := by
  unfold Dev.maxSensors
  rw [h.fullConf]

theorem Dev.Alike.noRegion : e.noRegion = d.noRegion := by
  unfold Dev.noRegion
  rw [h.reg _ (by unfold bookAddr; decide)]

theorem Dev.Alike.tai : e.tai = d.tai := by
  unfold Dev.tai
  rw [h.tim]

theorem Dev.Alike.nextS : e.nextS = d.nextS := by
  unfold Dev.nextS
  rw [h.tai, h.tim]

theorem Dev.Alike.curS : e.curS = d.curS := by
  unfold Dev.curS
  rw [h.nextS]

theorem Dev.Alike.nextBoundary : e.nextBoundary = d.nextBoundary := by
  unfold Dev.nextBoundary Dev.slot
  rw [h.tim]

/-! ## The legality of a table -/

theorem Dev.Alike.writtenLinks : e.writtenLinks = d.writtenLinks :=
  linksOf_congr fun i hi => h.reg _ (by unfold bookAddr Reg.mshLink Reg.obsTraceStat; omega)

theorem Dev.Alike.links : e.links = d.links :=
  linksOf_congr fun i hi => h.cfg (by unfold bookAddr Reg.mshLink Reg.obsTraceStat; omega)

theorem Dev.Alike.rowSubch (w : Row) : e.rowSubch w = d.rowSubch w := by
  unfold Dev.rowSubch
  rw [h.chan]

theorem Dev.Alike.rotLegal (c : CellEntry) : e.rotLegal c = d.rotLegal c := by
  unfold Dev.rotLegal
  rw [h.rotSize]

theorem Dev.Alike.cellLegal (w : Row) (c : CellEntry) : e.cellLegal w c = d.cellLegal w c := by
  unfold Dev.cellLegal
  rw [h.rowSubch, h.rotLegal]

theorem Dev.Alike.meshLegal (t : Sparse Row) (r slot : Nat) (w : Row) : e.meshLegal t r slot w = d.meshLegal t r slot w := by
  unfold Dev.meshLegal
  rw [h.writtenLinks]

theorem Dev.Alike.stripeSetLegal (t : Sparse Row) (slot : Nat) (c : CellEntry) :
    e.stripeSetLegal t slot c = d.stripeSetLegal t slot c := by
  unfold Dev.stripeSetLegal
  simp only [h.chan]

theorem Dev.Alike.rowLegal (t : Sparse Row) (k : Nat) (w : Row) : e.rowLegal t k w = d.rowLegal t k w := by
  unfold Dev.rowLegal
  simp only [h.meshLegal, h.cellLegal, h.stripeSetLegal]

theorem Dev.Alike.tableLegal (t : Sparse Row) : e.tableLegal t = d.tableLegal t := by
  unfold Dev.tableLegal
  simp only [h.rowLegal]

theorem Dev.Alike.tableChannels (t : Sparse Row) : e.tableChannels t = d.tableChannels t := by
  unfold Dev.tableChannels
  simp only [h.chanValid]

end
end Sys2Proof.Machine
end

section
/-! # SCHED_WRITE, ROT_WRITE and SCHEDULE_COMMIT (R162 to R166) -/

namespace Sys2Proof.Machine

theorem Dev.withRadio_of_lt (d : Dev) (c : Cmd) {r : Nat} (h : r < 3) (k : Dev → RadioId → Dev) :
    d.withRadio c r k = k d ⟨r, h⟩ := by
  match r, h with
  | 0, _ => rfl
  | 1, _ => rfl
  | 2, _ => rfl

/-- A host buffer that is there, long enough, and read without an error. -/
theorem Dev.withBuf_of_ok {d : Dev} {buf : Buf} {need : Nat} {b : List Byte} (c : Cmd) (k : Dev → List Byte → Dev)
    (ha : buf.addr ≠ 0) (hn : need ≤ buf.len.toNat) (hb : buf.data = .ok b) :
    d.withBuf c buf need k = k d (b.take buf.len.toNat) := by
  unfold Dev.withBuf
  rw [if_neg (not_or.mpr ⟨ha, by omega⟩), hb]

/-! ## SCHED_WRITE -/

/-- The rows of a buffer in a radio's part of the pending table. -/
def writeRows (rows : List Row) (at' : Nat) (t : Sparse Row) : Sparse Row :=
  (rows.zipIdx).foldl (fun (t : Sparse Row) (x : Row × Nat) => Sparse.put emptyRow t (at' + x.2) x.1) t

theorem Dev.schedWrite_of_copying {d : Dev} (c : Cmd) (radio first count : Nat) (buf : Buf) (h : d.sch.copying = true) :
    d.schedWrite c radio first count buf =
      { d with sch := { d.sch with held := d.sch.held ++ [(c, radio, first, count, buf)] } } := if_pos h

theorem Dev.schedWrite_of_pending {d : Dev} (c : Cmd) {radio first count : Nat} (buf : Buf) (hr : radio < 3)
    (hfirst : first ≤ 511) (hcount : first + count ≤ 512) (hc : d.sch.copying = false)
    (hp : d.bit Reg.schCommit_pending = true) :
    d.schedWrite c radio first count buf = d.refuseState c (d.rfState ⟨radio, hr⟩) := by
  unfold Dev.schedWrite Dev.schedWriteNow
  rw [if_neg (by simp [hc]), Dev.withRadio_of_lt _ _ hr, if_neg (by omega), if_pos hp]
  rfl

theorem Dev.schedWrite_of_rows {d : Dev} (c : Cmd) {radio first count : Nat} {buf : Buf} {b : List Byte} {rows : List Row}
    (hr : radio < 3) (hfirst : first ≤ 511) (hcount : first + count ≤ 512) (hc : d.sch.copying = false)
    (hp : d.bit Reg.schCommit_pending = false) (ha : buf.addr ≠ 0) (hb : buf.data = .ok b)
    (hrows : readRows count (b.take buf.len.toNat) = some rows) :
    d.schedWrite c radio first count buf =
      { d with sch := { d.sch with pending := writeRows rows (radio * 512 + first) d.sch.pending } }.complete c stOk 0 := by
  unfold Dev.schedWrite Dev.schedWriteNow
  rw [if_neg (by simp [hc]), Dev.withRadio_of_lt _ _ hr, if_neg (by omega), if_neg (by simp [hp]),
    Dev.withBuf_of_ok c _ ha (Nat.zero_le _) hb]
  simp only [hrows]
  rfl

/-! ## ROT_WRITE -/

/-- The staged entries that a ROT_WRITE adds. -/
def stagedEntries (first count : Nat) (b : List Byte) : List (Nat × Word) :=
  (records 4 count b).zipIdx.map fun x => (first + x.2, BitVec.ofNat 32 (ofLe x.1))

theorem Dev.rotWrite_of_ok {d : Dev} (c : Cmd) {first count : Nat} {buf : Buf} {b : List Byte} (h1 : 1 ≤ count)
    (h4096 : count ≤ 4096) (hsize : first + count ≤ d.rotSize) (ha : buf.addr ≠ 0) (hn : 4 * count ≤ buf.len.toNat)
    (hb : buf.data = .ok b) :
    d.rotWrite c first count buf =
      if 65536 < d.sch.staged.length + count then d.complete c stBusy 0
      else { d with sch := { d.sch with
        staged := d.sch.staged ++ stagedEntries first count (b.take buf.len.toNat) } }.complete c stOk 0 := by
  unfold Dev.rotWrite
  rw [if_neg (by omega), Dev.withBuf_of_ok c _ ha hn hb]
  rfl

/-! ## SCHEDULE_COMMIT -/

theorem Dev.scheduleCommit_of_pending {d : Dev} (c : Cmd) (h : d.bit Reg.schCommit_pending = true) :
    d.scheduleCommit c = d.complete c stBusy 0 := if_pos h

theorem Dev.scheduleCommit_of_failure {d : Dev} (c : Cmd) {st : Nat} (h : d.bit Reg.schCommit_pending = false)
    (hf : d.commitFailure (d.bit Reg.schAdmcfg_protected) = some st) :
    d.scheduleCommit c = if st = stState then d.refuseState c 0xFF else d.complete c st 0 := by
  unfold Dev.scheduleCommit
  dsimp only
  rw [if_neg (by simp [h]), hf]

/-- A commit that no check of Table 5.4 fails is pending for a boundary. -/
def Dev.commitFor (d : Dev) (b : Int) (protect : Bool) : Dev :=
  (({ d with sch := { d.sch with target := b, protPend := protect } }).raise
    Reg.schCommit_pending).setFld Reg.schCommit_target_sf (sfOf (b * 512))

theorem Dev.scheduleCommit_of_ok {d : Dev} (c : Cmd) (h : d.bit Reg.schCommit_pending = false)
    (hf : d.commitFailure (d.bit Reg.schAdmcfg_protected) = none) :
    d.scheduleCommit c = (d.commitFor (d.nextBoundary / 512) (d.bit Reg.schAdmcfg_protected)).complete c stOk
      (sfOf (d.nextBoundary / 512 * 512)) := by
  unfold Dev.scheduleCommit
  dsimp only
  rw [if_neg (by simp [h]), hf]
  rfl

/-- The checks of Table 5.4, in order. -/
theorem Dev.commitFailure_cases (d : Dev) (protect : Bool) :
    (d.tableLegal d.sch.pending = false → d.commitFailure protect = some stBadParam) ∧
    (d.tableLegal d.sch.pending = true →
      (d.tableChannels d.sch.pending = false ∨ (tableTransmits d.sch.pending && d.noRegion) = true →
        d.commitFailure protect = some stState) ∧
      (d.tableChannels d.sch.pending = true → (tableTransmits d.sch.pending && d.noRegion) = false →
        d.commitFailure protect = if protect && !admitted d.sch.pending then some stNoResource else none)) := by
  unfold Dev.commitFailure
  dsimp only
  refine ⟨fun hl => by simp [hl], fun hl => ⟨fun hc => ?_, fun hc ht => by simp [hl, hc, ht]⟩⟩
  rcases hc with hc | ht
  · simp [hl, hc]
  · simp [hl, ht]

theorem Dev.Alike.commitFailure {d e : Dev} (h : d.Alike e) (protect : Bool) :
    e.commitFailure protect = d.commitFailure protect := by
  unfold Dev.commitFailure
  dsimp only
  rw [h.sch, h.tableLegal, h.tableChannels, h.noRegion]

/-! ## The obligation -/

theorem not_bookAddr_sch : ¬ bookAddr Reg.schCommit ∧ ¬ bookAddr Reg.schAdmcfg := by unfold bookAddr; decide

/-- Settles O14: each clause is the command's equation in its case, on the device after the fetch. -/
theorem scheduleCommands : Obligations.ScheduleCommands := by
  unfold Obligations.ScheduleCommands
  obtain ⟨hcommit, hadm⟩ := not_bookAddr_sch
  refine ⟨fun s h radio first count buf b rows hr hf hfirst hcount => ?_,
    fun s h first count buf b hf h1 h4096 hsize ha hn hb => ?_, fun s h hf => ?_⟩
  · intro f
    have hk := s.dev.fetch_alike 0x0011 h
    have hcopy : f.2.sch.copying = s.dev.sch.copying := by rw [hk.sch]
    have hpend : f.2.bit Reg.schCommit_pending = s.dev.bit Reg.schCommit_pending := hk.bit hcommit
    refine ⟨fun hc hp ha hb hrows => ?_, fun hc hp => ?_, fun hc => ?_⟩
    · exact .of_host hf rfl
        (Dev.schedWrite_of_rows _ hr hfirst hcount (hcopy.trans hc) (hpend.trans hp) ha hb hrows)
    · refine .of_host hf rfl ?_
      rw [Dev.schedWrite_of_pending _ buf hr hfirst hcount (hcopy.trans hc) (hpend.trans hp), hk.rfState]
    · refine .of_host hf rfl ?_
      rw [Dev.schedWrite_of_copying _ _ _ _ buf (hcopy.trans hc), hk.sch]
  · have hk := s.dev.fetch_alike 0x0012 h
    have heq := Dev.rotWrite_of_ok (s.dev.fetch 0x0012 h).1 h1 h4096 (hk.rotSize ▸ hsize) ha hn hb
    rw [hk.sch] at heq
    refine ⟨fun hroom => .of_host hf rfl (heq.trans ?_), fun hfull => .of_host hf rfl (heq.trans (if_pos hfull))⟩
    rw [if_neg (by omega), hk.sch]
    rfl
  · intro t protect f
    have hk := s.dev.fetch_alike 0x0013 h
    have hpend : f.2.bit Reg.schCommit_pending = s.dev.bit Reg.schCommit_pending := hk.bit hcommit
    have hprot : f.2.bit Reg.schAdmcfg_protected = protect := hk.bit hadm
    have hfail : f.2.commitFailure (f.2.bit Reg.schAdmcfg_protected) = s.dev.commitFailure protect := by
      rw [hprot, hk.commitFailure]
    obtain ⟨hbad, hlegal⟩ := s.dev.commitFailure_cases protect
    refine ⟨fun hp => .of_host hf rfl (Dev.scheduleCommit_of_pending _ (hpend.trans hp)), fun hp => ⟨fun hl => ?_, fun hl => ?_⟩⟩
    · exact .of_host hf rfl (Dev.scheduleCommit_of_failure _ (hpend.trans hp) (hfail.trans (hbad hl)))
    · obtain ⟨hstate, hadmit⟩ := hlegal hl
      refine ⟨fun hc => ?_, fun hc ht => ?_⟩
      · exact .of_host hf rfl (Dev.scheduleCommit_of_failure _ (hpend.trans hp) (hfail.trans (hstate hc)))
      · have hlast := hadmit hc ht
        refine ⟨fun ha => ?_, fun ha => ?_⟩
        · exact .of_host hf rfl
            (Dev.scheduleCommit_of_failure _ (hpend.trans hp) (hfail.trans (hlast.trans (if_pos ha))))
        · refine .of_host hf rfl
            ((Dev.scheduleCommit_of_ok _ (hpend.trans hp) (hfail.trans (hlast.trans (if_neg (Bool.eq_false_iff.mp ha))))).trans ?_)
          rw [hprot, hk.nextBoundary]
          rfl

end Sys2Proof.Machine
end

section
/-! # Rulesets (R256 to R264) -/

namespace Sys2Proof.Machine

theorem Dev.stage_of_idle {d : Dev} (c : Cmd) (r : Ruleset) (h : d.fwd.copying = none) :
    d.stage c r = (d.setStaging r).complete c stOk 0 := if_neg (by simp [h])

theorem Dev.stage_of_copying {d : Dev} (c : Cmd) (r : Ruleset) (h : d.fwd.copying ≠ none) :
    d.stage c r = (d.bump Cnt.commitBusy).complete c stBusy 0 := if_pos (Option.isSome_iff_ne_none.mpr h)

/-- A command that stages what its parameters make of the staging area. -/
theorem Completes.of_stage {i : Instr} {s : State} {op : Half} {h : CmdHdr} {body : Cmd → Dev → Dev} {g : Ruleset → Ruleset}
    (hf : Fetching s) (hi : exec i s = runOp (hostCmd op h body) s)
    (hb : ∀ c d, body c d = d.stage c (g d.fwd.staging)) :
    (s.dev.fwd.copying = none → Completes i op h s (fun d => d.setStaging (g d.fwd.staging)) stOk 0) ∧
      (s.dev.fwd.copying ≠ none → Completes i op h s (fun d => d.bump Cnt.commitBusy) stBusy 0) := by
  have hc : (s.dev.fetch op h).2.fwd.copying = s.dev.fwd.copying := by rw [Dev.fetch_fwd]
  exact ⟨fun hn => .of_host hf hi ((hb _ _).trans (Dev.stage_of_idle _ _ (hc.trans hn))),
    fun hn => .of_host hf hi ((hb _ _).trans (Dev.stage_of_copying _ _ (hc ▸ hn)))⟩

theorem Dev.ruleWrite_of_ok {first count : Nat} {buf : Buf} {b : List Byte} (c : Cmd) (d : Dev) (h1 : first ≤ 1023)
    (h2 : first + count ≤ 1024) (ha : buf.addr ≠ 0) (hn : 48 * count ≤ buf.len.toNat) (hb : buf.data = .ok b) :
    d.ruleWrite c first count buf = d.stage c { d.fwd.staging with
      rules := (records 48 count (b.take buf.len.toNat)).zipIdx.foldl (fun (t : Sparse (Option Rule)) (y : List Byte × Nat) =>
        Sparse.put none t (first + y.2) (some (readRule y.1))) d.fwd.staging.rules } := by
  unfold Dev.ruleWrite
  rw [if_neg (by omega), Dev.withBuf_of_ok c _ ha hn hb]

theorem Dev.indirWrite_of_ok {first count : Nat} {buf : Buf} {b : List Byte} (c : Cmd) (d : Dev) (h1 : first ≤ 511)
    (h2 : first + count ≤ 512) (ha : buf.addr ≠ 0) (hn : 2 * count ≤ buf.len.toNat) (hb : buf.data = .ok b) :
    d.indirWrite c first count buf = d.stage c { d.fwd.staging with
      indir := (records 2 count (b.take buf.len.toNat)).zipIdx.foldl (fun (t : Sparse Half) (y : List Byte × Nat) =>
        Sparse.put 0 t (first + y.2) (BitVec.ofNat 16 (ofLe y.1))) d.fwd.staging.indir } := by
  unfold Dev.indirWrite
  rw [if_neg (by omega), Dev.withBuf_of_ok c _ ha hn hb]

/-- Settles O15: each command stages its part of the ruleset. -/
theorem rulesetStagingWrites : Obligations.RulesetStagingWrites := by
  unfold Obligations.RulesetStagingWrites
  intro s h hf Stages
  have stages {i : Instr} {op : Half} {body : Cmd → Dev → Dev} {g : Ruleset → Ruleset}
      (hi : exec i s = runOp (hostCmd op h body) s) (hb : ∀ c d, body c d = d.stage c (g d.fwd.staging)) : Stages i op g :=
    Completes.of_stage hf hi hb
  clear_value Stages
  refine ⟨fun first count buf b h1 h2 ha hn hb => ?_, fun pattern len value mask h1 h2 => ?_, fun which bits key hw => ?_,
    fun bits key => ?_, fun first count buf b h1 h2 ha hn hb => ?_⟩
  · exact stages rfl fun c d => Dev.ruleWrite_of_ok c d h1 h2 ha hn hb
  · exact stages rfl fun c d => if_neg (by omega)
  · exact stages rfl fun c d => if_pos hw
  · exact stages rfl fun c d => rfl
  · exact stages rfl fun c d => Dev.indirWrite_of_ok c d h1 h2 ha hn hb

/-! ## The commit (R259 to R261) -/

section
variable {d e : Dev} (h : d.Alike e)
include h

theorem Dev.Alike.heldVers : e.heldVers = d.heldVers := by
  have hi : e.tsk.items = d.tsk.items := (congrArg Tsk.items h.tsk).trans rfl
  unfold Dev.heldVers
  rw [h.eth, h.txWait, hi]

theorem Dev.Alike.curVer : e.curVer = d.curVer := h.fld (by unfold bookAddr; decide)

theorem Dev.Alike.freeSlot : e.freeSlot = d.freeSlot := by
  unfold Dev.freeSlot Dev.held
  rw [h.curVer, h.heldVers]

end

theorem Dev.rulesetCommitCmd_of_free {d : Dev} {v : Nat} (c : Cmd) (hc : d.fwd.copying = none) (hv : d.freeSlot = some v) :
    d.rulesetCommitCmd c = d.beginCopy c v := by
  unfold Dev.rulesetCommitCmd
  rw [hc, Option.isSome_none, if_neg Bool.false_ne_true, hv]

theorem Dev.rulesetCommitCmd_of_busy {d : Dev} (c : Cmd) (h : d.fwd.copying ≠ none ∨ d.freeSlot = none) :
    d.rulesetCommitCmd c = (d.bump Cnt.commitBusy).complete c stBusy 0 := by
  have hn : (if d.fwd.copying.isSome then none else d.freeSlot) = none := by
    rcases h with hc | hv
    · exact if_pos (Option.isSome_iff_ne_none.mpr hc)
    · rw [hv, ite_self]
  unfold Dev.rulesetCommitCmd
  rw [hn]

theorem Dev.copyDone_of_early {d : Dev} {c : Cmd} {v : Nat} {g : Word} {t : Nat} (h : d.fwd.copying = some (c, v, g, t))
    (ht : d.tim.cyc < t) : d.copyDone = d := by
  unfold Dev.copyDone
  rw [h]
  exact if_pos ht

/-- The device whose staging area has come into force as version `v` and generation `g`. -/
def Dev.takeVersion (d : Dev) (v : Nat) (g : Word) : Dev :=
  ((({ d with fwd := { d.fwd with
    versions := Sparse.put emptyRuleset d.fwd.versions v d.fwd.staging
    gens := Sparse.put 0 d.fwd.gens v g, copying := none } }.setFld Reg.pplVerstat_cur v).setBit Reg.pplVerstat_copying
    false).setReg Reg.pplGen g).bump Cnt.verCommit

theorem Dev.copyDone_of_due {d : Dev} {c : Cmd} {v : Nat} {g : Word} {t : Nat} (h : d.fwd.copying = some (c, v, g, t))
    (ht : t ≤ d.tim.cyc) : d.copyDone = (d.takeVersion v g).complete c stOk (v + g.toNat * 4294967296) := by
  unfold Dev.copyDone
  rw [h]
  exact if_neg (by omega)

theorem Dev.takeVersion_curVer (d : Dev) {v : Nat} (g : Word) (hv : v < 16) : (d.takeVersion v g).curVer = v := by
  have hgen (x : Dev) : (x.setReg Reg.pplGen g).fld Reg.pplVerstat_cur = x.fld Reg.pplVerstat_cur :=
    congrArg Reg.pplVerstat_cur.of (x.reg_setReg_ne (by decide) g)
  refine (Dev.fld_congr (Dev.bump_regs _ _) _).trans ((hgen _).trans ?_)
  refine (Dev.fld_setFld_of_separate _ _ _ _ (by decide)).trans ?_
  exact (Dev.fld_setFld_self _ _ _ (by decide)).trans (Nat.mod_eq_of_lt hv)

theorem Dev.takeVersion_gen (d : Dev) (v : Nat) (g : Word) : (d.takeVersion v g).reg Reg.pplGen = g :=
  (Dev.reg_congr (Dev.bump_regs _ _) _).trans (Dev.reg_setReg_same _ _ _)

theorem Dev.takeVersion_count (d : Dev) (v : Nat) (g : Word) :
    (d.takeVersion v g).counter Cnt.verCommit = d.counter Cnt.verCommit + 1 :=
  (Dev.counter_bumpBy _ _ _ _).trans (if_pos rfl)

/-! ## TABLE_REBUILD (R415) -/

theorem Dev.longOr_of_idle {d : Dev} {c : Cmd} {op : Half} (k : Dev → Dev) (hc : c.opcode = op) (h : d.runningOp op = none) :
    d.longOr c k = k d := if_neg (by rw [hc, h]; exact Bool.false_ne_true)

theorem Dev.longOr_of_running {d : Dev} {c : Cmd} {op : Half} (k : Dev → Dev) (hc : c.opcode = op) (h : d.runningOp op ≠ none) :
    d.longOr c k = d.complete c stBusy 0 := if_pos (by rw [hc]; exact Option.isSome_iff_ne_none.mpr h)

theorem Dev.rebuildDone_of_running {d : Dev} {r : Running} (h : d.runningOp opRebuild = some r) :
    d.rebuildDone = (((d.rebuildTable r.arg).1.progress opRebuild 100 (d.rebuildTable r.arg).2.2).finish r.cmd stOk
      (d.rebuildTable r.arg).2.1) := by
  unfold Dev.rebuildDone
  rw [h]

/-- Settles O17. -/
theorem commitAndRebuild : Obligations.CommitAndRebuild := by
  unfold Obligations.CommitAndRebuild
  refine ⟨fun s h table hf ht hr => ?_, fun s r ho hr => ?_, fun s h hf => ?_, fun d c v g t hc hv => ?_⟩
  · have hk := s.dev.fetch_alike opRebuild h
    refine .of_host hf rfl ((if_neg (by omega)).trans ?_)
    exact Dev.longOr_of_idle _ (Dev.fetch_opcode _ _ _) ((hk.runningOp _).trans hr)
  · intro Ends x
    have hends (n : Nat) (ha : r.arg = n) : Ends (s.dev.rebuildTable n).1 (s.dev.rebuildTable n).2.1 (s.dev.rebuildTable n).2.2 :=
      .of_runOp ho rfl (ha ▸ Dev.rebuildDone_of_running hr)
    exact ⟨hends 4, hends 0, hends 1⟩
  · have hk := s.dev.fetch_alike 0x0034 h
    have hcopy : (s.dev.fetch 0x0034 h).2.fwd.copying = s.dev.fwd.copying := by rw [hk.fwd]
    refine ⟨fun hc v hv => .of_host hf rfl ?_, fun hb => .of_host hf rfl ?_⟩
    · refine (Dev.rulesetCommitCmd_of_free _ (hcopy.trans hc) (hk.freeSlot.trans hv)).trans ?_
      have hcyc : (s.dev.fetch 0x0034 h).2.tim.cyc = s.dev.tim.cyc := by rw [hk.tim]
      have hgen : (s.dev.fetch 0x0034 h).2.reg Reg.pplGen = s.dev.reg Reg.pplGen := hk.reg _ (by unfold bookAddr; decide)
      unfold Dev.beginCopy
      rw [hk.fwd, hcyc, hgen]
      rfl
    · exact Dev.rulesetCommitCmd_of_busy _ (hb.imp (hcopy ▸ ·) (hk.freeSlot.trans ·))
  · exact ⟨Dev.copyDone_of_early hc, fun ht => ⟨d.takeVersion v g, Dev.copyDone_of_due hc ht, rfl,
      Sparse.get_put_same _ _ _ _, Sparse.get_put_same _ _ _ _, d.takeVersion_curVer g hv, d.takeVersion_gen v g,
      d.takeVersion_count v g, rfl⟩⟩

end Sys2Proof.Machine
end

section
/-! # Forwarding tables (R271 to R277, R415) -/

namespace Sys2Proof.Machine

/-! ## Entries that were removed for their parity -/

/-- What a list of writes to the tables makes of them depends on nothing but the tables. -/
theorem foldl_fwd_congr {α : Type} {f : Dev → α → Dev} (hf : ∀ d e x, e.fwd = d.fwd → (f e x).fwd = (f d x).fwd) (l : List α)
    {d e : Dev} (h : e.fwd = d.fwd) : (l.foldl f e).fwd = (l.foldl f d).fwd := by
  induction l generalizing d e with
  | nil => exact h
  | cons x l ih => exact ih (hf d e x h)

theorem Dev.setMac_fwd_congr {d e : Dev} (h : e.fwd = d.fwd) (k : Nat) (x : Option MacEntry) :
    (e.setMac k x).fwd = (d.setMac k x).fwd := congrArg (fun f : Fwd => { f with mac := Sparse.put none f.mac k x }) h

theorem Dev.setServer_fwd_congr {d e : Dev} (h : e.fwd = d.fwd) (k : Nat) (x : Option ServerEntry) :
    (e.setServer k x).fwd = (d.setServer k x).fwd :=
  congrArg (fun f : Fwd => { f with server := Sparse.put none f.server k x }) h

theorem Dev.restoreMac_fwd_congr {d e : Dev} (h : e.fwd = d.fwd) : e.restoreMac.fwd = d.restoreMac.fwd := by
  unfold Dev.restoreMac
  dsimp only
  rw [h]
  exact foldl_fwd_congr (f := fun d (p : Nat × Option MacEntry) => d.setMac p.1 p.2) (fun _ _ x h => Dev.setMac_fwd_congr h x.1 x.2) _ rfl

theorem Dev.restoreServer_fwd_congr {d e : Dev} (h : e.fwd = d.fwd) : e.restoreServer.fwd = d.restoreServer.fwd := by
  unfold Dev.restoreServer
  dsimp only
  rw [h]
  exact foldl_fwd_congr (f := fun d (p : Nat × Option ServerEntry) => d.setServer p.1 p.2)
    (fun _ _ x h => Dev.setServer_fwd_congr h x.1 x.2) _ rfl

theorem Dev.restoreMac_insStamp (d : Dev) : d.restoreMac.fwd.insStamp = d.fwd.insStamp := by
  have hl (l : Sparse (Option MacEntry)) : ∀ d : Dev, (l.foldl (fun d p => d.setMac p.1 p.2) d).fwd.insStamp = d.fwd.insStamp := by
    induction l with
    | nil => exact fun _ => rfl
    | cons x l ih => exact fun d => ih (d.setMac x.1 x.2)
  exact hl d.fwd.lostMac _

theorem Dev.macIndex_congr {d e : Dev} (h : e.fwd = d.fwd) (mac : BitVec 48) (vid : BitVec 12) :
    e.macIndex mac vid = d.macIndex mac vid := by
  unfold Dev.macIndex Dev.macAt
  rw [h]

/-! ## FWD_WRITE -/

theorem Dev.fwdWrite_of_none {table op : Nat} (d : Dev) (c : Cmd) (index : Nat) (buf : Buf) (h : table = 3 ∨ 4 < table ∨ 1 < op) :
    d.fwdWrite c table op index buf = d.complete c stBadParam 0 := if_pos h

theorem Dev.fwdWrite_of_ok {d : Dev} {table op : Nat} {buf : Buf} {b : List Byte} (c : Cmd) (index : Nat)
    (h : ¬ (table = 3 ∨ 4 < table ∨ 1 < op)) (ha : buf.addr ≠ 0) (hb : buf.data = .ok b) :
    d.fwdWrite c table op index buf = (d.fwdWriteEntry table (op == 1) index (b.take buf.len.toNat)).1.complete c
      (d.fwdWriteEntry table (op == 1) index (b.take buf.len.toNat)).2 0 := by
  unfold Dev.fwdWrite
  rw [if_neg h, Dev.withBuf_of_ok c _ ha (Nat.zero_le _) hb]

/-- A FWD_WRITE that writes what the table's own rule makes of the fetched device. -/
theorem Completes.of_fwdWrite {s : State} {h : CmdHdr} {table op : Byte} {index : BitVec 16} {buf : Buf} {b : List Byte}
    {e : Dev → Dev} {st : Nat} (hf : Fetching s) (ha : buf.addr ≠ 0) (hb : buf.data = .ok b)
    (ht : ¬ (table.toNat = 3 ∨ 4 < table.toNat ∨ 1 < op.toNat))
    (hd : (s.dev.fetch 0x0035 h).2.fwdWriteEntry table.toNat (op.toNat == 1) index.toNat (b.take buf.len.toNat) =
      (e (s.dev.fetch 0x0035 h).2, st)) :
    Completes (.fwdWrite h table op index buf) 0x0035 h s e st 0 :=
  .of_host hf rfl ((Dev.fwdWrite_of_ok _ _ ht ha hb).trans (by rw [hd]))

theorem Dev.hostPfx_of_beyond (d : Dev) (del : Bool) {i : Nat} (b : List Byte) (h : 2048 ≤ i) : d.hostPfx del i b = (d, stBadParam) :=
  if_pos h

theorem Dev.hostPfx_delete {d : Dev} {i : Nat} (b : List Byte) (h : i < 2048) (hp : (Sparse.get none d.fwd.pfx i).isSome = true) :
    d.hostPfx true i b = (d.setPfx i none, stOk) := by
  unfold Dev.hostPfx
  rw [if_neg (by omega), if_pos rfl, if_neg (by simpa using Option.isSome_iff_ne_none.mp hp)]

theorem Dev.hostPfx_write {d : Dev} {i : Nat} {b : List Byte} (h : i < 2048) (hl : 35 ≤ b.length) (h16 : leAt b 16 1 ≤ 128)
    (h33 : leAt b 33 1 ≤ 1) :
    d.hostPfx false i b = (d.setPfx i (some ⟨BitVec.ofNat 128 (leAt b 0 16), leAt b 16 1, BitVec.ofNat 128 (leAt b 17 16),
      leAt b 33 1 == 1, BitVec.ofNat 6 (leAt b 34 1)⟩), stOk) := by
  unfold Dev.hostPfx
  rw [if_neg (by omega), if_neg Bool.false_ne_true, if_neg (by omega)]

theorem Dev.hostServer_delete {d : Dev} {i : Nat} (b : List Byte) (h : i < 64)
    (hs : (Sparse.get none d.restoreServer.fwd.server i).isSome = true) :
    d.hostServer true i b = (d.restoreServer.setServer i none, stOk) := by
  unfold Dev.hostServer
  dsimp only
  rw [if_neg (by omega), if_pos rfl, if_neg (by simpa using Option.isSome_iff_ne_none.mp hs)]

theorem Dev.hostServer_write {d : Dev} {i : Nat} {b : List Byte} (h : i < 64) (hl : 18 ≤ b.length) :
    d.hostServer false i b = (d.restoreServer.setServer i
      (some ⟨BitVec.ofNat 128 (leAt b 0 16), BitVec.ofNat 16 (leAt b 16 2)⟩), stOk) := by
  unfold Dev.hostServer
  dsimp only
  rw [if_neg (by omega), if_neg Bool.false_ne_true, if_neg (by omega)]

theorem Dev.hostMac_delete {d : Dev} {b : List Byte} {k : Nat} (hl : 8 ≤ b.length)
    (hk : d.restoreMac.macIndex (BitVec.ofNat 48 (leAt b 0 6)) (BitVec.ofNat 12 (leAt b 6 2)) = some k) :
    d.hostMac true b = (d.restoreMac.setMac k none, stOk) := by
  unfold Dev.hostMac
  dsimp only
  rw [if_pos rfl, if_neg (by omega), hk]

theorem Dev.hostMac_write {d : Dev} {b : List Byte} {k : Nat} (hl : 9 ≤ b.length) (h8 : leAt b 8 1 ≤ 3)
    (hk : d.restoreMac.macIndex (BitVec.ofNat 48 (leAt b 0 6)) (BitVec.ofNat 12 (leAt b 6 2)) = some k) :
    d.hostMac false b = (d.restoreMac.setMac k (some ⟨BitVec.ofNat 48 (leAt b 0 6), BitVec.ofNat 12 (leAt b 6 2),
      BitVec.ofNat 2 (leAt b 8 1), true, false, 0, d.fwd.insStamp⟩), stOk) := by
  unfold Dev.hostMac
  dsimp only
  rw [if_neg Bool.false_ne_true, if_neg (by omega), hk, d.restoreMac_insStamp]

/-! ## The sensor table (R271) -/

section
variable {d e : Dev} (h : d.Alike e)
include h

theorem Dev.Alike.candidates (a : BitVec 24) : e.candidates a = d.candidates a := by
  unfold Dev.candidates Dev.sensorBuckets
  rw [h.bit (by unfold bookAddr; decide)]

theorem Dev.Alike.sensorAt (k : Nat) : e.sensorAt k = d.sensorAt k := by
  unfold Dev.sensorAt
  rw [h.fwd]

theorem Dev.Alike.sensorIndex (a : BitVec 24) : e.sensorIndex a = d.sensorIndex a := by
  unfold Dev.sensorIndex
  simp only [h.candidates, h.sensorAt]

theorem Dev.Alike.freeWay (b : Nat) : e.freeWay b = d.freeWay b := by
  unfold Dev.freeWay
  simp only [h.sensorAt]

theorem Dev.Alike.otherBucket (k : Nat) : e.otherBucket k = d.otherBucket k := by
  unfold Dev.otherBucket
  simp only [h.candidates, h.sensorAt]

end

/-- The free way of the two buckets of an address. -/
def Dev.freeFor (d : Dev) (a : BitVec 24) : Option Nat :=
  (d.freeWay (d.candidates a).1).orElse fun _ => d.freeWay (d.candidates a).2

theorem Dev.Alike.freeFor {d e : Dev} (h : d.Alike e) (a : BitVec 24) : e.freeFor a = d.freeFor a := by
  unfold Dev.freeFor
  simp only [h.candidates, h.freeWay]

theorem Dev.sensorInsert_of_index {d : Dev} {x : SensorEntry} {k : Nat} (h : d.sensorIndex x.addr = some k) :
    d.sensorInsert x = some (d.setSensorAt k (some x)) := by
  unfold Dev.sensorInsert
  rw [h]

theorem Dev.sensorInsert_of_free {d : Dev} {x : SensorEntry} {k : Nat} (h : d.sensorIndex x.addr = none)
    (hk : d.freeFor x.addr = some k) : d.sensorInsert x = some (d.setSensorAt k (some x)) := by
  unfold Dev.freeFor at hk
  unfold Dev.sensorInsert
  simp only [h, hk]

/-- Nothing is placed where the address is not in the table, no way is free, and no entry can move. -/
theorem Dev.sensorInsert_eq_none {d : Dev} {x : SensorEntry} :
    d.sensorInsert x = none ↔ d.sensorIndex x.addr = none ∧ d.freeFor x.addr = none ∧
      ∀ k ∈ ways8 (d.candidates x.addr).1 ++ ways8 (d.candidates x.addr).2, (d.otherBucket k).bind d.freeWay = none := by
  unfold Dev.sensorInsert Dev.freeFor
  dsimp only
  cases d.sensorIndex x.addr with
  | some k => simp
  | none =>
    cases (d.freeWay (d.candidates x.addr).1).orElse fun _ => d.freeWay (d.candidates x.addr).2 with
    | some k => simp
    | none => simp only [List.findSome?_eq_none_iff, Option.map_eq_none_iff, true_and]

theorem Dev.Alike.sensorInsert_eq_none {d e : Dev} (h : d.Alike e) {x : SensorEntry} (hx : d.sensorInsert x = none) :
    e.sensorInsert x = none := by
  rw [Dev.sensorInsert_eq_none] at hx ⊢
  have hw : e.freeWay = d.freeWay := funext h.freeWay
  rwa [h.sensorIndex, h.freeFor, h.candidates, funext h.otherBucket, hw]

/-! ## SENSOR_SET -/

/-- The entry that SENSOR_SET writes. -/
def sensorEntry (p : SensorParams) : SensorEntry :=
  { addr := p.addr, sidx := p.sidx.toNat, group := p.group, ulKind := p.ulKind.setWidth 3, ulIndex := p.ulIndex.setWidth 6,
    dlLink := p.dl.getLsbD 0, link := p.dl.extractLsb' 1 3 }

theorem Dev.sensorSet_write {d : Dev} {p : SensorParams} (c : Cmd) (hs : p.sidx.toNat < d.maxSensors) (hw : p.write.getLsbD 0 = true)
    (hp : p.ulKind.toNat ≤ 7 ∧ p.ulIndex.toNat ≤ 63 ∧ p.members.toNat ≤ 2) :
    d.sensorSet c p = match d.sensorInsert (sensorEntry p) with
      | none => (d.raise Reg.fwdStat_ins_fail).complete c stNoResource 0
      | some d => (d.showFill.setContext p).complete c stOk 0 := by
  unfold Dev.sensorSet
  rw [if_neg (by omega), if_neg (by rw [hw]; decide), if_neg (by omega)]
  rfl

theorem Dev.sensorSet_delete {d : Dev} {p : SensorParams} {k : Nat} (c : Cmd) (hs : p.sidx.toNat < d.maxSensors)
    (hw : p.write.getLsbD 0 = false) (hk : d.sensorIndex p.addr = some k) :
    d.sensorSet c p = (d.setSensorAt k none).showFill.complete c stOk 0 := by
  unfold Dev.sensorSet
  rw [if_neg (by omega), if_pos (by rw [hw]; rfl), hk]

/-- Settles O16: the commands' equations, on the device after the fetch, whose tables and buckets are those before it. -/
theorem tableWrites : Obligations.TableWrites := by
  unfold Obligations.TableWrites
  refine ⟨fun s h index buf b hf ha hb => ?_, fun s h p hf hs => ?_⟩
  · have hk := s.dev.fetch_alike 0x0035 h
    have hfwd : (s.dev.fetch 0x0035 h).2.fwd = s.dev.fwd := hk.fwd
    refine ⟨fun hi hl => ?_, fun hi hp => ?_, fun hi hp => ?_, ?_, ?_, fun hi op hop => ?_, fun table op ht => ?_⟩
    · exact .of_fwdWrite hf ha hb (by decide) (Dev.hostServer_write hi hl)
    · exact .of_fwdWrite hf ha hb (by decide) (Dev.hostPfx_delete _ hi (by rwa [hfwd]))
    · exact .of_fwdWrite hf ha hb (by decide)
        (Dev.hostServer_delete _ hi (by rwa [Dev.restoreServer_fwd_congr hfwd]))
    · intro v hi hl h16 h33
      exact .of_fwdWrite hf ha hb (by decide) (Dev.hostPfx_write hi hl h16 h33)
    · intro v mac vid k hm
      have hm' : (s.dev.fetch 0x0035 h).2.restoreMac.macIndex mac vid = some k :=
        (Dev.macIndex_congr (Dev.restoreMac_fwd_congr hfwd) mac vid).trans hm
      have hstamp : (s.dev.fetch 0x0035 h).2.fwd.insStamp = s.dev.fwd.insStamp := by rw [hfwd]
      refine ⟨fun hl h8 => .of_fwdWrite hf ha hb (by decide) ?_, fun hl => .of_fwdWrite hf ha hb (by decide) ?_⟩
      · exact (Dev.hostMac_write hl h8 hm').trans (by rw [hstamp])
      · exact Dev.hostMac_delete hl hm'
    · have ht : ¬ ((2 : Byte).toNat = 3 ∨ 4 < (2 : Byte).toNat ∨ 1 < op.toNat) := by
        rintro (h2 | h2 | h2)
        · exact absurd h2 (by decide)
        · exact absurd h2 (by decide)
        · omega
      exact .of_fwdWrite hf ha hb ht (Dev.hostPfx_of_beyond _ _ _ hi)
    · exact .of_host hf rfl (Dev.fwdWrite_of_none _ _ _ _ (ht.imp_left fun (h3 : table = 3) => by rw [h3]; rfl))
  · intro e
    have hk := s.dev.fetch_alike 0x001B h
    have hs' : p.sidx.toNat < (s.dev.fetch 0x001B h).2.maxSensors := hk.maxSensors ▸ hs
    refine ⟨fun hw h1 h2 h3 k hi => .of_host hf rfl ?_, fun hw h1 h2 h3 hi k hfree => .of_host hf rfl ?_,
      fun hw h1 h2 h3 hn => .of_host hf rfl ?_, fun hw k hi => .of_host hf rfl ?_⟩
    · exact (Dev.sensorSet_write _ hs' hw ⟨h1, h2, h3⟩).trans
        (by rw [Dev.sensorInsert_of_index (x := sensorEntry p) ((hk.sensorIndex p.addr).trans hi)]; rfl)
    · exact (Dev.sensorSet_write _ hs' hw ⟨h1, h2, h3⟩).trans
        (by rw [Dev.sensorInsert_of_free (x := sensorEntry p) ((hk.sensorIndex p.addr).trans hi) ((hk.freeFor p.addr).trans hfree)]; rfl)
    · exact (Dev.sensorSet_write _ hs' hw ⟨h1, h2, h3⟩).trans (by rw [hk.sensorInsert_eq_none (x := sensorEntry p) hn])
    · exact Dev.sensorSet_delete _ hs' hw ((hk.sensorIndex p.addr).trans hi)

end Sys2Proof.Machine
end

section
/-! # What the books leave of the host interface (R405 to R411, R420) -/

namespace Sys2Proof.Machine

/-- From `d` to `e` the books have changed, and of the host interface nothing but rings, what waits to be written, and what has
been written. -/
structure Dev.Books (d e : Dev) : Prop extends Dev.Book d e where
  hif : e.hif = { d.hif with
    rings := e.hif.rings, complQ := e.hif.complQ, eventQ := e.hif.eventQ, lost := e.hif.lost, written := e.hif.written }

theorem Dev.Books.runs {d e : Dev} (h : d.Books e) : e.hif.runs = d.hif.runs := (congrArg Hif.runs h.hif).trans rfl
theorem Dev.Books.txWait {d e : Dev} (h : d.Books e) : e.hif.txWait = d.hif.txWait := (congrArg Hif.txWait h.hif).trans rfl
theorem Dev.Books.tx {d e : Dev} (h : d.Books e) : e.hif.tx = d.hif.tx := (congrArg Hif.tx h.hif).trans rfl
theorem Dev.Books.epoch {d e : Dev} (h : d.Books e) : e.hif.epoch = d.hif.epoch := (congrArg Hif.epoch h.hif).trans rfl
theorem Dev.Books.survey {d e : Dev} (h : d.Books e) : e.hif.survey = d.hif.survey := (congrArg Hif.survey h.hif).trans rfl

theorem Dev.Books.of_hif {d e : Dev} (h : d.Book e) (hh : e.hif = d.hif) : d.Books e := ⟨h, by rw [hh]⟩

theorem Dev.Books.refl (d : Dev) : d.Books d := .of_hif (.refl d) rfl

theorem Dev.Books.trans {a b c : Dev} (h : a.Books b) (k : b.Books c) : a.Books c := ⟨h.toBook.trans k.toBook, by rw [k.hif, h.hif]⟩

/-- A field of a device of the books that is none of DEV_STATE. -/
theorem Dev.Books.setFld (d : Dev) (f : Field) (v : Nat) (ha : bookAddr f.addr) (hs : f.addr ≠ Reg.hifStat) :
    d.Books (d.setFld f v) := .of_hif (.setFld d f v ha hs) rfl

theorem Dev.tracePush_hif (d : Dev) (m : List Byte) : (d.tracePush m).hif = d.hif := rfl

theorem Dev.traceLostMsg_hif (d : Dev) : d.traceLostMsg.hif = d.hif := by
  unfold Dev.traceLostMsg
  dsimp only
  split <;> rfl

theorem Dev.trace_hif (d : Dev) (ty : Nat) (l : List Byte) : (d.trace ty l).hif = d.hif := by
  unfold Dev.trace
  split
  · rfl
  · dsimp only
    generalize (if ty = 1 then true else _) = room
    split
    · exact d.traceLostMsg_hif
    · rfl

theorem Dev.Books.trace (d : Dev) (ty : Nat) (l : List Byte) : d.Books (d.trace ty l) := .of_hif (.trace d ty l) (d.trace_hif ty l)

theorem Dev.Books.bump (d : Dev) (c n : Nat) (h : bookCnt c) : d.Books (d.bumpBy c n) := .of_hif (.bump d c n h) rfl

theorem Dev.Books.setRing (d : Dev) (i : Nat) (r : Ring) : d.Books (d.setRing i r) := ⟨.setRing d i r, rfl⟩

theorem Dev.Books.setRingDev (d : Dev) (i k : Nat) (hi : i < 48) : d.Books (d.setRingDev i k) := ⟨.setRingDev d i k hi, rfl⟩

theorem Dev.Books.hostWrite (d : Dev) (a : Nat) (b : List Byte) : d.Books (d.hostWrite a b) := by
  refine .of_hif (.hostWrite d a b) ?_
  unfold Dev.hostWrite
  split <;> rfl

theorem Dev.Books.msix (d : Dev) (v : Nat) : d.Books (d.msix v) := by
  refine .of_hif (.msix d v) ?_
  unfold Dev.msix
  split <;> rfl

theorem Dev.Books.signal (d : Dev) (i : Nat) : d.Books (d.signal i) := by
  unfold Dev.signal
  split
  · exact .refl d
  · split
    · exact .msix d _
    · split
      · exact .refl d
      · exact .setRing d _ _

theorem Dev.Books.ringWrite (d : Dev) (i pb : Nat) (e : List Byte) (hi : i < 48) : d.Books (d.ringWrite i pb e) :=
  ((Dev.Books.hostWrite d _ _).trans (.setRingDev _ i _ hi)).trans (.signal _ i)

theorem Dev.Books.record (d : Dev) (w : Written) : d.Books (d.record w) := ⟨.record d w, rfl⟩

theorem Dev.Books.out (d : Dev) (o : Output) : d.Books (d.out o) := .of_hif (.out d o) rfl

theorem Dev.Books.writeEvent (d : Dev) (e : List Byte) : d.Books (d.writeEvent e) := by
  have h : d.Books (if d.hosted then d.ringWrite 2 2 e else d.out (.localEvent e)) := by
    split
    · exact .ringWrite d 2 2 e (by decide)
    · exact .out d _
  exact (h.trans (.bump _ Cnt.eventWritten 1 (by unfold bookCnt; decide))).trans (.record _ _)

/-- What waits to be written, and the count of lost events, may change. -/
theorem Dev.Books.queues (d : Dev) (q : List (List Byte × Nat)) (v : List (List Byte)) (n : Nat) :
    d.Books { d with hif := { d.hif with complQ := q, eventQ := v, lost := n } } := ⟨.hif d _, rfl⟩

theorem Dev.Books.drainEvents (n : Nat) (d : Dev) : d.Books (Dev.drainEvents n d) := by
  induction n generalizing d with
  | zero => exact .refl d
  | succ n ih =>
    unfold Dev.drainEvents
    split
    · exact .refl d
    · split
      · exact ((Dev.Books.queues d d.hif.complQ d.hif.eventQ 0).trans (.writeEvent _ _)).trans (ih _)
      · split
        · exact .refl d
        · next t _ => exact ((Dev.Books.queues d d.hif.complQ t d.hif.lost).trans (.writeEvent _ _)).trans (ih _)

theorem Dev.Books.eventR (d : Dev) (ty code : Nat) (recov : Bool) (l : List (Nat × List Byte)) :
    d.Books (d.eventR ty code recov l) := by
  unfold Dev.eventR
  dsimp only
  refine (Dev.Books.trace d 2 (d.eventEntry ty code recov (evData l))).trans ?_
  generalize d.trace 2 (d.eventEntry ty code recov (evData l)) = x
  split
  · exact (Dev.Books.queues x x.hif.complQ _ x.hif.lost).trans (.drainEvents 258 _)
  · exact ((Dev.Books.queues x x.hif.complQ x.hif.eventQ _).trans (.bump _ Cnt.eventLost 1 (by unfold bookCnt; decide))).trans
      (.of_hif (.setStat _ Reg.hifStat_evt_lost 1 rfl (by unfold Field.ok; decide) (by unfold Field.apart; decide)) rfl)

theorem Dev.Books.event (d : Dev) (ty code : Nat) (l : List (Nat × List Byte)) : d.Books (d.event ty code l) :=
  .eventR d ty code false l

theorem Dev.Books.writeCompl (d : Dev) (e : List Byte) (k : Nat) : d.Books (d.writeCompl e k) := by
  have h : d.Books (if d.hosted then d.ringWrite 1 7 e else d.out (.localCompl e)) := by
    split
    · exact .ringWrite d 1 7 e (by decide)
    · exact .out d _
  have hc : ∀ b : Bool, bookCnt (if b then Cnt.cmdDone else Cnt.cmdInProgress) := by unfold bookCnt; decide
  unfold Dev.writeCompl
  dsimp only
  generalize (if d.hosted then d.ringWrite 1 7 e else d.out (.localCompl e)) = x at h ⊢
  generalize (beAt e 7 1 % 2 == 1) = final
  have h3 := ((h.trans (.trace _ 5 (complTrace e))).trans (.bump _ _ 1 (hc final))).trans (.record _ (.compl k final))
  rw [Dev.bump]
  generalize (((x.trace 5 (complTrace e)).bumpBy _ 1).record (.compl k final)) = y at h3 ⊢
  split
  · exact h3.trans (.setRing _ _ _)
  · exact h3

theorem Dev.Books.drainCompl (n : Nat) (d : Dev) : d.Books (Dev.drainCompl n d) := by
  induction n generalizing d with
  | zero => exact .refl d
  | succ n ih =>
    unfold Dev.drainCompl
    split
    · exact .refl d
    · split
      · exact .refl d
      · next t _ => exact ((Dev.Books.queues d t d.hif.eventQ d.hif.lost).trans (.writeCompl _ _ _)).trans (ih _)

theorem Dev.Books.tellLocal (d : Dev) (c : Cmd) (st : Nat) : d.Books (d.tellLocal c st) := by
  refine .of_hif (.tellLocal d c st) ?_
  unfold Dev.tellLocal
  split
  · split <;> rfl
  · rfl

theorem Dev.Books.completion (d : Dev) (c : Cmd) (st : Nat) (final : Bool) (res : Nat) :
    d.Books (d.completion c st final res) := by
  have h : d.Books (if final then d.tellLocal c st else d) := by
    split
    · exact .tellLocal d c st
    · exact .refl d
  unfold Dev.completion
  dsimp only
  generalize (if final then d.tellLocal c st else d) = x at h ⊢
  split
  · exact h
  · exact (h.trans (.queues x _ x.hif.eventQ x.hif.lost)).trans (.drainCompl 64 _)

theorem Dev.Books.complete (d : Dev) (c : Cmd) (st res : Nat) : d.Books (d.complete c st res) := .completion d c st true res

theorem Dev.Books.refuseState (d : Dev) (c : Cmd) (radio : Nat) : d.Books (d.refuseState c radio) :=
  ((Dev.Books.complete d c _ _).trans (.bump _ Cnt.cmdState 1 (by unfold bookCnt; decide))).trans (.event _ _ _ _)

theorem Dev.Books.writeStatus (d : Dev) (r : Running) (st : Nat) : d.Books (d.writeStatus r st).2 := by
  unfold Dev.writeStatus
  dsimp only
  split
  · exact .refl d
  · exact .hostWrite d _ _

/-! ## Outstanding commands -/

/-- A long operation that starts stands last among the outstanding commands. -/
theorem Dev.startLong_runs (d : Dev) (c : Cmd) (res arg : Nat) :
    (d.startLong c res arg).hif.runs = d.hif.runs ++ [⟨c, true, 1, 0, 0, arg⟩] := by
  have h := (Dev.Books.completion d c stInProgress false res).trans (.writeStatus _ ⟨c, true, 0, 0, 0, arg⟩ stInProgress)
  show _ ++ [_] = _
  rw [h.runs, Dev.writeStatus_fst]
  rfl

theorem Dev.startLong_runningOp (d : Dev) {c : Cmd} {op : Half} (res arg : Nat) (hc : c.opcode = op) (h : d.runningOp op = none) :
    (d.startLong c res arg).runningOp op = some ⟨c, true, 1, 0, 0, arg⟩ := by
  unfold Dev.runningOp at h ⊢
  rw [d.startLong_runs, List.find?_append, h]
  simp [hc]

theorem Dev.Book.progress (d : Dev) (op : Half) (pct part : Nat) : d.Book (d.progress op pct part) := by
  unfold Dev.progress
  split
  · exact .refl d
  · exact (Dev.Book.writeStatus d _ _).trans (.hif _ _)

theorem Dev.Book.finishState (d : Dev) (c : Cmd) (radio : Nat) : d.Book (d.finishState c radio) := by
  unfold Dev.finishState
  split
  · exact .refl d
  · exact ((Dev.Book.writeStatus d _ _).trans (.hif _ _)).trans (.refuseState _ _ _)

theorem Dev.Book.chanCheck (d : Dev) : d.Book d.chanCheck := by
  unfold Dev.chanCheck
  split
  · exact .refl d
  · split
    · exact (Dev.Book.progress d _ _ _).trans (.finish _ _ _ _)
    · split
      · exact .refl d
      · exact .progress d _ _ _

end Sys2Proof.Machine
end

section
/-! # Radio states and sweeps (R137, R147, R151, R152) -/

namespace Sys2Proof.Machine

/-! ## What a change of one radio leaves -/

/-- From `d` to `e` no radio but `r` has changed. -/
structure Dev.OtherRadios (r : RadioId) (d e : Dev) : Prop where
  radio : ∀ q, q ≠ r → e.radio q = d.radio q
  rfState : ∀ q, q ≠ r → e.rfState q = d.rfState q

theorem Dev.OtherRadios.refl (r : RadioId) (d : Dev) : d.OtherRadios r d := ⟨fun _ _ => rfl, fun _ _ => rfl⟩

theorem Dev.OtherRadios.trans {r : RadioId} {a b c : Dev} (h : Dev.OtherRadios r a b) (k : Dev.OtherRadios r b c) :
    Dev.OtherRadios r a c :=
  ⟨fun q hq => (k.radio q hq).trans (h.radio q hq), fun q hq => (k.rfState q hq).trans (h.rfState q hq)⟩

/-- The radios, and the state that each of them shows, are those of `d`. -/
def Dev.SameRadios (d e : Dev) : Prop := ∀ q, e.radio q = d.radio q ∧ e.rfState q = d.rfState q

theorem Dev.SameRadios.trans {a b c : Dev} (h : a.SameRadios b) (k : b.SameRadios c) : a.SameRadios c :=
  fun q => ⟨(k q).1.trans (h q).1, (k q).2.trans (h q).2⟩

theorem Dev.SameRadios.other {d e : Dev} (h : d.SameRadios e) (r : RadioId) : Dev.OtherRadios r d e :=
  ⟨fun q _ => (h q).1, fun q _ => (h q).2⟩

theorem Dev.radio_congr {d e : Dev} (h0 : e.r0 = d.r0) (h1 : e.r1 = d.r1) (h2 : e.r2 = d.r2) (q : RadioId) :
    e.radio q = d.radio q := by
  match q with
  | 0 => exact h0
  | 1 => exact h1
  | 2 => exact h2

theorem Dev.Book.radio {d e : Dev} (h : d.Book e) (q : RadioId) : e.radio q = d.radio q := Dev.radio_congr h.r0 h.r1 h.r2 q

theorem Dev.Book.fld {d e : Dev} (h : d.Book e) {f : Field} (hf : ¬ bookAddr f.addr) : e.fld f = d.fld f :=
  congrArg f.of (h.reg _ hf)

theorem Dev.Book.sameRadios {d e : Dev} (h : d.Book e) : d.SameRadios e :=
  fun q => ⟨h.radio q, h.fld (not_bookAddr_rfStat q)⟩

theorem Dev.Alike.sameRadios {d e : Dev} (h : d.Alike e) : d.SameRadios e := fun q => ⟨h.radio q, h.rfState q⟩

theorem Dev.OtherRadios.modRadio (r : RadioId) (d : Dev) (f : Radio → Radio) : Dev.OtherRadios r d (d.modRadio r f) where
  radio q hq := (d.radio_modRadio r q f).trans (if_neg hq)
  rfState _ _ := Dev.fld_congr (d.modRadio_regs r f) _

/-- The fields of RF_STAT of two radios share nothing. -/
theorem rfStat_ne {q r : RadioId} (h : q ≠ r) : Reg.rfStat q ≠ Reg.rfStat r := by
  unfold Reg.rfStat
  have : q.val ≠ r.val := fun e => h (Fin.ext e)
  omega

theorem Dev.OtherRadios.setFld (r : RadioId) (d : Dev) {f : Field} (v : Nat) (h : f.addr = Reg.rfStat r) :
    Dev.OtherRadios r d (d.setFld f v) where
  radio _ _ := rfl
  rfState q hq := congrArg (Reg.rfStat_state q).of (Dev.reg_setFld_ne _ _ _ _ (h ▸ rfStat_ne hq))

/-- What the air path keeps beside the radios. -/
structure Dev.AirKept (d e : Dev) : Prop where
  chans : e.chans = d.chans
  sch : e.sch = d.sch
  msh : e.msh = d.msh
  tim : e.tim = d.tim
  kao : e.kao = d.kao
  fwd : e.fwd = d.fwd
  decodeQ : e.decodeQ = d.decodeQ

theorem Dev.AirKept.trans {a b c : Dev} (h : a.AirKept b) (k : b.AirKept c) : a.AirKept c :=
  ⟨k.chans.trans h.chans, k.sch.trans h.sch, k.msh.trans h.msh, k.tim.trans h.tim, k.kao.trans h.kao, k.fwd.trans h.fwd,
    k.decodeQ.trans h.decodeQ⟩

theorem Dev.Book.airKept {d e : Dev} (h : d.Book e) : d.AirKept e := ⟨h.chans, h.sch, h.msh, h.tim, h.kao, h.fwd, h.decodeQ⟩

theorem Dev.AirKept.setFld (d : Dev) (f : Field) (v : Nat) : d.AirKept (d.setFld f v) := ⟨rfl, rfl, rfl, rfl, rfl, rfl, rfl⟩

theorem Dev.AirKept.modRadio (d : Dev) (r : RadioId) (f : Radio → Radio) : d.AirKept (d.modRadio r f) := by
  constructor <;> simp

theorem Dev.fetch_airKept (d : Dev) (op : Half) (h : CmdHdr) : d.AirKept (d.fetch op h).2 := by constructor <;> simp

/-! ## setRf -/

/-- A radio that changes its state shows the new one; all else are the books (R151, R127). -/
theorem Dev.setRf_book {d : Dev} {r : RadioId} {new : Nat} (cause : Nat) (h : d.rfState r ≠ new) :
    (d.setFld (Reg.rfStat_state r) new).Book (d.setRf r new cause) := by
  unfold Dev.setRf
  dsimp only
  rw [if_neg h]
  exact (Dev.Book.event _ _ _ _).trans (.chanCheck _)

theorem Dev.setRf_rfState {d : Dev} {r : RadioId} {new : Nat} (cause : Nat) (h : d.rfState r ≠ new) (hn : new < 8) :
    (d.setRf r new cause).rfState r = new := by
  rw [((Dev.setRf_book cause h).sameRadios r).2]
  exact (Dev.fld_setFld_self d (Reg.rfStat_state r) new (by simp [Reg.rfStat_state])).trans (Nat.mod_eq_of_lt hn)

theorem Dev.setRf_other {d : Dev} {r : RadioId} {new : Nat} (cause : Nat) (h : d.rfState r ≠ new) :
    Dev.OtherRadios r d (d.setRf r new cause) :=
  (Dev.OtherRadios.setFld r d new rfl).trans ((Dev.setRf_book cause h).sameRadios.other r)

theorem Dev.setRf_radio {d : Dev} {r : RadioId} {new : Nat} (cause : Nat) (h : d.rfState r ≠ new) (q : RadioId) :
    (d.setRf r new cause).radio q = d.radio q := (Dev.setRf_book cause h).radio q

theorem Dev.setRf_airKept {d : Dev} {r : RadioId} {new : Nat} (cause : Nat) (h : d.rfState r ≠ new) :
    d.AirKept (d.setRf r new cause) := (Dev.AirKept.setFld d _ _).trans (Dev.setRf_book cause h).airKept

theorem not_bookAddr_rfTemp (r : RadioId) : ¬ bookAddr (Reg.rfTemp r) := by
  revert r
  unfold bookAddr
  decide

theorem rfTemp_ne_rfStat (r : RadioId) : Reg.rfTemp r ≠ Reg.rfStat r := by
  revert r
  decide

theorem Dev.setRf_temp {d : Dev} {r : RadioId} {new : Nat} (cause : Nat) (h : d.rfState r ≠ new) :
    (d.setRf r new cause).fld (Reg.rfTemp_now r) = d.fld (Reg.rfTemp_now r) :=
  ((Dev.setRf_book cause h).fld (not_bookAddr_rfTemp r)).trans
    (congrArg (Reg.rfTemp_now r).of (Dev.reg_setFld_ne _ _ _ _ (rfTemp_ne_rfStat r)))

/-! ## The front end -/

/-- With PA_EN and LNA_EN low, the two top pins are low. -/
theorem pins_low (req fe : Nat) (hreq : req ≤ 1) :
    (BitVec.ofNat 9 (256 * false.toNat + 128 * (false && !false).toNat + 64 * req + fe % 64)).getLsbD 8 = false ∧
      (BitVec.ofNat 9 (256 * false.toNat + 128 * (false && !false).toNat + 64 * req + fe % 64)).getLsbD 7 = false := by
  have hlt : 256 * false.toNat + 128 * (false && !false).toNat + 64 * req + fe % 64 < 2 ^ 7 := by
    simp only [Bool.toNat_false, Bool.false_and]
    omega
  have h8 := Nat.testBit_lt_two_pow (lt_trans hlt (by decide : 2 ^ 7 < 2 ^ 8))
  have h7 := Nat.testBit_lt_two_pow hlt
  simp only [BitVec.getLsbD_ofNat, h8, h7, Bool.and_false, and_self]

theorem Dev.drive_radio (d : Dev) (r : RadioId) (pa lna : Bool) :
    ∃ p, (d.drive r pa lna).radio r = { d.radio r with pins := p } :=
  ⟨_, (d.radio_modRadio r r _).trans (if_pos rfl)⟩

theorem Dev.OtherRadios.drive (r : RadioId) (d : Dev) (pa lna : Bool) : Dev.OtherRadios r d (d.drive r pa lna) := by
  unfold Dev.drive
  exact .modRadio r d _

theorem Dev.AirKept.drive (d : Dev) (r : RadioId) (pa lna : Bool) : d.AirKept (d.drive r pa lna) := by
  unfold Dev.drive
  exact .modRadio d r _

theorem Dev.drive_low (d : Dev) (r : RadioId) :
    ((d.drive r false false).radio r).pins.getLsbD 8 = false ∧ ((d.drive r false false).radio r).pins.getLsbD 7 = false := by
  have hr : (d.drive r false false).radio r = _ := (d.radio_modRadio r r _).trans (if_pos rfl)
  rw [hr]
  exact pins_low _ _ (Bool.toNat_le _)

/-! ## A sweep starts (R137) -/

/-- The radio of `d` sweeps for `cmd`, as the device `s` has it (R137). -/
structure Dev.Sweeps (s d : Dev) (r : RadioId) (cmd : Option Cmd) : Prop where
  rfState : d.rfState r = rsCalibrating
  sweep : (d.radio r).sweep = some ⟨cmd, s.configured, [], byte (s.fld (Reg.rfTemp_now r)),
    s.tim.slotS + 40 + 2 * s.configured.length⟩
  pa : (d.radio r).pins.getLsbD 8 = false
  lna : (d.radio r).pins.getLsbD 7 = false
  other : Dev.OtherRadios r s d
  air : s.AirKept d

/-- What the radio looks like once its sweep has started. -/
def Dev.sweepRadio (d : Dev) (r : RadioId) (cmd : Option Cmd) (l : List Nat) (x : Radio) : Radio :=
  { x with
    sweep := some ⟨cmd, l, [], byte (d.fld (Reg.rfTemp_now r)), d.tim.slotS + 40 + 2 * l.length⟩, buildQ := [],
    tempRun := none, calDone := false, chan := none, target := none, tuneWait := false }

theorem Dev.startSweep_eq (d : Dev) (r : RadioId) (cmd : Option Cmd) (cause : Nat) :
    d.startSweep r cmd cause =
      (((d.setRf r rsCalibrating cause).modRadio r
        ((d.setRf r rsCalibrating cause).sweepRadio r cmd d.configured)).setBit (Reg.rfStat_lock r) false).drive r false false := rfl

theorem Dev.startSweep_sweeps {d : Dev} {r : RadioId} (cmd : Option Cmd) (cause : Nat) (h : d.rfState r ≠ rsCalibrating) :
    d.Sweeps (d.startSweep r cmd cause) r cmd := by
  rw [d.startSweep_eq]
  have hstate := Dev.setRf_rfState cause h (by decide)
  have hother := Dev.setRf_other cause h
  have hair := Dev.setRf_airKept cause h
  have htemp := Dev.setRf_temp cause h
  generalize d.setRf r rsCalibrating cause = x at hstate hother hair htemp
  generalize hy : x.modRadio r (x.sweepRadio r cmd d.configured) = y
  have hyr : y.radio r = x.sweepRadio r cmd d.configured (x.radio r) := by rw [← hy, Dev.radio_modRadio, if_pos rfl]
  have hyo : Dev.OtherRadios r x y := hy ▸ .modRadio r x _
  have hya : x.AirKept y := hy ▸ .modRadio x r _
  have hyregs : y.regs = x.regs := by rw [← hy, Dev.modRadio_regs]
  have hbit : Dev.OtherRadios r y (y.setBit (Reg.rfStat_lock r) false) := .setFld r y _ rfl
  obtain ⟨hpa, hlna⟩ := (y.setBit (Reg.rfStat_lock r) false).drive_low r
  obtain ⟨p, hp⟩ := (y.setBit (Reg.rfStat_lock r) false).drive_radio r false false
  refine ⟨?_, ?_, hpa, hlna, ((hother.trans hyo).trans hbit).trans (.drive r _ false false),
    ((hair.trans hya).trans (.setFld y (Reg.rfStat_lock r) _)).trans (.drive _ r false false)⟩
  · refine (Dev.fld_congr (Dev.modRadio_regs _ r _) _).trans ?_
    refine (Dev.fld_setFld_of_separate y (Reg.rfStat_lock r) (Reg.rfStat_state r) _ ?_).trans
      ((Dev.fld_congr hyregs _).trans hstate)
    simp [Field.separate, Reg.rfStat_lock, Reg.rfStat_state]
  · have hyr' : (y.setBit (Reg.rfStat_lock r) false).radio r = y.radio r := rfl
    rw [hp, hyr', hyr]
    show some (Sweep.mk _ _ _ _ _) = _
    rw [htemp, hair.tim]

theorem Dev.configured_congr {d e : Dev} (h : e.chans = d.chans) : e.configured = d.configured := by
  unfold Dev.configured
  rw [h]

/-- A sweep looks the same from any device with the same channels, temperature and time. -/
theorem Dev.Sweeps.of_kept {s t d : Dev} {r : RadioId} {cmd : Option Cmd} (h : t.Sweeps d r cmd) (ha : s.AirKept t)
    (ho : Dev.OtherRadios r s t) (ht : t.fld (Reg.rfTemp_now r) = s.fld (Reg.rfTemp_now r)) : s.Sweeps d r cmd where
  rfState := h.rfState
  sweep := by rw [h.sweep, Dev.configured_congr ha.chans, ht, ha.tim]
  pa := h.pa
  lna := h.lna
  other := ho.trans h.other
  air := ha.trans h.air

/-! ## The obligation -/

theorem Dev.leanFull_alike {d e : Dev} (h : d.Alike e) : e.leanFull = d.leanFull := by
  unfold Dev.leanFull
  rw [h.fld (by unfold bookAddr; decide)]
  simp only [h.rfState]

/-- OFF or FAILED to IDLE, and at once to CALIBRATING (R152). -/
theorem Dev.sweepFrom_idle {d : Dev} {r : RadioId} (h : d.rfState r ≠ rsIdle) :
    d.Sweeps ((d.setRf r rsIdle 4).startSweep r none 4) r none := by
  have hstate := Dev.setRf_rfState 4 h (by decide)
  exact (Dev.startSweep_sweeps none 4 (by rw [hstate]; decide)).of_kept (Dev.setRf_airKept 4 h) (Dev.setRf_other 4 h)
    (Dev.setRf_temp 4 h)

theorem Dev.Alike.temp {d e : Dev} (h : d.Alike e) (r : RadioId) : e.fld (Reg.rfTemp_now r) = d.fld (Reg.rfTemp_now r) :=
  h.fld (not_bookAddr_rfTemp r)

/-- Settles O18: the sweep starts on the fetched device, which has the radios, channels and time of the state. -/
theorem radioSweepCommands : Obligations.RadioSweepCommands := by
  unfold Obligations.RadioSweepCommands
  intro s h radio hr hf r Swept
  have swept {d : Dev} {cmd : Option Cmd} (k : s.dev.Sweeps d r cmd) : Swept d cmd :=
    ⟨k.rfState, k.sweep, k.pa, k.lna, fun q hq => ⟨k.other.radio q hq, k.other.rfState q hq⟩, k.air.sch, k.air.chans, k.air.msh,
      k.air.kao, k.air.fwd, k.air.decodeQ⟩
  clear_value Swept
  have fetched {op : Half} {d : Dev} {cmd : Option Cmd} (k : (s.dev.fetch op h).2.Sweeps d r cmd) : s.dev.Sweeps d r cmd :=
    k.of_kept (s.dev.fetch_airKept op h) ((s.dev.fetch_alike op h).sameRadios.other r) ((s.dev.fetch_alike op h).temp r)
  refine ⟨fun hoff hlean => ?_, fun hfail => ?_, fun hready hrun => ?_⟩
  · have hk := s.dev.fetch_alike 0x0014 h
    have hst : (s.dev.fetch 0x0014 h).2.rfState r = rsOff := (hk.rfState r).trans hoff
    refine ⟨_, .of_host hf rfl ((Dev.withRadio_of_lt _ _ hr _).trans (if_neg ?_)), swept (fetched (op := 0x0014) ?_)⟩
    · rw [Dev.leanFull_alike hk, hlean, hst]
      decide
    · exact Dev.sweepFrom_idle (by rw [hst]; decide)
  · have hst : (s.dev.fetch 0x0016 h).2.rfState r = rsFailed := ((s.dev.fetch_alike 0x0016 h).rfState r).trans hfail
    refine ⟨_, .of_host hf rfl ((Dev.withRadio_of_lt _ _ hr _).trans (if_neg (not_not.mpr hst))), swept (fetched (op := 0x0016) ?_)⟩
    exact Dev.sweepFrom_idle (by rw [hst]; decide)
  · have hk := s.dev.fetch_alike opRfCalSweep h
    have hst : (s.dev.fetch opRfCalSweep h).2.rfState r = rsReady := (hk.rfState r).trans hready
    have hlong := Dev.Book.startLong (s.dev.fetch opRfCalSweep h).2 (s.dev.fetch opRfCalSweep h).1 0 0
    have hst' := (hlong.sameRadios r).2.trans hst
    refine ⟨_, .of_host hf rfl ((Dev.withRadio_of_lt _ _ hr _).trans ((if_neg (not_not.mpr hst)).trans
      (Dev.longOr_of_idle (op := opRfCalSweep) _ (Dev.fetch_opcode _ _ _) ((hk.runningOp _).trans hrun)))),
      swept (fetched (op := opRfCalSweep) ?_)⟩
    exact (Dev.startSweep_sweeps _ 4 (hst' ▸ by decide)).of_kept hlong.airKept (hlong.sameRadios.other r)
      (hlong.fld (not_bookAddr_rfTemp r))

end Sys2Proof.Machine
end

section
/-! # RF_DISABLE, refused radio commands, and RF_ANT_ENABLE (R147, R151, R152) -/

namespace Sys2Proof.Machine

theorem Dev.Book.foldl {α : Type} (f : Dev → α → Dev) (hf : ∀ (d : Dev) (x : α), d.Book (f d x)) (l : List α) (d : Dev) :
    d.Book (l.foldl f d) := by
  induction l generalizing d with
  | nil => exact .refl d
  | cons x l ih => exact (hf d x).trans (ih _)

/-- Held wake requests end without a change of any radio. -/
theorem Dev.resolveHeld_sameRadios (d : Dev) (r : RadioId) (last : Option Int) (status : Nat) :
    d.SameRadios (d.resolveHeld r last status) := by
  unfold Dev.resolveHeld
  exact fun q => (Dev.Book.foldl _ (fun (d : Dev) (w : WakeReq) => .finish d w.cmd status 0) _ _).sameRadios q

/-- What a radio loses when it is switched off. -/
def Radio.off (x : Radio) : Radio := { x with sweep := none, tempRun := none, calDone := false, buildQ := [], chan := none }

/-- A radio goes to OFF, with PA_EN and LNA_EN low and without lock. -/
def Dev.switchOff (d : Dev) (r : RadioId) : Dev :=
  (((d.modRadio r Radio.off).setRf r rsOff 4).drive r false false).setBit (Reg.rfStat_lock r) false

theorem Dev.switchOff_other {d : Dev} {r : RadioId} (h : d.rfState r ≠ rsOff) : Dev.OtherRadios r d (d.switchOff r) := by
  have hst : (d.modRadio r Radio.off).rfState r ≠ rsOff := by
    rwa [show (d.modRadio r Radio.off).rfState r = d.rfState r from Dev.fld_congr (d.modRadio_regs r _) _]
  exact (((Dev.OtherRadios.modRadio r d Radio.off).trans (Dev.setRf_other 4 hst)).trans (.drive r _ false false)).trans
    (.setFld r _ _ rfl)

theorem Dev.switchOff_state {d : Dev} {r : RadioId} (h : d.rfState r ≠ rsOff) : (d.switchOff r).rfState r = rsOff := by
  have hst : (d.modRadio r Radio.off).rfState r ≠ rsOff := by
    rwa [show (d.modRadio r Radio.off).rfState r = d.rfState r from Dev.fld_congr (d.modRadio_regs r _) _]
  have hnew := Dev.setRf_rfState 4 hst (by decide)
  unfold Dev.switchOff
  generalize (d.modRadio r Radio.off).setRf r rsOff 4 = x at hnew ⊢
  refine (Dev.fld_setFld_of_separate (x.drive r false false) (Reg.rfStat_lock r) (Reg.rfStat_state r) _
    (by simp [Field.separate, Reg.rfStat_lock, Reg.rfStat_state])).trans ((Dev.fld_congr ?_ _).trans hnew)
  unfold Dev.drive
  exact Dev.modRadio_regs _ r _

theorem Dev.switchOff_radio {d : Dev} {r : RadioId} (h : d.rfState r ≠ rsOff) :
    ((d.switchOff r).radio r).sweep = none ∧ ((d.switchOff r).radio r).buildQ = [] ∧
      ((d.switchOff r).radio r).tempRun = none := by
  have hst : (d.modRadio r Radio.off).rfState r ≠ rsOff := by
    rwa [show (d.modRadio r Radio.off).rfState r = d.rfState r from Dev.fld_congr (d.modRadio_regs r _) _]
  have hrad : ((d.modRadio r Radio.off).setRf r rsOff 4).radio r = Radio.off (d.radio r) := by
    rw [Dev.setRf_radio 4 hst, Dev.radio_modRadio, if_pos rfl]
  obtain ⟨p, hp⟩ := ((d.modRadio r Radio.off).setRf r rsOff 4).drive_radio r false false
  have hoff : (d.switchOff r).radio r = { Radio.off (d.radio r) with pins := p } := by
    unfold Dev.switchOff
    rw [← hrad, ← hp]
    rfl
  rw [hoff]
  exact ⟨rfl, rfl, rfl⟩

/-- What RF_DISABLE ends: the wake requests held for the radio, the command of its sweep, and what waits for its entry. -/
def Dev.endRadio (d : Dev) (r : RadioId) (sweep : Option Sweep) : Dev :=
  let d := d.resolveHeld r none stBusy
  (match sweep with
    | some s => (match s.cmd with | some x => d.finishState x rsOff | none => d)
    | none => d).chanCheck

theorem Dev.endRadio_sameRadios (d : Dev) (r : RadioId) (sweep : Option Sweep) : d.SameRadios (d.endRadio r sweep) := by
  have h := d.resolveHeld_sameRadios r none stBusy
  unfold Dev.endRadio
  generalize d.resolveHeld r none stBusy = x at h
  refine h.trans (Dev.SameRadios.trans ?_ (Dev.Book.chanCheck _).sameRadios)
  match sweep with
  | none => exact (Dev.Book.refl x).sameRadios
  | some ⟨none, _, _, _, _⟩ => exact (Dev.Book.refl x).sameRadios
  | some ⟨some c, _, _, _, _⟩ => exact (Dev.Book.finishState x c rsOff).sameRadios

theorem Dev.rfDisable_of_on {d : Dev} (c : Cmd) {radio : Nat} (hr : radio < 3) (h : d.rfState ⟨radio, hr⟩ ≠ rsOff)
    (hrun : d.rfState ⟨radio, hr⟩ ≠ rsRunning) :
    d.rfDisable c radio =
      ((d.switchOff ⟨radio, hr⟩).endRadio ⟨radio, hr⟩ (d.radio ⟨radio, hr⟩).sweep).complete c stOk 0 :=
  (Dev.withRadio_of_lt _ _ hr _).trans (if_neg (not_or.mpr ⟨h, hrun⟩))

theorem Dev.rfDisable_of_running {d : Dev} (c : Cmd) {radio : Nat} (hr : radio < 3)
    (h : d.rfState ⟨radio, hr⟩ = rsRunning) : d.rfDisable c radio = d.refuseState c (d.rfState ⟨radio, hr⟩) :=
  (Dev.withRadio_of_lt _ _ hr _).trans (if_pos (.inr h))

theorem Dev.rfEnable_of_on {d : Dev} (c : Cmd) {radio : Nat} (hr : radio < 3)
    (h : d.rfState ⟨radio, hr⟩ ≠ rsOff) : d.rfEnable c radio = d.refuseState c (d.rfState ⟨radio, hr⟩) :=
  (Dev.withRadio_of_lt _ _ hr _).trans (if_pos (.inl h))

theorem Dev.rfReset_of_not_failed {d : Dev} (c : Cmd) {radio : Nat} (hr : radio < 3)
    (h : d.rfState ⟨radio, hr⟩ ≠ rsFailed) : d.rfReset c radio = d.refuseState c (d.rfState ⟨radio, hr⟩) :=
  (Dev.withRadio_of_lt _ _ hr _).trans (if_pos h)

theorem Dev.rfCalSweep_of_not_ready {d : Dev} (c : Cmd) {radio : Nat} (hr : radio < 3)
    (h : d.rfState ⟨radio, hr⟩ ≠ rsReady) : d.rfCalSweep c radio = d.refuseState c (d.rfState ⟨radio, hr⟩) :=
  (Dev.withRadio_of_lt _ _ hr _).trans (if_pos h)

theorem Dev.rfAntEnable_of_some {d : Dev} (c : Cmd) {radio : Nat} (ports : Byte) (hr : radio < 3)
    (h : d.inhibited ⟨radio, hr⟩ &&& (ports.toNat % 4) ≠ 0) :
    d.rfAntEnable c radio ports = { d.startDeferred c with sch := { d.sch with
      antEnable := d.sch.antEnable ++ [(c, ⟨radio, hr⟩, ports.setWidth 2)] } } :=
  (Dev.withRadio_of_lt _ _ hr _).trans (if_neg h)

theorem Dev.rfAntEnable_of_none {d : Dev} (c : Cmd) {radio : Nat} (ports : Byte) (hr : radio < 3)
    (h : d.inhibited ⟨radio, hr⟩ &&& (ports.toNat % 4) = 0) :
    d.rfAntEnable c radio ports = d.refuseState c (d.rfState ⟨radio, hr⟩) :=
  (Dev.withRadio_of_lt _ _ hr _).trans (if_pos h)

/-- Settles O19: each clause is the command's equation in its case, on the fetched device. -/
theorem radioEndAndPorts : Obligations.RadioEndAndPorts := by
  unfold Obligations.RadioEndAndPorts
  refine ⟨fun s h radio hr hf => ?_, fun s h radio ports hr hf => ?_⟩
  · intro r Refused
    have refused {i : Instr} {op : Half}
        (k : Gives i s ((s.dev.fetch op h).2.refuseState (s.dev.fetch op h).1 ((s.dev.fetch op h).2.rfState r))) :
        Refused i op := by rwa [(s.dev.fetch_alike op h).rfState] at k
    clear_value Refused
    refine ⟨fun hon hrun => ?_, fun hrun => ⟨?_, ?_⟩, fun hon => ?_, fun hfail => ?_⟩
    · have hk := s.dev.fetch_alike 0x0015 h
      have hon' : (s.dev.fetch 0x0015 h).2.rfState r ≠ rsOff := (hk.rfState r).trans_ne hon
      refine ⟨_, .of_host hf rfl (Dev.rfDisable_of_on _ hr hon' ((hk.rfState r).trans_ne hrun)), ?_⟩
      have hsame := ((s.dev.fetch 0x0015 h).2.switchOff r).endRadio_sameRadios r ((s.dev.fetch 0x0015 h).2.radio r).sweep
      have hother := (hk.sameRadios.other r).trans ((Dev.switchOff_other hon').trans (hsame.other r))
      obtain ⟨hsweep, hbuild, htemp⟩ := Dev.switchOff_radio hon'
      obtain ⟨hradio, hstate⟩ := hsame r
      exact ⟨hstate.trans (Dev.switchOff_state hon'), (congrArg Radio.sweep hradio).trans hsweep,
        (congrArg Radio.buildQ hradio).trans hbuild, (congrArg Radio.tempRun hradio).trans htemp,
        fun q hq => ⟨hother.radio q hq, hother.rfState q hq⟩⟩
    · exact refused (.of_host hf rfl (Dev.rfDisable_of_running _ hr (((s.dev.fetch_alike _ h).rfState r).trans hrun)))
    · exact refused (.of_host hf rfl (Dev.rfCalSweep_of_not_ready _ hr
        ((((s.dev.fetch_alike _ h).rfState r).trans hrun).trans_ne (by decide))))
    · exact refused (.of_host hf rfl (Dev.rfEnable_of_on _ hr (((s.dev.fetch_alike _ h).rfState r).trans_ne hon)))
    · exact refused (.of_host hf rfl (Dev.rfReset_of_not_failed _ hr (((s.dev.fetch_alike _ h).rfState r).trans_ne hfail)))
  · intro r f
    have hk := s.dev.fetch_alike 0x0018 h
    have hi : f.2.inhibited r = s.dev.inhibited r := hk.inhibited r
    refine ⟨fun hsome => ?_, fun hnone => ?_⟩
    · refine .of_host hf rfl ((Dev.rfAntEnable_of_some _ ports hr (hi ▸ hsome)).trans ?_)
      rw [hk.sch]
    · refine .of_host hf rfl ((Dev.rfAntEnable_of_none _ ports hr (hi ▸ hnone)).trans ?_)
      rw [hk.rfState]

end Sys2Proof.Machine
end

section
/-! # CHAN_CONFIG (R126, R127) -/

namespace Sys2Proof.Machine

/-! ## The entries of the radios -/

/-- From `d` to `e` no radio's state and no radio's entry has changed. -/
structure Dev.SameEntries (d e : Dev) : Prop where
  entry : ∀ r i, e.entryValid r i = d.entryValid r i
  ready : ∀ r, e.rfReadyRun r = d.rfReadyRun r

theorem Dev.SameEntries.refl (d : Dev) : d.SameEntries d := ⟨fun _ _ => rfl, fun _ => rfl⟩

theorem Dev.SameEntries.trans {a b c : Dev} (h : a.SameEntries b) (k : b.SameEntries c) : a.SameEntries c :=
  ⟨fun r i => (k.entry r i).trans (h.entry r i), fun r => (k.ready r).trans (h.ready r)⟩

theorem Dev.SameRadios.sameEntries {d e : Dev} (h : d.SameRadios e) : d.SameEntries e where
  entry r i := by
    unfold Dev.entryValid
    rw [(h r).1]
  ready r := by
    unfold Dev.rfReadyRun
    rw [(h r).2]

/-- A radio that keeps its entries. -/
theorem Dev.SameEntries.setRadio (d : Dev) (r : RadioId) (x : Radio) (h : x.entries = (d.radio r).entries) :
    d.SameEntries (d.setRadio r x) where
  entry q i := by
    unfold Dev.entryValid
    rw [Dev.radio_setRadio]
    split
    · next hq => rw [h, hq]
    · rfl
  ready q := by
    unfold Dev.rfReadyRun Dev.rfState
    rw [Dev.fld_congr (d.setRadio_regs r x)]

/-- What `needEntry` leaves: all but what the radio has to build. -/
structure Dev.Builds (d e : Dev) : Prop where
  entries : d.SameEntries e
  chans : e.chans = d.chans
  sch : e.sch = d.sch
  hif : e.hif = d.hif

theorem Dev.Builds.refl (d : Dev) : d.Builds d := ⟨.refl d, rfl, rfl, rfl⟩

theorem Dev.Builds.trans {a b c : Dev} (h : a.Builds b) (k : b.Builds c) : a.Builds c :=
  ⟨h.entries.trans k.entries, k.chans.trans h.chans, k.sch.trans h.sch, k.hif.trans h.hif⟩

theorem Dev.Builds.setRadio (d : Dev) (r : RadioId) (x : Radio) (h : x.entries = (d.radio r).entries) :
    d.Builds (d.setRadio r x) := ⟨.setRadio d r x h, by simp, by simp, by simp⟩

theorem Dev.needEntry_builds (d : Dev) (i : Nat) (changed : Bool) (r : RadioId) : d.Builds (d.needEntry i changed r) := by
  unfold Dev.needEntry
  dsimp only
  split
  · split
    · exact .refl d
    · exact .setRadio d r _ rfl
  · split
    · split
      · exact .setRadio d r _ rfl
      · exact .refl d
    · exact .refl d

theorem Dev.foldl_needEntry_builds (i : Nat) (changed : Bool) (l : List RadioId) (d : Dev) :
    d.Builds (l.foldl (fun d r => d.needEntry i changed r) d) := by
  induction l generalizing d with
  | nil => exact .refl d
  | cons r l ih => exact (d.needEntry_builds i changed r).trans (ih _)

/-- The entries of index `i` are void on one radio, and no other. -/
theorem Dev.clearEntry_entryValid (d : Dev) (r q : RadioId) (i j : Nat) :
    (d.clearEntry r i).entryValid q j = if q = r ∧ j = i then false else d.entryValid q j := by
  unfold Dev.entryValid Dev.clearEntry
  rw [Dev.radio_modRadio]
  by_cases hq : q = r
  · by_cases hj : j = i
    · simp [hq, hj, Sparse.get_put_same]
    · simp [hq, hj, Sparse.get_put_ne none none (d.radio r).entries none hj]
  · simp [hq]

/-- The entries of index `i` are void on all radios. -/
def Dev.clearEntries (d : Dev) (i : Nat) : Dev := ((d.clearEntry 0 i).clearEntry 1 i).clearEntry 2 i

theorem Dev.clearEntries_entryValid (d : Dev) (q : RadioId) (i j : Nat) :
    (d.clearEntries i).entryValid q j = if j = i then false else d.entryValid q j := by
  unfold Dev.clearEntries
  simp only [Dev.clearEntry_entryValid]
  by_cases hj : j = i
  · match q with
    | 0 | 1 | 2 => simp [hj]
  · simp [hj]

theorem Dev.clearEntries_rfReadyRun (d : Dev) (i : Nat) (q : RadioId) : (d.clearEntries i).rfReadyRun q = d.rfReadyRun q := by
  unfold Dev.rfReadyRun Dev.rfState
  rw [Dev.fld_congr (d := d)]
  simp [Dev.clearEntries, Dev.clearEntry]

/-! ## The command that goes on -/

/-- The first running operation of an opcode stays the first when its entry is written again. -/
theorem find?_map_running {r n : Running} {op : Half} (l : List Running) (hn : n.cmd = r.cmd)
    (hl : l.find? (fun x => x.cmd.opcode == op) = some r) :
    (l.map fun x => if x.cmd == r.cmd then n else x).find? (fun x => x.cmd.opcode == op) = some n := by
  have hf : ((fun x : Running => x.cmd.opcode == op) ∘ fun x => if x.cmd == r.cmd then n else x) =
      fun x => x.cmd.opcode == op := by
    funext x
    by_cases hx : x.cmd = r.cmd
    · simp [hx, hn]
    · simp [hx]
  rw [List.find?_map, hf, hl]
  simp

/-- A running operation whose progress changes stays the running operation of its opcode. -/
theorem Dev.progress_runningOp (d : Dev) (op : Half) (pct part : Nat) {r : Running} (h : d.runningOp op = some r) :
    ∃ x, (d.progress op pct part).runningOp op = some x ∧ x.cmd = r.cmd ∧ x.long = r.long ∧ x.arg = r.arg := by
  unfold Dev.progress
  rw [h]
  dsimp only
  have hbooks := Dev.Books.writeStatus d { r with pct := byte pct, part := BitVec.ofNat 32 part } stInProgress
  refine ⟨{ r with pct := byte pct, part := BitVec.ofNat 32 part, upd := r.upd + 1 }, ?_, rfl, rfl, rfl⟩
  show List.find? _ (List.map _ _) = _
  rw [hbooks.runs, Dev.writeStatus_fst]
  exact find?_map_running _ rfl h

/-- While a radio in READY or RUNNING lacks the entry, CHAN_CONFIG goes on. -/
theorem Dev.chanCheck_runningOp {d : Dev} {r : Running} (h : d.runningOp opChanConfig = some r)
    (hv : d.chanValid r.arg = false) :
    ∃ x, d.chanCheck.runningOp opChanConfig = some x ∧ x.cmd = r.cmd ∧ x.long = r.long ∧ x.arg = r.arg := by
  unfold Dev.chanCheck
  rw [h]
  dsimp only
  rw [if_neg (by simp [hv])]
  split
  · exact ⟨r, h, rfl, rfl, rfl⟩
  · exact Dev.progress_runningOp d _ _ _ h

theorem mem_radios : ∀ r : RadioId, r ∈ radios := by decide

theorem Dev.chanValid_of_lacking {d : Dev} {i : Nat} {r : RadioId} (hr : d.rfReadyRun r = true)
    (hv : d.entryValid r i = false) : d.chanValid i = false := by
  have hall : (radios.all fun r => !d.rfReadyRun r || d.entryValid r i) = false := by
    refine List.all_eq_false.mpr ⟨r, mem_radios r, by simp [hr, hv]⟩
  unfold Dev.chanValid
  rw [hall, Bool.and_false]

/-! ## The obligation -/

/-- The channel that CHAN_CONFIG records. -/
def chanOf (p : ChanParams) (mode : Fin 3) : ChanCfg :=
  ⟨p.freq, mode, p.txTrim.toNat, ([p.tune0, p.tune1, p.tune2, p.tune3].take p.tuneN.toNat).map fun w => w.setWidth 24⟩

/-- Is the index new, or does its frequency or mode change? -/
def Dev.chanChanges (d : Dev) (i : Nat) (freq : BitVec 32) (mode : Fin 3) : Bool :=
  match d.chan i with | some o => o.freq != freq || o.mode != mode | none => true

theorem Dev.chanChanges_eq_false {d : Dev} {i : Nat} {freq : BitVec 32} {mode : Fin 3} :
    d.chanChanges i freq mode = false ↔ ∃ o, d.chan i = some o ∧ o.freq = freq ∧ o.mode = mode := by
  unfold Dev.chanChanges
  cases d.chan i with
  | none => simp
  | some o => simp

/-- The device with the channel recorded, and its entries void where it changed. -/
def Dev.recordChan (d : Dev) (i : Nat) (x : ChanCfg) : Dev :=
  let e := { d with chans := Sparse.put none d.chans i (some x) }
  if d.chanChanges i x.freq x.mode then e.clearEntries i else e

/-- The radios then have the entry to build, and the command goes on. -/
def Dev.buildChan (d : Dev) (c : Cmd) (i : Nat) (changed : Bool) : Dev :=
  (radios.foldl (fun d r => d.needEntry i changed r) (d.startLong c 0 i)).chanCheck

theorem Dev.chanConfig_of_fits {d : Dev} (c : Cmd) {p : ChanParams} {mode : Fin 3} (hm : p.mode.toNat = mode.val)
    (hi : p.index.toNat ≤ 511) (ht : p.txTrim.toNat ≤ 63) (hn : p.tuneN.toNat ≤ 4) :
    d.chanConfig c p =
      if freqFits p.freq.toNat mode = false then d.complete c stBadParam 0
      else if (d.sch.active.any fun x => x.2.uses p.index.toNat) || d.sch.pending.any fun x => x.2.uses p.index.toNat then
        d.refuseState c 0xFF
      else d.longOr c fun d => (d.recordChan p.index.toNat (chanOf p mode)).buildChan c p.index.toNat
        (d.chanChanges p.index.toNat p.freq mode) := by
  have hmode : (match p.mode.toNat with | 0 => some 0 | 1 => some 1 | 2 => some 2 | _ => none) = some mode := by
    rw [hm]
    match mode with
    | 0 | 1 | 2 => rfl
  have hbad : (511 < p.index.toNat ∨ 63 < p.txTrim.toNat ∨ 4 < p.tuneN.toNat ∨ (!freqFits p.freq.toNat mode) = true) ↔
      freqFits p.freq.toNat mode = false := by
    rw [Bool.not_eq_true', or_iff_right (by omega), or_iff_right (by omega), or_iff_right (by omega)]
  unfold Dev.chanConfig
  dsimp only
  split
  · next h => exact absurd (h.symm.trans hmode) (by simp)
  · next m h =>
    obtain rfl : m = mode := Option.some.inj (h.symm.trans hmode)
    simp only [hbad]
    rfl

theorem Dev.recordChan_chan (d : Dev) (i : Nat) (x : ChanCfg) :
    (d.recordChan i x).chans = Sparse.put none d.chans i (some x) := by
  unfold Dev.recordChan
  dsimp only
  split
  · simp [Dev.clearEntries, Dev.clearEntry]
  · rfl

theorem Dev.recordChan_hif (d : Dev) (i : Nat) (x : ChanCfg) : (d.recordChan i x).hif = d.hif ∧ (d.recordChan i x).sch = d.sch := by
  unfold Dev.recordChan
  dsimp only
  split <;> simp [Dev.clearEntries, Dev.clearEntry]

theorem Dev.recordChan_entryValid (d : Dev) (i : Nat) (x : ChanCfg) (r : RadioId) (j : Nat) :
    (d.recordChan i x).entryValid r j = if d.chanChanges i x.freq x.mode = true ∧ j = i then false else d.entryValid r j := by
  unfold Dev.recordChan
  dsimp only
  split
  · next h => simp only [Dev.clearEntries_entryValid, h, true_and]; rfl
  · next h => rw [if_neg fun k => h k.1]; rfl

theorem Dev.recordChan_rfReadyRun (d : Dev) (i : Nat) (x : ChanCfg) (r : RadioId) :
    (d.recordChan i x).rfReadyRun r = d.rfReadyRun r := by
  unfold Dev.recordChan
  dsimp only
  split
  · exact Dev.clearEntries_rfReadyRun _ i r
  · rfl

/-- What building leaves. -/
theorem Dev.buildChan_builds (d : Dev) (c : Cmd) (i : Nat) (changed : Bool) :
    d.SameEntries (d.buildChan c i changed) ∧ (d.buildChan c i changed).chans = d.chans ∧ (d.buildChan c i changed).sch = d.sch := by
  have h1 := Dev.Book.startLong d c 0 i
  have h2 := Dev.foldl_needEntry_builds i changed radios (d.startLong c 0 i)
  have h3 := Dev.Book.chanCheck (radios.foldl (fun d r => d.needEntry i changed r) (d.startLong c 0 i))
  exact ⟨(h1.sameRadios.sameEntries.trans h2.entries).trans h3.sameRadios.sameEntries, (h3.chans.trans h2.chans).trans h1.chans,
    (h3.sch.trans h2.sch).trans h1.sch⟩

theorem Dev.buildChan_runningOp {d : Dev} {c : Cmd} {i : Nat} (changed : Bool) (hc : c.opcode = opChanConfig)
    (hrun : d.runningOp opChanConfig = none) {r : RadioId} (hr : d.rfReadyRun r = true) (hv : d.entryValid r i = false) :
    ∃ x, (d.buildChan c i changed).runningOp opChanConfig = some x ∧ x.cmd = c ∧ x.long = true ∧ x.arg = i := by
  have h1 := (Dev.Book.startLong d c 0 i).sameRadios.sameEntries
  have h2 := Dev.foldl_needEntry_builds i changed radios (d.startLong c 0 i)
  have hlong := Dev.startLong_runningOp d 0 i hc hrun
  unfold Dev.buildChan
  generalize radios.foldl (fun d r => d.needEntry i changed r) (d.startLong c 0 i) = x at h2 ⊢
  have hx : x.runningOp opChanConfig = some ⟨c, true, 1, 0, 0, i⟩ := by
    unfold Dev.runningOp at hlong ⊢
    rw [h2.hif, hlong]
  exact Dev.chanCheck_runningOp hx (Dev.chanValid_of_lacking (((h2.entries.ready r).trans (h1.ready r)).trans hr)
    (((h2.entries.entry r i).trans (h1.entry r i)).trans hv))

/-- Settles O20: the channel is recorded, the entries of an index that changed are void, and what follows builds. -/
theorem chanConfigResult : Obligations.ChanConfigResult := by
  unfold Obligations.ChanConfigResult
  intro s h p mode hf hm hi ht hn
  have hk := s.dev.fetch_alike 0x0010 h
  have heq := Dev.chanConfig_of_fits (d := (s.dev.fetch 0x0010 h).2) (s.dev.fetch 0x0010 h).1 hm hi ht hn
  rw [hk.sch] at heq
  refine ⟨fun hbad => .of_host hf rfl (heq.trans (if_pos hbad)), fun hfit => ?_⟩
  rw [if_neg (by simp [hfit])] at heq
  intro i f used
  refine ⟨fun hused => .of_host hf rfl (heq.trans (if_pos hused)), fun hused hrun => ?_, fun hused hrun => ?_⟩
  · exact .of_host hf rfl ((heq.trans (if_neg (Bool.eq_false_iff.mp hused))).trans
      (Dev.longOr_of_running _ (Dev.fetch_opcode _ _ _) ((hk.runningOp _).trans_ne hrun)))
  · intro same
    have hcmd : f.1.opcode = opChanConfig := Dev.fetch_opcode _ _ _
    have hrun' : f.2.runningOp opChanConfig = none := (hk.runningOp _).trans hrun
    have hsame : f.2.chanChanges i p.freq mode = false ↔ same := by
      rw [Dev.chanChanges_eq_false, hk.chan]
    generalize hchg : f.2.chanChanges i p.freq mode = changed at hsame
    obtain ⟨hent, hchans, hsch⟩ := (f.2.recordChan i (chanOf p mode)).buildChan_builds f.1 i changed
    have hentry (r : RadioId) (j : Nat) : ((f.2.recordChan i (chanOf p mode)).buildChan f.1 i changed).entryValid r j =
        if changed = true ∧ j = i then false else s.dev.entryValid r j := by
      rw [hent.entry, Dev.recordChan_entryValid, hk.entryValid, ← hchg]
      rfl
    have hchan := hchans.trans (f.2.recordChan_chan i (chanOf p mode))
    refine ⟨(f.2.recordChan i (chanOf p mode)).buildChan f.1 i changed, .of_host hf rfl ?_, ?_, fun j hj => ?_,
      fun hnew r => ?_, fun r j hj => ?_, ?_, ?_⟩
    · rw [← hchg]
      exact (heq.trans (if_neg (Bool.eq_false_iff.mp hused))).trans (Dev.longOr_of_idle _ hcmd hrun')
    · unfold Dev.chan
      rw [hchan, Sparse.get_put_same]
      rfl
    · unfold Dev.chan
      rw [hchan, Sparse.get_put_ne none none _ _ hj, hk.chans]
    · rw [hentry, if_pos ⟨by simpa using mt hsame.mp hnew, rfl⟩]
    · rw [hentry, if_neg ?_]
      rintro ⟨hc, rfl⟩
      rcases hj with hj | hj
      · simp [hsame.mpr hj] at hc
      · exact hj rfl
    · rw [hsch, (f.2.recordChan_hif i _).2, hk.sch]
    · rintro ⟨r, hr, hv⟩
      have hx := f.2.recordChan_hif i (chanOf p mode)
      refine Dev.buildChan_runningOp (r := r) changed hcmd ?_ ?_ ?_
      · unfold Dev.runningOp at hrun' ⊢
        rw [hx.1, hrun']
      · rw [Dev.recordChan_rfReadyRun, hk.rfReadyRun, hr]
      · rw [← hent.entry, hv]

end Sys2Proof.Machine
end

section
/-! # WAKE_SEND and SPECTRUM_SURVEY (R142, R197, R411) -/

namespace Sys2Proof.Machine

/-! ## The rows that the next slots carry, seen from the fetched device -/

theorem boundOf_schCommit : boundOf Reg.schCommit = .atOnce := by decide +kernel

section
variable {d e : Dev} (h : d.Alike e)
include h

/-- The same field written on both sides, where a write acts at once. -/
theorem Dev.Alike.setFld {f : Field} (v : Nat) (hb : boundOf f.addr = .atOnce) (hf : ¬ bookAddr f.addr) :
    (d.setFld f v).Alike (e.setFld f v) where
  eff := h.eff
  chans := h.chans
  r0 := h.r0
  r1 := h.r1
  r2 := h.r2
  sch := h.sch
  msh := h.msh
  tim := h.tim
  fwd := h.fwd
  eth := h.eth
  tsk := h.tsk
  kao := h.kao
  dmc := h.dmc
  pwr := h.pwr
  boot := h.boot
  pins := h.pins
  runs := h.runs
  txWait := h.txWait
  reg a ha := by
    by_cases haf : a = f.addr
    · subst haf
      have hsame (x : Dev) : (x.setFld f v).reg f.addr = f.put (x.reg f.addr) v := Sparse.get_put_same _ _ _ _
      rw [hsame, hsame, h.reg _ hf]
    · rw [Dev.reg_setFld_ne _ _ _ _ haf, Dev.reg_setFld_ne _ _ _ _ haf, h.reg a ha]
  devState := by
    have hne : Reg.hifStat ≠ f.addr := fun k => hf (k ▸ by unfold bookAddr; decide)
    have hleft (x : Dev) : (x.setFld f v).devState = x.devState :=
      congrArg Reg.hifStat_dev_state.of (Dev.reg_setFld_ne x f _ v hne)
    rw [hleft, hleft, h.devState]
  bound b hne := by
    have hleft (x : Dev) : ((x.setFld f v).regs.filter fun p => boundOf p.1 == b) = x.regs.filter fun p => boundOf p.1 == b :=
      Sparse.filter_put _ (fun p => boundOf p.1 == b) f.addr _ (fun _ => beq_eq_false_iff_ne.mpr fun (k : boundOf f.addr = b) => hne (k.symm.trans hb)) _
    rw [hleft, hleft, h.bound b hne]
  counters := h.counters

/-- The same schedule on both sides. -/
theorem Dev.Alike.withSch (x : Sch) : ({ d with sch := x } : Dev).Alike { e with sch := x } :=
  { h with sch := rfl, reg := h.reg, devState := h.devState, bound := h.bound }

theorem Dev.Alike.applyBoundary {b : Boundary} (hb : b ≠ .atOnce) : (d.applyBoundary b).Alike (e.applyBoundary b) := by
  have heff : (e.applyBoundary b).eff = (d.applyBoundary b).eff := by
    unfold Dev.applyBoundary
    rw [h.bound b hb, h.eff]
  exact { h with eff := heff, reg := h.reg, devState := h.devState, bound := h.bound }

theorem Dev.Alike.viewAt (s : Int) : (d.viewAt s).Alike (e.viewAt s) := by
  have hnb : ¬ bookAddr Reg.schCommit := not_bookAddr_sch.1
  unfold Dev.viewAt
  rw [h.tim]
  split
  · exact h
  · dsimp only
    rw [h.bit (f := Reg.schCommit_pending) hnb, h.sch]
    generalize (d.bit Reg.schCommit_pending && decide (d.sch.target ≤ s / 512)) = swap
    have hset : (if swap then d.setBit Reg.schCommit_prot_active d.sch.protPend else d).Alike
        (if swap then e.setBit Reg.schCommit_prot_active d.sch.protPend else e) := by
      split
      · exact h.setFld _ boundOf_schCommit hnb
      · exact h
    generalize (if swap then d.setBit Reg.schCommit_prot_active d.sch.protPend else d) = x at hset ⊢
    generalize (if swap then e.setBit Reg.schCommit_prot_active d.sch.protPend else e) = y at hset ⊢
    rw [hset.sch]
    simp only [hset.rfReadyRun]
    exact (hset.withSch _).applyBoundary (by decide)

theorem Dev.Alike.chanHigh (i : Nat) : e.chanHigh i = d.chanHigh i := by
  unfold Dev.chanHigh
  rw [h.chan]

theorem Dev.Alike.remapOf (r : RadioId) (w : Row) : e.remapOf r w = d.remapOf r w := by
  unfold Dev.remapOf Dev.remapCovers
  simp only [h.sch, h.chanHigh]

theorem Dev.Alike.ownRow (r : RadioId) (slot : Nat) : e.ownRow r slot = d.ownRow r slot := by
  unfold Dev.ownRow Dev.rowInForce
  simp only [h.sch, h.links]

theorem Dev.Alike.carrierOf (r : RadioId) (slot : Nat) : e.carrierOf r slot = d.carrierOf r slot := by
  unfold Dev.carrierOf
  rw [h.bit (f := Reg.schCommit_prot_active) not_bookAddr_sch.1]
  simp only [h.sch, h.rfReadyRun]

theorem Dev.Alike.remapped (s : Int) : e.remapped s = d.remapped s := by
  have hv := h.viewAt s
  unfold Dev.remapped
  simp only [hv.ownRow, hv.remapOf, hv.carrierOf]

theorem Dev.Alike.rowCarried (r : RadioId) (s : Int) : e.rowCarried r s = d.rowCarried r s := by
  have hv := h.viewAt s
  unfold Dev.rowCarried
  dsimp only
  rw [hv.ownRow, hv.remapOf, hv.remapped]

theorem Dev.Alike.nextWakeRow (chan n : Nat) (s : Int) : e.nextWakeRow chan n s = d.nextWakeRow chan n s := by
  induction n generalizing s with
  | zero => rfl
  | succ n ih =>
    unfold Dev.nextWakeRow
    simp only [h.rowCarried, ih]

end

/-! ## WAKE_SEND -/

theorem Dev.wakeSend_of_code {d : Dev} (c : Cmd) (chan : Nat) {code : BitVec 32} (h : code = 0 ∨ code = 0xFFFFFFFF) :
    d.wakeSend c chan code = d.complete c stBadParam 0 := if_pos (.inr h)

/-- A wake request is queued, held for a radio's slot or not. -/
def Dev.queueWake (d : Dev) (c : Cmd) (chan : Nat) (code : BitVec 32) (held : Option (RadioId × Int)) : Dev :=
  { d.startDeferred c with sch := { d.sch with wakeQ := d.sch.wakeQ ++ [⟨c, chan, code, d.curS / 512, held, false⟩] } }

theorem Dev.wakeSend_of_ok {d : Dev} (c : Cmd) {chan : Nat} {code : BitVec 32} (hi : chan ≤ 511) (h0 : code ≠ 0)
    (h1 : code ≠ 0xFFFFFFFF) (hr : d.noRegion = false) (hv : d.chanValid chan = true) :
    d.wakeSend c chan code =
      if 64 ≤ d.sch.wakeQ.length then d.complete c stOverflow 0
      else match d.nextWakeRow chan 512 (d.curS + 2) with
        | none => d.queueWake c chan code none
        | some (t, r) => match (d.radio r).sweep with
          | none => d.queueWake c chan code none
          | some w => if w.ends < t then d.queueWake c chan code (some (r, t)) else d.complete c stBusy 0 := by
  unfold Dev.wakeSend
  rw [if_neg (not_or.mpr ⟨by omega, not_or.mpr ⟨h0, h1⟩⟩), if_neg (by simp [hr, hv])]
  rfl

/-! ## SPECTRUM_SURVEY -/

/-- The radios that a survey names, and what it visits. -/
def Dev.surveyRadios (d : Dev) (mask : Nat) : List RadioId := radios.filter fun r => mask.testBit r.val && d.rfReadyRun r

def Dev.surveyVisits (d : Dev) (mask first count : Nat) : List (RadioId × Nat) :=
  (d.surveyRadios mask).flatMap fun r => ((List.range count).map (first + ·)).filterMap fun i =>
    if d.entryValid r i then some (r, i) else none

theorem Dev.Alike.surveyRadios {d e : Dev} (h : d.Alike e) (mask : Nat) : e.surveyRadios mask = d.surveyRadios mask := by
  unfold Dev.surveyRadios
  simp only [h.rfReadyRun]

theorem Dev.Alike.surveyVisits {d e : Dev} (h : d.Alike e) (mask first count : Nat) :
    e.surveyVisits mask first count = d.surveyVisits mask first count := by
  unfold Dev.surveyVisits
  simp only [h.surveyRadios, h.entryValid]

theorem Dev.surveyCmd_of_ok {d : Dev} (c : Cmd) {mask first count dwell : Nat} {buf : Buf} (hi : first ≤ 511)
    (hn : first + count ≤ 512) (hd : dwell ≠ 0) (ha : buf.addr ≠ 0) :
    d.surveyCmd c mask first count dwell buf =
      if d.surveyRadios mask = [] then d.refuseState c 0xFF
      else if buf.len.toNat < 100 * (d.surveyVisits mask first count).length then d.complete c stBadParam 0
      else d.longOr c fun d' =>
        let s : Survey := ⟨d.surveyVisits mask first count, dwell, buf.addr, dwell + 1, 0, !d'.hosted⟩
        let e := { d'.startLong c 0 0 with hif := { (d'.startLong c 0 0).hif with survey := some s } }
        if d.surveyVisits mask first count = [] then e.surveyEnd s else e := by
  unfold Dev.surveyCmd
  dsimp only
  rw [if_neg (by simp only [hd, ha, or_false]; omega)]
  rfl

/-- Settles O21: each clause is the command's equation in its case, on the fetched device. -/
theorem wakeAndSurvey : Obligations.WakeAndSurvey := by
  unfold Obligations.WakeAndSurvey
  refine ⟨fun s h chan code hf => ?_, fun s h mask first count dwell buf hf hi hn hd ha => ?_⟩
  · intro f
    have hk := s.dev.fetch_alike 0x0019 h
    refine ⟨fun hcode => .of_host hf rfl (Dev.wakeSend_of_code _ _ hcode), fun hc h0 h1 hr hv => ?_⟩
    have heq := Dev.wakeSend_of_ok (d := f.2) f.1 hc h0 h1 (hk.noRegion.trans hr) ((hk.chanValid _).trans hv)
    rw [hk.sch, hk.nextWakeRow, hk.curS] at heq
    have hqueue (held : Option (RadioId × Int)) : f.2.queueWake f.1 chan.toNat code held =
        { f.2.startDeferred f.1 with sch := { s.dev.sch with
          wakeQ := s.dev.sch.wakeQ ++ [⟨f.1, chan.toNat, code, s.dev.curS / 512, held, false⟩] } } := by
      unfold Dev.queueWake
      rw [hk.sch, hk.curS]
    refine ⟨fun hfull => .of_host hf rfl (heq.trans (if_pos hfull)), fun hroom => ?_⟩
    rw [if_neg (by omega)] at heq
    have hradio (r : RadioId) : f.2.radio r = s.dev.radio r := hk.radio r
    simp only [hqueue, hradio] at heq
    intro Queued
    have queued (held : Option (RadioId × Int)) (k : f.2.wakeSend f.1 chan.toNat code =
        { f.2.startDeferred f.1 with sch := { s.dev.sch with
          wakeQ := s.dev.sch.wakeQ ++ [⟨f.1, chan.toNat, code, s.dev.curS / 512, held, false⟩] } }) : Queued held :=
      .of_host hf rfl k
    clear_value Queued
    generalize s.dev.nextWakeRow chan.toNat 512 (s.dev.curS + 2) = row at heq ⊢
    match row with
    | none => exact queued none heq
    | some (t, r) =>
      dsimp only at heq ⊢
      generalize (s.dev.radio r).sweep = sweep at heq ⊢
      match sweep with
      | none => exact queued none heq
      | some w =>
        exact ⟨fun hlt => queued _ (heq.trans (if_pos hlt)), fun hle => .of_host hf rfl (heq.trans (if_neg (by omega)))⟩
  · intro f named todo
    have hk := s.dev.fetch_alike 0x001A h
    have heq := Dev.surveyCmd_of_ok (d := f.2) f.1 (mask := mask.toNat) (dwell := dwell.toNat) hi hn
      (fun k => hd (BitVec.eq_of_toNat_eq k)) ha
    rw [hk.surveyRadios, hk.surveyVisits] at heq
    refine ⟨fun hnone => .of_host hf rfl (heq.trans (if_pos hnone)), fun hsome hvisit hroom hrun => .of_host hf rfl ?_⟩
    refine heq.trans ((if_neg hsome).trans ((if_neg (Nat.not_lt.mpr hroom)).trans
      ((Dev.longOr_of_idle _ (Dev.fetch_opcode _ _ _) ((hk.runningOp _).trans hrun)).trans ?_)))
    dsimp only
    rw [hk.hosted]
    exact if_neg hvisit

end Sys2Proof.Machine
end

section
/-! # MESH_FLOOD and TIME_FORCE (R221, R236) -/

namespace Sys2Proof.Machine

theorem Dev.Alike.gwId {d e : Dev} (h : d.Alike e) : e.gwId = d.gwId := h.reg _ (by unfold bookAddr; decide)

theorem Dev.meshFlood_of_ok {d : Dev} (c : Cmd) {kind ttl : Nat} {buf : Buf} {b : List Byte} (hk : kindFlood kind = true)
    (ht : ttl ≤ d.cfgFld Reg.mshCfg_ttl_max) (ha : buf.addr ≠ 0) (hb : buf.data = .ok b) :
    d.meshFlood c kind ttl buf =
      (let x := ((d.nextMsgid.2.marlInsert (d.gwId, d.msh.msgid)).floodLinks none kind ttl
          (d.nextMsgid.2.marlInsert (d.gwId, d.msh.msgid)).gwId d.msh.msgid.toNat (b.take buf.len.toNat)).record
            (.flood kind ttl d.msh.msgid (b.take buf.len.toNat))
      if kind = mkFloodFw then x.fwChunk (b.take buf.len.toNat) else x).complete c stOk d.msh.msgid.toNat := by
  unfold Dev.meshFlood
  rw [if_neg (by simp [hk]; omega), Dev.withBuf_of_ok c _ ha (Nat.zero_le _) hb]
  rfl

theorem Dev.marlInsert_gwId (d : Dev) (p : Word × BitVec 16) : (d.marlInsert p).gwId = d.gwId := by
  unfold Dev.marlInsert
  dsimp only
  split <;> rfl

/-- Settles O22: the fetched device has the same links, identity and MSGID as the state. -/
theorem meshFloodResult : Obligations.MeshFloodResult := by
  unfold Obligations.MeshFloodResult
  intro s h kind ttl buf b hf hkind httl ha hb
  have hk := s.dev.fetch_alike 0x0020 h
  have hcfg : ¬ bookAddr Reg.mshCfg_ttl_max.addr := by unfold bookAddr; decide
  refine .of_host hf rfl ((Dev.meshFlood_of_ok _ hkind ((hk.cfgFld hcfg).symm ▸ httl) ha hb).trans ?_)
  have hgw : (s.dev.fetch 0x0020 h).2.nextMsgid.2.gwId = (s.dev.fetch 0x0020 h).2.gwId := rfl
  rw [Dev.marlInsert_gwId, hgw, hk.gwId, hk.msh]

theorem Dev.Alike.forceWaits {d e : Dev} (h : d.Alike e) : e.forceWaits = d.forceWaits := by
  unfold Dev.forceWaits
  rw [h.tim]

theorem Dev.timeAccept_cases (d : Dev) (c : Cmd) :
    (d.forceWaits = true → d.timeAccept c = d.complete c stBusy 0) ∧
    (d.forceWaits = false → d.tim.blocked = false → d.timeAccept c = d.refuseState c 0xFF) ∧
    (d.forceWaits = false → d.tim.blocked = true → d.timeAccept c =
      { d.startDeferred c with tim := { d.tim with
        blocked := false, step := some ⟨-(d.signedFld Reg.timOffset_theta), some c⟩, slew := 0 } }) := by
  unfold Dev.timeAccept
  refine ⟨fun h => if_pos h, fun h hb => ?_, fun h hb => ?_⟩
  · rw [if_neg (by simp [h]), if_pos (by simp [hb])]
  · rw [if_neg (by simp [h]), if_neg (by simp [hb])]
    rfl

theorem Dev.timeSet_cases {d : Dev} (c : Cmd) (sec : Nat) {ns : Nat} (hns : ns ≤ 999999999) :
    (d.forceWaits = true → d.timeSet c 1 sec ns = d.complete c stBusy 0) ∧
    (d.forceWaits = false → d.timeSet c 1 sec ns = { d.startDeferred c with tim := { d.tim with
      step := some ⟨(sec : Int) * 1000000000 + ns - d.tai, some c⟩, slew := 0 } }) := by
  unfold Dev.timeSet
  rw [if_neg (by omega)]
  exact ⟨fun h => if_pos h, fun h => (if_neg (by simp [h])).trans rfl⟩

/-- Settles O23: each clause is the command's equation in its case, on the fetched device. -/
theorem timeForceResult : Obligations.TimeForceResult := by
  unfold Obligations.TimeForceResult
  intro s h hf f
  have hk := s.dev.fetch_alike 0x0021 h
  have hw : f.2.forceWaits = s.dev.forceWaits := hk.forceWaits
  have hblocked : f.2.tim.blocked = s.dev.tim.blocked := by rw [hk.tim]
  have htheta : f.2.signedFld Reg.timOffset_theta = s.dev.signedFld Reg.timOffset_theta :=
    congrArg (toSigned _) (hk.fld (by unfold bookAddr; decide))
  obtain ⟨abusy, anone, asome⟩ := f.2.timeAccept_cases f.1
  refine ⟨fun hb => .of_host hf rfl (abusy (hw.trans hb)), fun hb sec ns hns => ?_,
    fun hn hb => .of_host hf rfl (anone (hw.trans hn) (hblocked.trans hb)),
    fun hn hb => .of_host hf rfl ((asome (hw.trans hn) (hblocked.trans hb)).trans ?_), fun sec ns hns hn => ?_⟩
  · exact .of_host hf rfl ((Dev.timeSet_cases f.1 sec.toNat hns).1 (hw.trans hb))
  · rw [htheta, hk.tim]
  · refine .of_host hf rfl (((Dev.timeSet_cases f.1 sec.toNat hns).2 (hw.trans hn)).trans ?_)
    rw [hk.tai, hk.tim]

end Sys2Proof.Machine
end

section
/-! # The parts of the device beyond its registers, counters and books -/

namespace Sys2Proof.Machine

/-- From `d` to `e` only registers, counters and the books have changed. -/
structure Dev.Parts (d e : Dev) : Prop where
  eff : e.eff = d.eff
  chans : e.chans = d.chans
  r0 : e.r0 = d.r0
  r1 : e.r1 = d.r1
  r2 : e.r2 = d.r2
  sch : e.sch = d.sch
  msh : e.msh = d.msh
  tim : e.tim = d.tim
  fwd : e.fwd = d.fwd
  eth : e.eth = d.eth
  tsk : e.tsk = d.tsk
  kao : e.kao = d.kao
  dmc : e.dmc = d.dmc
  pwr : e.pwr = d.pwr
  boot : e.boot = { d.boot with localEnd := e.boot.localEnd }
  pins : e.pins = d.pins
  decodeQ : e.decodeQ = d.decodeQ
  vit : e.vit = d.vit
  freeCtr : e.freeCtr = d.freeCtr

theorem Dev.Book.parts {d e : Dev} (h : d.Book e) : d.Parts e := { h with }

theorem Dev.Parts.refl (d : Dev) : d.Parts d := (Dev.Book.refl d).parts

theorem Dev.Parts.trans {a b c : Dev} (h : a.Parts b) (k : b.Parts c) : a.Parts c where
  eff := k.eff.trans h.eff
  chans := k.chans.trans h.chans
  r0 := k.r0.trans h.r0
  r1 := k.r1.trans h.r1
  r2 := k.r2.trans h.r2
  sch := k.sch.trans h.sch
  msh := k.msh.trans h.msh
  tim := k.tim.trans h.tim
  fwd := k.fwd.trans h.fwd
  eth := k.eth.trans h.eth
  tsk := k.tsk.trans h.tsk
  kao := k.kao.trans h.kao
  dmc := k.dmc.trans h.dmc
  pwr := k.pwr.trans h.pwr
  boot := by rw [k.boot, h.boot]
  pins := k.pins.trans h.pins
  decodeQ := k.decodeQ.trans h.decodeQ
  vit := k.vit.trans h.vit
  freeCtr := k.freeCtr.trans h.freeCtr

/-- Any registers and any counters. -/
theorem Dev.Parts.file (d : Dev) (r : Sparse Word) (c : Sparse (BitVec 64)) : d.Parts { d with regs := r, counters := c } := by
  constructor <;> rfl

theorem Dev.Parts.setReg (d : Dev) (a : Nat) (v : Word) : d.Parts (d.setReg a v) := .file d _ d.counters

theorem Dev.Parts.setFld (d : Dev) (f : Field) (v : Nat) : d.Parts (d.setFld f v) := .file d _ d.counters

theorem Dev.Parts.raise (d : Dev) (f : Field) : d.Parts (d.raise f) := .setFld d f 1

theorem Dev.Parts.setBit (d : Dev) (f : Field) (b : Bool) : d.Parts (d.setBit f b) := .setFld d f _

theorem Dev.Parts.bumpBy (d : Dev) (c n : Nat) : d.Parts (d.bumpBy c n) := .file d d.regs _

theorem Dev.Parts.bump (d : Dev) (c : Nat) : d.Parts (d.bump c) := .bumpBy d c 1

theorem Dev.Parts.event (d : Dev) (ty code : Nat) (l : List (Nat × List Byte)) : d.Parts (d.event ty code l) :=
  (Dev.Book.event d ty code l).parts

end Sys2Proof.Machine
end

section
/-! # The key store (R344 to R352) -/

namespace Sys2Proof.Machine

/-! ## What shows the engine -/

/-- From `d` to `e` only KAO_SLOTS and KAO_LOCK have changed. -/
structure Dev.ShowsKao (d e : Dev) : Prop where
  only : e = { d with regs := e.regs }
  reg : ∀ a, a ≠ Reg.kaoSlots → a ≠ Reg.kaoLock → e.reg a = d.reg a

theorem Dev.ShowsKao.trans {a b c : Dev} (h : a.ShowsKao b) (k : b.ShowsKao c) : a.ShowsKao c where
  only := by rw [k.only, h.only]
  reg x hs hl := (k.reg x hs hl).trans (h.reg x hs hl)

theorem Dev.ShowsKao.setFld (d : Dev) (f : Field) (v : Nat) (h : f.addr = Reg.kaoSlots ∨ f.addr = Reg.kaoLock) :
    d.ShowsKao (d.setFld f v) where
  only := rfl
  reg x hs hl := by
    refine Dev.reg_setFld_ne d f x v ?_
    rcases h with h | h
    · exact h ▸ hs
    · exact h ▸ hl

theorem Dev.showKao_shows (d : Dev) : d.ShowsKao d.showKao := by
  have h1 := Dev.ShowsKao.setFld d Reg.kaoSlots_loaded d.loadedSlots (.inl rfl)
  have h2 (x : Dev) := Dev.ShowsKao.setFld x Reg.kaoSlots_inuse x.slotsInUse.length (.inl rfl)
  have h3 (x : Dev) : x.ShowsKao (x.setBit Reg.kaoLock_held x.kao.lock.isSome) := .setFld x Reg.kaoLock_held _ (.inr rfl)
  have h4 (x y : Dev) := Dev.ShowsKao.setFld x Reg.kaoLock_waiters y.kao.lockQ.length (.inr rfl)
  unfold Dev.showKao
  dsimp only
  split
  · exact (((h1.trans (h2 _)).trans (h3 _)).trans (h4 _ _)).trans (.setFld _ Reg.kaoLock_owner _ (.inr rfl))
  · exact ((h1.trans (h2 _)).trans (h3 _)).trans (h4 _ _)

section
variable {d e : Dev} (h : d.ShowsKao e)
include h
theorem Dev.ShowsKao.kao : e.kao = d.kao := (congrArg Dev.kao h.only).trans rfl
theorem Dev.ShowsKao.sch : e.sch = d.sch := (congrArg Dev.sch h.only).trans rfl
theorem Dev.ShowsKao.fwd : e.fwd = d.fwd := (congrArg Dev.fwd h.only).trans rfl
theorem Dev.ShowsKao.counter (c : Nat) : e.counter c = d.counter c :=
  congrArg (Sparse.get 0 · c) ((congrArg Dev.counters h.only).trans rfl)
end

/-! ## Slots and records -/

theorem Dev.setKslot_shows (d : Dev) (i : Nat) (k : Option KeySlot) :
    ({ d with kao := { d.kao with slots := Sparse.put none d.kao.slots i k } } : Dev).ShowsKao (d.setKslot i k) :=
  Dev.showKao_shows _

theorem Dev.setKslot_kao (d : Dev) (i : Nat) (k : Option KeySlot) :
    (d.setKslot i k).kao = { d.kao with slots := Sparse.put none d.kao.slots i k } := (d.setKslot_shows i k).kao

theorem Dev.kslot_setKslot_same (d : Dev) (i : Nat) (k : Option KeySlot) : (d.setKslot i k).kslot i = k := by
  unfold Dev.kslot
  rw [Dev.setKslot_kao]
  exact Sparse.get_put_same _ _ _ _

theorem Dev.kslot_setKslot_ne (d : Dev) {i j : Nat} (k : Option KeySlot) (h : j ≠ i) : (d.setKslot i k).kslot j = d.kslot j := by
  unfold Dev.kslot
  rw [Dev.setKslot_kao]
  exact Sparse.get_put_ne _ _ _ _ h

theorem Dev.kslot_congr {d e : Dev} (h : e.kao.slots = d.kao.slots) (i : Nat) : e.kslot i = d.kslot i := by
  unfold Dev.kslot
  rw [h]

/-- Freeing a cache slot changes no record. -/
theorem Dev.dropCache_records (d : Dev) (sidx keyidx : Nat) : (d.dropCache sidx keyidx).kao.records = d.kao.records := by
  unfold Dev.dropCache
  split
  · rw [Dev.setKslot_kao]
  · rfl

theorem Dev.Parts.markC (d : Dev) (c : Nat) (l : List (Nat × List Byte)) : d.Parts (d.markC c l) := by
  unfold Dev.markC
  split
  · exact (Dev.Parts.bump d _).trans (.event _ _ _ _)
  · exact .refl d

/-! ## KEY_INSTALL (R346, R349) -/

/-- A key installed in a pinned slot: what becomes of the key store. -/
theorem Dev.installKey_pinned (d : Dev) {p : KeyParams} (entry : Nat) (key : List Byte) (h : p.target = 0) :
    (∃ l, (d.installKey p entry key).kao = { d.kao with
      slots := Sparse.put none d.kao.slots p.slot.toNat
        (some ⟨BitVec.ofNat 256 (ofBe key), p.len == 1, p.ctrStart, p.hostUse.getLsbD 0, none, 0⟩), linkKidx := l }) ∧
      (d.installKey p entry key).sch = d.sch ∧ (d.installKey p entry key).fwd = d.fwd := by
  unfold Dev.installKey
  dsimp only
  rw [if_pos h]
  have hs := d.setKslot_shows p.slot.toNat
    (some ⟨BitVec.ofNat 256 (ofBe key), p.len == 1, p.ctrStart, p.hostUse.getLsbD 0, none, 0⟩)
  generalize d.setKslot p.slot.toNat
    (some ⟨BitVec.ofNat 256 (ofBe key), p.len == 1, p.ctrStart, p.hostUse.getLsbD 0, none, 0⟩) = x at hs ⊢
  have hm (y : Dev) := Dev.Parts.markC y p.ctrStart.toNat [(8, [0]), (9, [p.slot])]
  split
  · refine ⟨⟨Sparse.put 0 x.kao.linkKidx p.slot.toNat p.keyidx.toNat, (hm _).kao.trans ?_⟩, (hm _).sch.trans hs.sch,
      (hm _).fwd.trans hs.fwd⟩
    dsimp only
    rw [hs.kao]
  · exact ⟨⟨d.kao.linkKidx, (hm _).kao.trans hs.kao⟩, (hm _).sch.trans hs.sch, (hm _).fwd.trans hs.fwd⟩

/-- KEY_INSTALL and KEY_INSTALL_WRAPPED with parameters in range and a buffer that is read. -/
theorem Dev.keyInstall_of_ok {d : Dev} (c : Cmd) {p : KeyParams} {b : List Byte} (wrapped : Bool)
    (hp : d.keyParamsOk p.target p.slot p.keyidx p.sidx = true) (hx : p.keyidx.toNat < 16) (hl : p.len.toNat ≤ 1)
    (ha : p.addr ≠ 0) (hb : p.data = .ok b) :
    d.keyInstall c p wrapped =
      match if p.target = 0 then some 0 else d.installEntry p.sidx.toNat p.keyidx.toNat with
      | none => d.complete c stNoResource 0
      | some e =>
        if wrapped then
          match keyUnwrap deviceKey (fit (if p.len = 1 then 40 else 24) b) with
          | none => d.complete c stAuthFail 0
          | some k => (d.installKey p e k).complete c stOk 0
        else (d.installKey p e (fit (if p.len = 1 then 32 else 16) b)).complete c stOk 0 := by
  have hx' : decide (16 ≤ p.keyidx.toNat) = false := decide_eq_false (by omega)
  have hl' : decide (1 < p.len.toNat) = false := decide_eq_false (by omega)
  unfold Dev.keyInstall
  rw [hp, hx', hl', beq_eq_false_iff_ne.mpr ha, if_neg (by decide), hb] <;> rfl

theorem Dev.keyParamsOk_pinned {d : Dev} {target slot : Byte} (keyidx : Byte) (sidx : BitVec 32) (ht : target = 0)
    (hs : slot.toNat < d.kao.pinned) : d.keyParamsOk target slot keyidx sidx = true := by
  simp [Dev.keyParamsOk, ht, hs]

theorem Dev.keyParamsOk_sensor {d : Dev} {target keyidx : Byte} {sidx : BitVec 32} (slot : Byte) (ht : target = 1)
    (hx : keyidx.toNat < 16) (hs : sidx.toNat < d.maxSensors) : d.keyParamsOk target slot keyidx sidx = true := by
  simp [Dev.keyParamsOk, ht, hx, hs]

/-- Settles O24: the key store of the fetched device is that of the state. -/
theorem keyInstallPinned : Obligations.KeyInstallPinned := by
  unfold Obligations.KeyInstallPinned
  intro s h p b hf ht hs hx hl ha hb Holds
  have hk (op : Half) := s.dev.fetch_alike op h
  have heq (op : Half) (wrapped : Bool) := Dev.keyInstall_of_ok (s.dev.fetch op h).1 wrapped
    (Dev.keyParamsOk_pinned (d := (s.dev.fetch op h).2) p.keyidx p.sidx ht ((hk op).kao ▸ hs)) hx hl ha hb
  simp only [if_pos ht] at heq
  have holds (op : Half) (key : List Byte) : Holds ((s.dev.fetch op h).2.installKey p 0 key) key := by
    obtain ⟨⟨l, hkao⟩, hsch, hfwd⟩ := (s.dev.fetch op h).2.installKey_pinned 0 key ht
    rw [(hk op).kao] at hkao
    have hslots := (congrArg Kao.slots hkao).trans (congrArg Kao.slots (s.dev.setKslot_kao _ _)).symm
    refine ⟨?_, fun j hj => ?_, by rw [hkao], by rw [hkao], hsch.trans (hk op).sch, hfwd.trans (hk op).fwd⟩
    · exact (Dev.kslot_congr hslots _).trans (Dev.kslot_setKslot_same _ _ _)
    · exact (Dev.kslot_congr hslots _).trans (Dev.kslot_setKslot_ne _ _ hj)
  clear_value Holds
  refine ⟨⟨_, .of_host hf rfl (heq 0x0040 false), holds _ _⟩, fun k hu => ⟨_, .of_host hf rfl ?_, holds 0x0041 k⟩,
    fun hu => .of_host hf rfl ?_⟩
  · refine (heq 0x0041 true).trans ?_
    rw [if_pos rfl, hu]
  · refine (heq 0x0041 true).trans ?_
    rw [if_pos rfl, hu]
    rfl

/-! ## KEY_INSTALL of a sensor key, KEY_EXPORT, KEY_DELETE (R345, R346) -/

section
variable {d e : Dev} (h : d.Alike e)
include h

theorem Dev.Alike.findRec (sidx keyidx : Nat) : e.findRec sidx keyidx = d.findRec sidx keyidx := by
  unfold Dev.findRec Dev.keyRec
  rw [h.kao]

theorem Dev.Alike.findKey (sidx keyidx : Nat) : e.findKey sidx keyidx = d.findKey sidx keyidx := by
  unfold Dev.findKey
  rw [h.kao]

theorem Dev.Alike.kslot (i : Nat) : e.kslot i = d.kslot i := Dev.kslot_congr (congrArg Kao.slots h.kao) i

theorem Dev.Alike.installEntry (sidx keyidx : Nat) : e.installEntry sidx keyidx = d.installEntry sidx keyidx := by
  unfold Dev.installEntry
  rw [h.findRec]
  unfold Dev.keyRec
  rw [h.kao]

end

/-- A sensor's key goes into its record, wrapped, and no other entry changes. -/
theorem Dev.installKey_sensor (d : Dev) {p : KeyParams} (entry : Nat) (key : List Byte) (h : p.target ≠ 0) :
    (d.installKey p entry key).kao.records = Sparse.put none d.kao.records (2 * p.sidx.toNat + entry)
      (some ⟨p.len == 1, p.hostUse.getLsbD 0, p.keyidx.toNat, p.ctrStart, fit 40 (keyWrap deviceKey key)⟩) := by
  unfold Dev.installKey
  dsimp only
  rw [if_neg h, (Dev.Parts.markC _ _ _).kao, Dev.setKeyRec]
  dsimp only
  rw [Dev.dropCache_records]

theorem Dev.keyExport_of_rec {d : Dev} (c : Cmd) {keyidx : Byte} {sidx : BitVec 32} {dst : BitVec 64} {e : Nat} {r : KeyRec}
    (hx : keyidx.toNat < 16) (hs : sidx.toNat < d.maxSensors) (hd : dst ≠ 0)
    (hr : d.findRec sidx.toNat keyidx.toNat = some (e, r)) :
    d.keyExport c keyidx sidx dst = (d.hostWrite dst.toNat (fit 40 r.wrap ++ [byte r.aes256.toNat, 0] ++
      le 6 (match (d.findKey sidx.toNat keyidx.toNat).bind d.kslot with | some k => k.ctr | none => r.ctr).toNat)).complete
        c stOk 0 := by
  unfold Dev.keyExport
  rw [if_neg (not_or.mpr ⟨by omega, not_or.mpr ⟨by omega, hd⟩⟩), hr] <;> rfl

theorem Dev.keyDelete_pinned {d : Dev} (c : Cmd) {slot : Byte} (keyidx : Byte) (sidx : BitVec 32)
    (hs : slot.toNat < d.kao.pinned) :
    d.keyDelete c 0 slot keyidx sidx =
      if (d.kslot slot.toNat).isNone then d.complete c stBadParam 0 else (d.setKslot slot.toNat none).complete c stOk 0 := by
  unfold Dev.keyDelete
  rw [if_neg (by rw [Dev.keyParamsOk_pinned keyidx sidx rfl hs]; decide), if_pos rfl]

theorem Dev.keyDelete_sensor {d : Dev} (c : Cmd) (slot : Byte) {keyidx : Byte} {sidx : BitVec 32} (hx : keyidx.toNat < 16)
    (hs : sidx.toNat < d.maxSensors) :
    d.keyDelete c 1 slot keyidx sidx =
      match d.findRec sidx.toNat keyidx.toNat with
      | none => d.complete c stBadParam 0
      | some (e, _) => ((d.dropCache sidx.toNat keyidx.toNat).setKeyRec sidx.toNat e none).complete c stOk 0 := by
  unfold Dev.keyDelete
  rw [if_neg (by rw [Dev.keyParamsOk_sensor slot rfl hx hs]; decide), if_neg (by decide)] <;> rfl

/-- Settles O25: each clause is the command's equation in its case, on the fetched device. -/
theorem keyRecordCommands : Obligations.KeyRecordCommands := by
  unfold Obligations.KeyRecordCommands
  intro s h hf
  have hk (op : Half) := s.dev.fetch_alike op h
  have hmax (op : Half) {n : Nat} (hn : n < s.dev.maxSensors) : n < (s.dev.fetch op h).2.maxSensors := (hk op).maxSensors ▸ hn
  refine ⟨fun p b ht hx hs hl ha hb => ?_, fun keyidx sidx dst e r hx hs hd hr hfree => ?_,
    fun keyidx sidx dst e i r k hx hs hd hr hi hslot => ?_, fun slot len keyidx sidx hx hs hr => ?_,
    fun slot len keyidx sidx hs => ?_, fun slot len keyidx sidx e r hx hs hr => ?_⟩
  · have ht0 : p.target ≠ 0 := ht ▸ by decide
    have heq := Dev.keyInstall_of_ok (s.dev.fetch 0x0040 h).1 false
      (Dev.keyParamsOk_sensor (d := (s.dev.fetch 0x0040 h).2) p.slot ht hx (hmax _ hs)) hx hl ha hb
    rw [if_neg ht0, (hk _).installEntry] at heq
    refine ⟨fun e he => ⟨_, .of_host hf rfl (heq.trans (by rw [he]; rfl)), ?_, fun j hj => ?_⟩,
      fun he => .of_host hf rfl (heq.trans (by rw [he]; rfl))⟩
    · unfold Dev.keyRec
      rw [Dev.installKey_sensor _ _ _ ht0]
      exact Sparse.get_put_same _ _ _ _
    · rw [Dev.installKey_sensor _ _ _ ht0, Sparse.get_put_ne _ _ _ _ hj, (hk _).kao]
  · refine .of_host hf rfl ((Dev.keyExport_of_rec _ hx (hmax _ hs) hd (((hk _).findRec _ _).trans hr)).trans ?_)
    rw [(hk _).findKey, hfree]
    rfl
  · refine .of_host hf rfl ((Dev.keyExport_of_rec _ hx (hmax _ hs) hd (((hk _).findRec _ _).trans hr)).trans ?_)
    rw [(hk _).findKey, hi, Option.bind_some, (hk _).kslot, hslot]
  · refine .of_host hf rfl ((Dev.keyDelete_sensor _ slot hx (hmax _ hs)).trans ?_)
    rw [(hk _).findRec, hr]
    rfl
  · have heq := Dev.keyDelete_pinned (d := (s.dev.fetch 0x0043 h).2) (s.dev.fetch 0x0043 h).1 (slot := slot) keyidx sidx
      ((hk _).kao ▸ hs)
    rw [(hk _).kslot] at heq
    refine ⟨fun hsome => .of_host hf rfl (heq.trans (if_neg ?_)), fun hnone => .of_host hf rfl (heq.trans (if_pos hnone))⟩
    rw [Option.isNone_eq_false_iff.mpr hsome]
    decide
  · refine .of_host hf rfl ((Dev.keyDelete_sensor _ slot hx (hmax _ hs)).trans ?_)
    rw [(hk _).findRec, hr]

/-! ## Drawing C (R350, R351) -/

theorem Dev.drawC_of_none {d : Dev} {i : Nat} (h : d.kslot i = none) : d.drawC i = (d, none) := by
  unfold Dev.drawC
  rw [h]

theorem Dev.drawC_of_exhausted {d : Dev} {i : Nat} {k : KeySlot} (h : d.kslot i = some k) (hc : k.ctr = BitVec.allOnes 48) :
    d.drawC i = (((d.bump Cnt.ctrExhausted).raise Reg.kaoStat_ctr_exh).event 0x000D 0 (d.keyData i), none) := by
  unfold Dev.drawC
  rw [h]
  exact if_pos hc

theorem Dev.drawC_of_room {d : Dev} {i : Nat} {k : KeySlot} (h : d.kslot i = some k) (hc : k.ctr ≠ BitVec.allOnes 48) :
    d.drawC i = ((d.setKslot i (some { k with ctr := k.ctr + 1 })).markC (k.ctr.toNat + 1)
      ((d.setKslot i (some { k with ctr := k.ctr + 1 })).keyData i), some k.ctr.toNat) := by
  unfold Dev.drawC
  rw [h]
  exact if_neg hc

/-- Drawing on an exhausted counter counts it, and nothing else of the key store changes. -/
theorem Dev.drawC_exhausted {d : Dev} {i : Nat} {k : KeySlot} (h : d.kslot i = some k) (hc : k.ctr = BitVec.allOnes 48) :
    (d.drawC i).1.kao = d.kao ∧ (d.drawC i).1.counter Cnt.ctrExhausted = d.counter Cnt.ctrExhausted + 1 ∧
      (d.drawC i).1.bit Reg.kaoStat_ctr_exh = true := by
  rw [Dev.drawC_of_exhausted h hc]
  have hb := Dev.Book.event ((d.bump Cnt.ctrExhausted).raise Reg.kaoStat_ctr_exh) 0x000D 0 (d.keyData i)
  refine ⟨hb.kao, (hb.counter _ (by unfold bookCnt; decide)).trans ?_, ?_⟩
  · exact (Dev.counter_bumpBy d _ _ 1).trans (if_pos rfl)
  · exact (congrArg (· == 1) (hb.fld (by unfold bookAddr; decide))).trans (Dev.bit_raise_self _ _)

theorem Dev.drawC_room_kao {d : Dev} {i : Nat} {k : KeySlot} (h : d.kslot i = some k) (hc : k.ctr ≠ BitVec.allOnes 48) :
    (d.drawC i).1.kao = { d.kao with slots := Sparse.put none d.kao.slots i (some { k with ctr := k.ctr + 1 }) } := by
  rw [Dev.drawC_of_room h hc]
  exact (Dev.Parts.markC _ _ _).kao.trans (Dev.setKslot_kao _ _ _)

theorem Dev.kslot_drawC_same {d : Dev} {i : Nat} {k : KeySlot} (h : d.kslot i = some k) (hc : k.ctr ≠ BitVec.allOnes 48) :
    (d.drawC i).1.kslot i = some { k with ctr := k.ctr + 1 } :=
  (Dev.kslot_congr ((congrArg Kao.slots (Dev.drawC_room_kao h hc)).trans
    (congrArg Kao.slots (Dev.setKslot_kao d i _)).symm) i).trans (Dev.kslot_setKslot_same d i _)

theorem Dev.kslot_drawC_ne {d : Dev} {i : Nat} {k : KeySlot} (h : d.kslot i = some k) {j : Nat} (hj : j ≠ i) :
    (d.drawC i).1.kslot j = d.kslot j := by
  by_cases hc : k.ctr = BitVec.allOnes 48
  · exact Dev.kslot_congr (congrArg Kao.slots (Dev.drawC_exhausted h hc).1) j
  · exact (Dev.kslot_congr ((congrArg Kao.slots (Dev.drawC_room_kao h hc)).trans
      (congrArg Kao.slots (Dev.setKslot_kao d i _)).symm) j).trans (Dev.kslot_setKslot_ne d _ hj)

theorem ctr_succ {c : BitVec 48} (h : c ≠ BitVec.allOnes 48) : (c + 1).toNat = c.toNat + 1 := by
  have hlt : c.toNat ≠ 2 ^ 48 - 1 := fun k => h (BitVec.eq_of_toNat_eq (by rw [k, BitVec.toNat_allOnes]))
  bv_omega

/-- Settles O26. -/
theorem counterNeverWraps : Obligations.CounterNeverWraps := by
  unfold Obligations.CounterNeverWraps
  intro d i k h
  refine ⟨fun hc => ⟨by rw [Dev.drawC_of_room h hc], { k with ctr := k.ctr + 1 }, ?_, rfl, ctr_succ hc⟩,
    fun hc => ⟨by rw [Dev.drawC_of_exhausted h hc], Dev.drawC_exhausted h hc⟩, fun j hj => Dev.kslot_drawC_ne h hj⟩
  exact Dev.kslot_drawC_same h hc

/-! ## Requests (R347, R350, R353) -/

/-- In QUEUE mode a request on a pinned slot that nothing holds up is accepted there. -/
theorem Dev.kaoSubmit_of_room {d : Dev} {r : KaoReq} {host : Option (Cmd × BitVec 64)} (hp : r.pinned = true)
    (hb : r.blocks ≠ []) (hlen : r.blocks.length ≤ 256) (hm : d.kao.modePend = none) (hl : d.kao.locked = false)
    (hw : d.kaoBehind r.requester = false) (hn : d.kaoCount r.requester < 64) :
    d.kaoSubmit (r, host) = d.kaoAccept (r, host) r.slot := by
  unfold Dev.kaoSubmit Dev.kaoEnter
  dsimp only
  rw [if_neg (not_or.mpr ⟨hb, by omega⟩), if_neg (by simp [hm, hw]), if_pos (by simp [hl]), if_neg (by omega), if_pos hp]

theorem Dev.kaoAccept_no_draw {d : Dev} {r : KaoReq} (host : Option (Cmd × BitVec 64)) {i : Nat} {k : KeySlot}
    (hk : d.kslot i = some k) (hd : r.draw = false) :
    d.kaoAccept (r, host) i = (({ d with kao := { d.kao with
      queue := d.kao.queue ++ [(⟨r, i, k.key, k.aes256, none, [], host⟩ : KaoJob)] } }.touch i).showKao) := by
  unfold Dev.kaoAccept
  rw [hk]
  dsimp only
  rw [hd]
  rfl

theorem Dev.kaoAccept_exhausted {d : Dev} {r : KaoReq} (host : Option (Cmd × BitVec 64)) {i : Nat} {k : KeySlot}
    (hk : d.kslot i = some k) (hd : r.draw = true) (hc : k.ctr = BitVec.allOnes 48) :
    d.kaoAccept (r, host) i = (d.drawC i).1.kaoFail host stCounterExhausted := by
  unfold Dev.kaoAccept
  rw [hk]
  dsimp only
  rw [hd, if_pos rfl, if_pos (by rw [Dev.drawC_of_exhausted hk hc]; rfl)]

theorem Dev.kaoAccept_draw {d : Dev} {r : KaoReq} (host : Option (Cmd × BitVec 64)) {i : Nat} {k : KeySlot}
    (hk : d.kslot i = some k) (hd : r.draw = true) (hc : k.ctr ≠ BitVec.allOnes 48) :
    d.kaoAccept (r, host) i = (({ (d.drawC i).1 with kao := { (d.drawC i).1.kao with
      queue := (d.drawC i).1.kao.queue ++ [(⟨r, i, k.key, k.aes256, some k.ctr, [], host⟩ : KaoJob)] } }.touch i).showKao) := by
  have h2 : (d.drawC i).2 = some k.ctr.toNat := by rw [Dev.drawC_of_room hk hc]
  unfold Dev.kaoAccept
  rw [hk]
  dsimp only
  rw [hd, if_pos rfl, h2, Option.isNone_some, Bool.and_false, if_neg Bool.false_ne_true, Option.map_some, BitVec.ofNat_toNat, BitVec.setWidth_eq]

/-- A slot that is used keeps its key and its C, and the engine its requests. -/
theorem Dev.touch_kao {d : Dev} {i : Nat} {k : KeySlot} (h : d.kslot i = some k) :
    (d.touch i).kao = { d.kao with
      useClock := d.kao.useClock + 1, slots := Sparse.put none d.kao.slots i (some { k with used := d.kao.useClock + 1 }) } := by
  unfold Dev.touch
  rw [h]
  exact Dev.setKslot_kao _ _ _

theorem Dev.kslot_touch {d : Dev} {i : Nat} {k : KeySlot} (h : d.kslot i = some k) :
    (d.touch i).kslot i = some { k with used := d.kao.useClock + 1 } := by
  unfold Dev.touch
  rw [h]
  exact Dev.kslot_setKslot_same _ _ _

theorem Dev.touch_counter (d : Dev) (i c : Nat) : (d.touch i).counter c = d.counter c := by
  unfold Dev.touch
  split
  · rfl
  · exact (Dev.setKslot_shows _ _ _).counter c

theorem Dev.kaoOp_of_ok {d : Dev} (c : Cmd) {p : KaoOpParams} {b : List Byte} (ht : p.target = 0) (hop : p.op.toNat ≤ 1)
    (h1 : 1 ≤ p.blocks.toNat) (h256 : p.blocks.toNat ≤ 256) (hs : p.srcAddr ≠ 0) (hd : p.dst ≠ 0) (hb : p.src = .ok b) :
    d.kaoOp c p =
      if d.kao.pinned ≤ p.slot.toNat then d.complete c stBadParam 0
      else if (d.kslot p.slot.toNat).isNone then d.complete c stNoResource 0
      else (d.startDeferred c).kaoSubmit ((⟨17, true, p.slot.toNat, p.sidx.setWidth 20, p.keyidx.setWidth 4, p.op == 1,
        p.draw.getLsbD 0, toBlocks p.blocks.toNat b⟩ : KaoReq), some (c, p.dst)) := by
  unfold Dev.kaoOp Dev.kaoOpRefusal
  dsimp only
  rw [if_neg (not_or.mpr ⟨by rw [ht]; decide, not_or.mpr ⟨by omega, not_or.mpr ⟨by omega, not_or.mpr ⟨by omega, not_or.mpr ⟨hs,
    not_or.mpr ⟨hd, fun k => absurd (ht.symm.trans k.1) (by decide)⟩⟩⟩⟩⟩⟩), if_pos ht, hb, ht]
  split
  · next st h =>
    split at h
    · next hp => rw [if_pos hp, ← Option.some.inj h]
    · next hp =>
      split at h
      · next hn => rw [if_neg hp, if_pos hn, ← Option.some.inj h]
      · simp at h
  · next h =>
    split at h
    · simp at h
    · next hp =>
      split at h
      · simp at h
      · next hn =>
        rw [if_neg hp, if_neg hn]
        rfl

/-- Settles O27. -/
theorem kaoRequests : Obligations.KaoRequests := by
  unfold Obligations.KaoRequests
  refine ⟨fun s r k ho hp hb hlen hm hl hw hn hk => ?_, fun s h p b hf ht hop h1 h256 hs hd hb => ?_⟩
  · have heq := Dev.kaoSubmit_of_room (host := none) hp hb hlen hm hl hw hn
    refine ⟨fun hd => .of_runOp ho rfl (heq.trans (Dev.kaoAccept_no_draw none hk hd)), fun hd hc => ?_, fun hd hc => ?_⟩
    · refine ⟨_, .of_runOp ho rfl (heq.trans (Dev.kaoAccept_draw none hk hd hc)), ?_⟩
      have hdraw := Dev.drawC_room_kao hk hc
      have hslot := Dev.kslot_drawC_same hk hc
      generalize (s.dev.drawC r.slot).1 = x at hdraw hslot
      have htouch := Dev.touch_kao (d := { x with kao := { x.kao with
        queue := x.kao.queue ++ [(⟨r, r.slot, k.key, k.aes256, some k.ctr, [], none⟩ : KaoJob)] } }) hslot
      have hkslot := Dev.kslot_touch (d := { x with kao := { x.kao with
        queue := x.kao.queue ++ [(⟨r, r.slot, k.key, k.aes256, some k.ctr, [], none⟩ : KaoJob)] } }) hslot
      have hshow := ({ x with kao := { x.kao with
        queue := x.kao.queue ++ [(⟨r, r.slot, k.key, k.aes256, some k.ctr, [], none⟩ : KaoJob)] } }.touch r.slot).showKao_shows
      refine ⟨((congrArg Kao.queue hshow.kao).trans (congrArg Kao.queue htouch)).trans ?_,
        { k with ctr := k.ctr + 1, used := x.kao.useClock + 1 },
        (Dev.kslot_congr (congrArg Kao.slots hshow.kao) _).trans hkslot, rfl, rfl⟩
      dsimp only
      rw [hdraw]
    · obtain ⟨hkao, hcnt, -⟩ := Dev.drawC_exhausted hk hc
      exact ⟨_, .of_runOp ho rfl (heq.trans (Dev.kaoAccept_exhausted none hk hd hc)), hkao, hcnt⟩
  · intro f
    have hk := s.dev.fetch_alike 0x0044 h
    have heq := Dev.kaoOp_of_ok (d := f.2) f.1 ht hop h1 h256 hs hd hb
    rw [hk.kao, hk.kslot] at heq
    refine ⟨fun hp => .of_host hf rfl (heq.trans (if_pos hp)), fun hp hn => ?_, fun hp hsome => ?_⟩
    · exact .of_host hf rfl ((heq.trans (if_neg (by omega))).trans (if_pos (by rw [hn]; rfl)))
    · refine .of_host hf rfl ((heq.trans (if_neg (by omega))).trans (if_neg ?_))
      rw [Option.isNone_eq_false_iff.mpr hsome]
      decide

end Sys2Proof.Machine
end

section
/-! # What ends at Kaolin (R350 to R358) -/

namespace Sys2Proof.Machine

/-! ## The requests that move on -/

theorem Dev.kaoRetry_of_none {d : Dev} (h : d.kao.waitMode = []) : d.kaoRetry = d := by
  have hk : ({ d.kao with waitMode := [] } : Kao) = d.kao := by rw [← h]
  unfold Dev.kaoRetry
  dsimp only
  rw [hk, h]
  rfl

theorem Dev.kaoMove_of_idle {d : Dev} (hw : d.kao.waitMode = []) (hl : d.kao.locked = false) : d.kaoMove = d := by
  unfold Dev.kaoMove
  rw [Dev.kaoRetry_of_none hw, ite_self]
  exact if_neg (by simp [hl])

/-- The only request in the engine leaves it. -/
theorem Dev.kaoLeave_only {d : Dev} {j : KaoJob} (h : d.kao.queue = [j]) (hp : d.kao.pinPend = none) :
    (∃ rr rv, (d.kaoLeave j).kao = { d.kao with queue := [], rr := rr, revoked := rv }) ∧
      (∀ c, (d.kaoLeave j).counter c = d.counter c) ∧
      ∀ a, a ≠ Reg.kaoSlots → a ≠ Reg.kaoLock → (d.kaoLeave j).reg a = d.reg a := by
  have hq : d.kao.queue.takeWhile (· != j) ++ (d.kao.queue.dropWhile (· != j)).drop 1 = [] := by simp [h]
  unfold Dev.kaoLeave
  rw [hq]
  dsimp only
  rw [pinApply_of_none]
  · have hs (x : Kao) := ({ d with kao := x } : Dev).showKao_shows
    exact ⟨⟨_, _, (hs _).kao⟩, (hs _).counter, (hs _).reg⟩
  · exact hp

theorem Dev.bit_of_reg {d e : Dev} {f : Field} (h : e.reg f.addr = d.reg f.addr) : e.bit f = d.bit f :=
  congrArg (fun w => f.of w == 1) h

/-! ## A block (R356, R357) -/

/-- What the lanes count leaves the requests. -/
theorem Dev.lanes_kao (d : Dev) (dec : Bool) (n : Nat) :
    (d.lanes dec n).kao = { d.kao with sinceSeed := d.kao.sinceSeed + n, sinceTry := d.kao.sinceTry + n } := by
  unfold Dev.lanes
  generalize (if dec then Cnt.blockDec else Cnt.blockEnc) = c
  dsimp only
  split <;> rfl

/-- The outputs of a request with one block more. -/
def KaoJob.next (j : KaoJob) : KaoJob := { j with outputs := j.outputs ++ [j.block (j.req.blocks.getD j.outputs.length 0)] }

/-- The device with that block released. -/
def Dev.release (d : Dev) (j : KaoJob) : Dev :=
  { d.lanes j.req.decrypt 1 with kao := { (d.lanes j.req.decrypt 1).kao with
    queue := d.kao.queue.map fun (x : KaoJob) => if x = j then j.next else x } }

theorem Dev.blockOut_eq (d : Dev) (j : KaoJob) :
    d.blockOut j = if j.outputs.length + 1 = j.req.blocks.length then (d.release j).kaoDone j.next else d.release j := by
  have hq : (d.lanes j.req.decrypt 1).kao.queue = d.kao.queue := by rw [Dev.lanes_kao]
  have hlen : j.next.outputs.length = j.outputs.length + 1 := by simp [KaoJob.next]
  unfold Dev.blockOut Dev.release
  dsimp only
  rw [hq, ← hlen]
  rfl

theorem Dev.release_of_only {d : Dev} {j : KaoJob} (h : d.kao.queue = [j]) : (d.release j).kao.queue = [j.next] := by
  show List.map _ d.kao.queue = _
  rw [h]
  exact congrArg (· :: []) (if_pos rfl)

/-- The last block of a host's request, which is the only one in the engine. -/
theorem Dev.kaoDone_of_host {d : Dev} {j : KaoJob} {c : Cmd} {dst : BitVec 64} (hq : d.kao.queue = [j])
    (hp : d.kao.pinPend = none) (hw : d.kao.waitMode = []) (hl : d.kao.locked = false) (hj : j.host = some (c, dst)) :
    d.kaoDone j = ((d.kaoLeave j).hostWrite dst.toNat (j.outputs.flatMap fun (b : BitVec 128) => be 16 b.toNat)).finish c stOk
      (match j.drawn with | some x => x.toNat | none => 0) := by
  obtain ⟨⟨rr, rv, hk⟩, -, -⟩ := Dev.kaoLeave_only hq hp
  unfold Dev.kaoDone
  rw [hj]
  dsimp only
  generalize d.kaoLeave j = x at hk
  have hb (res : Nat) := (Dev.Book.hostWrite x dst.toNat (j.outputs.flatMap fun (b : BitVec 128) => be 16 b.toNat)).trans
    (.finish _ c stOk res)
  exact Dev.kaoMove_of_idle ((congrArg Kao.waitMode ((hb _).kao.trans hk)).trans hw)
    ((congrArg Kao.locked ((hb _).kao.trans hk)).trans hl)

/-- A block that agrees, and one that agrees on the repeat. -/
theorem Dev.blockResult_agrees {d : Dev} {j : KaoJob} {l : LaneId} (hn : d.kaoNext = some j) (hl : d.laneUp l = true)
    (again : Bool) : d.blockResult l true again = d.blockOut j := by
  unfold Dev.blockResult
  rw [hn]
  dsimp only
  rw [if_neg (by simp [hl]), if_pos rfl]

theorem Dev.blockResult_repeats {d : Dev} {j : KaoJob} {l : LaneId} (hn : d.kaoNext = some j) (hl : d.laneUp l = true) :
    d.blockResult l false true = (((d.bump Cnt.mismatch).raise Reg.kaoStat_mismatch).bump Cnt.retryOk).blockOut j := by
  unfold Dev.blockResult
  rw [hn]
  dsimp only
  rw [if_neg (by simp [hl]), if_neg Bool.false_ne_true, if_pos rfl]

/-- What two disagreements count and show, and the self-test of the lane that follows. -/
def Dev.blockFaults (d : Dev) (l : LaneId) : Dev :=
  ((((d.bump Cnt.mismatch).raise Reg.kaoStat_mismatch).bump Cnt.blockFault).raise Reg.kaoStat_fault).event 0x000F 0
    [(8, [byte l.val])]

def Dev.laneTests (d : Dev) (l : LaneId) : Dev :=
  { d with kao := { d.kao with
    testing := l :: d.kao.testing, testEnd := Sparse.put 0 d.kao.testEnd l.val (d.tim.cyc + selfTestCycles) } }

theorem Dev.laneTests_counter (d : Dev) (l : LaneId) (c : Nat) : (d.laneTests l).counter c = d.counter c := rfl

theorem Dev.laneTests_bit (d : Dev) (l : LaneId) (f : Field) : (d.laneTests l).bit f = d.bit f := rfl

theorem Dev.blockResult_fails {d : Dev} {j : KaoJob} {l : LaneId} (hn : d.kaoNext = some j) (hl : d.laneUp l = true) :
    d.blockResult l false false = ((((d.blockFaults l).laneTests l).kaoLeave j).kaoFail j.host stFault).kaoMove := by
  unfold Dev.blockResult
  rw [hn]
  dsimp only
  rw [if_neg (by simp [hl]), if_neg Bool.false_ne_true, if_neg Bool.false_ne_true]
  rfl

theorem Dev.blockFaults_shows (d : Dev) (l : LaneId) :
    d.Parts (d.blockFaults l) ∧ (d.blockFaults l).bit Reg.kaoStat_fault = true ∧
      (d.blockFaults l).counter Cnt.mismatch = d.counter Cnt.mismatch + 1 ∧
      (d.blockFaults l).counter Cnt.blockFault = d.counter Cnt.blockFault + 1 := by
  have hmis : ((d.bump Cnt.mismatch).raise Reg.kaoStat_mismatch).counter Cnt.mismatch = d.counter Cnt.mismatch + 1 :=
    (Dev.counter_bumpBy d _ _ 1).trans (if_pos rfl)
  have hblock : ((d.bump Cnt.mismatch).raise Reg.kaoStat_mismatch).counter Cnt.blockFault = d.counter Cnt.blockFault :=
    (Dev.counter_bumpBy d _ _ 1).trans (if_neg (by decide))
  have hparts := (Dev.Parts.bump d Cnt.mismatch).trans (.raise _ Reg.kaoStat_mismatch)
  unfold Dev.blockFaults
  generalize (d.bump Cnt.mismatch).raise Reg.kaoStat_mismatch = x at hmis hblock hparts ⊢
  have hb := Dev.Book.event ((x.bump Cnt.blockFault).raise Reg.kaoStat_fault) 0x000F 0 [(8, [byte l.val])]
  have hcnt (c : Nat) : ((x.bump Cnt.blockFault).raise Reg.kaoStat_fault).counter c =
      if c = Cnt.blockFault then x.counter Cnt.blockFault + 1 else x.counter c := Dev.counter_bumpBy x _ _ 1
  have hbit := Dev.bit_raise_self (x.bump Cnt.blockFault) Reg.kaoStat_fault
  have hparts' := (hparts.trans (.bump x Cnt.blockFault)).trans (.raise _ Reg.kaoStat_fault)
  generalize (x.bump Cnt.blockFault).raise Reg.kaoStat_fault = y at hb hcnt hbit hparts' ⊢
  refine ⟨hparts'.trans hb.parts, (congrArg (· == 1) (hb.fld (by unfold bookAddr; decide))).trans hbit, ?_, ?_⟩
  · rw [hb.counter _ (by unfold bookCnt; decide), hcnt, if_neg (by decide), hmis]
  · rw [hb.counter _ (by unfold bookCnt; decide), hcnt, if_pos rfl, hblock]

/-- Settles O28. -/
theorem kaoBlockResults : Obligations.KaoBlockResults := by
  unfold Obligations.KaoBlockResults
  intro s lane j ho hn hl outs Released
  refine ⟨fun hmore => ⟨fun again => ?_, ?_⟩, fun again c dst hlast hq hj hw hp hlock => ?_, fun hq hj hw hp hlock => ?_⟩
  · refine .of_runOp ho rfl ((Dev.blockResult_agrees hn hl again).trans ?_)
    rw [Dev.blockOut_eq, if_neg (by omega)]
    rfl
  · refine .of_runOp ho rfl ((Dev.blockResult_repeats hn hl).trans ?_)
    rw [Dev.blockOut_eq, if_neg (by omega)]
    rfl
  · have hlanes := s.dev.lanes_kao j.req.decrypt 1
    have hpin : (s.dev.release j).kao.pinPend = none := (congrArg Kao.pinPend hlanes).trans hp
    have hwait : (s.dev.release j).kao.waitMode = [] := (congrArg Kao.waitMode hlanes).trans hw
    have hlk : (s.dev.release j).kao.locked = false := (congrArg Kao.locked hlanes).trans hlock
    have hslots : (s.dev.release j).kao.slots = s.dev.kao.slots := (congrArg Kao.slots hlanes).trans rfl
    have hrecs : (s.dev.release j).kao.records = s.dev.kao.records := (congrArg Kao.records hlanes).trans rfl
    obtain ⟨⟨rr, rv, hleave⟩, -, -⟩ := Dev.kaoLeave_only (Dev.release_of_only hq) hpin
    refine ⟨(s.dev.release j).kaoLeave j.next, .of_runOp ho rfl ((Dev.blockResult_agrees hn hl again).trans ?_), ?_, ?_, ?_⟩
    · rw [Dev.blockOut_eq, if_pos hlast]
      exact Dev.kaoDone_of_host (Dev.release_of_only hq) hpin hwait hlk hj
    · exact congrArg Kao.queue hleave
    · exact (congrArg Kao.slots hleave).trans hslots
    · exact (congrArg Kao.records hleave).trans hrecs
  · obtain ⟨hparts, hfault, hmis, hblock⟩ := s.dev.blockFaults_shows lane
    have hk : ((s.dev.blockFaults lane).laneTests lane).kao = { s.dev.kao with
        testing := lane :: s.dev.kao.testing,
        testEnd := Sparse.put 0 s.dev.kao.testEnd lane.val (s.dev.tim.cyc + selfTestCycles) } := by
      unfold Dev.laneTests
      rw [hparts.kao, hparts.tim]
    obtain ⟨⟨rr, rv, hleave⟩, hcount, hreg⟩ := Dev.kaoLeave_only (j := j) ((congrArg Kao.queue hk).trans hq) ((congrArg Kao.pinPend hk).trans hp)
    have hkao : (((s.dev.blockFaults lane).laneTests lane).kaoLeave j).kao = { s.dev.kao with
        queue := [], rr := rr, revoked := rv, testing := lane :: s.dev.kao.testing,
        testEnd := Sparse.put 0 s.dev.kao.testEnd lane.val (s.dev.tim.cyc + selfTestCycles) } := by
      rw [hleave, hk]
    have hcnt (c : Nat) := (hcount c).trans ((s.dev.blockFaults lane).laneTests_counter lane c)
    have hbit := (Dev.bit_of_reg (f := Reg.kaoStat_fault) (hreg Reg.kaoStat (by decide) (by decide))).trans
      ((s.dev.blockFaults lane).laneTests_bit lane _)
    refine ⟨_, .of_runOp ho rfl (Dev.blockResult_fails hn hl), ?_⟩
    rw [hj]
    unfold Dev.kaoFail
    generalize ((s.dev.blockFaults lane).laneTests lane).kaoLeave j = x at hkao hcnt hbit ⊢
    rw [Dev.kaoMove_of_idle ((congrArg Kao.waitMode hkao).trans hw) ((congrArg Kao.locked hkao).trans hlock)]
    refine ⟨congrArg Kao.queue hkao, congrArg Kao.testing hkao, (hcnt _).trans hmis, ?_, (hcnt _).trans hblock, hbit.trans hfault,
      (congrArg Kao.slots hkao).trans rfl⟩
    have htest : x.kao.testEnd = Sparse.put 0 s.dev.kao.testEnd lane.val (s.dev.tim.cyc + selfTestCycles) :=
        (congrArg Kao.testEnd hkao).trans rfl
    rw [htest]
    exact Sparse.get_put_same _ _ _ _

/-! ## Self-test, reseed, MODE, lock revocation (R354 to R358) -/

theorem Dev.setTai_only (d : Dev) (t : Int) : d.setTai t = { d with tim := (d.setTai t).tim } := rfl

/-- Time that passes changes the clock alone. -/
theorem Dev.reachCycle_only {d e : Dev} {c : Nat} (h : d.reachCycle c = some e) : e = { d with tim := e.tim } := by
  unfold Dev.reachCycle at h
  split at h
  · obtain rfl := Option.some.inj h
    rfl
  · extract_lets n v t x at h
    split at h
    · exact nomatch h
    · have hx : x = { d with tim := x.tim } := d.setTai_only t
      rw [← Option.some.inj h]
      clear_value x v
      rw [hx]

theorem Dev.reachCycle_kao {d e : Dev} {c : Nat} (h : d.reachCycle c = some e) : e.kao = d.kao :=
  (congrArg Dev.kao (Dev.reachCycle_only h)).trans rfl

theorem Dev.laneTested_of_due {d e : Dev} {l : LaneId} (hl : d.kao.testing.contains l = true)
    (he : d.reachCycle (Sparse.get 0 d.kao.testEnd l.val) = some e) (pass : Bool) :
    d.laneTested l pass =
      let x : Dev := { e with kao := { d.kao with testing := d.kao.testing.filter (· != l) } }
      if pass then x
      else (x.bump Cnt.laneOffline).raise (if l = 0 then Reg.kaoStat_lane0_off else Reg.kaoStat_lane1_off) := by
  unfold Dev.laneTested
  rw [hl, if_neg (by decide), Dev.due_of_reached he, Dev.reachCycle_kao he]

theorem Dev.reseed_of_due {d : Dev} (h : 1048576 ≤ d.kao.sinceTry) (healthy : Bool) :
    d.reseed healthy =
      if healthy then ({ d with kao := { d.kao with sinceTry := 0, sinceSeed := 0 } } : Dev).setFld Reg.kaoStat_rng_stale 0
      else (({ d with kao := { d.kao with sinceTry := 0 } } : Dev).bump Cnt.rngHealthFail).raise Reg.kaoStat_rng_fail :=
  if_neg (by omega)

/-- KAO_CFG without a change of PINNED takes effect at once. -/
theorem Dev.kaoTake_of_same {d : Dev} (h : d.pinnedWritten = d.kao.pinned) :
    d.kaoTake = { d with kao := { d.kao with
      markLog := d.fld Reg.kaoCfg_mark_log2, hostSensor := d.bit Reg.kaoCfg_host_sensor, pinPend := none } } := by
  unfold Dev.kaoTake
  dsimp only
  rw [if_pos h, pinApply_of_none]
  rfl

theorem Dev.modeApply_of_idle {d : Dev} {m : Bool} (hm : d.kao.modePend = some m) (hq : d.kao.queue = [])
    (hk : d.kao.waitKey = []) (hw : d.kao.waitMode = []) (hp : d.pinnedWritten = d.kao.pinned) :
    d.modeApply = ({ d with kao := { d.kao with
      locked := m, modePend := none, lock := none, lockQ := [], revoked := [], waitMode := [], pinPend := none,
      markLog := d.fld Reg.kaoCfg_mark_log2, hostSensor := d.bit Reg.kaoCfg_host_sensor } } : Dev).showKao := by
  unfold Dev.modeApply
  rw [hm]
  dsimp only
  rw [if_neg (by simp [hq, hk]), Dev.kaoTake_of_same, Dev.kaoRetry_of_none, hw]
  · rfl
  · exact hw
  · exact hp

theorem Dev.modeApply_of_busy {d : Dev} (h : d.kao.queue ≠ [] ∨ d.kao.waitKey ≠ []) : d.modeApply = d := by
  unfold Dev.modeApply
  split
  · rfl
  · exact if_pos h

theorem Dev.lockPass_of_none {d : Dev} (h : d.kao.lockQ = []) :
    d.lockPass = ({ d with kao := { d.kao with lock := none } } : Dev).showKao := by
  unfold Dev.lockPass
  rw [h]

/-- A holder with nothing in the engine loses the lock, and nobody waits for it. -/
theorem Dev.lockRevoke_of_idle {d e : Dev} {o : Fin 18} (hl : d.kao.lock = some o)
    (he : d.reachCycle (d.kao.lockFrom + cyclesPerUs * d.kao.holdMax) = some e) (hq : d.kao.queue = [])
    (hk : d.kao.waitKey = []) (hw : d.kao.waitMode = []) (hn : d.kao.lockQ = []) :
    d.lockRevoke = ({ e.bump Cnt.lockRevoke with kao := { d.kao with
      waitKey := [], waitMode := [], lock := none } } : Dev).showKao := by
  have hkao : (e.bump Cnt.lockRevoke).kao = d.kao := (Dev.reachCycle_kao he :)
  unfold Dev.lockRevoke
  rw [hl]
  dsimp only
  rw [Dev.due_of_reached he, Dev.reachCycle_kao he, hq]
  generalize e.bump Cnt.lockRevoke = x at hkao ⊢
  simp only [List.filter_nil, List.foldl_nil, List.any_nil, Bool.false_eq_true, if_false, hkao, hk, hw, List.append_nil]
  rw [Dev.lockPass_of_none]
  · dsimp only
    rw [hq]
  · exact hn

/-! ## KEY_LOAD (R347, R348) -/

/-- The one request that waits for a key is the one that the load concerns. -/
theorem waitKey_filter {w : KaoWait} {sidx keyidx : Nat} (hs : w.1.sidx.toNat = sidx) (hk : w.1.keyidx.toNat = keyidx) :
    ([w].filter fun w => w.1.sidx.toNat == sidx && w.1.keyidx.toNat == keyidx) = [w] ∧
      ([w].filter fun w => !(w.1.sidx.toNat == sidx && w.1.keyidx.toNat == keyidx)) = [] := by
  simp [hs, hk]

/-- The waiting requests leave. -/
def Dev.keyWaitsEnd (d : Dev) : Dev := { d with kao := { d.kao with waitKey := [] } }

theorem Dev.kaoKeyLoad_of_only {d : Dev} {w : KaoWait} {sidx keyidx : Nat} (hq : d.kao.waitKey = [w])
    (hs : w.1.sidx.toNat = sidx) (hk : w.1.keyidx.toNat = keyidx) (hl : (d.loadKey sidx keyidx).1.kao.waitKey = [w]) :
    d.kaoKeyLoad sidx keyidx =
      match (d.loadKey sidx keyidx).2 with
      | .wait => (d.loadKey sidx keyidx).1.bumpBy Cnt.keyWait (if d.kao.keyWaits.contains (sidx, keyidx) then 0 else 0)
      | .noEntry => ((d.loadKey sidx keyidx).1.keyWaitsEnd.kaoFail w.2 stNoResource).kaoMove
      | .corrupt => ((d.loadKey sidx keyidx).1.keyWaitsEnd.kaoFail w.2 stFault).kaoMove
      | .ok i => ((d.loadKey sidx keyidx).1.keyWaitsEnd.kaoAccept w i).kaoMove := by
  obtain ⟨hmine, hrest⟩ := waitKey_filter hs hk
  unfold Dev.kaoKeyLoad
  dsimp only
  rw [hq, hmine, if_neg (by simp), hl, hrest]
  rfl

theorem Dev.loadKey_of_no_record {d : Dev} {sidx keyidx : Nat} (hf : d.findKey sidx keyidx = none)
    (hr : d.findRec sidx keyidx = none) : d.loadKey sidx keyidx = (d, .noEntry) := by
  unfold Dev.loadKey
  rw [hf, hr]

/-- A key goes from its record into a free cache slot. -/
def Dev.cacheKey (d : Dev) (i sidx keyidx : Nat) (k : BitVec 256) (r : KeyRec) : Dev :=
  let x := d.setKslot i (some ⟨k, r.aes256, r.ctr, r.hostUse, some (sidx, keyidx), 0⟩)
  ({ x with kao := { x.kao with keyWaits := x.kao.keyWaits.filter (· != (sidx, keyidx)) } } : Dev).bump Cnt.keyLoad

theorem Dev.loadKey_of_free {d : Dev} {sidx keyidx e i : Nat} {r : KeyRec} {k : BitVec 256} (hf : d.findKey sidx keyidx = none)
    (hr : d.findRec sidx keyidx = some (e, r)) (hu : r.unwrap = some k) (hv : d.victim = some i) (hi : d.kslot i = none) :
    d.loadKey sidx keyidx = ((d.cacheKey i sidx keyidx k r).touch i, .ok i) := by
  unfold Dev.loadKey
  rw [hf, hr]
  dsimp only
  rw [hu, hv]
  dsimp only
  rw [hi]
  rfl

theorem Dev.cacheKey_kao (d : Dev) (i sidx keyidx : Nat) (k : BitVec 256) (r : KeyRec) :
    (d.cacheKey i sidx keyidx k r).kao = { d.kao with
      slots := Sparse.put none d.kao.slots i (some ⟨k, r.aes256, r.ctr, r.hostUse, some (sidx, keyidx), 0⟩)
      keyWaits := d.kao.keyWaits.filter (· != (sidx, keyidx)) } := by
  have h := d.setKslot_kao i (some ⟨k, r.aes256, r.ctr, r.hostUse, some (sidx, keyidx), 0⟩)
  unfold Dev.cacheKey
  generalize d.setKslot i (some ⟨k, r.aes256, r.ctr, r.hostUse, some (sidx, keyidx), 0⟩) = x at h
  show ({ x.kao with keyWaits := _ } : Kao) = _
  rw [h]

theorem Dev.kslot_cacheKey (d : Dev) (i sidx keyidx : Nat) (k : BitVec 256) (r : KeyRec) :
    (d.cacheKey i sidx keyidx k r).kslot i = some ⟨k, r.aes256, r.ctr, r.hostUse, some (sidx, keyidx), 0⟩ :=
  d.kslot_setKslot_same i _

theorem Dev.cacheKey_counter (d : Dev) (i sidx keyidx : Nat) (k : BitVec 256) (r : KeyRec) :
    (d.cacheKey i sidx keyidx k r).counter Cnt.keyLoad = d.counter Cnt.keyLoad + 1 := by
  have h := (d.setKslot_shows i (some ⟨k, r.aes256, r.ctr, r.hostUse, some (sidx, keyidx), 0⟩)).counter Cnt.keyLoad
  unfold Dev.cacheKey
  generalize d.setKslot i (some ⟨k, r.aes256, r.ctr, r.hostUse, some (sidx, keyidx), 0⟩) = x at h
  refine (Dev.counter_bumpBy _ _ _ 1).trans ((if_pos rfl).trans ?_)
  exact congrArg (· + 1) h

/-- The engine accepts a request that draws no C. -/
theorem Dev.kaoAccept_enters {d : Dev} {w : KaoWait} {i : Nat} {x : KeySlot} (h : d.kslot i = some x) (hd : w.1.draw = false) :
    (d.kaoAccept w i).kao = { d.kao with
      queue := d.kao.queue ++ [(⟨w.1, i, x.key, x.aes256, none, [], w.2⟩ : KaoJob)], useClock := d.kao.useClock + 1,
      slots := Sparse.put none d.kao.slots i (some { x with used := d.kao.useClock + 1 }) } ∧
      (d.kaoAccept w i).kslot i = some { x with used := d.kao.useClock + 1 } ∧
      ∀ c, (d.kaoAccept w i).counter c = d.counter c := by
  rw [show w = (w.1, w.2) from rfl, Dev.kaoAccept_no_draw w.2 h hd]
  have hq : ({ d with kao := { d.kao with
    queue := d.kao.queue ++ [(⟨w.1, i, x.key, x.aes256, none, [], w.2⟩ : KaoJob)] } } : Dev).kslot i = some x := h
  have hkao := Dev.touch_kao hq
  have hslot := Dev.kslot_touch hq
  have hcnt := Dev.touch_counter { d with kao := { d.kao with
    queue := d.kao.queue ++ [(⟨w.1, i, x.key, x.aes256, none, [], w.2⟩ : KaoJob)] } } i
  generalize Dev.touch _ i = y at hkao hslot hcnt ⊢
  have hs := y.showKao_shows
  exact ⟨hs.kao.trans hkao, (Dev.kslot_congr (congrArg Kao.slots hs.kao) i).trans hslot, fun c => (hs.counter c).trans (hcnt c)⟩

/-- The request whose key comes into the cache enters the engine. -/
theorem Dev.kaoKeyLoad_of_free {d : Dev} {w : KaoWait} {sidx keyidx e i : Nat} {r : KeyRec} {k : BitVec 256}
    (hq : d.kao.waitKey = [w]) (hs : w.1.sidx.toNat = sidx) (hk : w.1.keyidx.toNat = keyidx) (hw : d.kao.waitMode = [])
    (hl : d.kao.locked = false) (hf : d.findKey sidx keyidx = none) (hr : d.findRec sidx keyidx = some (e, r))
    (hu : r.unwrap = some k) (hv : d.victim = some i) (hi : d.kslot i = none) (hd : w.1.draw = false) :
    ∃ x : KeySlot, (d.kaoKeyLoad sidx keyidx).kslot i = some x ∧ x.key = k ∧ x.ctr = r.ctr ∧ x.holds = some (sidx, keyidx) ∧
      (d.kaoKeyLoad sidx keyidx).kao.waitKey = [] ∧
      (d.kaoKeyLoad sidx keyidx).kao.queue = d.kao.queue ++ [(⟨w.1, i, k, r.aes256, none, [], w.2⟩ : KaoJob)] ∧
      (d.kaoKeyLoad sidx keyidx).counter Cnt.keyLoad = d.counter Cnt.keyLoad + 1 := by
  have hload := Dev.loadKey_of_free hf hr hu hv hi
  have hkao := d.cacheKey_kao i sidx keyidx k r
  have hslot := d.kslot_cacheKey i sidx keyidx k r
  have hcnt := d.cacheKey_counter i sidx keyidx k r
  generalize d.cacheKey i sidx keyidx k r = x at hload hkao hslot hcnt
  have hkao2 := Dev.touch_kao hslot
  have hslot2 := Dev.kslot_touch hslot
  have hcnt2 := x.touch_counter i
  rw [hkao] at hkao2
  rw [Dev.kaoKeyLoad_of_only hq hs hk (by rw [hload, hkao2]; exact hq), hload]
  generalize x.touch i = y at hkao2 hslot2 hcnt2
  dsimp only
  obtain ⟨hkao3, hslot3, hcnt3⟩ := Dev.kaoAccept_enters (d := y.keyWaitsEnd) (w := w) hslot2 hd
  have hkao4 : y.keyWaitsEnd.kao = { y.kao with waitKey := [] } := rfl
  rw [hkao4, hkao2] at hkao3
  rw [Dev.kaoMove_of_idle ((congrArg Kao.waitMode hkao3).trans hw) ((congrArg Kao.locked hkao3).trans hl)]
  exact ⟨_, hslot3, rfl, rfl, rfl, congrArg Kao.waitKey hkao3, congrArg Kao.queue hkao3,
    (hcnt3 _).trans ((hcnt2 _).trans hcnt)⟩

/-- Settles O29. -/
theorem kaolinEnds : Obligations.KaolinEnds := by
  unfold Obligations.KaolinEnds
  refine ⟨fun s lane e ho ht he => ?_, fun s ho => ⟨fun hdue => ?_, fun hnot healthy => ?_⟩,
    fun s m ho hm hq hk hw hp => ?_, fun s ho hbusy => ?_, fun s o e ho hl he hq hk hw hn => ?_,
    fun s sidx keyidx w ho hq hs hk hw hl hf => ⟨fun e r k i hr hu hv hi hd => ?_, fun hn hr => ?_⟩⟩
  · intro d
    exact ⟨.of_runOp ho rfl (Dev.laneTested_of_due ht he true), .of_runOp ho rfl (Dev.laneTested_of_due ht he false)⟩
  · exact ⟨.of_runOp ho rfl (Dev.reseed_of_due hdue true), .of_runOp ho rfl (Dev.reseed_of_due hdue false)⟩
  · exact .of_runOp ho rfl (if_pos hnot)
  · exact .of_runOp ho rfl (Dev.modeApply_of_idle hm hq hk hw hp)
  · exact .of_runOp ho rfl (Dev.modeApply_of_busy hbusy)
  · exact .of_runOp ho rfl (Dev.lockRevoke_of_idle hl he hq hk hw hn)
  · obtain ⟨x, hx⟩ := Dev.kaoKeyLoad_of_free hq (congrArg BitVec.toNat hs) (congrArg BitVec.toNat hk) hw hl hf hr hu hv hi hd
    exact ⟨_, x, .of_runOp ho rfl rfl, hx⟩
  · have hload := Dev.loadKey_of_no_record hf hr
    refine .of_runOp ho rfl ((Dev.kaoKeyLoad_of_only hq (congrArg BitVec.toNat hs) (congrArg BitVec.toNat hk)
      ((congrArg (fun x => x.1.kao.waitKey) hload).trans hq)).trans ?_)
    rw [hload, hn]
    dsimp only
    rw [Dev.kaoFail, Dev.kaoMove_of_idle]
    · rw [Dev.keyWaitsEnd, ← hw]
    · exact hw
    · exact hl

end Sys2Proof.Machine
end

section
/-! # PWR_STATE (R446, R449) -/

namespace Sys2Proof.Machine

theorem not_bookAddr_ethCfg (p : PortId) : ¬ bookAddr (Reg.ethCfg_mode p).addr := by
  revert p
  unfold bookAddr
  decide

section
variable {d e : Dev} (h : d.Alike e)
include h

theorem Dev.Alike.powerBusy : e.powerBusy = d.powerBusy := by
  unfold Dev.powerBusy
  rw [h.pwr]

theorem Dev.Alike.powerState : e.powerState = d.powerState := h.fld (by unfold bookAddr; decide)

theorem Dev.Alike.leanOnly : e.leanOnly = d.leanOnly := h.bit (by unfold bookAddr; decide)

theorem Dev.Alike.modeOf (p : PortId) : e.modeOf p = d.modeOf p := by
  unfold Dev.modeOf
  rw [h.fld (not_bookAddr_ethCfg p)]

theorem Dev.Alike.leanOk : e.leanOk = d.leanOk := by
  unfold Dev.leanOk
  simp only [h.rfState, h.modeOf]
  rw [h.bit (f := Reg.ethPaircfg_step_en) (by unfold bookAddr; decide)]

theorem Dev.Alike.sentinelOk : e.sentinelOk = d.sentinelOk := by
  unfold Dev.sentinelOk
  simp only [h.rfState]
  rw [h.runs, h.pwr, h.bit (f := Reg.schCommit_pending) (by unfold bookAddr; decide),
    h.bit (f := Reg.bootUpdStat_act_pend) (by unfold bookAddr; decide),
    h.fld (f := Reg.pwrWakecfg_en) (by unfold bookAddr; decide)]

end

theorem Dev.powerActive_of_refused {d : Dev} (c : Cmd) (h : d.powerBusy = true ∨ d.leanOnly = true) :
    d.powerActive c = d.refuseState c 0xFF := if_pos (Bool.or_eq_true _ _ ▸ h)

theorem Dev.powerActive_of_active {d : Dev} (c : Cmd) (hb : d.powerBusy = false) (hl : d.leanOnly = false)
    (h : d.powerState = psActive) : d.powerActive c = d.complete c stOk 0 := by
  unfold Dev.powerActive
  rw [hb, hl, if_neg (by decide), if_pos h]

/-- ACTIVE in LEAN waits for the two Loam groups that LEAN keeps down. -/
theorem Dev.powerActive_of_lean {d : Dev} (c : Cmd) (hb : d.powerBusy = false) (hl : d.leanOnly = false)
    (h : d.powerState = psLean) (hw : d.pwr.woken = []) (hs : d.pwr.stalled = []) :
    d.powerActive c = { d.startDeferred c with pwr := { d.pwr with activeCmd := some c, stalled := [.loam 2, .loam 3] } } := by
  have hnone : (leanLoam.filter fun x => !d.pwr.woken.contains x) = leanLoam := by
    rw [hw]
    rfl
  have hadd : d.pwr.stalled ++ (leanLoam.filter fun x => !d.pwr.stalled.contains x) = [.loam 2, .loam 3] := by
    rw [hs]
    rfl
  unfold Dev.powerActive
  dsimp only
  rw [hb, hl, if_neg (by decide), if_neg (by rw [h]; decide), hnone, if_neg (by decide),
    show (d.startDeferred c).pwr = d.pwr from rfl, hadd]

theorem Dev.powerLean_cases {d : Dev} (c : Cmd) :
    (d.powerBusy = true → d.powerLean c = d.refuseState c 0xFF) ∧
    (d.powerBusy = false →
      (d.powerState = psLean → d.powerLean c = d.complete c stOk 0) ∧
      (d.powerState ≠ psLean → d.leanOk = false → d.powerLean c = d.refuseState c 0xFF) ∧
      (d.powerState ≠ psLean → d.leanOk = true →
        d.powerLean c = { d.startDeferred c with pwr := { d.pwr with leanCmd := some c } })) := by
  unfold Dev.powerLean
  refine ⟨fun h => if_pos h, fun h => ?_⟩
  rw [h, if_neg Bool.false_ne_true]
  refine ⟨fun hs => if_pos hs, fun hs hl => ?_, fun hs hl => ?_⟩
  · rw [if_neg hs, hl, if_pos (by decide)]
  · rw [if_neg hs, hl, if_neg (by decide)]
    rfl

theorem Dev.powerSentinel_of_refused {d : Dev} (c : Cmd) (h : d.powerBusy = true ∨ d.sentinelOk = false) :
    d.powerSentinel c = d.refuseState c 0xFF := by
  unfold Dev.powerSentinel
  rw [if_pos (by simpa using h)]

theorem Dev.powerSentinel_of_ok {d : Dev} (c : Cmd) (hb : d.powerBusy = false) (h : d.sentinelOk = true) :
    d.powerSentinel c = { d.startDeferred c with
      pwr := { d.pwr with entering := some (c, false) }, hif := { (d.startDeferred c).hif with fetchStop := true } } := by
  unfold Dev.powerSentinel
  rw [hb, h, if_neg (by decide)]
  rfl

/-- Settles O31: each clause is the command's equation in its case, on the fetched device. -/
theorem powerStateCommands : Obligations.PowerStateCommands := by
  unfold Obligations.PowerStateCommands
  intro s h hf f
  have hk := s.dev.fetch_alike 0x0060 h
  have hbusy : f.2.powerBusy = s.dev.powerBusy := hk.powerBusy
  have honly : f.2.leanOnly = s.dev.leanOnly := hk.leanOnly
  have hstate : f.2.powerState = s.dev.powerState := hk.powerState
  have hlean : f.2.leanOk = s.dev.leanOk := hk.leanOk
  have hsent : f.2.sentinelOk = s.dev.sentinelOk := hk.sentinelOk
  have hpwr : f.2.pwr = s.dev.pwr := hk.pwr
  obtain ⟨hleanBusy, hleanFree⟩ := f.2.powerLean_cases f.1
  refine ⟨fun hb => ⟨?_, ?_, ?_⟩, fun hb => ?_⟩
  · exact .of_host hf rfl (Dev.powerActive_of_refused f.1 (.inl (hbusy.trans hb)))
  · exact .of_host hf rfl (hleanBusy (hbusy.trans hb))
  · exact .of_host hf rfl (Dev.powerSentinel_of_refused f.1 (.inl (hbusy.trans hb)))
  · obtain ⟨hsame, hno, hyes⟩ := hleanFree (hbusy.trans hb)
    refine ⟨fun hs hl => ?_, fun hs hl hw hst => ?_, fun hl => ?_, fun hs => ?_, fun hs hl => ?_, fun hs hl => ?_, fun hs => ?_,
      fun hs => ?_, fun p0 hp => ?_⟩
    · exact .of_host hf rfl (Dev.powerActive_of_active f.1 (hbusy.trans hb) (honly.trans hl) (hstate.trans hs))
    · refine .of_host hf rfl ((Dev.powerActive_of_lean f.1 (hbusy.trans hb) (honly.trans hl) (hstate.trans hs)
        (hpwr ▸ hw) (hpwr ▸ hst)).trans ?_)
      rw [hpwr]
    · exact .of_host hf rfl (Dev.powerActive_of_refused f.1 (.inr (honly.trans hl)))
    · exact .of_host hf rfl (hsame (hstate.trans hs))
    · refine .of_host hf rfl ((hyes (hstate.trans_ne hs) (hlean.trans hl)).trans ?_)
      rw [hpwr]
    · exact .of_host hf rfl (hno (hstate.trans_ne hs) (hlean.trans hl))
    · refine .of_host hf rfl ((Dev.powerSentinel_of_ok f.1 (hbusy.trans hb) (hsent.trans hs)).trans ?_)
      rw [hpwr]
    · exact .of_host hf rfl (Dev.powerSentinel_of_refused f.1 (.inr (hsent.trans hs)))
    · refine .of_host hf rfl ?_
      show Dev.powerCmd _ _ _ = _
      unfold Dev.powerCmd
      rw [if_neg (by omega), if_neg (by omega), if_neg (by omega)]
      rfl

end Sys2Proof.Machine
end

section
/-! # FW_BLOCK, FW_APPLY, FW_ACTIVATE, PROFILE_WRITE (R466, R476 to R478) -/

namespace Sys2Proof.Machine

section
variable {d e : Dev} (h : d.Alike e)
include h

theorem Dev.Alike.chunkLimit : e.chunkLimit = d.chunkLimit := by
  unfold Dev.chunkLimit
  rw [h.boot]

theorem Dev.Alike.headerOk (b : List Byte) : e.headerOk b = d.headerOk b := by
  unfold Dev.headerOk
  rw [h.boot]

theorem Dev.Alike.headerStaged : e.headerStaged = d.headerStaged := by
  unfold Dev.headerStaged
  rw [h.boot]

theorem Dev.Alike.staged : e.staged = d.staged := by
  unfold Dev.staged
  rw [h.boot]

theorem Dev.Alike.bank (b : Bool) : e.bank b = d.bank b := by
  unfold Dev.bank
  rw [h.boot]

theorem Dev.Alike.tickTai (n : Int) : e.tickTai n = d.tickTai n := by
  unfold Dev.tickTai
  rw [h.tim]

theorem Dev.Alike.actTarget : e.actTarget = d.actTarget := by
  unfold Dev.actTarget
  dsimp only
  rw [h.nextBoundary, h.tickTai, h.tai]

end

/-! ## FW_BLOCK -/

theorem Dev.fwBlock_of_applying {d : Dev} (c : Cmd) (offset len addr : Nat) (data : HostRead) (h : d.boot.applying ≠ none) :
    d.fwBlock c offset len addr data = d.refuseState c 0xFF := if_pos (Option.isSome_iff_ne_none.mpr h)

/-- A block in range whose buffer is read. -/
theorem Dev.fwBlock_of_ok {d : Dev} (c : Cmd) {offset len addr : Nat} (raw : List Byte) (ha : d.boot.applying = none)
    (h0 : 0 < len) (h4096 : len ≤ 4096) (haddr : addr ≠ 0) (hfit : offset + len ≤ d.chunkLimit * 512) :
    d.fwBlock c offset len addr (.ok raw) =
      if offset = 0 then
        if len < 248 ∨ d.headerOk (fit len raw) = false ∨ d.chunkLimit ≤ beAt (fit len raw) 6 2 ∨
            (beAt (fit len raw) 6 2 + 1) * 512 < len then d.complete c stBadParam 0
        else ((d.restage (some (BitVec.ofNat 32 (beAt (fit len raw) 48 4), beAt (fit len raw) 6 2))).writeBlock 0 0
          (fit len raw) 9).complete c stOk 0
      else if d.headerStaged ∧ ((match d.boot.stageId with | some x => x.2 | none => 0) + 1) * 512 < offset + len then
        d.complete c stBadParam 0
      else (d.writeBlock (offset / 512) (offset % 512) (fit len raw) 9).complete c stOk 0 := by
  unfold Dev.fwBlock
  rw [if_neg (by simp [ha]), if_neg (by omega)] <;> rfl

/-! ## FW_APPLY -/

theorem Dev.fwApply_cases (d : Dev) (c : Cmd) :
    (d.boot.applying ≠ none → d.fwApply c = (d.complete c stBusy 0).bump Cnt.fwApplyFail) ∧
    (d.boot.applying = none →
      (d.staged = true → d.boot.activation = none → d.fwApply c =
        { d.startLong c 0 0 with boot := { (d.startLong c 0 0).boot with applying := some c } }) ∧
      (d.staged = false → d.fwApply c = (d.refuseState c 0xFF).bump Cnt.fwApplyFail)) := by
  unfold Dev.fwApply
  refine ⟨fun h => if_pos (Option.isSome_iff_ne_none.mpr h), fun h => ⟨fun hs ha => ?_, fun hs => ?_⟩⟩
  · rw [if_neg (by simp [h]), if_neg (by simp [hs, ha])]
  · rw [if_neg (by simp [h]), if_pos (by simp [hs])]

/-! ## FW_ACTIVATE -/

/-- May the image of the other bank run with the profile (R478)? -/
def Dev.schemaOk (d : Dev) (reset : Bool) : Bool :=
  reset || match d.boot.profile with | some p => p.1.toNat == imgSchema (d.bank (!d.boot.activeB)) | none => true

theorem Dev.fwActivate_of_activation {d : Dev} (c : Cmd) (reset : Bool) (h : d.boot.activation ≠ none) :
    d.fwActivate c reset = d.complete c stBusy 0 := if_pos (Option.isSome_iff_ne_none.mpr h)

theorem Dev.fwActivate_of_not_applied {d : Dev} (c : Cmd) (reset : Bool) (h : d.boot.activation = none)
    (ha : d.boot.applied = false) : d.fwActivate c reset = d.refuseState c 0xFF := by
  unfold Dev.fwActivate
  dsimp only
  rw [if_neg (by simp [h]), if_pos (by simp [ha])]

theorem Dev.fwActivate_of_applied {d : Dev} (c : Cmd) (reset : Bool) (h : d.boot.activation = none)
    (ha : d.boot.applied = true) (hn : d.boot.applying = none) (hs : d.fld Reg.tskCcstat_stby = 3) :
    d.fwActivate c reset =
      if d.schemaOk reset then
        (let e := (d.startLong c (sfOf d.actTarget) 0).raise Reg.bootUpdStat_act_pend
        { e with boot := { e.boot with activation := some ⟨c, d.actTarget, reset, false⟩ } })
      else d.complete c stVersion 0 := by
  unfold Dev.fwActivate
  dsimp only
  rw [if_neg (by simp [h]), if_neg (by simp [ha, hn, hs])]
  refine (if_congr (Q := ¬ d.schemaOk reset = true) ?_ rfl rfl).trans (ite_not _ _ _)
  unfold Dev.schemaOk
  cases reset <;> cases d.boot.profile <;> simp

/-! ## PROFILE_WRITE -/

theorem Dev.profileWrite_of_ok {d : Dev} (c : Cmd) {buf : Buf} {raw : List Byte} (ha : d.boot.applying = none)
    (h0 : buf.addr ≠ 0) (hl : buf.len ≠ 0) (hmax : buf.len.toNat ≤ 65536) (hb : buf.data = .ok raw) :
    d.profileWrite c buf =
      if profileOk (fit buf.len.toNat raw) = false then d.complete c stBadParam 0
      else (match recordOf (fit buf.len.toNat raw) recRegion with
        | some v => (d.storeProfile (fit buf.len.toNat raw)).setFld Reg.bootRegion_code (leAt v 0 2)
        | none => d.storeProfile (fit buf.len.toNat raw)).complete c stOk 0 := by
  unfold Dev.profileWrite
  rw [if_neg (by simp [ha]), if_neg (not_or.mpr ⟨h0, not_or.mpr ⟨hl, by omega⟩⟩), hb]
  dsimp only
  cases profileOk (fit buf.len.toNat raw) <;> rfl

/-- The profile goes over the second copy where the first is valid and no older, and over the first otherwise. -/
theorem Dev.storeProfile_cases (d : Dev) (b : List Byte) :
    let new := patch b 8 (le 4 (max (profGenOf d.boot.prof0) (profGenOf d.boot.prof1) + 1))
    (profileOk d.boot.prof0 = true → (profileOk d.boot.prof1 = false ∨ profGenOf d.boot.prof1 ≤ profGenOf d.boot.prof0) →
      d.storeProfile b = ({ d with boot := { d.boot with prof1 := new } } : Dev).bump Cnt.profileWrite) ∧
    ((profileOk d.boot.prof0 = false ∨ profileOk d.boot.prof1 = true ∧ profGenOf d.boot.prof0 < profGenOf d.boot.prof1) →
      d.storeProfile b = ({ d with boot := { d.boot with prof0 := new } } : Dev).bump Cnt.profileWrite) := by
  intro new
  unfold Dev.storeProfile
  dsimp only
  refine ⟨fun h0 h1 => ?_, fun h => ?_⟩
  · rw [if_pos h0]
    rcases h1 with h1 | h1
    · rw [h1, Bool.false_and, if_neg Bool.false_ne_true]
    · rw [decide_eq_false (by omega), Bool.and_false, if_neg Bool.false_ne_true]
  · by_cases h0 : profileOk d.boot.prof0 = true
    · obtain ⟨h1, hlt⟩ := h.resolve_left (by simp [h0])
      rw [if_pos h0, h1, decide_eq_true hlt, Bool.and_self, if_pos rfl]
    · rw [if_neg h0, if_pos rfl]

/-- Settles O32: each clause is the command's equation in its case, on the fetched device. -/
theorem updateCommands : Obligations.UpdateCommands := by
  unfold Obligations.UpdateCommands
  refine ⟨fun s h hf => ?_, fun s h buf raw hf ha haddr hlen hmax hb => ?_⟩
  · intro Refused
    have hk (op : Half) := s.dev.fetch_alike op h
    have hboot (op : Half) := (hk op).boot
    refine ⟨fun offset len a raw h0 h4096 haddr hfit ha => ?_, fun ha => ⟨?_, ?_, ?_⟩, fun ha => ⟨?_, ?_⟩, fun p0 => ?_⟩
    · intro b
      have heq := Dev.fwBlock_of_ok (d := (s.dev.fetch 0x0070 h).2) (s.dev.fetch 0x0070 h).1 (offset := offset.toNat)
        (addr := a.toNat) raw (by rw [hboot, ha]) h0 h4096 (fun k => haddr (BitVec.eq_of_toNat_eq k))
        (by rw [(hk _).chunkLimit]; exact hfit)
      rw [(hk _).chunkLimit, (hk _).headerOk, (hk _).headerStaged, hboot] at heq
      refine ⟨fun ho hl hok hn hcover => .of_host hf rfl (heq.trans ?_), fun ho hbad => .of_host hf rfl (heq.trans ?_),
        fun ho hst => .of_host hf rfl (heq.trans ?_), fun x hx ho hin => .of_host hf rfl (heq.trans ?_)⟩
      · rw [if_pos (by rw [ho]; rfl), if_neg]
        show ¬ (len.toNat < 248 ∨ s.dev.headerOk b = false ∨ s.dev.chunkLimit ≤ beAt b 6 2 ∨ (beAt b 6 2 + 1) * 512 < len.toNat)
        simp only [hok, Bool.true_eq_false, false_or]
        omega
      · rw [if_pos (by rw [ho]; rfl), if_pos (.inr (.inl hbad))]
        rfl
      · rw [if_neg ho, if_neg (by rw [hst]; simp)]
      · rw [if_neg ho, hx, if_neg (fun k => absurd k.2 (by dsimp only; omega))]
    · exact fun offset len a data => .of_host hf rfl (Dev.fwBlock_of_applying _ _ _ _ _ (by rw [hboot]; exact ha))
    · exact fun buf => .of_host hf rfl (if_pos (Option.isSome_iff_ne_none.mpr (by rw [hboot]; exact ha)))
    · exact .of_host hf rfl ((Dev.fwApply_cases _ _).1 (by rw [hboot]; exact ha))
    · exact fun hs hact => .of_host hf rfl (((Dev.fwApply_cases _ _).2 (by rw [hboot]; exact ha)).1
        ((hk _).staged.trans hs) (by rw [hboot]; exact hact))
    · exact fun hs => .of_host hf rfl (((Dev.fwApply_cases _ _).2 (by rw [hboot]; exact ha)).2 ((hk _).staged.trans hs))
    · intro f schemaOk n t
      have hschema : f.2.schemaOk (p0.getLsbD 0) = schemaOk := by
        unfold Dev.schemaOk
        rw [(hk _).bank, hboot] <;> rfl
      have hstby : f.2.fld Reg.tskCcstat_stby = s.dev.fld Reg.tskCcstat_stby := (hk _).fld (by unfold bookAddr; decide)
      refine ⟨fun hact => ?_, fun hact hno => ?_, fun hact hyes hnone hready => ?_⟩
      · exact .of_host hf rfl (Dev.fwActivate_of_activation _ _ (by rw [hboot]; exact hact))
      · exact .of_host hf rfl (Dev.fwActivate_of_not_applied _ _ (by rw [hboot]; exact hact) (by rw [hboot]; exact hno))
      · have heq := Dev.fwActivate_of_applied (d := f.2) f.1 (p0.getLsbD 0) (by rw [hboot]; exact hact)
          (by rw [hboot]; exact hyes) (by rw [hboot]; exact hnone) (hstby.trans hready)
        rw [hschema, (hk _).actTarget] at heq
        exact ⟨fun hok => .of_host hf rfl (heq.trans (if_pos hok)),
          fun hbad => .of_host hf rfl (heq.trans (if_neg (Bool.eq_false_iff.mp hbad)))⟩
  · have hboot := (s.dev.fetch_alike 0x0073 h).boot
    intro b region p0 p1 new
    have heq := Dev.profileWrite_of_ok (d := (s.dev.fetch 0x0073 h).2) (s.dev.fetch 0x0073 h).1 (buf := buf)
      (by rw [hboot]; exact ha) haddr hlen hmax hb
    have hstore := (s.dev.fetch 0x0073 h).2.storeProfile_cases b
    rw [hboot] at hstore
    obtain ⟨hsecond, hfirst⟩ := hstore
    refine ⟨fun hok h0 h1 => .of_host hf rfl (heq.trans ?_), fun hok h1 => .of_host hf rfl (heq.trans ?_),
      fun hbad => .of_host hf rfl (heq.trans (if_pos hbad))⟩
    · rw [if_neg (fun k => absurd (hok.symm.trans k) (by decide)), hsecond h0 h1, hboot] <;> rfl
    · rw [if_neg (fun k => absurd (hok.symm.trans k) (by decide)), hfirst h1, hboot] <;> rfl

end Sys2Proof.Machine
end

section
/-! # Chunks of a container (R473 to R475) -/

namespace Sys2Proof.Machine

/-- A chunk that is none of an update that this flash can hold, or that comes while FW_APPLY runs. -/
theorem Dev.fwChunk_of_other {d : Dev} {body : List Byte}
    (h : d.boot.applying ≠ none ∨ (slice body 8 512).length < 512 ∨ beAt body 6 2 < beAt body 4 2 ∨
      d.chunkLimit ≤ beAt body 6 2) : d.fwChunk body = d.bump Cnt.fwChunkOther := by
  unfold Dev.fwChunk
  exact if_pos (by rwa [Option.isSome_iff_ne_none])

/-- A chunk of an update that this flash can hold. -/
theorem Dev.fwChunk_of_chunk {d : Dev} {body : List Byte} (ha : d.boot.applying = none)
    (hl : (slice body 8 512).length = 512) (hi : beAt body 4 2 ≤ beAt body 6 2) (hn : beAt body 6 2 < d.chunkLimit) :
    d.fwChunk body =
      if d.boot.stageId = none then
        (d.restage (some (BitVec.ofNat 32 (beAt body 0 4), beAt body 6 2))).storeChunk (beAt body 4 2) (slice body 8 512)
      else if d.boot.stageId = some (BitVec.ofNat 32 (beAt body 0 4), beAt body 6 2) then
        if beAt body 4 2 = 0 ∧ d.headerOk (slice body 8 512) = false then (d.restage none).bump Cnt.fwChunkBad
        else if d.boot.marked.contains (beAt body 4 2) then d.bump Cnt.fwChunkDup
        else d.storeChunk (beAt body 4 2) (slice body 8 512)
      else if beAt body 4 2 = 0 ∧ d.headerOk (slice body 8 512) = true ∧
          (d.headerStaged = false ∨ beAt (d.chunk 0) 8 4 < beAt (slice body 8 512) 8 4) then
        (d.restage (some (BitVec.ofNat 32 (beAt body 0 4), beAt body 6 2))).storeChunk 0 (slice body 8 512)
      else d.bump Cnt.fwChunkOther := by
  unfold Dev.fwChunk
  dsimp only
  rw [if_neg (by rw [ha]; simp only [Option.isSome_none, Bool.false_eq_true, false_or]; omega)]
  simp only [Option.isNone_iff_eq_none]

/-- Settles O33: the clauses are the branches of the equation of a chunk. -/
theorem chunkResult : Obligations.ChunkResult := by
  unfold Obligations.ChunkResult
  intro s body ho id i last b
  refine ⟨fun hother => .of_runOp ho rfl (Dev.fwChunk_of_other hother), fun ha hl hi hn => ?_⟩
  have heq := Dev.fwChunk_of_chunk ha hl hi hn
  refine ⟨fun hst => ?_, fun hst hi0 => ⟨fun hm => ?_, fun hm => ?_⟩, fun hst hi0 hbad => ?_, fun hst hi0 hok hm => ?_,
    fun x hx hne => ⟨fun hi0 => ?_, fun hi0 hok hst => ?_⟩⟩
  · exact .of_runOp ho rfl (heq.trans (if_pos hst))
  · rw [if_neg (by rw [hst]; exact Option.some_ne_none _), if_pos hst, if_neg (fun k => hi0 k.1), if_pos hm] at heq
    exact .of_runOp ho rfl heq
  · rw [if_neg (by rw [hst]; exact Option.some_ne_none _), if_pos hst, if_neg (fun k => hi0 k.1),
      if_neg (Bool.eq_false_iff.mp hm)] at heq
    exact .of_runOp ho rfl heq
  · rw [if_neg (by rw [hst]; exact Option.some_ne_none _), if_pos hst, if_pos ⟨hi0, hbad⟩] at heq
    exact .of_runOp ho rfl heq
  · rw [if_neg (by rw [hst]; exact Option.some_ne_none _), if_pos hst, if_neg (fun k => absurd (hok.symm.trans k.2) (by decide)),
      if_neg (Bool.eq_false_iff.mp hm)] at heq
    exact .of_runOp ho rfl heq
  · rw [if_neg (by rw [hx]; exact Option.some_ne_none _), if_neg (by rw [hx]; exact fun k => hne (Option.some.inj k)),
      if_neg (fun k => hi0 k.1)] at heq
    exact .of_runOp ho rfl heq
  · rw [if_neg (by rw [hx]; exact Option.some_ne_none _), if_neg (by rw [hx]; exact fun k => hne (Option.some.inj k)),
      if_pos ⟨hi0, hok, .inl hst⟩] at heq
    exact .of_runOp ho rfl heq

end Sys2Proof.Machine
end

section
/-! # Registers and counters that stay -/

namespace Sys2Proof.Machine

/-- From `d` to `e` no register changes but the books and those of `A`, and no counter but the books' and those of `C`. -/
structure Dev.Within (A C : List Nat) (d e : Dev) : Prop where
  reg : ∀ a, ¬ bookAddr a → a ∉ A → e.reg a = d.reg a
  counter : ∀ c, ¬ bookCnt c → c ∉ C → e.counter c = d.counter c

section
variable {A C : List Nat}

theorem Dev.Within.refl (d : Dev) : Dev.Within A C d d := ⟨fun _ _ _ => rfl, fun _ _ _ => rfl⟩

theorem Dev.Within.trans {d e f : Dev} (h : Dev.Within A C d e) (k : Dev.Within A C e f) : Dev.Within A C d f :=
  ⟨fun a hb ha => (k.reg a hb ha).trans (h.reg a hb ha), fun c hb hc => (k.counter c hb hc).trans (h.counter c hb hc)⟩

theorem Dev.Within.of_book {d e : Dev} (h : d.Book e) : Dev.Within A C d e :=
  ⟨fun a hb _ => h.reg a hb, fun c hb _ => h.counter c hb⟩

theorem Dev.Within.of_same {d e : Dev} (hr : e.regs = d.regs) (hc : e.counters = d.counters) : Dev.Within A C d e :=
  ⟨fun a _ _ => Dev.reg_congr hr a, fun c _ _ => Dev.counter_congr hc c⟩

theorem Dev.Within.setFld (d : Dev) {f : Field} (v : Nat) (h : f.addr ∈ A) : Dev.Within A C d (d.setFld f v) :=
  ⟨fun a _ ha => Dev.reg_setFld_ne d f a v (fun k => ha (k ▸ h)), fun _ _ _ => rfl⟩

theorem Dev.Within.setReg (d : Dev) {a : Nat} (v : Word) (h : a ∈ A) : Dev.Within A C d (d.setReg a v) :=
  ⟨fun b _ hb => Dev.reg_setReg_ne d (fun (k : b = a) => hb (k ▸ h)) v, fun _ _ _ => rfl⟩

theorem Dev.Within.bumpBy (d : Dev) {c : Nat} (n : Nat) (h : c ∈ C) : Dev.Within A C d (d.bumpBy c n) :=
  ⟨fun _ _ _ => rfl, fun k _ hk => (Dev.counter_bumpBy d c k n).trans (if_neg fun (e : k = c) => hk (e ▸ h))⟩

theorem Dev.Within.mono {A' C' : List Nat} {d e : Dev} (h : Dev.Within A C d e) (ha : A ⊆ A') (hc : C ⊆ C') :
    Dev.Within A' C' d e :=
  ⟨fun a hb hn => h.reg a hb fun k => hn (ha k), fun c hb hn => h.counter c hb fun k => hn (hc k)⟩

theorem Dev.Within.fld {d e : Dev} (h : Dev.Within A C d e) {f : Field} (hb : ¬ bookAddr f.addr) (ha : f.addr ∉ A) :
    e.fld f = d.fld f := congrArg f.of (h.reg _ hb ha)

theorem Dev.Within.bit {d e : Dev} (h : Dev.Within A C d e) {f : Field} (hb : ¬ bookAddr f.addr) (ha : f.addr ∉ A) :
    e.bit f = d.bit f := congrArg (· == 1) (h.fld hb ha)

end

theorem Dev.Parts.bank {d e : Dev} (h : d.Parts e) (b : Bool) : e.bank b = d.bank b := by
  unfold Dev.bank
  rw [h.boot]

end Sys2Proof.Machine
end

section
/-! # FW_APPLY ends, and an activation ends (R477 to R481) -/

namespace Sys2Proof.Machine

/-! ## FW_APPLY -/

theorem Dev.bank_setBank_same (d : Dev) (b : Bool) (img : List Byte) : (d.setBank b img).bank b = img := by
  cases b <;> rfl

theorem Dev.bank_setBank_not (d : Dev) (b : Bool) (img : List Byte) : (d.setBank (!b) img).bank b = d.bank b := by
  cases b <;> rfl

/-- An update that passes every check has erased the bank. -/
theorem Dev.applyResult_erased {d : Dev} {e : Bool} (h : (d.applyResult e).1 = stOk) : (d.applyResult e).2.1 = true := by
  have hauth : stAuthFail ≠ stOk := by decide
  have hver : stVersion ≠ stOk := by decide
  unfold Dev.applyResult at h ⊢
  dsimp only at h ⊢
  split
  · next h1 => rw [if_pos h1] at h; exact absurd h hauth
  · next h1 =>
    rw [if_neg h1] at h
    split
    · next h2 => rw [if_pos h2] at h; exact absurd h hver
    · split
      · rfl
      · split
        · rfl
        · split <;> rfl

/-- The image that FW_APPLY builds is in the passive bank. -/
def Dev.placeImage (d : Dev) (r : Nat × Bool × List Byte) : Dev :=
  let d := { d with boot := { d.boot with applying := none } }
  if r.2.1 then
    let d := d.setBank (!d.boot.activeB) r.2.2
    { d with boot := { d.boot with applied := r.1 == stOk } }
  else d

theorem Dev.placeImage_boot (d : Dev) (r : Nat × Bool × List Byte) :
    (d.placeImage r).boot.applying = none ∧ (d.placeImage r).boot.activeB = d.boot.activeB ∧
      (d.placeImage r).bank d.boot.activeB = d.bank d.boot.activeB ∧ (d.placeImage r).regs = d.regs ∧
      (d.placeImage r).counters = d.counters ∧
      (r.2.1 = true → (d.placeImage r).bank (!d.boot.activeB) = r.2.2 ∧ (d.placeImage r).boot.applied = (r.1 == stOk)) := by
  unfold Dev.placeImage Dev.setBank Dev.bank
  dsimp only
  cases hr : r.2.1 <;> cases d.boot.activeB <;> simp

theorem Dev.Book.bank {d e : Dev} (h : d.Book e) (b : Bool) : e.bank b = d.bank b := h.parts.bank b

/-- FW_APPLY has placed a good image. -/
def Dev.showApplied (d : Dev) (c : Cmd) : Dev :=
  (((d.progress c.opcode 100 (d.boot.marked.length - 1)).setFld Reg.bootUpdStat_state updApplied).bump Cnt.fwApplyOk).finish c
    stOk 0

theorem Dev.fwApplyDone_of_ok {d : Dev} {e : Bool} {c : Cmd} (ha : d.boot.applying = some c) (hh : d.devState = dsHosted)
    (hr : (d.applyResult e).1 = stOk) : d.fwApplyDone e = (d.placeImage (d.applyResult e)).showApplied c := by
  have hst : ((d.placeImage (d.applyResult e)).showApplied c).devState = dsHosted := by
    have h1 := Dev.Book.progress (d.placeImage (d.applyResult e)) c.opcode 100
      ((d.placeImage (d.applyResult e)).boot.marked.length - 1)
    have h2 := Dev.Book.finish ((((d.placeImage (d.applyResult e)).progress c.opcode 100
      ((d.placeImage (d.applyResult e)).boot.marked.length - 1)).setFld Reg.bootUpdStat_state updApplied).bump Cnt.fwApplyOk)
        c stOk 0
    refine h2.devState.trans (Eq.trans ?_ (h1.devState.trans ((Dev.fld_congr
      (d.placeImage_boot (d.applyResult e)).2.2.2.1 Reg.hifStat_dev_state).trans hh)))
    exact congrArg Reg.hifStat_dev_state.of (Dev.reg_setFld_ne _ Reg.bootUpdStat_state Reg.hifStat _ (by decide))
  unfold Dev.fwApplyDone
  rw [ha]
  dsimp only
  rw [if_pos hr]
  refine (if_neg ?_).trans rfl
  intro k
  simp only [Bool.and_eq_true, beq_iff_eq] at k
  exact absurd (k.1.1.symm.trans hst) (by decide)

theorem Dev.fwApplyDone_of_failure {d : Dev} {e : Bool} {c : Cmd} (ha : d.boot.applying = some c)
    (hr : (d.applyResult e).1 ≠ stOk) :
    d.fwApplyDone e = ((d.placeImage (d.applyResult e)).bump Cnt.fwApplyFail).finish c (d.applyResult e).1 0 := by
  unfold Dev.fwApplyDone
  rw [ha]
  dsimp only
  rw [if_neg hr]
  rfl

/-- What showing the applied update leaves and shows. -/
theorem Dev.showApplied_shows (d : Dev) (c : Cmd) :
    d.Parts (d.showApplied c) ∧ (d.showApplied c).fld Reg.bootUpdStat_state = updApplied ∧
      (d.showApplied c).counter Cnt.fwApplyOk = d.counter Cnt.fwApplyOk + 1 := by
  unfold Dev.showApplied
  have h1 := Dev.Book.progress d c.opcode 100 (d.boot.marked.length - 1)
  generalize d.progress c.opcode 100 (d.boot.marked.length - 1) = x at h1
  have hfld := Dev.fld_setFld_self x Reg.bootUpdStat_state updApplied (by decide)
  have hcnt : ((x.setFld Reg.bootUpdStat_state updApplied).bump Cnt.fwApplyOk).counter Cnt.fwApplyOk =
      x.counter Cnt.fwApplyOk + 1 := (Dev.counter_bumpBy x _ _ 1).trans (if_pos rfl)
  have hp := (Dev.Parts.setFld x Reg.bootUpdStat_state updApplied).trans (.bump _ Cnt.fwApplyOk)
  have hfld' : ((x.setFld Reg.bootUpdStat_state updApplied).bump Cnt.fwApplyOk).fld Reg.bootUpdStat_state = updApplied := hfld
  generalize (x.setFld Reg.bootUpdStat_state updApplied).bump Cnt.fwApplyOk = y at hcnt hp hfld' ⊢
  have h2 := Dev.Book.finish y c stOk 0
  refine ⟨(h1.parts.trans hp).trans h2.parts, (h2.fld (by unfold bookAddr; decide)).trans hfld', ?_⟩
  rw [h2.counter _ (by unfold bookCnt; decide), hcnt, h1.counter _ (by unfold bookCnt; decide)]

theorem Dev.fwApplyDone_ends {d : Dev} {e : Bool} {c : Cmd} (ha : d.boot.applying = some c) (hh : d.devState = dsHosted) :
    (d.fwApplyDone e).boot.applying = none ∧ (d.fwApplyDone e).bank d.boot.activeB = d.bank d.boot.activeB ∧
      (d.fwApplyDone e).boot.activeB = d.boot.activeB ∧
      ((d.applyResult e).1 = stOk →
        (d.fwApplyDone e).boot.applied = true ∧ (d.fwApplyDone e).bank (!d.boot.activeB) = (d.applyResult e).2.2 ∧
          (d.fwApplyDone e).fld Reg.bootUpdStat_state = updApplied ∧
          (d.fwApplyDone e).counter Cnt.fwApplyOk = d.counter Cnt.fwApplyOk + 1) ∧
      ((d.applyResult e).1 ≠ stOk → (d.fwApplyDone e).counter Cnt.fwApplyFail = d.counter Cnt.fwApplyFail + 1) := by
  obtain ⟨hnone, hactive, hbank, -, hcnt, hplaced⟩ := d.placeImage_boot (d.applyResult e)
  by_cases hr : (d.applyResult e).1 = stOk
  · obtain ⟨hp, hstate, hok⟩ := (d.placeImage (d.applyResult e)).showApplied_shows c
    obtain ⟨himg, happlied⟩ := hplaced (Dev.applyResult_erased hr)
    rw [Dev.fwApplyDone_of_ok ha hh hr]
    generalize (d.placeImage (d.applyResult e)).showApplied c = y at hp hstate hok ⊢
    refine ⟨by rw [hp.boot]; exact hnone, (hp.bank _).trans hbank, by rw [hp.boot]; exact hactive,
      fun _ => ⟨?_, (hp.bank _).trans himg, hstate, hok.trans (congrArg (· + 1) (Dev.counter_congr hcnt _))⟩, fun k => absurd hr k⟩
    rw [hp.boot]
    exact happlied.trans (beq_iff_eq.mpr hr)
  · rw [Dev.fwApplyDone_of_failure ha hr]
    have hb := Dev.Book.finish ((d.placeImage (d.applyResult e)).bump Cnt.fwApplyFail) c (d.applyResult e).1 0
    have hp := (Dev.Parts.bump (d.placeImage (d.applyResult e)) Cnt.fwApplyFail).trans hb.parts
    have hfail : ((d.placeImage (d.applyResult e)).bump Cnt.fwApplyFail).counter Cnt.fwApplyFail =
      (d.placeImage (d.applyResult e)).counter Cnt.fwApplyFail + 1 := (Dev.counter_bumpBy _ _ _ 1).trans (if_pos rfl)
    have hcount := (hb.counter Cnt.fwApplyFail (by unfold bookCnt; decide)).trans hfail
    generalize Dev.finish _ c (d.applyResult e).1 0 = y at hp hcount ⊢
    exact ⟨by rw [hp.boot]; exact hnone, (hp.bank _).trans hbank, by rw [hp.boot]; exact hactive, fun k => absurd k hr,
      fun _ => hcount.trans (congrArg (· + 1) (Dev.counter_congr hcnt _))⟩

/-! ## The pause ends (R480) -/

theorem Dev.offer_of_none {d : Dev} (i : Item) (h : d.tsk.waiting = []) : d.offer i = d := by
  unfold Dev.offer
  rw [h]
  split <;> rfl

/-- While no worker waits, an item that becomes ready changes nothing but the pool. -/
theorem Dev.becomeReady_pool (d : Dev) (i : Item) (h : d.tsk.waiting = []) :
    ∃ t : Tsk, d.becomeReady i = { d with tsk := t } ∧ t.waiting = [] := by
  have hoffer (t : Tsk) (j : Item) (ht : t.waiting = []) := Dev.offer_of_none (d := { d with tsk := t }) j ht
  exact ⟨_, hoffer _ _ h, h⟩

theorem Dev.foldl_becomeReady_pool (l : List Item) (d : Dev) (h : d.tsk.waiting = []) :
    ∃ t : Tsk, l.foldl Dev.becomeReady d = { d with tsk := t } ∧ t.waiting = [] := by
  induction l generalizing d with
  | nil => exact ⟨d.tsk, rfl, h⟩
  | cons i l ih =>
    obtain ⟨t, ht, hw⟩ := d.becomeReady_pool i h
    obtain ⟨u, hu, hw'⟩ := ih { d with tsk := t } hw
    exact ⟨u, by rw [List.foldl_cons, ht, hu], hw'⟩

/-- With no reception held and no worker waiting, the end of the pause changes nothing but the pool. -/
theorem Dev.resume_pool {d : Dev} (hh : d.boot.hold = []) (hw : d.tsk.waiting = []) :
    ∃ t : Tsk, d.resume = { d with boot := { d.boot with paused := false, hold := [] }, tsk := t } := by
  unfold Dev.resume
  dsimp only
  rw [hh, List.foldl_nil]
  obtain ⟨t, ht, hwait⟩ := Dev.foldl_becomeReady_pool (d.tsk.items.filter fun i => i.staged && decide (d.tsk.nextId ≤ i.id))
    { d with boot := { d.boot with paused := false, hold := [] } } hw
  refine ⟨t, ?_⟩
  rw [ht]
  unfold Dev.dispatchAll
  dsimp only
  rw [hwait]
  rfl

/-! ## ACTIVATION_RESUME and ACTIVATION_ABANDON -/

theorem Dev.showUpd_within (d : Dev) :
    Dev.Within [Reg.bootUpdStat, Reg.bootUpdMiss] [] d d.showUpd ∧ d.Parts d.showUpd := by
  have h1 : Dev.Within [Reg.bootUpdStat, Reg.bootUpdMiss] [] d (d.setFld Reg.bootUpdStat_received d.boot.marked.length) :=
    .setFld d _ (by decide)
  have h2 (x : Dev) (m n : Nat) : Dev.Within [Reg.bootUpdStat, Reg.bootUpdMiss] [] x
      ((x.setFld Reg.bootUpdMiss_none m).setFld Reg.bootUpdMiss_chunk n) :=
    (Dev.Within.setFld x m (by decide)).trans (.setFld _ n (by decide))
  have h3 (x : Dev) (m n : Nat) : x.Parts ((x.setFld Reg.bootUpdMiss_none m).setFld Reg.bootUpdMiss_chunk n) :=
    (Dev.Parts.setFld x _ m).trans (.setFld _ _ n)
  have h4 := Dev.Parts.setFld d Reg.bootUpdStat_received d.boot.marked.length
  unfold Dev.showUpd
  dsimp only
  split
  · exact ⟨h1.trans (h2 _ _ _), h4.trans (h3 _ _ _)⟩
  · split
    · exact ⟨h1.trans (h2 _ _ _), h4.trans (h3 _ _ _)⟩
    · exact ⟨h1.trans (h2 _ _ _), h4.trans (h3 _ _ _)⟩

/-- A staging area that restarts empty. -/
theorem Dev.restage_none (d : Dev) :
    Dev.Within [Reg.bootUpdStat, Reg.bootUpdMiss] [] d (d.restage none) ∧ (d.restage none).tsk = d.tsk ∧
      ∃ l, (d.restage none).boot = { d.boot with
        chunks := [], marked := [], sincePersist := 0, map0 := none, map1 := none, stageId := none, localEnd := l } := by
  unfold Dev.restage
  dsimp only
  generalize hx : ({ d with boot := { d.boot with
    chunks := [], marked := [], sincePersist := 0, map0 := none, map1 := none, stageId := none } } : Dev) = x
  have h1 : Dev.Within [Reg.bootUpdStat, Reg.bootUpdMiss] [] d x := hx ▸ .of_same rfl rfl
  have h2 : Dev.Within [Reg.bootUpdStat, Reg.bootUpdMiss] [] x (x.setFld Reg.bootUpdStat_state updEmpty) :=
    .setFld x _ (by decide)
  obtain ⟨h3, h4⟩ := (x.setFld Reg.bootUpdStat_state updEmpty).showUpd_within
  have htsk : x.tsk = d.tsk := hx ▸ rfl
  refine ⟨(h1.trans h2).trans h3, h4.tsk.trans htsk,
    (x.setFld Reg.bootUpdStat_state updEmpty).showUpd.boot.localEnd, h4.boot.trans ?_⟩
  rw [← hx]
  rfl

/-- The boot record names the other bank, and the registers the other pair and its build. -/
def Dev.swapBanks (d : Dev) (img : List Byte) : Dev :=
  let x := ((({ d with boot := { d.boot with
      activeB := !d.boot.activeB, applied := false, activation := none, schema := BitVec.ofNat 16 (imgSchema img) } } : Dev).restage
    none).setBit Reg.bootStat_bank (!d.boot.activeB)).setReg Reg.bootBuild (BitVec.ofNat 32 (imgBuild img))
  (x.setBit Reg.bootUpdStat_act_pend false).setBit Reg.tskCcstat_active (!x.bit Reg.tskCcstat_active)

theorem Dev.swapBanks_shows (d : Dev) (img : List Byte) :
    (d.swapBanks img).boot.activeB = (!d.boot.activeB) ∧ (d.swapBanks img).boot.activation = none ∧
      (d.swapBanks img).boot.hold = d.boot.hold ∧ (d.swapBanks img).tsk = d.tsk ∧
      (d.swapBanks img).counter Cnt.fwActivated = d.counter Cnt.fwActivated ∧
      (d.swapBanks img).reg Reg.bootBuild = BitVec.ofNat 32 (imgBuild img) ∧
      (d.swapBanks img).bit Reg.bootUpdStat_act_pend = false ∧
      (d.swapBanks img).bit Reg.tskCcstat_active = (!d.bit Reg.tskCcstat_active) := by
  unfold Dev.swapBanks
  generalize hy : ({ d with boot := { d.boot with
    activeB := !d.boot.activeB, applied := false, activation := none,
    schema := BitVec.ofNat 16 (imgSchema img) } } : Dev) = y
  obtain ⟨hw, htsk, l, hboot⟩ := y.restage_none
  have hactive : (y.restage none).bit Reg.tskCcstat_active = d.bit Reg.tskCcstat_active :=
    (hw.bit (by unfold bookAddr; decide) (by decide)).trans (hy ▸ rfl)
  have hcnt : (y.restage none).counter Cnt.fwActivated = d.counter Cnt.fwActivated :=
    (hw.counter _ (by unfold bookCnt; decide) (by decide)).trans (hy ▸ rfl)
  have htsk' : (y.restage none).tsk = d.tsk := htsk.trans (hy ▸ rfl)
  have hb : (y.restage none).boot.activeB = (!d.boot.activeB) ∧ (y.restage none).boot.activation = none ∧
      (y.restage none).boot.hold = d.boot.hold := by
    rw [hboot, ← hy]
    exact ⟨rfl, rfl, rfl⟩
  obtain ⟨hactiveB, hactivation, hhold⟩ := hb
  generalize y.restage none = z at hactive hcnt htsk' hactiveB hactivation hhold
  refine ⟨hactiveB, hactivation, hhold, htsk', hcnt, ?_, ?_, ?_⟩
  · refine (Dev.reg_setFld_ne _ Reg.tskCcstat_active Reg.bootBuild _ (by decide)).trans
      ((Dev.reg_setFld_ne _ Reg.bootUpdStat_act_pend Reg.bootBuild _ (by decide)).trans ?_)
    exact Dev.reg_setReg_same _ _ _
  · exact (Dev.bit_setFld_of_separate _ Reg.tskCcstat_active Reg.bootUpdStat_act_pend _ (by decide)).trans
      (Dev.bit_setBit_self _ _ _)
  · refine (Dev.bit_setBit_self _ _ _).trans (congrArg (!·) (Eq.trans ?_ hactive))
    refine (congrArg (fun w => Reg.tskCcstat_active.of w == 1)
      (Dev.reg_setReg_ne _ (show Reg.tskCcstat ≠ Reg.bootBuild by decide) _)).trans ?_
    exact Dev.bit_setFld_of_separate z Reg.bootStat_bank Reg.tskCcstat_active _ (by decide)

/-- A profile that is stored changes no register, and no counter but its own. -/
theorem Dev.storeProfile_leaves (d : Dev) (b : List Byte) :
    (d.storeProfile b).regs = d.regs ∧ (d.storeProfile b).tsk = d.tsk ∧ (d.storeProfile b).boot.activeB = d.boot.activeB ∧
      (d.storeProfile b).boot.activation = d.boot.activation ∧ (d.storeProfile b).boot.hold = d.boot.hold ∧
      (d.storeProfile b).counter Cnt.fwActivated = d.counter Cnt.fwActivated := by
  have hcnt (x : Dev) : (x.bump Cnt.profileWrite).counter Cnt.fwActivated = x.counter Cnt.fwActivated :=
    (Dev.counter_bumpBy x _ _ 1).trans (if_neg (by decide))
  unfold Dev.storeProfile
  dsimp only
  generalize (if profileOk d.boot.prof0 = true then _ else true) = first
  cases first
  · exact ⟨rfl, rfl, rfl, rfl, rfl, hcnt _⟩
  · exact ⟨rfl, rfl, rfl, rfl, rfl, hcnt _⟩

/-- What follows the swap: the profile is reset where that was asked for, the standby tests itself, and the pause ends. -/
def Dev.afterSwap (d : Dev) (reset : Bool) (schema : Nat) : Dev :=
  (if reset then d.resetProfile schema else d).testStandby.resume

/-- The end of an activation, with its counter. -/
theorem Dev.actResume_eq {d : Dev} {a : Activation} (us : Nat) (h : d.boot.activation = some a) (hb : a.begun = true) :
    d.actResume us =
      ((((d.swapBanks (d.bank (!d.boot.activeB))).afterSwap a.reset (imgSchema (d.bank (!d.boot.activeB)))).bump
        Cnt.fwActivated).activatedEvent 0 us).finish a.cmd stOk (sfOf a.target) := by
  unfold Dev.actResume
  rw [h]
  dsimp only
  rw [if_neg (by simp [hb])]
  rfl

theorem Dev.testStandby_resume {d : Dev} (hh : d.boot.hold = []) (hw : d.tsk.waiting = []) :
    ∃ t : Tsk, d.testStandby.resume =
      { d.setFld Reg.tskCcstat_stby 1 with boot := { d.boot with paused := false, hold := [] }, tsk := t } := by
  have hold : d.testStandby.boot.hold = [] := hh
  have hwait : d.testStandby.tsk.waiting = [] := hw
  obtain ⟨t, ht⟩ := Dev.resume_pool hold hwait
  exact ⟨t, ht⟩

/-- What the standby's test and the end of the pause leave. -/
theorem Dev.testStandby_resume_shows {d : Dev} (hh : d.boot.hold = []) (hw : d.tsk.waiting = []) :
    d.testStandby.resume.boot = { d.boot with paused := false, hold := [] } ∧
      (∀ c, d.testStandby.resume.counter c = d.counter c) ∧
      (∀ a, a ≠ Reg.tskCcstat → d.testStandby.resume.reg a = d.reg a) ∧
      d.testStandby.resume.bit Reg.tskCcstat_active = d.bit Reg.tskCcstat_active := by
  obtain ⟨t, ht⟩ := Dev.testStandby_resume hh hw
  rw [ht]
  exact ⟨rfl, fun _ => rfl, fun a ha => Dev.reg_setFld_ne d Reg.tskCcstat_stby a 1 ha,
    Dev.bit_setFld_of_separate d Reg.tskCcstat_stby Reg.tskCcstat_active 1 (by decide)⟩

/-- The event and the completion that end an activation, and its counter, leave the rest. -/
theorem Dev.endActivation_shows (d : Dev) (cnt code us : Nat) (c : Cmd) (st res : Nat) (h : ¬ bookCnt cnt) :
    let e := ((d.bump cnt).activatedEvent code us).finish c st res
    d.Parts e ∧ e.counter cnt = d.counter cnt + 1 ∧ ∀ a, ¬ bookAddr a → e.reg a = d.reg a := by
  have hb : (d.bump cnt).Book (((d.bump cnt).activatedEvent code us).finish c st res) :=
    (Dev.Book.event _ _ _ _).trans (.finish _ _ _ _)
  exact ⟨(Dev.Parts.bump d cnt).trans hb.parts, (hb.counter _ h).trans ((Dev.counter_bumpBy d _ _ 1).trans (if_pos rfl)),
    fun a ha => hb.reg a ha⟩

theorem Dev.dueTai_of_past {d : Dev} {t : Int} (h : t ≤ d.tai) (k : Dev → Dev) : d.dueTai t k = k d := if_pos h

theorem Dev.actResume_shows {d : Dev} {a : Activation} (us : Nat) (h : d.boot.activation = some a) (hb : a.begun = true)
    (hh : d.boot.hold = []) (hw : d.tsk.waiting = []) :
    (d.actResume us).boot.activeB = (!d.boot.activeB) ∧ (d.actResume us).boot.activation = none ∧
      (d.actResume us).boot.paused = false ∧
      (d.actResume us).reg Reg.bootBuild = BitVec.ofNat 32 (imgBuild (d.bank (!d.boot.activeB))) ∧
      (d.actResume us).bit Reg.bootUpdStat_act_pend = false ∧
      (d.actResume us).bit Reg.tskCcstat_active = (!d.bit Reg.tskCcstat_active) ∧
      (d.actResume us).counter Cnt.fwActivated = d.counter Cnt.fwActivated + 1 := by
  rw [Dev.actResume_eq us h hb]
  obtain ⟨hactiveB, hactivation, hhold, htsk, hcnt, hbuild, hpend, hactive⟩ := d.swapBanks_shows (d.bank (!d.boot.activeB))
  generalize d.swapBanks (d.bank (!d.boot.activeB)) = x at hactiveB hactivation hhold htsk hcnt hbuild hpend hactive
  generalize hz : (if a.reset then x.resetProfile (imgSchema (d.bank (!d.boot.activeB))) else x) = z
  have hzx : z.regs = x.regs ∧ z.tsk = x.tsk ∧ z.boot.activeB = x.boot.activeB ∧ z.boot.activation = x.boot.activation ∧
      z.boot.hold = x.boot.hold ∧ z.counter Cnt.fwActivated = x.counter Cnt.fwActivated := by
    rw [← hz]
    split
    · exact x.storeProfile_leaves _
    · exact ⟨rfl, rfl, rfl, rfl, rfl, rfl⟩
  obtain ⟨zregs, ztsk, zactiveB, zactivation, zhold, zcnt⟩ := hzx
  obtain ⟨sboot, scnt, sreg, sactive⟩ := Dev.testStandby_resume_shows (d := z) (zhold.trans (hhold.trans hh))
    (by rw [ztsk, htsk]; exact hw)
  rw [show x.afterSwap a.reset (imgSchema (d.bank (!d.boot.activeB))) = z.testStandby.resume from
    congrArg (fun y : Dev => y.testStandby.resume) hz]
  generalize z.testStandby.resume = y at sboot scnt sreg sactive
  obtain ⟨eparts, ecnt, ereg⟩ := y.endActivation_shows Cnt.fwActivated 0 us a.cmd stOk (sfOf a.target)
    (by unfold bookCnt; decide)
  generalize ((y.bump Cnt.fwActivated).activatedEvent 0 us).finish a.cmd stOk (sfOf a.target) = e at eparts ecnt ereg
  have hreg (r : Nat) (h1 : ¬ bookAddr r) (h2 : r ≠ Reg.tskCcstat) : e.reg r = x.reg r :=
    (ereg r h1).trans ((sreg r h2).trans (Dev.reg_congr zregs r))
  refine ⟨?_, ?_, ?_, (hreg _ (by unfold bookAddr; decide) (by decide)).trans hbuild,
    (Dev.bit_of_reg (hreg Reg.bootUpdStat (by unfold bookAddr; decide) (by decide))).trans hpend, ?_, ?_⟩
  · rw [eparts.boot, sboot]
    exact zactiveB.trans hactiveB
  · rw [eparts.boot, sboot]
    exact zactivation.trans hactivation
  · rw [eparts.boot, sboot]
  · exact (Dev.bit_of_reg (ereg Reg.tskCcstat (by unfold bookAddr; decide))).trans
      (sactive.trans ((Dev.bit_congr zregs _).trans hactive))
  · rw [ecnt, scnt, zcnt, hcnt]

theorem Dev.actAbandon_eq {d : Dev} {a : Activation} (us : Nat) (h : d.boot.activation = some a) (hb : a.begun = true) :
    d.actAbandon us =
      (((((({ d with boot := { d.boot with activation := none } } : Dev).setBit Reg.bootUpdStat_act_pend
        false).testStandby).resume).bump Cnt.fwActivateFail).activatedEvent 1 us).finish a.cmd stFault 0 := by
  unfold Dev.actAbandon
  rw [h]
  dsimp only
  rw [if_neg (by simp [hb])]

theorem Dev.actAbandon_shows {d : Dev} {a : Activation} (us : Nat) (h : d.boot.activation = some a) (hb : a.begun = true)
    (hh : d.boot.hold = []) (hw : d.tsk.waiting = []) :
    (d.actAbandon us).boot.activeB = d.boot.activeB ∧ (d.actAbandon us).boot.activation = none ∧
      (d.actAbandon us).boot.paused = false ∧ (d.actAbandon us).reg Reg.bootBuild = d.reg Reg.bootBuild ∧
      (d.actAbandon us).bit Reg.bootUpdStat_act_pend = false ∧
      (d.actAbandon us).counter Cnt.fwActivateFail = d.counter Cnt.fwActivateFail + 1 := by
  rw [Dev.actAbandon_eq us h hb]
  generalize hx : ({ d with boot := { d.boot with activation := none } } : Dev) = x
  have hxb : x.boot = { d.boot with activation := none } := hx ▸ rfl
  have hxt : x.tsk = d.tsk := hx ▸ rfl
  have hxr : x.regs = d.regs := hx ▸ rfl
  have hxc : x.counters = d.counters := hx ▸ rfl
  have hpend := Dev.bit_setBit_self x Reg.bootUpdStat_act_pend false
  have hbuild : (x.setBit Reg.bootUpdStat_act_pend false).reg Reg.bootBuild = x.reg Reg.bootBuild :=
    Dev.reg_setFld_ne x Reg.bootUpdStat_act_pend _ _ (by decide)
  have hzboot : (x.setBit Reg.bootUpdStat_act_pend false).boot = x.boot := rfl
  have hztsk : (x.setBit Reg.bootUpdStat_act_pend false).tsk = x.tsk := rfl
  have hzcnt (c : Nat) : (x.setBit Reg.bootUpdStat_act_pend false).counter c = x.counter c := rfl
  generalize x.setBit Reg.bootUpdStat_act_pend false = z at hpend hbuild hzboot hztsk hzcnt
  obtain ⟨sboot, scnt, sreg, -⟩ := Dev.testStandby_resume_shows (d := z) (by rw [hzboot, hxb]; exact hh)
    (by rw [hztsk, hxt]; exact hw)
  generalize z.testStandby.resume = y at sboot scnt sreg
  obtain ⟨eparts, ecnt, ereg⟩ := y.endActivation_shows Cnt.fwActivateFail 1 us a.cmd stFault 0 (by unfold bookCnt; decide)
  generalize ((y.bump Cnt.fwActivateFail).activatedEvent 1 us).finish a.cmd stFault 0 = e at eparts ecnt ereg
  have hboot : e.boot = { d.boot with activation := none, paused := false, hold := [], localEnd := e.boot.localEnd } := by
    rw [eparts.boot, sboot, hzboot, hxb]
  refine ⟨by rw [hboot], by rw [hboot], by rw [hboot], ?_, ?_, ?_⟩
  · rw [ereg _ (by unfold bookAddr; decide), sreg _ (by decide), hbuild, Dev.reg_congr hxr]
  · exact (Dev.bit_of_reg ((ereg Reg.bootUpdStat (by unfold bookAddr; decide)).trans (sreg _ (by decide)))).trans hpend
  · rw [ecnt, scnt, hzcnt, Dev.counter_congr hxc]

/-- Settles O34. -/
theorem updateEnds : Obligations.UpdateEnds := by
  unfold Obligations.UpdateEnds
  refine ⟨fun s e c ho ha hh => ⟨_, .of_runOp ho rfl rfl, Dev.fwApplyDone_ends ha hh⟩,
    fun s p a ho ha hb hh hw ht => ⟨⟨_, .of_runOp ho rfl ?_, Dev.actResume_shows p.toNat ha hb hh hw⟩,
      fun hp => ⟨_, .of_runOp ho rfl ?_, Dev.actAbandon_shows p.toNat ha hb hh hw⟩⟩⟩
  · show s.dev.resumeAt p.toNat = _
    unfold Dev.resumeAt
    rw [ha]
    dsimp only
    rw [if_neg (by simp [hb]), Dev.dueTai_of_past ht]
  · show s.dev.abandonAt p.toNat = _
    unfold Dev.abandonAt
    rw [ha]
    dsimp only
    rw [if_neg (by simp [hb]; omega), Dev.dueTai_of_past ht]

end Sys2Proof.Machine
end

section
/-! # The control pairs (R333 to R338) -/

namespace Sys2Proof.Machine

/-! ## A flood changes no control pair -/

/-- What sending a flood leaves: the task engine and its registers, and the counter of takeovers. -/
structure Dev.Floods (d e : Dev) : Prop where
  tsk : e.tsk = d.tsk
  within : Dev.Within [Reg.mshStat, Reg.kaoStat, Reg.kaoSlots, Reg.kaoLock]
    [Cnt.floodFwd, Cnt.linkNofit, Cnt.linkQdrop, Cnt.ctrMark, Cnt.ctrExhausted, Cnt.blockEnc, Cnt.blockDec, Cnt.ccEventRepeat] d e

theorem Dev.Floods.refl (d : Dev) : d.Floods d := ⟨rfl, .refl d⟩

theorem Dev.Floods.trans {a b c : Dev} (h : a.Floods b) (k : b.Floods c) : a.Floods c :=
  ⟨k.tsk.trans h.tsk, h.within.trans k.within⟩

theorem Dev.Floods.of_book {d e : Dev} (h : d.Book e) : d.Floods e := ⟨h.tsk, .of_book h⟩

/-- A change of anything but the task engine, the registers and the counters. -/
theorem Dev.Floods.of_same {d e : Dev} (ht : e.tsk = d.tsk) (hr : e.regs = d.regs) (hc : e.counters = d.counters) :
    d.Floods e := ⟨ht, .of_same hr hc⟩

theorem Dev.Floods.bump (d : Dev) (c n : Nat) (h : c ∈ [Cnt.floodFwd, Cnt.linkNofit, Cnt.linkQdrop, Cnt.ctrMark,
    Cnt.ctrExhausted, Cnt.blockEnc, Cnt.blockDec, Cnt.ccEventRepeat]) : d.Floods (d.bumpBy c n) := ⟨rfl, .bumpBy d n h⟩

theorem Dev.Floods.setFld (d : Dev) (f : Field) (v : Nat)
    (h : f.addr ∈ [Reg.mshStat, Reg.kaoStat, Reg.kaoSlots, Reg.kaoLock]) : d.Floods (d.setFld f v) := ⟨rfl, .setFld d v h⟩

theorem Dev.Floods.setKslot (d : Dev) (i : Nat) (k : Option KeySlot) : d.Floods (d.setKslot i k) := by
  have h := d.setKslot_shows i k
  refine ⟨(congrArg Dev.tsk h.only).trans rfl, fun a _ ha => h.reg a ?_ ?_, fun c _ _ => h.counter c⟩
  · exact fun k => ha (by simp [k])
  · exact fun k => ha (by simp [k])

theorem Dev.Floods.markC (d : Dev) (c : Nat) (l : List (Nat × List Byte)) : d.Floods (d.markC c l) := by
  unfold Dev.markC
  split
  · exact (Dev.Floods.bump d Cnt.ctrMark 1 (by decide)).trans (.of_book (.event _ _ _ _))
  · exact .refl d

theorem Dev.Floods.drawC (d : Dev) (i : Nat) : d.Floods (d.drawC i).1 := by
  unfold Dev.drawC
  split
  · exact .refl d
  · split
    · exact ((Dev.Floods.bump d Cnt.ctrExhausted 1 (by decide)).trans (.setFld _ Reg.kaoStat_ctr_exh 1 (by decide))).trans
        (.of_book (.event _ _ _ _))
    · exact (Dev.Floods.setKslot d i _).trans (.markC _ _ _)

theorem Dev.Floods.lanes (d : Dev) (dec : Bool) (n : Nat) : d.Floods (d.lanes dec n) := by
  have hc : ∀ b : Bool, (if b then Cnt.blockDec else Cnt.blockEnc) ∈ [Cnt.floodFwd, Cnt.linkNofit, Cnt.linkQdrop, Cnt.ctrMark,
    Cnt.ctrExhausted, Cnt.blockEnc, Cnt.blockDec, Cnt.ccEventRepeat] := by decide
  have h1 := Dev.Floods.bump d _ n (hc dec)
  unfold Dev.lanes
  generalize d.bumpBy (if dec then Cnt.blockDec else Cnt.blockEnc) n = x at h1 ⊢
  dsimp only
  have h2 : x.Floods { x with kao := { x.kao with sinceSeed := x.kao.sinceSeed + n, sinceTry := x.kao.sinceTry + n } } :=
    .of_same rfl rfl rfl
  split
  · exact (h1.trans h2).trans (.setFld _ Reg.kaoStat_rng_stale 1 (by decide))
  · exact h1.trans h2

theorem Dev.Floods.drawLink (d : Dev) (l : Nat) : d.Floods (d.drawLink l).1 := by
  have h := Dev.Floods.drawC d l
  unfold Dev.drawLink
  dsimp only
  split
  · split
    · exact h.trans (.of_same rfl rfl rfl)
    · exact h
  · exact h

theorem Dev.Floods.mladolMpdu (d : Dev) (l : Nat) (hdr body : List Byte) : d.Floods (d.mladolMpdu l hdr body).1 := by
  have h := Dev.Floods.drawLink d l
  unfold Dev.mladolMpdu
  dsimp only
  split
  · exact h
  · exact h.trans (.lanes _ _ _)

theorem Dev.Floods.modLink (d : Dev) (l : Nat) (f : Link → Link) : d.Floods (d.modLink l f) := .of_same rfl rfl rfl

theorem Dev.Floods.linkEnqueue (d : Dev) (l kind ttl : Nat) (origin : Word) (msgid : Nat) (body : List Byte) :
    d.Floods (d.linkEnqueue l kind ttl origin msgid body none) := by
  unfold Dev.linkEnqueue
  dsimp only
  split
  · exact .bump d Cnt.linkNofit 1 (by decide)
  · split
    · exact (Dev.Floods.bump d Cnt.linkQdrop 1 (by decide)).trans (.setFld _ Reg.mshStat_qdrop 1 (by decide))
    · have h := Dev.Floods.mladolMpdu d l (d.mladolHdr kind ttl origin msgid) body
      split
      · exact h
      · exact h.trans (.modLink _ _ _)

theorem Dev.Floods.foldl {α : Type} (f : Dev → α → Dev) (hf : ∀ (d : Dev) (x : α), d.Floods (f d x)) (l : List α) (d : Dev) :
    d.Floods (l.foldl f d) := by
  induction l generalizing d with
  | nil => exact .refl d
  | cons x l ih => exact (hf d x).trans (ih _)

theorem Dev.Floods.floodLinks (d : Dev) (except : Option Nat) (kind ttl : Nat) (origin : Word) (msgid : Nat) (body : List Byte) :
    d.Floods (d.floodLinks except kind ttl origin msgid body) := by
  unfold Dev.floodLinks
  refine .foldl _ (fun d x => ?_) _ d
  have h := Dev.Floods.linkEnqueue d x.1 kind ttl origin msgid body
  split
  · exact .refl d
  · dsimp only
    split
    · exact h.trans (.bump _ Cnt.floodFwd 1 (by decide))
    · exact h

theorem Dev.Floods.repeatOne (d : Dev) (w : Written) : d.Floods (d.repeatOne w) := by
  unfold Dev.repeatOne
  dsimp only
  have h : d.Floods { d with freeCtr := d.freeCtr + 1 } := .of_same rfl rfl rfl
  split
  · exact (h.trans (.of_book (.hif _ _))).trans (.bump _ Cnt.ccEventRepeat 1 (by decide))
  · exact h.trans (.floodLinks _ _ _ _ _ _ _)
  · exact h

/-! ## The end of a takeover -/

/-- A fault's event leaves all but the free values. -/
theorem Dev.faultEvent_shows (d : Dev) (cls part : Nat) :
    (d.faultEvent cls part).tsk = d.tsk ∧ (∀ a, ¬ bookAddr a → (d.faultEvent cls part).reg a = d.reg a) ∧
      ∀ c, ¬ bookCnt c → (d.faultEvent cls part).counter c = d.counter c := by
  have h := Dev.Book.event { d with freeCtr := d.freeCtr + 1 } 0x0040 cls
    [(8, [byte part]), (12, le 4 (Config.recoveryUs d.freeCtr))]
  exact ⟨h.tsk, h.reg, h.counter⟩

/-- The new pair is active, and the other one tests itself. -/
def Dev.switchPairs (d : Dev) : Dev :=
  let b := !d.bit Reg.tskCcstat_active
  (((d.setBit Reg.tskCcstat_active b).setFld Reg.tskCcstat_takeovers
    (min 255 (d.fld Reg.tskCcstat_takeovers + 1))).raise Reg.tskCcstat_takeover).testStandby

theorem Dev.switchPairs_shows (d : Dev) :
    d.switchPairs.tsk = { d.tsk with testing := true } ∧ d.switchPairs.counters = d.counters ∧
      d.switchPairs.bit Reg.tskCcstat_active = (!d.bit Reg.tskCcstat_active) ∧
      d.switchPairs.bit Reg.tskCcstat_takeover = true ∧ d.switchPairs.fld Reg.tskCcstat_stby = 1 := by
  unfold Dev.switchPairs
  dsimp only
  have hactive := Dev.bit_setBit_self d Reg.tskCcstat_active (!d.bit Reg.tskCcstat_active)
  have htsk : (d.setBit Reg.tskCcstat_active (!d.bit Reg.tskCcstat_active)).tsk = d.tsk := rfl
  have hcnt : (d.setBit Reg.tskCcstat_active (!d.bit Reg.tskCcstat_active)).counters = d.counters := rfl
  generalize d.setBit Reg.tskCcstat_active (!d.bit Reg.tskCcstat_active) = x at hactive htsk hcnt ⊢
  generalize min 255 (d.fld Reg.tskCcstat_takeovers + 1) = n
  have hactive1 : (x.setFld Reg.tskCcstat_takeovers n).bit Reg.tskCcstat_active = _ :=
    (Dev.bit_setFld_of_separate x Reg.tskCcstat_takeovers Reg.tskCcstat_active n (by decide)).trans hactive
  have htsk1 : (x.setFld Reg.tskCcstat_takeovers n).tsk = d.tsk := htsk
  have hcnt1 : (x.setFld Reg.tskCcstat_takeovers n).counters = d.counters := hcnt
  generalize x.setFld Reg.tskCcstat_takeovers n = y at hactive1 htsk1 hcnt1 ⊢
  have hactive2 : (y.raise Reg.tskCcstat_takeover).bit Reg.tskCcstat_active = _ :=
    (Dev.bit_setFld_of_separate y Reg.tskCcstat_takeover Reg.tskCcstat_active 1 (by decide)).trans hactive1
  have htake := Dev.bit_raise_self y Reg.tskCcstat_takeover
  have htsk2 : (y.raise Reg.tskCcstat_takeover).tsk = d.tsk := htsk1
  have hcnt2 : (y.raise Reg.tskCcstat_takeover).counters = d.counters := hcnt1
  generalize y.raise Reg.tskCcstat_takeover = z at hactive2 htake htsk2 hcnt2 ⊢
  refine ⟨?_, hcnt2, ?_, ?_, Dev.fld_setFld_self _ Reg.tskCcstat_stby 1 (by decide)⟩
  · rw [← htsk2]
    rfl
  · exact (Dev.bit_setFld_of_separate _ Reg.tskCcstat_stby Reg.tskCcstat_active 1 (by decide)).trans hactive2
  · exact (Dev.bit_setFld_of_separate _ Reg.tskCcstat_stby Reg.tskCcstat_takeover 1 (by decide)).trans htake

/-- The takeover is counted and its events are written. -/
def Dev.tellTakeover (d : Dev) (cause n : Nat) (b : Bool) : Dev :=
  let d := (d.bump Cnt.ccTakeover).bumpBy Cnt.ccCmdReexec n
  let d := d.event 0x000B cause [(8, [byte b.toNat]), (9, [byte (d.fld Reg.tskCcstat_stby)])]
  if cause ≤ 2 then d.faultEvent 2 (!b).toNat else d

theorem Dev.tellTakeover_shows (d : Dev) (cause n : Nat) (b : Bool) :
    (d.tellTakeover cause n b).tsk = d.tsk ∧ (∀ a, ¬ bookAddr a → (d.tellTakeover cause n b).reg a = d.reg a) ∧
      (d.tellTakeover cause n b).counter Cnt.ccTakeover = d.counter Cnt.ccTakeover + 1 := by
  have hcnt : ((d.bump Cnt.ccTakeover).bumpBy Cnt.ccCmdReexec n).counter Cnt.ccTakeover = d.counter Cnt.ccTakeover + 1 :=
    (Dev.counter_bumpBy (d.bump Cnt.ccTakeover) _ _ n).trans ((if_neg (by decide)).trans
      ((Dev.counter_bumpBy d _ _ 1).trans (if_pos rfl)))
  have htsk : ((d.bump Cnt.ccTakeover).bumpBy Cnt.ccCmdReexec n).tsk = d.tsk := rfl
  have hreg (a : Nat) : ((d.bump Cnt.ccTakeover).bumpBy Cnt.ccCmdReexec n).reg a = d.reg a := rfl
  unfold Dev.tellTakeover
  dsimp only
  generalize (d.bump Cnt.ccTakeover).bumpBy Cnt.ccCmdReexec n = x at hcnt htsk hreg ⊢
  have hb := Dev.Book.event x 0x000B cause [(8, [byte b.toNat]), (9, [byte (x.fld Reg.tskCcstat_stby)])]
  generalize x.event 0x000B cause [(8, [byte b.toNat]), (9, [byte (x.fld Reg.tskCcstat_stby)])] = y at hb ⊢
  have hc : ¬ bookCnt Cnt.ccTakeover := by unfold bookCnt; decide
  split
  · obtain ⟨ftsk, freg, fcnt⟩ := y.faultEvent_shows 2 (!b).toNat
    exact ⟨ftsk.trans (hb.tsk.trans htsk), fun a ha => (freg a ha).trans ((hb.reg a ha).trans (hreg a)),
      (fcnt _ hc).trans ((hb.counter _ hc).trans hcnt)⟩
  · exact ⟨hb.tsk.trans htsk, fun a ha => (hb.reg a ha).trans (hreg a), (hb.counter _ hc).trans hcnt⟩

/-- What the failed pair had put out since the checkpoint, put out again where the new pair repeats it. -/
def Dev.replay (d : Dev) : Dev :=
  d.hif.written.foldl Dev.repeatOne { d with
    tsk := { d.tsk with takeover := none, ccSwitch := none, journal := [] }, hif := { d.hif with written := [] } }

theorem Dev.takeoverDone_of_fault {d : Dev} {cause : Byte} (h : d.tsk.takeover = some cause) (hs : d.tsk.ccSwitch = none) :
    d.takeoverDone = d.replay.switchPairs.tellTakeover cause.toNat d.reexec (!d.replay.bit Reg.tskCcstat_active) := by
  unfold Dev.takeoverDone
  rw [h, hs]
  rfl

theorem Dev.replay_shows (d : Dev) :
    d.replay.tsk = { d.tsk with takeover := none, ccSwitch := none, journal := [] } ∧
      d.replay.bit Reg.tskCcstat_active = d.bit Reg.tskCcstat_active ∧
      d.replay.counter Cnt.ccTakeover = d.counter Cnt.ccTakeover := by
  have h := Dev.Floods.foldl Dev.repeatOne Dev.Floods.repeatOne d.hif.written { d with
    tsk := { d.tsk with takeover := none, ccSwitch := none, journal := [] }, hif := { d.hif with written := [] } }
  exact ⟨h.tsk, h.within.bit (by unfold bookAddr; decide) (by decide), h.within.counter _ (by unfold bookCnt; decide) (by decide)⟩

theorem Dev.takeoverDone_shows {d : Dev} {cause : Byte} (h : d.tsk.takeover = some cause) (hs : d.tsk.ccSwitch = none) :
    d.takeoverDone.tsk = { d.tsk with takeover := none, journal := [], testing := true } ∧
      d.takeoverDone.bit Reg.tskCcstat_active = (!d.bit Reg.tskCcstat_active) ∧
      d.takeoverDone.bit Reg.tskCcstat_takeover = true ∧ d.takeoverDone.fld Reg.tskCcstat_stby = 1 ∧
      d.takeoverDone.counter Cnt.ccTakeover = d.counter Cnt.ccTakeover + 1 := by
  rw [Dev.takeoverDone_of_fault h hs]
  obtain ⟨rtsk, ractive, rcnt⟩ := d.replay_shows
  generalize d.replay = x at rtsk ractive rcnt ⊢
  obtain ⟨stsk, scnt, sactive, stake, sstby⟩ := x.switchPairs_shows
  generalize x.switchPairs = y at stsk scnt sactive stake sstby ⊢
  obtain ⟨ttsk, treg, tcnt⟩ := y.tellTakeover_shows cause.toNat d.reexec (!x.bit Reg.tskCcstat_active)
  generalize y.tellTakeover cause.toNat d.reexec (!x.bit Reg.tskCcstat_active) = z at ttsk treg tcnt ⊢
  have hreg := treg Reg.tskCcstat (by unfold bookAddr; decide)
  refine ⟨?_, (Dev.bit_of_reg hreg).trans (sactive.trans (congrArg (!·) ractive)), (Dev.bit_of_reg hreg).trans stake,
    (congrArg Reg.tskCcstat_stby.of hreg).trans sstby, ?_⟩
  · rw [ttsk, stsk, rtsk, ← hs]
  · rw [tcnt, Dev.counter_congr scnt, rcnt]

/-- A fault of the active pair with a standby that is READY, outside an activation. -/
theorem Dev.pairFault_of_ready {d : Dev} (ha : d.boot.activation = none) (hs : d.fld Reg.tskCcstat_stby = 3)
    (ht : d.tsk.takeover = none) :
    d.pairFault 1 = { d.bump Cnt.ccLockstep with tsk := { d.tsk with takeover := some 1 } } ∧
      d.pairFault 2 = { d.bump Cnt.ccHeartbeat with tsk := { d.tsk with takeover := some 2 } } := by
  have hready (c : Nat) : (d.bump c).fld Reg.tskCcstat_stby = 3 ∧ (d.bump c).tsk.takeover.isNone = true :=
    ⟨hs, by rw [show (d.bump c).tsk = d.tsk from rfl, ht]; rfl⟩
  have hact (c : Nat) : (d.bump c).boot.activation = none := ha
  constructor
  · unfold Dev.pairFault
    dsimp only
    rw [if_pos rfl, hact]
    exact if_pos (hready _)
  · unfold Dev.pairFault
    dsimp only
    rw [if_neg (by decide), if_pos rfl, hact]
    exact if_pos (hready _)

/-- Settles O35. -/
theorem controlPairs : Obligations.ControlPairs := by
  unfold Obligations.ControlPairs
  refine ⟨fun s ho ha hs ht => ?_, fun s cause ho h hs => ⟨_, .of_runOp ho rfl rfl, Dev.takeoverDone_shows h hs⟩,
    fun s ho ht => ?_, fun s ho ht hj => ?_⟩
  · obtain ⟨hlock, hbeat⟩ := Dev.pairFault_of_ready ha hs ht
    exact ⟨.of_runOp ho rfl hlock, .of_runOp ho rfl hbeat⟩
  · have htest (pass : Bool) : s.dev.pairTested pass = _ := if_neg (by simp [ht])
    exact ⟨.of_runOp ho rfl ((htest true).trans rfl), .of_runOp ho rfl ((htest false).trans rfl)⟩
  · refine .of_runOp ho rfl ((if_pos hj).trans ?_)
    unfold Dev.checkpointTick
    rw [ht]
    rfl

end Sys2Proof.Machine
end

section
/-! # Register writes (R8, R11, R504, Table 0.4) -/

namespace Sys2Proof.Machine

/-! ## The register map gives no bit two access codes -/

/-- No bit of these four masks lies in two of them. -/
def CodesApart (rw w1c rc wo : Word) : Prop :=
  rw &&& w1c = 0 ∧ rw &&& rc = 0 ∧ rw &&& wo = 0 ∧ w1c &&& rc = 0 ∧ w1c &&& wo = 0 ∧ rc &&& wo = 0

/-- Where an entry of the register map describes a register, no bit of it has two access codes. -/
def EntryApart (o : Option RegDesc) : Prop := ∀ r, o = some r → CodesApart r.rw r.w1c r.rc r.wo

theorem entryApart_none : EntryApart none := nofun

theorem entryApart_some {rw w1c rc wo reset : Word} {b : Boundary} (h : CodesApart rw w1c rc wo) :
    EntryApart (some ⟨rw, w1c, rc, wo, reset, b⟩) := by
  rintro r ⟨⟩
  exact h

theorem entryApart_ite {c : Prop} [Decidable c] {x y : Option RegDesc} (hx : EntryApart x) (hy : EntryApart y) :
    EntryApart (if c then x else y) := by
  split
  · exact hx
  · exact hy

/-- The MSI-X table: a word's writable bits depend on its place in the entry, and nothing but them is accessible. -/
theorem codesApart_rw (rw : Word) : CodesApart rw 0 0 0 := by
  simp [CodesApart]

theorem descHif_apart (o : Nat) : EntryApart (descHif o) := by
  unfold descHif
  refine entryApart_ite (entryApart_some (codesApart_rw _)) ?_
  repeat' refine entryApart_ite (entryApart_some (by unfold CodesApart; decide)) ?_
  exact entryApart_none

theorem descGlb_apart (o : Nat) : EntryApart (descGlb o) := by
  unfold descGlb
  repeat' refine entryApart_ite (entryApart_some (by unfold CodesApart; decide)) ?_
  exact entryApart_none

theorem descAir_apart (o : Nat) : EntryApart (descAir o) := by
  unfold descAir
  repeat' refine entryApart_ite (entryApart_some (by unfold CodesApart; decide)) ?_
  exact entryApart_none

theorem descBbp_apart (o : Nat) : EntryApart (descBbp o) := by
  unfold descBbp
  repeat' refine entryApart_ite (entryApart_some (by unfold CodesApart; decide)) ?_
  exact entryApart_none

theorem descRf0_apart (o : Nat) : EntryApart (descRf0 o) := by
  unfold descRf0
  repeat' refine entryApart_ite (entryApart_some (by unfold CodesApart; decide)) ?_
  exact entryApart_none

theorem descSch_apart (o : Nat) : EntryApart (descSch o) := by
  unfold descSch
  repeat' refine entryApart_ite (entryApart_some (by unfold CodesApart; decide)) ?_
  exact entryApart_none

theorem descMsh_apart (o : Nat) : EntryApart (descMsh o) := by
  unfold descMsh
  repeat' refine entryApart_ite (entryApart_some (by unfold CodesApart; decide)) ?_
  exact entryApart_none

theorem descTim_apart (o : Nat) : EntryApart (descTim o) := by
  unfold descTim
  repeat' refine entryApart_ite (entryApart_some (by unfold CodesApart; decide)) ?_
  exact entryApart_none

theorem descPpl_apart (o : Nat) : EntryApart (descPpl o) := by
  unfold descPpl
  repeat' refine entryApart_ite (entryApart_some (by unfold CodesApart; decide)) ?_
  exact entryApart_none

theorem descFwd_apart (o : Nat) : EntryApart (descFwd o) := by
  unfold descFwd
  repeat' refine entryApart_ite (entryApart_some (by unfold CodesApart; decide)) ?_
  exact entryApart_none

theorem descEth0_apart (o : Nat) : EntryApart (descEth0 o) := by
  unfold descEth0
  repeat' refine entryApart_ite (entryApart_some (by unfold CodesApart; decide)) ?_
  exact entryApart_none

theorem descTsh_apart (o : Nat) : EntryApart (descTsh o) := by
  unfold descTsh
  repeat' refine entryApart_ite (entryApart_some (by unfold CodesApart; decide)) ?_
  exact entryApart_none

theorem descTsk_apart (o : Nat) : EntryApart (descTsk o) := by
  unfold descTsk
  repeat' refine entryApart_ite (entryApart_some (by unfold CodesApart; decide)) ?_
  exact entryApart_none

theorem descKao_apart (o : Nat) : EntryApart (descKao o) := by
  unfold descKao
  repeat' refine entryApart_ite (entryApart_some (by unfold CodesApart; decide)) ?_
  exact entryApart_none

theorem descDmc_apart (o : Nat) : EntryApart (descDmc o) := by
  unfold descDmc
  repeat' refine entryApart_ite (entryApart_some (by unfold CodesApart; decide)) ?_
  exact entryApart_none

theorem descPwr_apart (o : Nat) : EntryApart (descPwr o) := by
  unfold descPwr
  repeat' refine entryApart_ite (entryApart_some (by unfold CodesApart; decide)) ?_
  exact entryApart_none

theorem descBoot_apart (o : Nat) : EntryApart (descBoot o) := by
  unfold descBoot
  repeat' refine entryApart_ite (entryApart_some (by unfold CodesApart; decide)) ?_
  exact entryApart_none

theorem descObs_apart (o : Nat) : EntryApart (descObs o) := by
  unfold descObs
  repeat' refine entryApart_ite (entryApart_some (by unfold CodesApart; decide)) ?_
  exact entryApart_none

theorem descClk_apart (o : Nat) : EntryApart (descClk o) := by
  unfold descClk
  repeat' refine entryApart_ite (entryApart_some (by unfold CodesApart; decide)) ?_
  exact entryApart_none


/-- The map finds an address's block, and the blocks' tables are apart. -/
theorem regDesc_apart (a : Nat) : EntryApart (regDesc a) := by
  unfold regDesc
  split_ifs
  all_goals simp only [entryApart_none, descGlb_apart, descAir_apart, descBbp_apart, descRf0_apart, descSch_apart, descMsh_apart,
    descTim_apart, descPpl_apart, descFwd_apart, descEth0_apart, descTsh_apart, descTsk_apart, descKao_apart, descDmc_apart, descPwr_apart,
    descBoot_apart, descObs_apart, descClk_apart, descHif_apart]

/-! ## What a masked write leaves -/

/-- A write by the access codes, bit by bit. -/
theorem RegDesc.getLsbD_written (r : RegDesc) (old v : Word) (h : r.rw &&& r.w1c = 0) (k : Nat) (hk : k < 32) :
    (r.written old v).getLsbD k =
      if r.rw.getLsbD k then v.getLsbD k
      else if r.w1c.getLsbD k then old.getLsbD k && !v.getLsbD k
      else old.getLsbD k := by
  have apart : (r.rw.getLsbD k && r.w1c.getLsbD k) = false := by
    simpa using congrArg (BitVec.getLsbD · k) h
  simp only [RegDesc.written, BitVec.getLsbD_or, BitVec.getLsbD_and, BitVec.getLsbD_not, hk, decide_true, Bool.true_and]
  revert apart
  cases r.rw.getLsbD k <;> cases r.w1c.getLsbD k <;> simp

/-- A write by the access codes, with the W1C bits that hardware sets in the same fabric cycle: bit by bit. -/
theorem getLsbD_written_setWins {a : Nat} {r : RegDesc} (hr : regDesc a = some r) (old v same : Word) (k : Nat)
    (hk : k < 32) :
    (r.written old (setWins a v same)).getLsbD k =
      if r.rw.getLsbD k then v.getLsbD k
      else if r.w1c.getLsbD k then old.getLsbD k && !(v.getLsbD k && !same.getLsbD k)
      else old.getLsbD k := by
  obtain ⟨apart, -⟩ := regDesc_apart a r hr
  have bits : (r.rw.getLsbD k && r.w1c.getLsbD k) = false := by
    simpa using congrArg (BitVec.getLsbD · k) apart
  rw [RegDesc.getLsbD_written r old _ apart k hk]
  simp only [setWins, hr, BitVec.getLsbD_and, BitVec.getLsbD_not, hk, decide_true, Bool.true_and]
  revert bits
  cases r.rw.getLsbD k <;> cases r.w1c.getLsbD k <;> simp

/-- A register without a further effect: a write does what its access codes say. -/
theorem Dev.writeReg_of_plain (d : Dev) (r : RegDesc) {a : Nat} (h : ¬ actingAddr a) (v : Word) :
    d.writeReg r a v = d.setReg a (r.written (d.reg a) v) := by
  simp only [actingAddr, not_or] at h
  obtain ⟨h1, h2, h3, h4, h5, h6, h7, h8, h9, h10, h11, h12, h13, h14, h15, h16⟩ := h
  simp only [Dev.writeReg, ringOfAddr, h1, h2, h3, h4, h5, h6, h7, h8, h9, h10, h11, h12, h13, h14, h15, h16, if_false,
    Dev.maskedWrite]

theorem Dev.busWrite_of_plain (d : Dev) {r : RegDesc} {a : Nat} (hr : regDesc a = some r) (h : ¬ actingAddr a) (v : Word) :
    d.busWrite a v = d.setReg a (r.written (d.reg a) v) := by
  simp only [Dev.busWrite, hr, Dev.writeReg_of_plain d r h]

/-- An access that is not aligned and 32 bits wide, or that meets no register, writes nothing (R8, R504). -/
theorem Dev.registerWrite_of_ignored (d : Dev) {a bytes : Nat} (h : bytes ≠ 4 ∨ a % 4 ≠ 0 ∨ regDesc a = none) (v same : Word) :
    d.registerWrite a bytes v same = d := by
  unfold Dev.registerWrite
  split
  next ok =>
    have none : regDesc a = none := by
      simp only [accessOk, Bool.and_eq_true, beq_iff_eq] at ok
      tauto
    simp only [Dev.busWrite, none]
  next => rfl

/-- Settles O36: the access codes decide each bit, since none has two of them. -/
theorem registerWriteResult : Obligations.RegisterWriteResult := by
  unfold Obligations.RegisterWriteResult
  refine ⟨fun s addr bytes v same hs => ⟨fun h => ?_, fun r h4 hal hbar hr plain => ?_⟩, regDesc_apart⟩
  · exact Gives.of_run hs rfl (s.dev.registerWrite_of_ignored h v same)
  · refine ⟨r.written (s.dev.reg addr.toNat) (setWins addr.toNat v same), Gives.of_run hs rfl ?_,
      getLsbD_written_setWins hr _ v same⟩
    simp only [Dev.registerWrite, accessOk, h4, hal, hbar, beq_self_eq_true, Bool.and_self, if_true,
      s.dev.busWrite_of_plain hr plain]

end Sys2Proof.Machine
end

section
/-! # Reads that change the device (R8, R10, R11, R228, R442, R509) -/

namespace Sys2Proof.Machine

/-- A read of another width or alignment returns 0 and changes nothing else (R8). -/
theorem Dev.registerRead_of_bad {d : Dev} {a : Nat} (hb : d.bar0 a = true) {ofs : BitVec 2} {bytes : Nat}
    (h : ofs ≠ 0 ∨ bytes ≠ 4) (upset : Bool) (k : Dev → Dev) :
    d.registerRead a ofs.toNat bytes upset k = d.out (.value 0) := by
  have bad : accessOk ofs.toNat bytes = false := by
    rw [Bool.eq_false_iff]
    intro ok
    simp only [accessOk, Bool.and_eq_true, beq_iff_eq] at ok
    rcases h with h | h
    · exact h (BitVec.eq_of_toNat_eq (by have := ofs.isLt; simp; omega))
    · exact h ok.1
  simp [Dev.registerRead, hb, bad]

/-- An aligned read takes its effect, and counts an upset bit beside it. -/
theorem Dev.registerRead_of_ok {d : Dev} {a : Nat} (hb : d.bar0 a = true) (upset : Bool) (k : Dev → Dev) :
    d.registerRead a (0 : BitVec 2).toNat 4 upset k = if upset then (k d).bump Cnt.regCe else k d := by
  simp [Dev.registerRead, hb, accessOk]

/-- TSK_LEVEL's only RC field is PEAK. -/
theorem Dev.readClear_tskLevel (d : Dev) :
    d.readClear Reg.tskLevel =
      (d.setReg Reg.tskLevel (d.reg Reg.tskLevel &&& 0xFFFFE000)).out (.value (d.reg Reg.tskLevel)) := by
  have he : regDesc Reg.tskLevel = some ⟨0x0, 0x0, 0x1FFF, 0x0, 0x0, .atOnce⟩ := by decide
  simp [Dev.readClear, he]

/-- CLK_TJ's only RC field is MAX, whose reset value is −128. -/
theorem Dev.readClear_clkTj (d : Dev) :
    d.readClear Reg.clkTj =
      (d.setReg Reg.clkTj (d.reg Reg.clkTj &&& 0xFFFF00FF ||| 0x8000)).out (.value (d.reg Reg.clkTj)) := by
  have he : regDesc Reg.clkTj = some ⟨0x0, 0x0, 0xFF00, 0x0, 0x8000, .atOnce⟩ := by decide
  simp [Dev.readClear, he]

/-- A mask of every bit. -/
theorem and_fullMask (w : Word) : w &&& 4294967295#32 = w := BitVec.and_allOnes

/-- A read at the Silt port returns a register without WO bits as it stands. -/
theorem Dev.siltPort_read {d : Dev} {o : Nat} {r : RegDesc} (ho : o < 0x100) (hal : o % 4 = 0)
    (hr : regDesc (0x10000 + o) = some r) (hwo : r.wo = 0) (same : Bool) :
    d.siltPort o .read same = d.out (.value (d.reg (0x10000 + o))) := by
  simp [Dev.siltPort, ho, hal, Dev.busRead, hr, hwo, and_fullMask]

/-- Settles O37: each read is its effect behind R8's test. -/
theorem readEffects : Obligations.ReadEffects := by
  unfold Obligations.ReadEffects
  intro s hs ofs bytes upset same
  refine ⟨fun bad => ⟨fun hb => ?_, fun r snap i hb => ?_, fun hb => ?_, fun hb => ?_⟩, ⟨fun hb => ?_, fun i hb => ⟨?_, ?_⟩,
    fun i hb => ⟨?_, ?_⟩, fun hb => ⟨?_, ?_⟩, fun hb => ⟨?_, ?_⟩⟩, fun o r c hup ho hal hr hwo => ?_⟩
  · exact .of_run hs rfl (Dev.registerRead_of_bad hb bad _ _)
  · exact .of_run hs rfl (Dev.registerRead_of_bad hb bad _ _)
  · exact .of_run hs rfl (Dev.registerRead_of_bad hb bad _ _)
  · exact .of_run hs rfl (Dev.registerRead_of_bad hb bad _ _)
  · exact .of_run hs rfl (Dev.registerRead_of_ok hb _ _)
  · exact .of_run hs rfl (Dev.registerRead_of_ok hb _ _)
  · exact .of_run hs rfl (Dev.registerRead_of_ok hb _ _)
  · exact .of_run hs rfl (Dev.registerRead_of_ok hb _ _)
  · exact .of_run hs rfl (Dev.registerRead_of_ok hb _ _)
  · refine .of_run hs rfl ((Dev.registerRead_of_ok hb _ _).trans ?_)
    simp only [Dev.levelRead, Bool.false_eq_true, if_false, Dev.readClear_tskLevel]
  · exact .of_run hs rfl (Dev.registerRead_of_ok hb _ _)
  · refine .of_run hs rfl ((Dev.registerRead_of_ok hb _ _).trans ?_)
    simp only [Dev.tjRead, Bool.false_eq_true, if_false, Dev.readClear_clkTj]
  · exact .of_run hs rfl (Dev.registerRead_of_ok hb _ _)
  · refine .of_run hs rfl ?_
    simp only [hup, if_true, Dev.siltPort_read ho hal hr hwo]

end Sys2Proof.Machine
end

section
/-! # The register writes that do more than store fields -/

namespace Sys2Proof.Machine

/-- A BAR0 write that meets no hardware set. -/
theorem Dev.registerWrite_of_reg {d : Dev} {a : Nat} {r : RegDesc} (hb : d.bar0 a = true) (hal : a % 4 = 0)
    (hr : regDesc a = some r) (v : Word) : d.registerWrite a 4 v 0 = d.writeReg r a v := by
  simp [Dev.registerWrite, accessOk, hb, hal, Dev.busWrite, hr, setWins, and_fullMask]

/-- A bit of a masked value just written. -/
theorem Dev.fld_setReg_self (d : Dev) (f : Field) (w : Word) : (d.setReg f.addr w).fld f = f.of w := by
  rw [Dev.fld, Dev.reg_setReg_same]

/-- A mask that covers a field leaves it. -/
theorem Field.of_and (f : Field) (v : Word) {m : Word} (h : f.of m = 2 ^ f.n - 1) : f.of (v &&& m) = f.of v := by
  unfold Field.of at h ⊢
  rw [BitVec.toNat_and, Nat.shiftRight_and_distrib, Nat.and_mod_two_pow, h, Nat.and_two_pow_sub_one_eq_mod, Nat.mod_mod]

/-- A field that a masked write covers takes the value's bits. -/
theorem Dev.fld_setReg_mask (d : Dev) (f : Field) (v : Word) {m : Word} (h : f.of m = 2 ^ f.n - 1) :
    (d.setReg f.addr (v &&& m)).fld f = f.of v := (d.fld_setReg_self f _).trans (f.of_and v h)

/-- A one-bit field of a word is one of its bits. -/
theorem Field.of_eq_one (f : Field) (v : Word) (h : f.n = 1) : (f.of v == 1) = v.getLsbD f.lo := by
  rw [Field.of, h, BitVec.getLsbD, Nat.testBit_eq_decide_div_mod_eq, Nat.shiftRight_eq_div_pow, pow_one]
  rfl

theorem Dev.bit_setReg_mask (d : Dev) (f : Field) (v : Word) {m : Word} (h : f.of m = 2 ^ f.n - 1) (h1 : f.n = 1) :
    (d.setReg f.addr (v &&& m)).bit f = v.getLsbD f.lo := by
  rw [Dev.bit, d.fld_setReg_mask f v h, f.of_eq_one v h1]

/-- A message goes out while the port is on, its type enabled, nothing lost and room left. -/
theorem Dev.trace_of_room {d : Dev} {ty : Nat} {l : List Byte} (hon : d.cfgBit Reg.obsTraceCfg_en = true)
    (hty : (d.reg Reg.obsTraceTypes).getLsbD ty = true) (hl : d.obs.traceLost = 0) (h1 : ty ≠ 1)
    (hroom : d.traceLevel + (traceMsg ty d.tim.elapsed l).length ≤ 8128) :
    d.trace ty l = d.tracePush (traceMsg ty d.tim.elapsed l) := by
  simp [Dev.trace, hon, hty, hl, h1, hroom, Dev.traceLostMsg]

/-! ## ETH_MDIO -/

/-- The bit that tells a read from a write in an MDIO frame's opcode. -/
theorem mdio_read_bit (v : Word) : decide (2 ≤ v.toNat / 2 ^ 28 % 4) = v.getLsbD 29 := by
  rw [BitVec.getLsbD, Nat.testBit_eq_decide_div_mod_eq]
  congr 1
  apply propext
  omega

theorem Dev.mdioStart_of_busy {d : Dev} (h : d.bit Reg.ethMdio_busy = true) (v : Word) : d.mdioStart v = d := if_pos h

theorem Dev.mdioStart_of_idle {d : Dev} {v : Word} (h : d.bit Reg.ethMdio_busy = false) (hv : v.getLsbD 31 = true) :
    d.mdioStart v = ({ d.setReg Reg.ethMdio ((v &&& 0xFFFCFFFF) ||| (d.reg Reg.ethMdio &&& 0x00010000)) with
      eth := { d.eth with mdioRead := v.getLsbD 29 } }).out (.mdio v) := by
  unfold Dev.mdioStart
  rw [if_neg (by simp [h])]
  dsimp only
  rw [if_neg (by simp [hv]), mdio_read_bit]
  rfl

/-! ## TIM_SLOT_OFFSET -/

theorem Dev.slotOffsetWrite_eq (d : Dev) (v : Word) :
    d.slotOffsetWrite v = { d.setReg Reg.timSlotOffset (v &&& 0x003FFFFF) with
      tim := { d.tim with offStep :=
        (if min 2499999 (v.toNat % 4194304) = d.tim.offset then none else some (min 2499999 (v.toNat % 4194304))) } } := by
  have hf : (d.setReg Reg.timSlotOffset (v &&& 0x003FFFFF)).fld Reg.timSlotOffset_offset = v.toNat % 4194304 := by
    exact (d.fld_setReg_mask Reg.timSlotOffset_offset v (by decide)).trans (by simp [Field.of, Reg.timSlotOffset_offset])
  unfold Dev.slotOffsetWrite Dev.slotOffsetWritten
  rw [hf]
  rfl

/-! ## KAO_CFG -/

/-- KAO_CFG's other fields, as the engine holds them, once they have taken effect. -/
def Dev.withKaoFields (d : Dev) (k : Kao) (v : Word) : Dev :=
  { d with kao := { k with pinPend := none, markLog := v.toNat / 2 ^ 16 % 16, hostSensor := v.getLsbD 30 } }

/-- KAO_CFG's register holds a written value. -/
def Dev.KaoWritten (d : Dev) (v : Word) : Prop :=
  d.bit Reg.kaoCfg_mode = v.getLsbD 31 ∧ d.bit Reg.kaoCfg_host_sensor = v.getLsbD 30 ∧
    d.fld Reg.kaoCfg_mark_log2 = v.toNat / 2 ^ 16 % 16 ∧ d.pinnedWritten = min 128 (v.toNat % 256)

theorem Dev.kaoWritten_setReg (d : Dev) (v : Word) : (d.setReg Reg.kaoCfg (v &&& 0xC00F00FF)).KaoWritten v :=
  ⟨d.bit_setReg_mask Reg.kaoCfg_mode v (by decide) rfl, d.bit_setReg_mask Reg.kaoCfg_host_sensor v (by decide) rfl,
    (d.fld_setReg_mask Reg.kaoCfg_mark_log2 v (by decide)).trans (by rw [Field.of, Nat.shiftRight_eq_div_pow]; rfl),
    congrArg (min 128) (d.fld_setReg_mask Reg.kaoCfg_pinned v (by decide))⟩

section
variable {d : Dev} {v : Word} (h : d.KaoWritten v)
include h

/-- While MODE stays, a write's other fields act at once. -/
theorem Dev.kaoCfgWritten_of_same (hm : v.getLsbD 31 = d.kao.locked) (hw : d.kao.waitMode = [])
    (hp : min 128 (v.toNat % 256) = d.kao.pinned) :
    d.kaoCfgWritten = d.withKaoFields { d.kao with modePend := none } v := by
  obtain ⟨hmode, hhost, hmark, hpin⟩ := h
  unfold Dev.kaoCfgWritten Dev.withKaoFields
  rw [hmode, ← hhost, ← hmark]
  dsimp only
  rw [if_pos hm, Dev.kaoTake_of_same, Dev.kaoRetry_of_none]
  · rfl
  · exact hw
  · exact hpin.trans hp

/-- A write that changes MODE waits while operations of the old mode run. -/
theorem Dev.kaoCfgWritten_of_busy (hm : v.getLsbD 31 ≠ d.kao.locked) (hq : d.kao.queue ≠ [] ∨ d.kao.waitKey ≠ []) :
    d.kaoCfgWritten = { d with kao := { d.kao with modePend := some (v.getLsbD 31) } } := by
  unfold Dev.kaoCfgWritten
  rw [h.1]
  exact (if_neg hm).trans (Dev.modeApply_of_busy hq)

/-- A write that changes MODE acts at once on an engine without requests. -/
theorem Dev.kaoCfgWritten_of_idle (hm : v.getLsbD 31 ≠ d.kao.locked) (hq : d.kao.queue = []) (hk : d.kao.waitKey = [])
    (hw : d.kao.waitMode = []) (hp : min 128 (v.toNat % 256) = d.kao.pinned) :
    d.kaoCfgWritten = (d.withKaoFields
      { d.kao with locked := v.getLsbD 31, modePend := none, lock := none, lockQ := [], revoked := [] } v).showKao := by
  obtain ⟨hmode, hhost, hmark, hpin⟩ := h
  unfold Dev.kaoCfgWritten Dev.withKaoFields
  rw [hmode, ← hhost, ← hmark]
  refine (if_neg hm).trans ((Dev.modeApply_of_idle (d := { d with kao := { d.kao with modePend := some (v.getLsbD 31) } })
    (m := v.getLsbD 31) rfl hq hk hw (hpin.trans hp)).trans ?_)
  rw [← hw]
  rfl

end

/-- Settles O38: each acting register, by what its write does. -/
theorem actingWrites : Obligations.ActingWrites := by
  unfold Obligations.ActingWrites
  intro s v hs
  refine ⟨fun hb => ?_, fun hb => ?_, fun p hb => ?_, fun hb => ?_, fun hup => ?_, fun hb => ?_, fun p hb => ?_, fun hb => ?_,
    fun o r hup ho hal hr plain => ?_⟩
  · have hw : s.dev.registerWrite Reg.obsSnapCtl 4 v 0 = s.dev.snapCtlWrite v :=
      Dev.registerWrite_of_reg hb (by decide) rfl v
    exact ⟨fun hv => .of_run hs rfl (hw.trans (if_pos hv)), fun hv => .of_run hs rfl (hw.trans (if_neg (Bool.eq_false_iff.mp hv)))⟩
  · have hw : s.dev.registerWrite Reg.obsTraceMark 4 v 0 = s.dev.traceMark v :=
      Dev.registerWrite_of_reg hb (by decide) rfl v
    refine ⟨fun hoff => .of_run hs rfl (hw.trans (Dev.trace_of_off hoff _ _)), fun hon hty hl hroom => ?_⟩
    exact .of_run hs rfl (hw.trans (Dev.trace_of_room hon hty hl (by decide) hroom))
  · have hw : s.dev.registerWrite (Reg.tshGclCfg p) 4 v 0 = s.dev.gclWrite p v := by
      fin_cases p <;> exact Dev.registerWrite_of_reg hb (by decide) rfl v
    exact ⟨fun hv => .of_run hs rfl (hw.trans (if_neg (Bool.eq_false_iff.mp hv))), fun hv => .of_run hs rfl (hw.trans (if_pos hv))⟩
  · have hw : s.dev.registerWrite Reg.ethMdio 4 v 0 = s.dev.mdioStart v := Dev.registerWrite_of_reg hb (by decide) rfl v
    exact ⟨fun hbusy => .of_run hs rfl (hw.trans (Dev.mdioStart_of_busy hbusy v)),
      fun hidle hv => .of_run hs rfl (hw.trans (Dev.mdioStart_of_idle hidle hv))⟩
  · have hw : (if s.dev.siltUp then s.dev.busWrite Reg.pwrRelease v else s.dev) = s.dev.powerRelease v.toNat := by
      rw [if_pos hup]; rfl
    exact ⟨fun hk hl => .of_run hs rfl (hw.trans (if_pos ⟨hk, hl⟩)),
      fun hn => .of_run hs rfl (hw.trans (if_neg (not_and_or.mpr hn)))⟩
  · have hw : s.dev.registerWrite Reg.timSlotOffset 4 v 0 = s.dev.slotOffsetWrite v :=
      Dev.registerWrite_of_reg hb (by decide) rfl v
    exact .of_run hs rfl (hw.trans (s.dev.slotOffsetWrite_eq v))
  · have hw : s.dev.registerWrite (Reg.ethCfg p) 4 v 0 = s.dev.ethCfgWrite p v := by
      fin_cases p <;> exact Dev.registerWrite_of_reg hb (by decide) rfl v
    have hup : ∀ w, (s.dev.setReg (Reg.ethCfg p) w).linkUp p = s.dev.linkUp p := fun w =>
      Dev.bit_of_reg (Dev.reg_setReg_ne _ (by fin_cases p <;> decide) w)
    refine ⟨fun hstay => .of_run hs rfl (hw.trans (if_pos ?_)), fun hlink hmode => .of_run hs rfl (hw.trans (if_neg ?_))⟩
    · rw [hup]
      exact hstay.symm.imp_right fun h => by simp [h]
    · rw [hup, hlink]
      exact not_or.mpr ⟨hmode, by decide⟩
  · have hw : s.dev.registerWrite Reg.kaoCfg 4 v 0 = s.dev.kaoCfgWrite v := Dev.registerWrite_of_reg hb (by decide) rfl v
    have hv := s.dev.kaoWritten_setReg v
    exact ⟨fun hm hwait hp => .of_run hs rfl (hw.trans (Dev.kaoCfgWritten_of_same hv hm hwait hp)),
      fun hm hbusy => .of_run hs rfl (hw.trans (Dev.kaoCfgWritten_of_busy hv hm hbusy)),
      fun hm hq hk hwait hp => .of_run hs rfl (hw.trans (Dev.kaoCfgWritten_of_idle hv hm hq hk hwait hp))⟩
  · have hwrite : s.dev.siltPort o.toNat (.write v) false =
        s.dev.setReg (0x10000 + o.toNat) (r.written (s.dev.reg (0x10000 + o.toNat)) v) := by
      simp only [Dev.siltPort, ho, hal, s.dev.busWrite_of_plain hr plain]
      rfl
    have hdrop : s.dev.siltPort o.toNat (.write v) true = s.dev := by simp [Dev.siltPort]
    exact ⟨.of_run hs rfl ((if_pos hup).trans hwrite), .of_run hs rfl ((if_pos hup).trans hdrop)⟩

end Sys2Proof.Machine
end

section
/-! # The host and its rings (R401, R423, R424, R464) -/

namespace Sys2Proof.Machine

/-! ## Attach and detach -/

/-- What the local host drops at an attach: nothing but its survey, its waiting commands and the ports' mode trials. -/
theorem Dev.stopLocalSurvey_frame (d : Dev) :
    ∃ h : Hif, d.stopLocalSurvey = { d with hif := h } ∧ h.epoch = d.hif.epoch := by
  unfold Dev.stopLocalSurvey
  split
  next => exact ⟨d.hif, rfl, rfl⟩
  next =>
    split
    · exact ⟨d.hif, rfl, rfl⟩
    · exact ⟨_, rfl, rfl⟩

theorem Dev.dropLocal_frame (d : Dev) :
    d.dropLocal.regs = d.regs ∧ d.dropLocal.counters = d.counters ∧ d.dropLocal.sch = d.sch ∧ d.dropLocal.chans = d.chans ∧
      d.dropLocal.hif.epoch = d.hif.epoch ∧ d.dropLocal.boot.localCmds = [] := by
  obtain ⟨h, hd, he⟩ := d.stopLocalSurvey_frame
  unfold Dev.dropLocal
  rw [hd]
  exact ⟨rfl, rfl, rfl, rfl, he, rfl⟩

/-- An attach changes HIF_STAT, the books of the host interface and what the local host had in mind. -/
theorem Dev.attach_frame (d : Dev) :
    d.attach.devState = dsHosted ∧ d.attach.bit Reg.hifStat_link_up = true ∧ d.attach.hif.epoch = d.hif.epoch + 1 ∧
      d.attach.hif.attachDue = true ∧ d.attach.boot.localCmds = [] ∧
      d.attach.counter Cnt.hostAttach = d.counter Cnt.hostAttach + 1 ∧ d.attach.sch = d.sch ∧ d.attach.chans = d.chans ∧
      ∀ a, a ≠ Reg.hifStat → d.attach.reg a = d.reg a := by
  obtain ⟨hregs, hcnt, hsch, hchans, hepoch, hcmds⟩ := d.dropLocal_frame
  unfold Dev.attach
  generalize d.dropLocal = e at *
  have hs := (e.setFld Reg.hifStat_dev_state dsHosted).fld_setFld_of_separate Reg.hifStat_link_up Reg.hifStat_dev_state
    (true.toNat) (by decide)
  refine ⟨hs.trans (e.fld_setFld_self Reg.hifStat_dev_state dsHosted (by decide)),
    (e.setFld Reg.hifStat_dev_state dsHosted).bit_setBit_self Reg.hifStat_link_up true, congrArg (· + 1) hepoch, rfl, hcmds,
    ?_, hsch, hchans, fun a ha => ?_⟩
  · exact (Dev.counter_bumpBy _ _ _ _).trans ((if_pos rfl).trans (congrArg (· + 1) (Dev.counter_congr hcnt _)))
  · exact (Dev.reg_setFld_ne _ _ a _ ha).trans ((Dev.reg_setFld_ne _ _ a _ ha).trans (Dev.reg_congr hregs a))

/-- A device that leaves HOSTED under the host's hand. -/
theorem Dev.leaveHosted_of_detach {d : Dev} (h : d.devState = dsHosted) :
    d.leaveHosted false =
      let e := (d.setFld Reg.hifStat_dev_state dsStandalone).bump Cnt.hostDetach
      { e with hif := { e.hif with epoch := e.hif.epoch + 1, attachDue := false, complQ := [] } } := by
  have hh : d.hosted = true := beq_iff_eq.mpr h
  exact if_neg (by simp [hh])

/-- A device that loses its host. -/
theorem Dev.leaveHosted_of_loss {d : Dev} (h : d.devState = dsHosted) :
    d.leaveHosted true =
      let e := ((d.setFld Reg.hifStat_dev_state dsStandalone).bump Cnt.hostDetach).raise Reg.hifStat_link_down
      { e with hif := { e.hif with epoch := e.hif.epoch + 1, attachDue := false, complQ := [] } } := by
  have hh : d.hosted = true := beq_iff_eq.mpr h
  exact if_neg (by simp [hh])

/-- The link's fall does not touch DEV_STATE. -/
theorem Dev.devState_linkUp_low {d : Dev} : (d.setBit Reg.hifStat_link_up false).devState = d.devState :=
  d.fld_setFld_of_separate Reg.hifStat_link_up Reg.hifStat_dev_state _ (by decide)

/-! ## Ring configuration -/

theorem ringExists_lt {i : Nat} (h : ringExists i = true) : i < 48 := by
  simp only [ringExists, Bool.or_eq_true, Bool.and_eq_true, decide_eq_true_eq] at h
  omega

theorem regDesc_hifRingCfg : ∀ i < 48, ringExists i = true →
    regDesc (Reg.hifRingCfg i) = some ⟨0x8F1FBF00, 0x0, 0x0, 0x0, 0x0, .atOnce⟩ := by
  decide

/-- A write to a ring's CFG word. -/
theorem Dev.writeReg_hifRingCfg (d : Dev) (r : RegDesc) {i : Nat} (hi : i < 48) (v : Word) :
    d.writeReg r (Reg.hifRingCfg i) v = d.ringCfgWrite i (r.written (d.reg (Reg.hifRingCfg i)) v) := by
  have hlo : 0x41008 ≤ Reg.hifRingCfg i := by unfold Reg.hifRingCfg; omega
  have hhi : Reg.hifRingCfg i < 0x41300 := by unfold Reg.hifRingCfg; omega
  have hring : ringOfAddr (Reg.hifRingCfg i) = some (i, 8) := by
    have hi : (Reg.hifRingCfg i - 0x41000) / 16 = i := by unfold Reg.hifRingCfg; omega
    have ho : (Reg.hifRingCfg i - 0x41000) % 16 = 8 := by unfold Reg.hifRingCfg; omega
    rw [ringOfAddr, if_pos ⟨by omega, hhi⟩, hi, ho]
  generalize Reg.hifRingCfg i = a at *
  rw [Dev.writeReg, if_neg (by unfold Reg.hifCtrl; omega), if_neg (by omega), if_neg (by unfold Reg.timSlotOffset; omega),
    if_neg (by unfold Reg.ethCfg; omega), if_neg (by unfold Reg.ethCfg; omega), if_neg (by unfold Reg.ethPaircfg; omega),
    if_neg (by unfold Reg.timPpscfg; omega), if_neg (by unfold Reg.ethMdio; omega), if_neg (by unfold Reg.tshGclCfg; omega),
    if_neg (by unfold Reg.tshGclCfg; omega), if_neg (by unfold Reg.kaoCfg; omega), if_neg (by unfold Reg.pwrRelease; omega),
    if_neg (by unfold Reg.obsTraceMark; omega), if_neg (by unfold Reg.obsSnapCtl; omega), if_neg (by omega), hring]
  rfl

/-- A ring's CFG word, as its access codes leave it. -/
theorem written_hifRingCfg (old v : Word) :
    RegDesc.written ⟨0x8F1FBF00, 0x0, 0x0, 0x0, 0x0, .atOnce⟩ old v = (old &&& 0x70E040FF) ||| (v &&& 0x8F1FBF00) := by
  simp [RegDesc.written]

theorem Dev.registerWrite_hifRingCfg {d : Dev} {i : Nat} (hi : ringExists i = true) (hb : d.bar0 (Reg.hifRingCfg i) = true)
    (v : Word) : d.registerWrite (Reg.hifRingCfg i) 4 v 0 =
      d.ringCfgWrite i ((d.reg (Reg.hifRingCfg i) &&& 0x70E040FF) ||| (v &&& 0x8F1FBF00)) := by
  have hlt := ringExists_lt hi
  rw [Dev.registerWrite_of_reg hb (by unfold Reg.hifRingCfg; omega) (regDesc_hifRingCfg i hlt hi),
    d.writeReg_hifRingCfg _ hlt, written_hifRingCfg]

/-- Enabling a ring starts it at 0. -/
theorem Dev.ringCfgWrite_of_off {d : Dev} {i : Nat} {w : Word} (h : (d.reg (Reg.hifRingCfg i)).getLsbD 31 = false)
    (hw : w.getLsbD 31 = true) :
    d.ringCfgWrite i w = ((d.setReg (Reg.hifRingCfg i) w).setRing i emptyRing).setFld (Reg.hifRingStat_idx i) 0 := by
  unfold Dev.ringCfgWrite
  rw [if_neg (Bool.eq_false_iff.mp h), if_pos hw]

/-- An enabled ring takes only the bits that may change while it runs. -/
theorem Dev.ringCfgWrite_of_on {d : Dev} {i : Nat} (h : (d.reg (Reg.hifRingCfg i)).getLsbD 31 = true) (old v : Word) :
    d.ringCfgWrite i ((old &&& 0x70E040FF) ||| (v &&& 0x8F1FBF00)) =
      d.setReg (Reg.hifRingCfg i) ((d.reg (Reg.hifRingCfg i) &&& 0x7FFF40FF) ||| (v &&& 0x8000BF00)) := by
  have live : ((old &&& 0x70E040FF) ||| (v &&& 0x8F1FBF00)) &&& ringLiveMask = v &&& 0x8000BF00 := by
    have none : (0x70E040FF : Word) &&& ringLiveMask = 0 := by decide
    have all : (0x8F1FBF00 : Word) &&& ringLiveMask = 0x8000BF00 := by decide
    rw [BitVec.and_comm, BitVec.and_or_distrib_left, BitVec.and_comm, BitVec.and_comm ringLiveMask, BitVec.and_assoc,
      BitVec.and_assoc, none, all]
    simp
  unfold Dev.ringCfgWrite
  rw [if_pos h, live]
  rfl

/-! ## BOOT_PCIE_CTL -/

/-- While the boot ROM waits for an image, GO reads one. -/
theorem Dev.pcieGo_of_boot {d : Dev} {v : Word} (hv : v.getLsbD 0 = true) (hd : d.devState = dsBoot)
    (hs : d.fld Reg.bootStat_strap = 4) (img : HostRead) :
    d.pcieGo v img =
      let e := (d.setBit Reg.bootPcieCtl_err false).setBit Reg.bootPcieCtl_done false
      match img with
      | .err => e.raise Reg.bootPcieCtl_err
      | .ok b =>
        if e.imageOk b then ({ e with boot := { e.boot with image := b } }).raise Reg.bootPcieCtl_done
        else e.raise Reg.bootPcieCtl_err := by
  unfold Dev.pcieGo
  exact (if_neg (by rw [hv, hd, hs]; decide)).trans (by cases img <;> rfl)

/-- Settles O39. -/
theorem hostAndRings : Obligations.HostAndRings := by
  unfold Obligations.HostAndRings
  intro s v hs
  refine ⟨fun hb hv hst hbase h0 h1 => ?_, fun hb hv hst => ?_, fun hst => ?_, fun hst hup => ?_, fun i hi hb => ?_,
    fun img hup hst hstrap hv => ?_⟩
  · have hw : s.dev.registerWrite Reg.hifCtrl 4 v 0 = s.dev.hifCtrlWrite v := Dev.registerWrite_of_reg hb (by decide) rfl v
    have hother : ∀ a, a ≠ Reg.hifCtrl → (s.dev.setReg Reg.hifCtrl (v &&& 1)).reg a = s.dev.reg a := fun a ha =>
      s.dev.reg_setReg_ne ha _
    have hatt : s.dev.hifCtrlWrite v = (s.dev.setReg Reg.hifCtrl (v &&& 1)).attach := by
      have hstate : (s.dev.setReg Reg.hifCtrl (v &&& 1)).devState = dsStandalone :=
        (congrArg Reg.hifStat_dev_state.of (hother _ (by decide))).trans hst
      have hring : ∀ i, s.dev.ringEn i = true → (s.dev.setReg Reg.hifCtrl (v &&& 1)).ringEn i = true := fun i hi =>
        (Dev.bit_of_reg (f := Reg.hifRingCfg_en i)
          (hother _ (by show Reg.hifRingCfg i ≠ _; unfold Reg.hifRingCfg Reg.hifCtrl; omega))).trans hi
      have hpage : (s.dev.setReg Reg.hifCtrl (v &&& 1)).reg Reg.hifDbBaseLo ≠ 0 := by
        rw [hother _ (by decide)]
        exact hbase
      unfold Dev.hifCtrlWrite
      rw [if_neg (by rw [hv]; decide), if_pos ⟨hstate, .inl hpage, hring 0 h0, hring 1 h1⟩]
    obtain ⟨hd, hl, he, hdue, hcmds, hcnt, hsch, hch, hreg⟩ := (s.dev.setReg Reg.hifCtrl (v &&& 1)).attach_frame
    exact ⟨_, .of_run hs rfl (hw.trans hatt), hd, hl, he, hdue, hcmds, hcnt, hsch, hch,
      fun a ha hb => (hreg a hb).trans (hother a ha)⟩
  · have hw : s.dev.registerWrite Reg.hifCtrl 4 v 0 = s.dev.hifCtrlWrite v := Dev.registerWrite_of_reg hb (by decide) rfl v
    have hstate : (s.dev.setReg Reg.hifCtrl (v &&& 1)).devState = dsHosted :=
      (congrArg Reg.hifStat_dev_state.of (s.dev.reg_setReg_ne (show Reg.hifStat ≠ Reg.hifCtrl by decide) _)).trans hst
    exact .of_run hs rfl (hw.trans ((if_pos (by simp only [hv]; decide)).trans (Dev.leaveHosted_of_detach hstate)))
  · exact .of_run hs rfl (Dev.leaveHosted_of_loss (Dev.devState_linkUp_low.trans hst))
  · refine .of_run hs rfl ?_
    have hstill : ({ s.dev with pins := { s.dev.pins with perstN := false } } : Dev).mainUp = true := hup
    exact (if_neg (by simp only [hstill]; decide)).trans
      (Dev.leaveHosted_of_loss (Dev.devState_linkUp_low.trans hst))
  · have hw := Dev.registerWrite_hifRingCfg hi hb v
    have hr : (if ringExists i then s.dev.registerWrite (Reg.hifRingCfg i) 4 v 0 else s.dev) = _ := (if_pos hi).trans hw
    refine ⟨fun hoff hv => .of_run hs rfl (hr.trans (Dev.ringCfgWrite_of_off hoff ?_)),
      fun hon _ => .of_run hs rfl (hr.trans (Dev.ringCfgWrite_of_on hon _ v))⟩
    simp [hv]
  · have hb : s.dev.bar0 Reg.bootPcieCtl = true := by
      simp [Dev.bar0, hup, hst, hstrap, Reg.bootPcieCtl]
    have hgo : (if s.dev.bar0 Reg.bootPcieCtl then s.dev.pcieGo v img else s.dev) = _ :=
      (if_pos hb).trans (Dev.pcieGo_of_boot hv hst hstrap img)
    have himg : ∀ b, ((s.dev.setBit Reg.bootPcieCtl_err false).setBit Reg.bootPcieCtl_done false).imageOk b =
      s.dev.imageOk b := fun b => rfl
    refine ⟨fun b hi hok => .of_run hs rfl (hgo.trans ?_), fun b hi hok => .of_run hs rfl (hgo.trans ?_),
      fun hi => .of_run hs rfl (hgo.trans ?_)⟩
    · subst hi
      exact if_pos ((himg b).trans hok)
    · subst hi
      exact if_neg (Bool.eq_false_iff.mp ((himg b).trans hok))
    · subst hi
      rfl

end Sys2Proof.Machine
end

section
/-! # What the rows of the next slots rest on -/

namespace Sys2Proof.Machine

/-- The two devices carry the same rows: the same tables and rotation, channels, links, states of the radios, and the same
writes that wait for the superframe boundary. -/
structure Dev.SameRows (d e : Dev) : Prop where
  eff : e.eff = d.eff
  bound : (e.regs.filter fun p => boundOf p.1 == .superframe) = d.regs.filter fun p => boundOf p.1 == .superframe
  chans : e.chans = d.chans
  slotS : e.tim.slotS = d.tim.slotS
  commit : e.reg Reg.schCommit = d.reg Reg.schCommit
  mesh : e.reg Reg.mshStat = d.reg Reg.mshStat
  rfState : ∀ r, e.rfState r = d.rfState r
  search : e.msh.searchRadio = d.msh.searchRadio
  active : e.sch.active = d.sch.active
  pending : e.sch.pending = d.sch.pending
  rot : e.sch.rot = d.sch.rot
  staged : e.sch.staged = d.sch.staged
  remaps : e.sch.remaps = d.sch.remaps
  target : e.sch.target = d.sch.target
  protPend : e.sch.protPend = d.sch.protPend
  rotLost : e.dmc.rotLost = d.dmc.rotLost

theorem Dev.SameRows.refl (d : Dev) : d.SameRows d :=
  ⟨rfl, rfl, rfl, rfl, rfl, rfl, fun _ => rfl, rfl, rfl, rfl, rfl, rfl, rfl, rfl, rfl, rfl⟩

theorem Dev.SameRows.trans {a b c : Dev} (h : a.SameRows b) (k : b.SameRows c) : a.SameRows c where
  eff := k.eff.trans h.eff
  bound := k.bound.trans h.bound
  chans := k.chans.trans h.chans
  slotS := k.slotS.trans h.slotS
  commit := k.commit.trans h.commit
  mesh := k.mesh.trans h.mesh
  rfState r := (k.rfState r).trans (h.rfState r)
  search := k.search.trans h.search
  active := k.active.trans h.active
  pending := k.pending.trans h.pending
  rot := k.rot.trans h.rot
  staged := k.staged.trans h.staged
  remaps := k.remaps.trans h.remaps
  target := k.target.trans h.target
  protPend := k.protPend.trans h.protPend
  rotLost := k.rotLost.trans h.rotLost

/-- Nothing of a radio but its state, which a register shows, is read from its row. -/
theorem Dev.SameRows.modRadio (d : Dev) (r : RadioId) (f : Radio → Radio) : d.SameRows (d.modRadio r f) := by
  constructor <;> simp [Dev.rfState, Dev.fld, Dev.reg]

/-- Counters are not read. -/
theorem Dev.SameRows.bumpBy (d : Dev) (i n : Nat) : d.SameRows (d.bumpBy i n) :=
  ⟨rfl, rfl, rfl, rfl, rfl, rfl, fun _ => rfl, rfl, rfl, rfl, rfl, rfl, rfl, rfl, rfl, rfl⟩

/-- A register that the rows do not rest on may be written at will. -/
theorem Dev.SameRows.setReg (d : Dev) (a : Nat) (w : Word) (hb : boundOf a ≠ .superframe) (hc : Reg.schCommit ≠ a)
    (hm : Reg.mshStat ≠ a) (hr : ∀ r : RadioId, Reg.rfStat r ≠ a) : d.SameRows (d.setReg a w) where
  eff := rfl
  bound := Sparse.filter_put _ (fun p => boundOf p.1 == .superframe) a _ (fun _ => beq_eq_false_iff_ne.mpr hb) _
  chans := rfl
  slotS := rfl
  commit := d.reg_setReg_ne hc w
  mesh := d.reg_setReg_ne hm w
  rfState r := congrArg (Reg.rfStat_state r).of (d.reg_setReg_ne (hr r) w)
  search := rfl
  active := rfl
  pending := rfl
  rot := rfl
  staged := rfl
  remaps := rfl
  target := rfl
  protPend := rfl
  rotLost := rfl

theorem boundOf_rfStat (r : RadioId) : boundOf (Reg.rfStat r) = .atOnce := by
  revert r
  decide +kernel

theorem rfStat_ne_rowRegs (r : RadioId) : Reg.schCommit ≠ Reg.rfStat r ∧ Reg.mshStat ≠ Reg.rfStat r := by
  revert r
  decide

/-- A radio's status bits beside its state are not read. -/
theorem Dev.SameRows.setFld_rfStat (d : Dev) (r : RadioId) {f : Field} (v : Nat) (hf : f.addr = Reg.rfStat r)
    (hs : f.separate (Reg.rfStat_state r) = true) : d.SameRows (d.setFld f v) where
  eff := rfl
  bound := Sparse.filter_put _ (fun p => boundOf p.1 == .superframe) f.addr _
    (fun _ => by rw [hf]; exact beq_eq_false_iff_ne.mpr (by rw [boundOf_rfStat]; decide)) _
  chans := rfl
  slotS := rfl
  commit := Dev.reg_setFld_ne _ _ _ _ (hf ▸ (rfStat_ne_rowRegs r).1)
  mesh := Dev.reg_setFld_ne _ _ _ _ (hf ▸ (rfStat_ne_rowRegs r).2)
  rfState q := by
    by_cases hq : q = r
    · subst hq
      exact d.fld_setFld_of_separate f _ v hs
    · exact congrArg (Reg.rfStat_state q).of (Dev.reg_setFld_ne _ _ _ _ (hf ▸ rfStat_ne hq))
  search := rfl
  active := rfl
  pending := rfl
  rot := rfl
  staged := rfl
  remaps := rfl
  target := rfl
  protPend := rfl
  rotLost := rfl

theorem Dev.Alike.sameRows {d e : Dev} (h : d.Alike e) : d.SameRows e where
  eff := h.eff
  bound := h.bound _ (by decide)
  chans := h.chans
  slotS := by rw [h.tim]
  commit := h.reg _ not_bookAddr_sch.1
  mesh := h.reg _ (by unfold bookAddr; decide)
  rfState := h.rfState
  search := by rw [h.msh]
  active := by rw [h.sch]
  pending := by rw [h.sch]
  rot := by rw [h.sch]
  staged := by rw [h.sch]
  remaps := by rw [h.sch]
  target := by rw [h.sch]
  protPend := by rw [h.sch]
  rotLost := by rw [h.dmc]

section
variable {d e : Dev} (h : d.SameRows e)
include h

theorem Dev.SameRows.rfReadyRun (r : RadioId) : e.rfReadyRun r = d.rfReadyRun r := by
  unfold Dev.rfReadyRun
  rw [h.rfState]

theorem Dev.SameRows.cfg {a : Nat} (ha : boundOf a ≠ .atOnce) : e.cfg a = d.cfg a := by
  unfold Dev.cfg
  split
  next k => exact absurd k ha
  next => rw [h.eff]

theorem Dev.SameRows.links : e.links = d.links := by
  refine linksOf_congr fun i hi => h.cfg ?_
  revert i
  decide +kernel

theorem Dev.SameRows.parentLink : e.parentLink = d.parentLink := by
  unfold Dev.parentLink
  rw [h.links]

theorem Dev.SameRows.chan (i : Nat) : e.chan i = d.chan i := by
  unfold Dev.chan
  rw [h.chans]

theorem Dev.SameRows.chanHigh (i : Nat) : e.chanHigh i = d.chanHigh i := by
  unfold Dev.chanHigh
  rw [h.chan]

theorem Dev.SameRows.chanSubch (i : Nat) : e.chanSubch i = d.chanSubch i := by
  unfold Dev.chanSubch
  rw [h.chan]

theorem Dev.SameRows.airChan (w : Row) : e.airChan w = d.airChan w := by
  unfold Dev.airChan
  rw [h.parentLink, show e.fld Reg.mshStat_cur_chan = d.fld Reg.mshStat_cur_chan from congrArg _ h.mesh]

theorem Dev.SameRows.linkOfChan (i : Nat) : e.linkOfChan i = d.linkOfChan i := by
  unfold Dev.linkOfChan
  rw [h.links]

theorem Dev.SameRows.mshState : e.mshState = d.mshState := congrArg Reg.mshStat_state.of h.mesh

theorem Dev.SameRows.parentRowOf (w : Row) : e.parentRowOf w = d.parentRowOf w := by
  unfold Dev.parentRowOf
  rw [h.parentLink]

theorem Dev.SameRows.remapOf (r : RadioId) (w : Row) : e.remapOf r w = d.remapOf r w := by
  unfold Dev.remapOf Dev.remapCovers
  simp only [h.remaps, h.chanHigh]

theorem Dev.SameRows.ownRow (r : RadioId) (slot : Nat) : e.ownRow r slot = d.ownRow r slot := by
  unfold Dev.ownRow Dev.rowInForce
  simp only [h.active, h.links]

theorem Dev.SameRows.carrierOf (r : RadioId) (slot : Nat) : e.carrierOf r slot = d.carrierOf r slot := by
  unfold Dev.carrierOf
  rw [show e.bit Reg.schCommit_prot_active = d.bit Reg.schCommit_prot_active from Dev.bit_of_reg h.commit]
  simp only [h.active, h.rfReadyRun]

theorem Dev.SameRows.cellOwner (c : CellEntry) (f : Nat) : e.cellOwner c f = d.cellOwner c f := by
  unfold Dev.cellOwner Dev.rotEntry
  rw [h.rot, h.rotLost]

/-- A write of SCH_COMMIT on both sides. -/
theorem Dev.SameRows.setProt (v : Nat) :
    (d.setFld Reg.schCommit_prot_active v).SameRows (e.setFld Reg.schCommit_prot_active v) :=
  { h with
    bound := by
      have hleft (x : Dev) : ((x.setFld Reg.schCommit_prot_active v).regs.filter fun p => boundOf p.1 == .superframe) =
          x.regs.filter fun p => boundOf p.1 == .superframe :=
        Sparse.filter_put _ (fun p => boundOf p.1 == .superframe) Reg.schCommit _
          (fun _ => beq_eq_false_iff_ne.mpr (by rw [boundOf_schCommit]; decide)) _
      rw [hleft, hleft, h.bound]
    commit := by
      have hsame (x : Dev) : (x.setFld Reg.schCommit_prot_active v).reg Reg.schCommit =
        Reg.schCommit_prot_active.put (x.reg Reg.schCommit) v := Sparse.get_put_same _ _ _ _
      rw [hsame, hsame, h.commit]
    mesh := by
      rw [Dev.reg_setFld_ne _ _ _ _ (by decide), Dev.reg_setFld_ne _ _ _ _ (by decide), h.mesh]
    rfState := fun r => by
      have hleft (x : Dev) : (x.setFld Reg.schCommit_prot_active v).rfState r = x.rfState r :=
        congrArg (Reg.rfStat_state r).of (Dev.reg_setFld_ne _ _ _ _ (by revert r; decide))
      rw [hleft, hleft, h.rfState] }

/-- The same tables taken on both sides. -/
theorem Dev.SameRows.withSch {x y : Sch} (ha : y.active = x.active) (hp : y.pending = x.pending) (hr : y.rot = x.rot)
    (hs : y.staged = x.staged) (hm : y.remaps = x.remaps) (ht : y.target = x.target) (hk : y.protPend = x.protPend) :
    ({ d with sch := x } : Dev).SameRows { e with sch := y } :=
  { h with active := ha, pending := hp, rot := hr, staged := hs, remaps := hm, target := ht, protPend := hk,
           rfState := h.rfState }

theorem Dev.SameRows.applySuperframe : (d.applyBoundary .superframe).SameRows (e.applyBoundary .superframe) :=
  { h with
    eff := by
      unfold Dev.applyBoundary
      rw [h.bound, h.eff]
    rfState := h.rfState }

theorem Dev.SameRows.viewAt (s : Int) : (d.viewAt s).SameRows (e.viewAt s) := by
  unfold Dev.viewAt
  rw [h.slotS]
  split
  · exact h
  · dsimp only
    rw [show e.bit Reg.schCommit_pending = d.bit Reg.schCommit_pending from Dev.bit_of_reg h.commit, h.target, h.protPend]
    generalize (d.bit Reg.schCommit_pending && decide (d.sch.target ≤ s / 512)) = swap
    have hset : (if swap then d.setBit Reg.schCommit_prot_active d.sch.protPend else d).SameRows
        (if swap then e.setBit Reg.schCommit_prot_active d.sch.protPend else e) := by
      split
      · exact h.setProt _
      · exact h
    generalize (if swap then d.setBit Reg.schCommit_prot_active d.sch.protPend else d) = x at hset ⊢
    generalize (if swap then e.setBit Reg.schCommit_prot_active d.sch.protPend else e) = y at hset ⊢
    refine Dev.SameRows.applySuperframe (hset.withSch ?_ ?_ ?_ ?_ ?_ ?_ ?_)
    · simp only [hset.active, hset.pending]
    · exact hset.pending
    · simp only [hset.rot, hset.staged]
    · exact hset.staged
    · simp only [hset.remaps, hset.rfReadyRun]
    · exact hset.target
    · exact hset.protPend

theorem Dev.SameRows.remapped (s : Int) : e.remapped s = d.remapped s := by
  have hv := h.viewAt s
  unfold Dev.remapped
  simp only [hv.ownRow, hv.remapOf, hv.carrierOf]

theorem Dev.SameRows.rowCarried (r : RadioId) (s : Int) : e.rowCarried r s = d.rowCarried r s := by
  have hv := h.viewAt s
  unfold Dev.rowCarried
  dsimp only
  rw [hv.ownRow, hv.remapOf, hv.remapped]

theorem Dev.SameRows.willRun (r : RadioId) (s : Int) : e.willRun r s = d.willRun r s := by
  unfold Dev.willRun
  rw [h.rfState, h.slotS, (h.viewAt s).active, h.remapped]

theorem Dev.SameRows.ownerAt (c : CellEntry) (s : Int) : e.ownerAt c s = d.ownerAt c s := (h.viewAt s).cellOwner c _

theorem Dev.SameRows.meshIndexAt (chan : Nat) (s : Int) : e.meshIndexAt chan s = d.meshIndexAt chan s := by
  unfold Dev.meshIndexAt
  rw [(h.viewAt s).active]

theorem Dev.SameRows.rxRow (w : Row) (s : Int) : e.rxRow w s = d.rxRow w s := by
  unfold Dev.rxRow
  rw [(h.viewAt s).linkOfChan, h.mshState]
  simp only [h.meshIndexAt, h.parentRowOf]

theorem Dev.SameRows.grantedCells (w : Row) (s : Int) : e.grantedCells w s = d.grantedCells w s := by
  unfold Dev.grantedCells
  rw [(h.viewAt s).linkOfChan]
  simp only [h.ownerAt, h.airChan, h.chanSubch]

end

end Sys2Proof.Machine
end

section
/-! # Acquisition (R85 to R91, R99, R133, R134, R491) -/

namespace Sys2Proof.Machine

/-! ## Changes of one radio -/

theorem Dev.radio_modRadio_self (d : Dev) (r : RadioId) (f : Radio → Radio) : (d.modRadio r f).radio r = f (d.radio r) :=
  (d.radio_modRadio r r f).trans (if_pos rfl)

theorem Dev.radio_modRadio_ne (d : Dev) {r q : RadioId} (h : q ≠ r) (f : Radio → Radio) :
    (d.modRadio r f).radio q = d.radio q := (d.radio_modRadio r q f).trans (if_neg h)

theorem Dev.counter_bump_self (d : Dev) (i : Nat) : (d.bump i).counter i = d.counter i + 1 :=
  (d.counter_bumpBy i i 1).trans (if_pos rfl)

theorem Dev.counter_raise (d : Dev) (f : Field) (i : Nat) : (d.raise f).counter i = d.counter i := rfl

theorem Dev.radio_setFld (d : Dev) (f : Field) (v : Nat) (q : RadioId) : (d.setFld f v).radio q = d.radio q :=
  Dev.radio_congr rfl rfl rfl q

theorem Dev.radio_setBit (d : Dev) (f : Field) (b : Bool) (q : RadioId) : (d.setBit f b).radio q = d.radio q :=
  d.radio_setFld f _ q

theorem Dev.radio_raise (d : Dev) (f : Field) (q : RadioId) : (d.raise f).radio q = d.radio q := d.radio_setFld f 1 q

theorem Dev.radio_bump (d : Dev) (i : Nat) (q : RadioId) : (d.bump i).radio q = d.radio q := Dev.radio_congr rfl rfl rfl q

theorem Dev.bit_bump (d : Dev) (i : Nat) (f : Field) : (d.bump i).bit f = d.bit f := rfl

theorem Dev.raLost_nil (d : Dev) (c : Nat) : (d.raLost []).counter c = d.counter c := by
  refine (Dev.counter_bumpBy _ _ _ _).trans ?_
  split
  next h =>
    rw [h]
    exact BitVec.add_zero _
  next => rfl

theorem Dev.raLost_radio (d : Dev) (l : List Cell) (q : RadioId) : (d.raLost l).radio q = d.radio q := by
  fin_cases q <;> rfl

theorem Dev.SameRows.raLost (d : Dev) (l : List Cell) : d.SameRows (d.raLost l) :=
  ⟨rfl, rfl, rfl, rfl, rfl, rfl, fun _ => rfl, rfl, rfl, rfl, rfl, rfl, rfl, rfl, rfl, rfl⟩

/-- The slot before is closed in the radio alone. -/
theorem Dev.closeRxSlot_radio (d : Dev) (r : RadioId) :
    ∃ f : Radio → Radio, d.closeRxSlot r = d.modRadio r f ∧ ∀ x, (f x).cells = x.cells ∧ (f x).missRun = x.missRun := by
  unfold Dev.closeRxSlot
  dsimp only
  split
  next =>
    refine ⟨id, ?_, fun x => ⟨rfl, rfl⟩⟩
    unfold Dev.modRadio Dev.setRadio Dev.radio
    split <;> rfl
  next => exact ⟨_, rfl, fun x => ⟨rfl, rfl⟩⟩

/-! ## Registers behind the slot tick -/

theorem boundOf_rfCoexcfg (r : RadioId) : boundOf (Reg.rfCoexcfg r) = .slotTick := by
  revert r
  decide +kernel

theorem boundOf_bbpRx (r : RadioId) : boundOf (Reg.bbpAgccfg r) = .slotTick ∧ boundOf (Reg.bbpCapcfg r) = .slotTick ∧
    boundOf (Reg.bbpDetcfg r) = .slotTick := by
  revert r
  decide +kernel

section
variable {d e : Dev} (h : d.SameRows e) (r : RadioId)
include h

theorem Dev.SameRows.cfgFld {f : Field} (hf : boundOf f.addr ≠ .atOnce) : e.cfgFld f = d.cfgFld f := congrArg f.of (h.cfg hf)

theorem Dev.SameRows.cfgBit {f : Field} (hf : boundOf f.addr ≠ .atOnce) : e.cfgBit f = d.cfgBit f :=
  congrArg (· == 1) (h.cfgFld hf)

theorem Dev.SameRows.granted (gnt : Bool) : e.granted r gnt = d.granted r gnt := by
  have hb : boundOf (Reg.rfCoexcfg r) ≠ .atOnce := by rw [boundOf_rfCoexcfg]; decide
  unfold Dev.granted
  rw [h.cfgBit (f := Reg.rfCoexcfg_en r) hb, h.cfgBit (f := Reg.rfCoexcfg_gnt_pol r) hb]

theorem Dev.SameRows.agcTarget : e.agcTarget r = d.agcTarget r := by
  unfold Dev.agcTarget
  rw [h.cfgFld (f := Reg.bbpAgccfg_target r) (by show boundOf (Reg.bbpAgccfg r) ≠ _; rw [(boundOf_bbpRx r).1]; decide)]

theorem Dev.SameRows.captureDb : e.captureDb r = d.captureDb r := by
  unfold Dev.captureDb
  rw [h.cfgFld (f := Reg.bbpCapcfg_capture_db r) (by show boundOf (Reg.bbpCapcfg r) ≠ _; rw [(boundOf_bbpRx r).2.1]; decide)]

theorem Dev.SameRows.capEn : e.capEn r = d.capEn r :=
  h.cfgBit (f := Reg.bbpCapcfg_cap_en r) (by show boundOf (Reg.bbpCapcfg r) ≠ _; rw [(boundOf_bbpRx r).2.1]; decide)

end

/-! ## An acquisition opens -/

/-- The device whose radio has opened its acquisition for slot `s`, before lock is looked at. -/
def Dev.acqBegun (d : Dev) (r : RadioId) (s : Int) (wb : Cdb) : Dev :=
  let d := d.closeRxSlot r
  let d := d.raLost ((d.radio r).cells.filter fun c => decide (c.firstS + c.train ≤ s))
  d.modRadio r fun x => { x with
    cells := x.cells.filter fun c => decide (s < c.firstS + c.train), rxS := some s, noRx := false, stuck := true,
    wbNoise := wb, quiet := [], released := false, gainHist := [], coarse := none }

section
variable {d : Dev} {r : RadioId} (hc : (d.radio r).cells = []) (s : Int) (wb : Cdb)

theorem Dev.acqBegun_rows : d.SameRows (d.acqBegun r s wb) := by
  obtain ⟨f, hf, -⟩ := d.closeRxSlot_radio r
  unfold Dev.acqBegun
  rw [hf]
  exact ((Dev.SameRows.modRadio d r f).trans (.raLost _ _)).trans (.modRadio _ _ _)

theorem Dev.acqBegun_regs : (d.acqBegun r s wb).regs = d.regs := by
  obtain ⟨f, hf, -⟩ := d.closeRxSlot_radio r
  unfold Dev.acqBegun
  rw [hf]
  exact (Dev.modRadio_regs _ _ _).trans (Dev.modRadio_regs _ _ _)

theorem Dev.acqBegun_other {q : RadioId} (hq : q ≠ r) : (d.acqBegun r s wb).radio q = d.radio q := by
  obtain ⟨f, hf, -⟩ := d.closeRxSlot_radio r
  unfold Dev.acqBegun
  rw [hf]
  exact (Dev.radio_modRadio_ne _ hq _).trans ((Dev.raLost_radio _ _ _).trans (Dev.radio_modRadio_ne _ hq _))

include hc

/-- A radio without a reception in progress begins with none. -/
theorem Dev.acqBegun_radio :
    ((d.acqBegun r s wb).radio r).cells = [] ∧ ((d.acqBegun r s wb).radio r).rxS = some s ∧
      ((d.acqBegun r s wb).radio r).noRx = false ∧ ((d.acqBegun r s wb).radio r).wbNoise = wb ∧
      ((d.acqBegun r s wb).radio r).missRun = (d.radio r).missRun ∧
      ∀ c, (d.acqBegun r s wb).counter c = d.counter c := by
  obtain ⟨f, hf, hkeep⟩ := d.closeRxSlot_radio r
  obtain ⟨hcells, hmiss⟩ := hkeep (d.radio r)
  unfold Dev.acqBegun
  rw [hf]
  dsimp only
  simp only [Dev.radio_modRadio_self, Dev.raLost_radio, hcells, hmiss, hc, List.filter_nil, true_and]
  intro c
  exact (Dev.counter_congr (Dev.modRadio_counters _ _ _) c).trans
    ((Dev.raLost_nil _ c).trans (Dev.counter_congr (Dev.modRadio_counters _ _ _) c))

/-- So no reception continues over the boundary. -/
theorem Dev.acqBegun_rxCont : ((d.acqBegun r s wb).radio r).rxCont = false := by
  obtain ⟨hcells, hrx, -⟩ := Dev.acqBegun_radio hc s wb
  unfold Radio.rxCont
  rw [hrx, hcells]
  rfl

end

theorem rfStat_separate (r : RadioId) : (Reg.rfStat_lock r).separate (Reg.rfStat_state r) = true ∧
    (Reg.rfStat_synth_miss r).separate (Reg.rfStat_lock r) = true := by
  revert r
  decide

/-- What lock tells. -/
theorem Dev.lockSeen_frame (d : Dev) (r : RadioId) (lock : Bool) :
    d.SameRows (d.lockSeen r lock).1 ∧ (∃ n, ((d.lockSeen r lock).1.radio r) = { d.radio r with missRun := n } ∧
      (lock = false → n ≤ (d.radio r).missRun + 1) ∧ (d.lockSeen r lock).2 = decide (4 ≤ n)) ∧
      (∀ q, q ≠ r → (d.lockSeen r lock).1.radio q = d.radio q) ∧ (d.lockSeen r lock).1.counters = d.counters ∧
      (d.lockSeen r lock).1.bit (Reg.rfStat_lock r) = lock := by
  unfold Dev.lockSeen
  dsimp only
  generalize hn : (if lock = true then 0 else _ : Nat) = n
  refine ⟨(Dev.SameRows.modRadio d r _).trans (.setFld_rfStat _ r _ rfl (rfStat_separate r).1),
    ⟨n, (Dev.radio_setBit _ _ _ r).trans (Dev.radio_modRadio_self d r _), fun hl => ?_, rfl⟩,
    fun q hq => (Dev.radio_setBit _ _ _ q).trans (Dev.radio_modRadio_ne d hq _),
    (Dev.setFld_counters _ _ _).trans (Dev.modRadio_counters _ _ _), Dev.bit_setBit_self _ _ _ (by simp [Reg.rfStat_lock])⟩
  rw [← hn, hl, if_neg Bool.false_ne_true]
  have hstep (b : Bool) : (if b = true then (d.radio r).missRun + 1 else (d.radio r).missRun) ≤ (d.radio r).missRun + 1 := by
    split <;> omega
  exact hstep _

/-- The radio takes new cells at PRESET, and LNA_EN rises. -/
def Dev.takeCells (d : Dev) (r : RadioId) (l : List Cell) (wb : Cdb) : Dev :=
  let d := d.modRadio r fun x => { x with cells := x.cells ++ l }
  let d := d.modRadio r fun x => { x with agc := .preset, passed := false, attacks := 0, pfrz := wb }
  let d := d.modRadio r fun x => { x with gain := d.presetGain r }
  d.drive r (d.paEn r) true

theorem Dev.takeCells_frame (d : Dev) (r : RadioId) (l : List Cell) (wb : Cdb) :
    (∃ g p, (d.takeCells r l wb).radio r = { d.radio r with
      cells := (d.radio r).cells ++ l, agc := .preset, passed := false, attacks := 0, pfrz := wb, gain := g, pins := p }) ∧
      (∀ q, q ≠ r → (d.takeCells r l wb).radio q = d.radio q) ∧ (d.takeCells r l wb).regs = d.regs := by
  unfold Dev.takeCells
  have hr : ((d.modRadio r fun x => { x with cells := x.cells ++ l }).modRadio r fun x =>
      { x with agc := .preset, passed := false, attacks := 0, pfrz := wb }).radio r = { d.radio r with
        cells := (d.radio r).cells ++ l, agc := .preset, passed := false, attacks := 0, pfrz := wb } := by
    rw [Dev.radio_modRadio_self, Dev.radio_modRadio_self]
  have hq : ∀ q, q ≠ r → ((d.modRadio r fun x => { x with cells := x.cells ++ l }).modRadio r fun x =>
      { x with agc := .preset, passed := false, attacks := 0, pfrz := wb }).radio q = d.radio q := fun q hq =>
    (Dev.radio_modRadio_ne _ hq _).trans (Dev.radio_modRadio_ne _ hq _)
  have hregs : ((d.modRadio r fun x => { x with cells := x.cells ++ l }).modRadio r fun x =>
      { x with agc := .preset, passed := false, attacks := 0, pfrz := wb }).regs = d.regs :=
    (Dev.modRadio_regs _ _ _).trans (Dev.modRadio_regs _ _ _)
  dsimp only
  generalize ((d.modRadio r fun x => { x with cells := x.cells ++ l }).modRadio r fun x =>
      { x with agc := .preset, passed := false, attacks := 0, pfrz := wb }) = e at *
  refine ⟨?_, fun q h => ?_, ?_⟩
  · obtain ⟨p, hp⟩ := Dev.drive_radio (e.modRadio r fun x => { x with gain := e.presetGain r }) r
      ((e.modRadio r fun x => { x with gain := e.presetGain r }).paEn r) true
    exact ⟨e.presetGain r, p, hp.trans (by rw [Dev.radio_modRadio_self, hr])⟩
  · exact ((Dev.OtherRadios.drive r _ _ _).radio q h).trans ((Dev.radio_modRadio_ne _ h _).trans (hq q h))
  · exact (Dev.modRadio_regs _ _ _).trans ((Dev.modRadio_regs _ _ _).trans hregs)

section
variable {d : Dev} {r : RadioId} {gnt : Bool} {wb : Cdb} (hw : d.willRun r d.nextS = true)
  (hx : d.rxRow (d.rowCarried r d.nextS) d.nextS = true) (hc : (d.radio r).cells = [])
include hw hx hc

/-- With lock and a grant of the coexistence partner, the cells that begin are taken. -/
theorem Dev.acquisitionOpen_eq_takeCells (hg : d.granted r gnt = true) :
    d.acquisitionOpen r true gnt wb =
      let e := ((d.acqBegun r d.nextS wb).lockSeen r true).1
      e.takeCells r (d.grantedCells (d.rowCarried r d.nextS) d.nextS) wb := by
  have hcont := Dev.acqBegun_rxCont hc d.nextS wb
  have hrows := (Dev.acqBegun_rows (d := d) (r := r) d.nextS wb).trans ((d.acqBegun r d.nextS wb).lockSeen_frame r true).1
  have hgr := (hrows.granted r gnt).trans hg
  have hcells := hrows.grantedCells (d.rowCarried r d.nextS) d.nextS
  unfold Dev.acquisitionOpen
  rw [if_neg (by rw [hw, hx]; decide)]
  unfold Dev.acqBegun at *
  dsimp only at *
  rw [hcont]
  simp only [hgr, hcells, Bool.false_eq_true, if_false, Bool.not_true, Bool.and_false]
  rfl

/-- Without lock, while fewer than three slots before it missed, no reception is taken. -/
theorem Dev.acquisitionOpen_of_miss (hm : (d.radio r).missRun < 3) :
    d.acquisitionOpen r false gnt wb =
      (((((d.acqBegun r d.nextS wb).lockSeen r false).1.bump (Cnt.rxSynthMiss r)).raise (Reg.rfStat_synth_miss r)).refuseRx
        r) := by
  have hcont := Dev.acqBegun_rxCont hc d.nextS wb
  obtain ⟨-, -, -, -, hmiss, -⟩ := Dev.acqBegun_radio hc d.nextS wb
  obtain ⟨-, ⟨n, -, hn, hfail⟩, -⟩ := (d.acqBegun r d.nextS wb).lockSeen_frame r false
  have hrun : ((d.acqBegun r d.nextS wb).lockSeen r false).2 = false := by
    have := hn rfl
    rw [hfail, decide_eq_false_iff_not]
    omega
  unfold Dev.acquisitionOpen
  rw [if_neg (by rw [hw, hx]; decide)]
  unfold Dev.acqBegun at *
  dsimp only at *
  rw [hcont]
  simp only [hrun, Bool.false_eq_true, if_false, Bool.not_false, Bool.and_self, if_true]

end

theorem Dev.coexFall_radio (d : Dev) (r : RadioId) :
    ∃ f : Radio → Radio, d.coexFall r = d.modRadio r f ∧ ∀ x, (f x).noRx = x.noRx ∧ (f x).cells = x.cells := by
  unfold Dev.coexFall
  split
  · exact ⟨_, rfl, fun _ => ⟨rfl, rfl⟩⟩
  · exact ⟨_, rfl, fun _ => ⟨rfl, rfl⟩⟩

/-- A refusal shows in the radio alone: no reception, and its cells stay. -/
theorem Dev.refuseRx_frame (d : Dev) (r : RadioId) :
    ((d.refuseRx r).radio r).noRx = true ∧ ((d.refuseRx r).radio r).cells = (d.radio r).cells ∧
      (d.refuseRx r).regs = d.regs ∧ (d.refuseRx r).counters = d.counters := by
  unfold Dev.refuseRx
  dsimp only
  have hno : ((d.modRadio r fun x => { x with noRx := true }).radio r).noRx = true := by rw [Dev.radio_modRadio_self]
  have hcells : ((d.modRadio r fun x => { x with noRx := true }).radio r).cells = (d.radio r).cells := by
    rw [Dev.radio_modRadio_self]
  have hregs : (d.modRadio r fun x => { x with noRx := true }).regs = d.regs := Dev.modRadio_regs _ _ _
  have hcnt : (d.modRadio r fun x => { x with noRx := true }).counters = d.counters := Dev.modRadio_counters _ _ _
  generalize (d.modRadio r fun x => { x with noRx := true }) = e at *
  split
  next => exact ⟨hno, hcells, hregs, hcnt⟩
  next =>
    obtain ⟨f, hf, hkeep⟩ := e.coexFall_radio r
    obtain ⟨kno, kcells⟩ := hkeep (e.radio r)
    rw [hf, Dev.radio_modRadio_self]
    exact ⟨kno.trans hno, kcells.trans hcells, (Dev.modRadio_regs _ _ _).trans hregs,
      (Dev.modRadio_counters _ _ _).trans hcnt⟩

/-! ## A radio that fails -/

/-- The registers, and every radio's cells and front end, are those of `d`. -/
structure Dev.FrontKept (d e : Dev) : Prop where
  regs : e.regs = d.regs
  cells : ∀ q, (e.radio q).cells = (d.radio q).cells
  pins : ∀ q, (e.radio q).pins = (d.radio q).pins

theorem Dev.FrontKept.refl (d : Dev) : d.FrontKept d := ⟨rfl, fun _ => rfl, fun _ => rfl⟩

theorem Dev.FrontKept.trans {a b c : Dev} (h : a.FrontKept b) (k : b.FrontKept c) : a.FrontKept c :=
  ⟨k.regs.trans h.regs, fun q => (k.cells q).trans (h.cells q), fun q => (k.pins q).trans (h.pins q)⟩

theorem Dev.FrontKept.of_radios {d e : Dev} (h : e.regs = d.regs) (k : ∀ q, e.radio q = d.radio q) : d.FrontKept e :=
  ⟨h, fun q => by rw [k q], fun q => by rw [k q]⟩

theorem Dev.FrontKept.foldl {α : Type} {f : Dev → α → Dev} (h : ∀ (d : Dev) a, d.FrontKept (f d a)) (l : List α) (d : Dev) :
    d.FrontKept (l.foldl f d) := List.foldlRecOn l f (.refl d) fun _ hb a _ => hb.trans (h _ a)

theorem Dev.FrontKept.releasePart (d : Dev) (p : TxPart) : d.FrontKept (d.releasePart p) := by
  have hq : ∀ q, (d.releasePart p).radio q = d.radio q := Dev.radio_congr
    (by unfold Dev.releasePart; split <;> rfl) (by unfold Dev.releasePart; split <;> rfl)
    (by unfold Dev.releasePart; split <;> rfl)
  exact .of_radios (by unfold Dev.releasePart; split <;> rfl) hq

theorem Dev.FrontKept.releaseBurst (d : Dev) (b : Burst) : d.FrontKept (d.releaseBurst b) := by
  unfold Dev.releaseBurst
  refine (Dev.FrontKept.foldl Dev.FrontKept.releasePart b.parts d).trans ?_
  generalize b.parts.foldl Dev.releasePart d = e
  dsimp only
  split
  next => exact .refl e
  next => exact .of_radios rfl (Dev.radio_congr rfl rfl rfl)

/-- A radio takes planned bursts. -/
theorem Dev.FrontKept.modRadio (d : Dev) (r : RadioId) {f : Radio → Radio}
    (h : ∀ x, (f x).cells = x.cells ∧ (f x).pins = x.pins) : d.FrontKept (d.modRadio r f) where
  regs := Dev.modRadio_regs _ _ _
  cells q := by
    rw [Dev.radio_modRadio]
    split
    next hq => rw [(h _).1, hq]
    next => rfl
  pins q := by
    rw [Dev.radio_modRadio]
    split
    next hq => rw [(h _).2, hq]
    next => rfl

theorem Dev.FrontKept.moveBursts (d : Dev) (r : RadioId) (l : List Burst) : d.FrontKept (d.moveBursts r l) := by
  unfold Dev.moveBursts
  refine .foldl (fun d b => ?_) l d
  split
  · exact .modRadio _ _ fun _ => ⟨rfl, rfl⟩
  · exact .releaseBurst _ _

theorem Dev.recordFaultSeq_frontKept (d : Dev) (l : List (Nat × Byte)) : d.FrontKept (d.recordFaultSeq l) := by
  unfold Dev.recordFaultSeq
  refine .foldl (fun d a => ?_) l d
  exact .of_radios rfl (Dev.radio_congr rfl rfl rfl)

/-- What a radio held is dropped; its state stays. -/
theorem Dev.clearAir_frame (d : Dev) (r : RadioId) :
    ((d.clearAir r).radio r).cells = [] ∧ (d.clearAir r).rfState r = d.rfState r := by
  unfold Dev.clearAir
  dsimp only
  have hregs : ∀ (l : List Cell) (p : List Burst) (a : List (Nat × Byte)) (f : Radio → Radio),
      (p.foldl Dev.releaseBurst (((d.modRadio r f).recordFaultSeq a).raLost l)).regs = d.regs := fun l p a f =>
    (Dev.FrontKept.foldl Dev.FrontKept.releaseBurst p _).regs.trans
      ((Dev.recordFaultSeq_frontKept _ a).regs.trans (Dev.modRadio_regs _ _ _))
  refine ⟨by rw [Dev.radio_setBit, Dev.radio_modRadio_self], ?_⟩
  refine (Dev.fld_setFld_of_separate _ (Reg.rfStat_lock r) (Reg.rfStat_state r) _ (rfStat_separate r).1).trans
    (Dev.fld_congr ((Dev.modRadio_regs _ _ _).trans (hregs _ _ _ _)) _)

/-- A radio that fails shows FAILED, holds no reception, and its front end is low. -/
theorem Dev.failRadio_frame {d : Dev} {r : RadioId} (h : d.rfState r ≠ rsFailed) (cause : Nat) :
    (d.failRadio r cause).rfState r = rsFailed ∧ ((d.failRadio r cause).radio r).cells = [] ∧
      (d.failRadio r cause).paEn r = false ∧ (d.failRadio r cause).lnaEn r = false := by
  unfold Dev.failRadio
  dsimp only
  generalize (List.filter _ (d.radio r).planned) = moved
  generalize d.remapFirst = first
  have hstate : (d.modRadio r fun x => { x with planned := x.planned.filter fun b => !moved.contains b }).rfState r ≠ rsFailed := by
    rw [show (d.modRadio r _).rfState r = d.rfState r from Dev.fld_congr (Dev.modRadio_regs _ _ _) _]
    exact h
  generalize (d.modRadio r fun x => { x with planned := x.planned.filter fun b => !moved.contains b }) = a at hstate ⊢
  obtain ⟨hcells, hrf⟩ := a.clearAir_frame r
  rw [← hrf] at hstate
  generalize a.clearAir r = b at *
  obtain ⟨p, hp⟩ := b.drive_radio r false false
  have hlow := b.drive_low r
  have hdrive : (b.drive r false false).rfState r ≠ rsFailed := by
    rw [show (b.drive r false false).rfState r = b.rfState r from Dev.fld_congr (Dev.modRadio_regs _ _ _) _]
    exact hstate
  generalize b.drive r false false = e at *
  have hradio := e.setRf_radio cause hdrive r
  have hfailed := e.setRf_rfState cause hdrive (by decide)
  generalize e.setRf r rsFailed cause = x at *
  generalize (Remap.mk r 0 first false false :: _ : List Remap) = remaps
  have hmove := Dev.FrontKept.moveBursts ({ x with sch := { x.sch with remaps := remaps } } : Dev) r moved
  have hpins := (hmove.pins r).trans (congrArg Radio.pins hradio)
  refine ⟨(Dev.fld_congr hmove.regs _).trans hfailed, (hmove.cells r).trans ?_, ?_, ?_⟩
  · exact (congrArg Radio.cells (hradio.trans hp)).trans hcells
  · exact (congrArg (BitVec.getLsbD · 8) hpins).trans hlow.1
  · exact (congrArg (BitVec.getLsbD · 7) hpins).trans hlow.2

/-! ## Attacks and later preambles -/

theorem Dev.rfState_of_receives {d : Dev} {r : RadioId} (h : d.receives r = true) : d.rfState r ≠ rsFailed := by
  simp only [Dev.receives, Dev.rfReadyRun, Bool.and_eq_true, Bool.or_eq_true, beq_iff_eq] at h
  obtain ⟨⟨hrun | hrun, -⟩, -⟩ := h <;> rw [hrun] <;> decide

/-- A capture shows in a register that the gain does not rest on. -/
theorem Dev.SameRows.raiseCapture (d : Dev) (r : RadioId) : d.SameRows (d.raise (Reg.bbpRxstat_capture r)) :=
  .setReg d (Reg.bbpRxstat r) _ (by revert r; decide +kernel) (by revert r; decide) (by revert r; decide)
    (by revert r; decide)

section
variable {d : Dev} {r : RadioId} {w : WbRise} (hrx : d.receives r = true) (hrel : (d.radio r).released = false)
include hrx hrel

theorem Dev.wideband_of_low (h : riseAbove w ((d.radio r).wbNoise + d.riseDb r) = false) : d.wideband r w = d := by
  unfold Dev.wideband
  exact if_pos (by simp [hrx, hrel, h])

theorem Dev.wideband_of_attack (h : riseAbove w ((d.radio r).wbNoise + d.riseDb r) = true)
    (hin : riseIn w (d.rowSpan r) = true) (hp : (d.radio r).agc = .preset) (hc : (d.radio r).rxCont = false) :
    d.wideband r w = (d.attack r w).bump (Cnt.detRadio r) := by
  unfold Dev.wideband
  exact (if_neg (by simp [hrx, hrel, h])).trans (if_pos (by simp [hin, hp, hc]))

theorem Dev.laterRise_of_low (h : riseReaches w ((d.radio r).pfrz + d.riseDb r) = false) (l : List (Nat × Cdb)) :
    d.laterRise r w l = d := by
  unfold Dev.laterRise
  exact if_pos (by simp [hrx, hrel, h])

/-- Inside the span of a frozen gain, a later rise attacks again where it reaches CAPTURE_DB, and is lost where not. -/
theorem Dev.laterRise_of_span (hf : (d.radio r).agc = .frozen) (hc : (d.radio r).rxCont = false) (hcap : d.capEn r = true)
    (h : riseReaches w ((d.radio r).pfrz + d.riseDb r) = true) (hin : riseIn w (d.rowSpan r) = true) (l : List (Nat × Cdb)) :
    d.laterRise r w l =
      let e := d.raise (Reg.bbpRxstat_capture r)
      if (d.radio r).pfrz + d.captureDb r ≤ w.level then (e.attack r w).bump (Cnt.captureRestart r)
      else e.bump (Cnt.captureLost r) := by
  have hrows := Dev.SameRows.raiseCapture d r
  unfold Dev.laterRise
  refine (if_neg (by simp [hrx, hrel, h, hf])).trans ?_
  dsimp only
  rw [if_pos hin, hrows.captureDb, hrows.capEn, hcap, hc]
  simp

end

section
variable {d : Dev} {r : RadioId} {gnt : Bool} {wb : Cdb} (hw : d.willRun r d.nextS = true)
  (hx : d.rxRow (d.rowCarried r d.nextS) d.nextS = true) (hc : (d.radio r).cells = [])
include hw hx hc

/-- With lock and a grant the radio takes the cells of its row. -/
theorem Dev.acquisitionOpen_takes (hg : d.granted r gnt = true) :
    let e := d.acquisitionOpen r true gnt wb
    (e.radio r).rxS = some d.nextS ∧ (e.radio r).noRx = false ∧ (e.radio r).agc = .preset ∧ (e.radio r).wbNoise = wb ∧
      (e.radio r).cells = d.grantedCells (d.rowCarried r d.nextS) d.nextS ∧ e.bit (Reg.rfStat_lock r) = true ∧
      ∀ q, q ≠ r → e.radio q = d.radio q := by
  have hopen := Dev.acquisitionOpen_eq_takeCells (wb := wb) hw hx hc hg
  have hother := fun q hq => Dev.acqBegun_other (d := d) (r := r) d.nextS wb (q := q) hq
  obtain ⟨hcells, hrxs, hno, hwb, -⟩ := Dev.acqBegun_radio hc d.nextS wb
  generalize d.acqBegun r d.nextS wb = b at *
  obtain ⟨-, ⟨n, hradio, -, -⟩, hlother, -, hlock⟩ := b.lockSeen_frame r true
  generalize (b.lockSeen r true).1 = e at *
  obtain ⟨⟨g, p, htaken⟩, htother, hregs⟩ := e.takeCells_frame r (d.grantedCells (d.rowCarried r d.nextS) d.nextS) wb
  intro x
  have hx : x = e.takeCells r (d.grantedCells (d.rowCarried r d.nextS) d.nextS) wb := hopen
  clear_value x
  subst hx
  rw [htaken, hradio]
  exact ⟨hrxs, hno, rfl, hwb, by rw [hcells, List.nil_append], (Dev.bit_congr hregs _).trans hlock,
    fun q hq => (htother q hq).trans ((hlother q hq).trans (hother q hq))⟩

/-- Without lock it takes none, and counts the miss. -/
theorem Dev.acquisitionOpen_misses (hm : (d.radio r).missRun < 3) :
    let e := d.acquisitionOpen r false gnt wb
    (e.radio r).noRx = true ∧ (e.radio r).cells = [] ∧
      e.counter (Cnt.rxSynthMiss r) = d.counter (Cnt.rxSynthMiss r) + 1 ∧
      e.bit (Reg.rfStat_synth_miss r) = true ∧ e.bit (Reg.rfStat_lock r) = false := by
  have hopen := Dev.acquisitionOpen_of_miss (gnt := gnt) (wb := wb) hw hx hc hm
  obtain ⟨hcells, -, -, -, -, hcnt⟩ := Dev.acqBegun_radio hc d.nextS wb
  generalize d.acqBegun r d.nextS wb = b at *
  obtain ⟨-, ⟨n, hradio, -, -⟩, -, hlcnt, hlock⟩ := b.lockSeen_frame r false
  generalize (b.lockSeen r false).1 = e at *
  obtain ⟨hno, hkept, hregs, hcnts⟩ := ((e.bump (Cnt.rxSynthMiss r)).raise (Reg.rfStat_synth_miss r)).refuseRx_frame r
  intro x
  have hx : x = ((e.bump (Cnt.rxSynthMiss r)).raise (Reg.rfStat_synth_miss r)).refuseRx r := hopen
  clear_value x
  subst hx
  rw [Dev.radio_raise, Dev.radio_bump, hradio] at hkept
  refine ⟨hno, hkept.trans hcells, ?_,
    (Dev.bit_congr hregs _).trans (Dev.bit_raise_self _ _ (by simp [Reg.rfStat_synth_miss])), ?_⟩
  · rw [Dev.counter_congr hcnts, Dev.counter_raise, Dev.counter_bump_self, Dev.counter_congr hlcnt, hcnt]
  · refine (Dev.bit_congr hregs _).trans ((Dev.bit_setFld_of_separate _ _ _ _ (rfStat_separate r).2).trans ?_)
    exact (Dev.bit_bump _ _ _).trans hlock

end

/-- In its fourth consecutive stuck slot a radio fails. -/
theorem Dev.stuckSlot_of_fourth {d : Dev} {r : RadioId} (hrx : d.receives r = true)
    (hs : (d.radio r).rxS = some d.tim.slotS) (hst : (d.radio r).stuck = true) (hrun : 3 ≤ (d.radio r).stuckRun) :
    d.stuckSlot r = (d.reachTai (d.tickTai d.tim.slotS + 2203125)).failRadio r 5 := by
  unfold Dev.stuckSlot
  exact if_pos (by simp [hrx, hs, hst, hrun])

theorem Dev.reachTai_regs (d : Dev) (t : Int) : (d.reachTai t).regs = d.regs := by
  unfold Dev.reachTai
  split
  · rfl
  · rfl

/-- Settles O42. -/
theorem acquisition : Obligations.Acquisition := by
  unfold Obligations.Acquisition
  intro s r hup
  refine ⟨fun lock gnt wb hw hx hc => ⟨fun hl hg => ?_, fun hl hm => ?_⟩, fun w hrx hrel => ?_,
    fun hrx hs hst => ⟨fun hrun => ?_, fun hrun => ?_⟩⟩
  · subst hl
    exact ⟨_, .of_runUp hup rfl rfl, Dev.acquisitionOpen_takes hw hx hc hg⟩
  · subst hl
    exact ⟨_, .of_runUp hup rfl rfl, Dev.acquisitionOpen_misses hw hx hc hm⟩
  · refine ⟨fun h => .of_runUp hup rfl (Dev.wideband_of_low hrx hrel h), fun h hin hp hc => ?_, fun h l => ?_,
      fun hf hc hcap h hin l => ?_⟩
    · exact .of_runUp hup rfl (Dev.wideband_of_attack hrx hrel h hin hp hc)
    · exact .of_runUp hup rfl (Dev.laterRise_of_low hrx hrel h l)
    · have hlate := Dev.laterRise_of_span hrx hrel hf hc hcap h hin l
      refine ⟨fun hreach => .of_runUp hup rfl (hlate.trans ((if_pos hreach).trans ?_)),
        fun hless => .of_runUp hup rfl (hlate.trans (if_neg (not_le.mpr hless)))⟩
      unfold Dev.attack
      rw [(Dev.SameRows.raiseCapture s.dev r).agcTarget]
  · refine ⟨_, .of_runUp hup rfl (Dev.stuckSlot_of_fourth hrx hs hst hrun), Dev.failRadio_frame ?_ 5⟩
    rw [show (s.dev.reachTai _).rfState r = s.dev.rfState r from Dev.fld_congr (Dev.reachTai_regs _ _) _]
    exact Dev.rfState_of_receives hrx
  · refine .of_runUp hup rfl (if_neg ?_)
    simp only [Bool.and_eq_true, decide_eq_true_eq, not_and]
    omega

end Sys2Proof.Machine
end

section
/-! # SYNC of one granted uplink (R82, R92 to R94) -/

namespace Sys2Proof.Machine

/-- Of a fold over indices only one changes anything. -/
theorem foldl_range_single {α : Type} {f : α → Nat → α} {a b : α} {k : Nat} (hk : f a k = b) (n : Nat)
    (ha : ∀ i < n, i ≠ k → f a i = a) (hb : ∀ i < n, i ≠ k → f b i = b) :
    (List.range n).foldl f a = if k < n then b else a := by
  induction n with
  | zero => rfl
  | succ n ih =>
    rw [List.range_succ, List.foldl_append, List.foldl_cons, List.foldl_nil,
      ih (fun i hi => ha i (by omega)) fun i hi => hb i (by omega)]
    rcases Nat.lt_trichotomy k n with h | h | h
    · rw [if_pos h, if_pos (by omega), hb n (by omega) (by omega)]
    · rw [if_neg (by omega), if_pos (by omega), ← h, hk]
    · rw [if_neg (by omega), if_neg (by omega), ha n (by omega) (by omega)]

/-! ## What an evaluation rests on -/

theorem boundOf_bbpNoisecfg : boundOf Reg.bbpNoisecfg ≠ .atOnce := by decide +kernel

section
variable {d e : Dev} (h : d.SameRows e) (r : RadioId)
include h

theorem Dev.SameRows.detFld {f : Field} (hf : f.addr = Reg.bbpDetcfg r) : e.cfgFld f = d.cfgFld f :=
  h.cfgFld (by rw [hf, (boundOf_bbpRx r).2.2]; decide)

theorem Dev.SameRows.minObs : e.minObs = d.minObs := h.cfgFld (f := Reg.bbpNoisecfg_min_obs) boundOf_bbpNoisecfg

/-- The verdict on a SYNC rests on the configuration and the tracked floors. -/
theorem Dev.SameRows.syncPass (hf : (e.radio r).floors = (d.radio r).floors) (chan : Nat) (v : SyncEval) :
    e.syncPass r chan v = d.syncPass r chan v := by
  unfold Dev.syncPass Dev.evenNoise Dev.nhat Dev.floorOf
  rw [h.chan, hf, h.minObs, h.detFld r (f := Reg.bbpDetcfg_sync_thr r) rfl, h.detFld r (f := Reg.bbpDetcfg_cell_min r) rfl]

end

/-- A change of the only cell. -/
theorem Dev.modCell_single {d : Dev} {r : RadioId} {c : Cell} (hc : (d.radio r).cells = [c]) (f : Cell → Cell) :
    d.modCell r c f = d.modRadio r fun x => { x with cells := [f c] } := by
  unfold Dev.modCell Dev.modRadio
  dsimp only
  rw [hc, List.map_cons, List.map_nil, if_pos rfl]

/-! ## The evaluation of one subchannel -/

/-- A cell acquired on the grid windows. -/
def Cell.acquired (c : Cell) (e : Int) (level : Cdb) : Cell := { c with state := .acq, e := e, anchor := 0, level := level }

section
variable {d : Dev} {r : RadioId} {c : Cell} (hc : (d.radio r).cells = [c])
include hc

/-- A subchannel without a cell whose SYNC does not pass. -/
theorem Dev.evalOne_of_other {chan : Nat} {v : SyncEval} (hk : v.subch ≠ c.subch) (hs : d.syncPass r chan v = false) :
    d.evalOne r chan v = d := by
  unfold Dev.evalOne
  rw [hc]
  have hfind : [c].find? (fun c => c.subch == v.subch) = none := by
    simp only [List.find?_cons, List.find?_nil, beq_eq_false_iff_ne.mpr hk.symm]
  dsimp only
  rw [hfind]
  exact if_neg (by rw [hs, Bool.and_false]; decide)

variable (hkind : c.kind = .uplink)
include hkind

/-- No frame of a ranged child is among the cells. -/
theorem Dev.linkTiming_of_uplink : d.linkTiming r = d := by
  unfold Dev.linkTiming
  rw [hc]
  have hfind : [c].find? (fun c => c.kind == .mesh && c.firstS == d.rxSlot r && c.state != .idle &&
      decide (15625000 < c.e.natAbs)) = none := by
    simp only [List.find?_cons, List.find?_nil, hkind]
    rfl
  rw [hfind]

variable (hlink : c.link = none)
include hlink

/-- A granted uplink that arrives within 15.625 µs of its tick is acquired on the grid windows. -/
theorem Dev.cellPass_of_near {e : Int} (he : e.natAbs ≤ 15625000) (level : Cdb) :
    d.cellPass r c e level = (d.modRadio r fun x => { x with cells := [c.acquired e level] }).bump (Cnt.syncCell r) := by
  have hout : (decide (15625000 < e.natAbs) && (c.kind == .uplink || false)) = false := by
    rw [decide_eq_false (by omega), Bool.false_and]
  have hshift : d.windowShift c e = 0 := by
    unfold Dev.windowShift
    rw [hlink]
    refine (if_neg (by simp; omega)).trans ?_
    unfold anchorOf
    rw [if_neg (by omega), if_neg (by omega)]
  unfold Dev.cellPass
  rw [hlink]
  dsimp only
  rw [hout, hshift, Bool.false_and, if_neg Bool.false_ne_true, Dev.modCell_single hc, if_pos (by decide : (!false) = true),
    if_neg (by rw [hkind]; decide)]
  unfold Cell.acquired
  rw [hlink]

/-- The subchannel of an idle granted uplink, where its SYNC passes near its tick. -/
theorem Dev.evalOne_of_cell {chan : Nat} {v : SyncEval} (hk : v.subch = c.subch) (hf : c.firstS = d.rxSlot r)
    (hi : c.state = .idle) (he : (roundE (v.ePs - d.extDelayRx r)).natAbs ≤ 15625000)
    (hs : d.syncPass r c.chan v = true) :
    d.evalOne r chan v = (d.modRadio r fun x => { x with
      cells := [c.acquired (roundE (v.ePs - d.extDelayRx r)) v.level] }).bump (Cnt.syncCell r) := by
  have hspan : d.inSpan r (some c) (roundE (v.ePs - d.extDelayRx r)) = true := by
    unfold Dev.inSpan
    simp only [Option.bind_some, hlink, Bool.and_eq_true, decide_eq_true_eq]
    omega
  have hfind : [c].find? (fun c => c.subch == v.subch) = some c := by
    simp only [List.find?_cons, beq_iff_eq.mpr hk.symm]
  unfold Dev.evalOne
  rw [hc]
  dsimp only
  rw [hfind]
  dsimp only
  rw [if_neg (by rw [hspan, hs, hi, decide_eq_false (not_not.mpr hf)]; decide)]
  exact Dev.cellPass_of_near hc hkind hlink he v.level

end

/-- A cell that holds a reception keeps the gain frozen. -/
theorem Dev.releaseCheck_of_holds {d : Dev} {r : RadioId} {c : Cell} (hc : (d.radio r).cells = [c])
    (h : c.state = .acq ∨ c.state = .data) : d.releaseCheck r false = d := by
  unfold Dev.releaseCheck
  dsimp only
  rw [hc]
  have hany : ([c].any fun c => (c.state == .acq || c.state == .data) &&
      (!false || decide (d.rxSlot r + 1 < c.firstS + c.train))) = true := by
    rcases h with h | h <;> simp [h]
  exact if_pos (by rw [hany]; rfl)

/-- The evaluation of every subchannel, where the one granted uplink alone passes. -/
theorem Dev.syncEvaluation_of_one {d : Dev} {r : RadioId} {c : Cell} (hc : (d.radio r).cells = [c])
    (hkind : c.kind = .uplink) (hlink : c.link = none) {half : Samples} {cfg : ChanCfg} (hrx : d.receives r = true)
    (hf : c.firstS = d.rxSlot r) (hi : c.state = .idle) (hair : d.airChan (d.rowCarried r (d.rxSlot r)) = c.chan)
    (hcfg : d.chan c.chan = some cfg) (hsub : c.subch < modeSubch cfg.mode) {v : Nat → SyncEval}
    (hv : v = syncEvalOf cfg.mode (compensate ((d.radio r).gain :: (d.radio r).gainHist) half) ((d.radio r).coarse.getD 0))
    (he : (roundE ((v c.subch).ePs - d.extDelayRx r)).natAbs ≤ 15625000) (hs : d.syncPass r c.chan (v c.subch) = true)
    (hno : ∀ k, k < modeSubch cfg.mode → k ≠ c.subch → d.syncPass r c.chan (v k) = false) :
    d.syncEvaluation r half = (d.modRadio r fun x => { x with
      cells := [c.acquired (roundE ((v c.subch).ePs - d.extDelayRx r)) (v c.subch).level] }).bump (Cnt.syncCell r) := by
  subst hv
  generalize hx : compensate ((d.radio r).gain :: (d.radio r).gainHist) half = x at *
  generalize ht : (d.radio r).coarse.getD 0 = t at *
  have hcell := Dev.evalOne_of_cell hc hkind hlink (chan := c.chan) (v := syncEvalOf cfg.mode x t c.subch) rfl hf hi he hs
  generalize hacq : c.acquired _ _ = c' at hcell ⊢
  generalize hdone : (d.modRadio r fun x => { x with cells := [c'] }).bump (Cnt.syncCell r) = b at *
  have hb : (b.radio r).cells = [c'] := by rw [← hdone, Dev.radio_bump, Dev.radio_modRadio_self]
  have hfloors : (b.radio r).floors = (d.radio r).floors := by rw [← hdone, Dev.radio_bump, Dev.radio_modRadio_self]
  have hrows : d.SameRows b := hdone ▸ (Dev.SameRows.modRadio d r _).trans (.bumpBy _ _ _)
  have hkept : c'.subch = c.subch ∧ c'.kind = .uplink ∧ c'.state = .acq := hacq ▸ ⟨rfl, hkind, rfl⟩
  obtain ⟨hsub', hkind', hstate'⟩ := hkept
  have hfold : (List.range (modeSubch cfg.mode)).foldl (fun d k => d.evalOne r c.chan (syncEvalOf cfg.mode x t k)) d = b := by
    refine (foldl_range_single hcell _ (fun k hk hne => ?_) fun k hk hne => ?_).trans (if_pos hsub)
    · exact Dev.evalOne_of_other hc hne (hno k hk hne)
    · refine Dev.evalOne_of_other hb (hne.trans_eq hsub'.symm) ?_
      rw [hrows.syncPass r hfloors]
      exact hno k hk hne
  unfold Dev.syncEvaluation
  rw [if_neg (by simp [hrx])]
  dsimp only
  rw [hair, hcfg, hx, ht]
  dsimp only
  rw [List.foldl_map, hfold, Dev.linkTiming_of_uplink hb hkind', Dev.releaseCheck_of_holds hb (.inl hstate')]

end Sys2Proof.Machine
end

section
/-! # Verdicts on a reception (R95, R96, R67, R68, R112, R173) -/

namespace Sys2Proof.Machine

/-! ## What answering a reception leaves -/

/-- The counters of verdicts: SIG_FAIL and those of the CRC32 outcomes, of each radio. -/
def verdictCnt (c : Nat) : Prop := 0x100 ≤ c ∧ c < 0x160 ∧ (c % 32 = 4 ∨ 6 ≤ c % 32 ∧ c % 32 ≤ 10)

/-- The radios' cells, the decode queue and the counters of verdicts are those of `d`. -/
structure Dev.Heard (d e : Dev) : Prop where
  cells : ∀ q, (e.radio q).cells = (d.radio q).cells
  decodeQ : e.decodeQ = d.decodeQ
  counter : ∀ c, verdictCnt c → e.counter c = d.counter c

theorem Dev.Heard.refl (d : Dev) : d.Heard d := ⟨fun _ => rfl, rfl, fun _ _ => rfl⟩

theorem Dev.Heard.trans {a b c : Dev} (h : a.Heard b) (k : b.Heard c) : a.Heard c :=
  ⟨fun q => (k.cells q).trans (h.cells q), k.decodeQ.trans h.decodeQ, fun i hi => (k.counter i hi).trans (h.counter i hi)⟩

theorem Dev.Heard.of_same {d e : Dev} (h0 : e.r0 = d.r0) (h1 : e.r1 = d.r1) (h2 : e.r2 = d.r2) (hq : e.decodeQ = d.decodeQ)
    (hc : e.counters = d.counters) : d.Heard e :=
  ⟨fun q => by rw [Dev.radio_congr h0 h1 h2 q], hq, fun c _ => Dev.counter_congr hc c⟩

theorem Dev.Heard.of_book {d e : Dev} (h : d.Book e) : d.Heard e :=
  ⟨fun q => by rw [h.radio q], h.decodeQ, fun c hc => h.counter c (by unfold verdictCnt at hc; unfold bookCnt; omega)⟩

theorem Dev.Heard.setFld (d : Dev) (f : Field) (v : Nat) : d.Heard (d.setFld f v) := .of_same rfl rfl rfl rfl rfl

theorem Dev.Heard.raise (d : Dev) (f : Field) : d.Heard (d.raise f) := .setFld d f 1

theorem Dev.Heard.bump (d : Dev) {i : Nat} (h : ¬ verdictCnt i) : d.Heard (d.bump i) :=
  ⟨fun q => by rw [Dev.radio_bump], rfl,
    fun c hc => (d.counter_bumpBy i c 1).trans (if_neg fun (k : c = i) => h (k ▸ hc))⟩

theorem Dev.Heard.event (d : Dev) (ty code : Nat) (l : List (Nat × List Byte)) : d.Heard (d.event ty code l) :=
  .of_book (.event d ty code l)

theorem Dev.Heard.modSensor (d : Dev) (i : Nat) (f : SensorCtx → SensorCtx) : d.Heard (d.modSensor i f) :=
  .of_same rfl rfl rfl rfl rfl

theorem Dev.Heard.modRadio (d : Dev) (r : RadioId) {f : Radio → Radio} (h : ∀ x, (f x).cells = x.cells) :
    d.Heard (d.modRadio r f) where
  cells q := by
    rw [Dev.radio_modRadio]
    split
    next hq => rw [h, hq]
    next => rfl
  decodeQ := Dev.modRadio_decodeQ _ _ _
  counter c _ := Dev.counter_congr (Dev.modRadio_counters _ _ _) c

theorem Dev.Heard.foldl {α : Type} {f : Dev → α → Dev} (h : ∀ (d : Dev) a, d.Heard (f d a)) (l : List α) (d : Dev) :
    d.Heard (l.foldl f d) := List.foldlRecOn l f (.refl d) fun _ hb a _ => hb.trans (h _ a)

theorem Dev.Heard.sensorViolation (d : Dev) (code : Nat) {counter : Nat} (h : ¬ verdictCnt counter) (r : RadioId) (subch : Nat)
    (sidx sid : Option Nat) (report : Bool) : d.Heard (d.sensorViolation code counter r subch sidx sid report) := by
  have hb := (Dev.Heard.bump d h).trans (.raise _ Reg.schStat_violation)
  unfold Dev.sensorViolation
  generalize (d.bump counter).raise Reg.schStat_violation = e at *
  dsimp only
  generalize ((if violParty r subch sidx sid % 4 = 2 then 0 else code, violParty r subch sidx sid) : Nat × Nat) = key
  split
  · exact hb
  · refine hb.trans (.trans ?_ (.event _ _ _ _))
    exact .of_same rfl rfl rfl rfl rfl

theorem Dev.Heard.traceRx (d : Dev) (r : RadioId) (c : Cell) (result : Nat) (clipped : Bool) (ack : Option Nat) (e : Int) :
    d.Heard (d.traceRx r c result clipped ack e) := by
  unfold Dev.traceRx Dev.traceRadio
  dsimp only
  split
  · exact .of_book (.trace _ _ _)
  · exact .refl d

/-! ## Items of the task engine -/

theorem Dev.Heard.give (d : Dev) (i : Item) (w : WorkerId) : d.Heard (d.give i w) := by
  have hc : ¬ verdictCnt (if d.lastRunner i = some w then Cnt.dispatchAffine else Cnt.dispatchOther) := by
    unfold verdictCnt
    split <;> decide
  have hb := Dev.Heard.bump d hc
  unfold Dev.give
  generalize d.bump _ = e at *
  dsimp only
  generalize hx : ({ e with tsk := _ } : Dev) = x
  have hex : e.Heard x := hx ▸ .of_same rfl rfl rfl rfl rfl
  split
  · exact ((hb.trans hex).trans (.setFld _ _ _)).trans (.setFld _ _ _)
  · exact (hb.trans hex).trans (.setFld _ _ _)

theorem Dev.Heard.offer (d : Dev) (i : Item) : d.Heard (d.offer i) := by
  unfold Dev.offer
  dsimp only
  split
  · split
    · exact .give _ _ _
    · split
      · exact .refl d
      · exact .give _ _ _
  · split
    · exact .refl d
    · exact .give _ _ _

theorem Dev.Heard.showLevel (d : Dev) : d.Heard d.showLevel := by
  have hs := Dev.Heard.setFld d Reg.tskLevel_in_use d.tsk.items.length
  unfold Dev.showLevel
  dsimp only
  generalize d.setFld Reg.tskLevel_in_use d.tsk.items.length = e at *
  split
  · refine hs.trans (.trans ?_ (.setFld _ _ _))
    exact .of_same rfl rfl rfl rfl rfl
  · exact hs

theorem Dev.Heard.newItem (d : Dev) (p : Pool) (key : Nat) (work : Work) (x : Option (Fin 8 × Nat)) :
    d.Heard (d.newItem p key work x) := by
  unfold Dev.newItem
  dsimp only
  generalize (Item.mk _ _ _ _ _ _ _ _ _ _ _) = i
  generalize ht : ({ d with tsk := _ } : Dev) = e
  have he : d.Heard e := ht ▸ .of_same rfl rfl rfl rfl rfl
  have hl : d.Heard (e.bump Cnt.itemCreated).showLevel :=
    (he.trans (.bump e (by unfold verdictCnt; decide))).trans (.showLevel _)
  split
  · exact hl
  · exact hl.trans (.offer _ _)

theorem Dev.Heard.createDev (d : Dev) (key : Nat) (work : Work) : d.Heard (d.createDev key work) := by
  unfold Dev.createDev Dev.create
  cases d.poolFor .device with
  | some p => exact .newItem d p key work none
  | none =>
    have h := ((Dev.Heard.raise d Reg.tskStat_shared_empty).trans (.raise _ Reg.tskStat_dev_defer)).trans
      (.bump _ (i := Cnt.deferDev) (by unfold verdictCnt; decide))
    exact h.trans (.of_same rfl rfl rfl rfl rfl)

/-! ## The sender's context -/

theorem Dev.Heard.confirmMap (d : Dev) (i : Nat) (v : BitVec 4) : d.Heard (d.confirmMap i v) := by
  unfold Dev.confirmMap
  dsimp only
  split
  · exact .refl d
  · split
    · exact .refl d
    · generalize ht : ({ d.sensor i with
        confirmed := _, pendMap := none, lm := none, lmWait := false, newest := none, persist := 0 } : SensorCtx) = x
      have hs : d.Heard ((d.setSensor i x).bump Cnt.lmConfirmed) :=
        Dev.Heard.trans (b := d.setSensor i x) (.of_same rfl rfl rfl rfl rfl)
          (.bump _ (i := Cnt.lmConfirmed) (by unfold verdictCnt; decide))
      generalize (d.setSensor i x).bump Cnt.lmConfirmed = e at *
      split
      · split
        · exact (hs.trans (.modSensor _ _ _)).trans (.createDev _ _ _)
        · split
          · exact hs.trans (.modSensor _ _ _)
          · exact hs
      · exact hs

theorem Dev.Heard.sensorLookup (d : Dev) (a : BitVec 24) : d.Heard (d.sensorLookup a).1 := by
  unfold Dev.sensorLookup
  split
  · exact .refl d
  · next k e _ =>
    have hcache : ∀ x e, Dev.Heard x (x.cacheSensor k e) := fun x e => .of_same rfl rfl rfl rfl rfl
    have hup : ∀ x : Dev, x.Heard (x.upset 3).1 := fun x => by
      unfold Dev.upset
      split
      · exact .of_same rfl rfl rfl rfl rfl
      · exact .refl x
    have hd := (hcache d e).trans (hup (d.cacheSensor k e))
    dsimp only
    split
    · have hp := hd.trans (((Dev.Heard.bump _ (i := Cnt.parityMac + (3 : Fin 5)) (by unfold verdictCnt; decide)).trans
        (.raise _ ⟨Reg.fwdStat, (3 : Fin 5), 1⟩)).trans (.event _ 0x0007 0 [(8, [byte (3 : Fin 5)]), (12, le 4 k)]))
      split
      · exact hp.trans (hcache _ _)
      · exact hp
    · exact hcache d e

theorem Dev.Heard.ownerEntry (d : Dev) (o : Option Nat) : d.Heard (d.ownerEntry o).1 := by
  unfold Dev.ownerEntry
  split
  · exact .refl d
  · exact .sensorLookup _ _

theorem Dev.Heard.checkRecovery (d : Dev) (o : Option Nat) (h : MpduHdr) : d.Heard (d.checkRecovery o h).1 := by
  unfold Dev.checkRecovery
  split
  · exact .refl d
  · split
    · exact .refl d
    · dsimp only
      split
      · exact (Dev.Heard.modSensor d _ _).trans (.bump _ (i := Cnt.ulRecovery) (by unfold verdictCnt; decide))
      · exact .modSensor d _ _

/-! ## The answer -/

theorem Dev.Heard.addAck (d : Dev) (r : RadioId) (chan : Nat) (a : Nat × Byte × Nat) (acked : List (Nat × Byte)) :
    d.Heard (d.addAck r chan a acked) := by
  unfold Dev.addAck
  refine .modRadio d r fun x => ?_
  split <;> rfl

theorem Dev.Heard.sendAcks (d : Dev) (r : RadioId) (c : Cell) (code : Nat) (tcorr : Int) (acked : List (Nat × Byte)) :
    d.Heard (d.sendAcks r c code tcorr acked) := by
  unfold Dev.sendAcks
  split
  · exact .refl d
  · split
    · exact .addAck _ _ _ _ _
    · exact .foldl (fun d p => .addAck _ _ _ _ _) _ d

/-- The answer to an uplink of a granted sensor (Table 5.7). -/
theorem Dev.Heard.judgeUplink (d : Dev) (r : RadioId) {c : Cell} (h : c.kind = .uplink) (m : List Byte) :
    d.Heard (d.judgeUplink r c m).1 := by
  have hv : ¬ verdictCnt Cnt.vWrongType ∧ ¬ verdictCnt Cnt.vAddrMismatch := by unfold verdictCnt; decide
  unfold Dev.judgeUplink
  dsimp only
  rw [if_neg (by rw [h]; decide)]
  split
  · exact .sensorViolation _ _ hv.1 _ _ _ _ _
  · have ho := Dev.Heard.ownerEntry d c.owner
    split
    · split
      · exact ho.trans (.sensorViolation _ _ hv.2 _ _ _ _ _)
      · exact ho
    · exact ho

theorem Dev.Heard.answerRx (d : Dev) (r : RadioId) {c : Cell} (h : c.kind = .uplink) (hl : c.link = none) (o : RxOutcome)
    (m : List Byte) : d.Heard (d.answerRx r c o m).1 := by
  unfold Dev.answerRx
  split
  · rw [if_neg (by rw [h]; decide)]
    exact .refl d
  · rw [hl]
    exact .judgeUplink d r h m
  · exact .refl d

theorem Dev.Heard.confirmRx (d : Dev) (c : Cell) (hl : c.link = none) (sig : BitVec 24) : d.Heard (d.confirmRx c sig) := by
  unfold Dev.confirmRx
  rw [hl]
  split
  · exact .confirmMap _ _ _
  · next k => exact nomatch k
  · exact .refl d

/-! ## The SIG verdict -/

/-- With no job in the bank nothing runs. -/
theorem Dev.runJobs_of_none {d : Dev} (h : d.vit.jobs = []) : d.runJobs none = d := by
  have hv : ({ d.vit with jobs := [] } : Bank) = d.vit := by rw [← h]
  unfold Dev.runJobs
  dsimp only
  rw [h]
  exact congrArg (fun v => ({ d with vit := v } : Dev)) hv

theorem Dev.modRadio_bump (d : Dev) (r : RadioId) (i : Nat) (f : Radio → Radio) :
    (d.bump i).modRadio r f = (d.modRadio r f).bump i :=
  match r with
  | 0 => rfl
  | 1 => rfl
  | 2 => rfl

theorem Dev.modRadio_modRadio (d : Dev) (r : RadioId) (f g : Radio → Radio) :
    (d.modRadio r f).modRadio r g = d.modRadio r fun x => g (f x) :=
  match r with
  | 0 => rfl
  | 1 => rfl
  | 2 => rfl

theorem Dev.Heard.releaseCheck (d : Dev) (r : RadioId) (last : Bool) : d.Heard (d.releaseCheck r last) := by
  unfold Dev.releaseCheck
  dsimp only
  split
  · exact .refl d
  · generalize hx : (if (d.radio r).agc = .frozen ∧ !(d.radio r).passed then
        (d.bump (Cnt.falseDet r)).raise (Reg.bbpRxstat_false_det r) else d) = x
    have hdx : d.Heard x := by
      rw [← hx]
      split
      · exact (Dev.Heard.bump d (by unfold verdictCnt Cnt.falseDet; omega)).trans (.raise _ _)
      · exact .refl d
    have hm := hdx.trans (.modRadio x r (f := fun y => { y with
      agc := .preset, gain := x.presetGain r, gainHist := y.gain :: y.gainHist, released := true }) fun _ => rfl)
    generalize (x.modRadio r fun y => { y with
      agc := .preset, gain := x.presetGain r, gainHist := y.gain :: y.gainHist, released := true }) = y at *
    split
    · obtain ⟨f, hf, hkeep⟩ := y.coexFall_radio r
      exact hm.trans (hf ▸ .modRadio y r fun z => (hkeep z).2)
    · exact hm

section
variable {d : Dev} {r : RadioId} {c : Cell} (hc : (d.radio r).cells = [c]) (hlink : c.link = none)
include hc

/-- The cell whose SIG is due. -/
theorem Dev.find_sigCell (hs : c.state = .acq) (hf : c.firstS = d.rxSlot r) :
    ((d.radio r).cells.find? fun x =>
      x.subch == c.subch && (x.state == .acq || x.state == .hold && !x.judged) && x.firstS == d.rxSlot r) = some c := by
  rw [hc, List.find?_cons_of_pos]
  simp [hs, hf]

include hlink

theorem Dev.sigVerdict_of_pass (hrx : d.receives r = true) (hs : c.state = .acq) (hf : c.firstS = d.rxSlot r)
    (hj : d.vit.jobs = []) (hp : sigPasses c.sig = true) (ha : sigAgrees c c.sig = true) :
    d.sigVerdict r c.subch = (d.modRadio r fun x => { x with
      cells := [{ c with state := .data, map := (d.rxMap r c c.sig).1, lmStale := (d.rxMap r c c.sig).2 }],
      passed := true }).bump (Cnt.sigPass r) := by
  have hpass : d.sigPassed r c c.sig = (d.modRadio r fun x => { x with
      cells := [{ c with state := .data, map := (d.rxMap r c c.sig).1, lmStale := (d.rxMap r c c.sig).2 }],
      passed := true }).bump (Cnt.sigPass r) := by
    unfold Dev.sigPassed
    dsimp only
    rw [Dev.modCell_single hc, Dev.modRadio_bump, Dev.modRadio_modRadio]
    dsimp only
    rw [hlink]
  have hcells : ((d.sigPassed r c c.sig).radio r).cells =
      [{ c with state := .data, map := (d.rxMap r c c.sig).1, lmStale := (d.rxMap r c c.sig).2 }] := by
    rw [hpass, Dev.radio_bump, Dev.radio_modRadio_self]
  unfold Dev.sigVerdict
  rw [Dev.runJobs_of_none hj]
  dsimp only
  rw [Dev.find_sigCell hc hs hf]
  dsimp only
  rw [if_neg (by simp [hrx]), if_neg (by simp [hs]), if_neg (by simp [hp]), if_neg (by simp [ha]),
    Dev.releaseCheck_of_holds hcells (.inr rfl), hpass]

omit hlink in
theorem Dev.sigVerdict_of_fail (hrx : d.receives r = true) (hs : c.state = .acq) (hf : c.firstS = d.rxSlot r)
    (hj : d.vit.jobs = []) (hp : sigPasses c.sig = false) :
    ((d.sigVerdict r c.subch).radio r).cells = [{ c with state := .hold, judged := true }] ∧
      (d.sigVerdict r c.subch).counter (Cnt.sigFail r) = d.counter (Cnt.sigFail r) + 1 := by
  have hfail : ((d.modRadio r fun x => { x with cells := [{ c with state := .hold, judged := true }] }).bump
      (Cnt.sigFail r)).Heard (d.sigFailed r c (Cnt.sigFail r) 1) := by
    unfold Dev.sigFailed
    dsimp only
    rw [Dev.modCell_single hc]
    generalize (d.modRadio r fun x => { x with cells := [{ c with state := .hold, judged := true }] }).bump
      (Cnt.sigFail r) = e
    have ht := Dev.Heard.traceRx e r c 1 c.clipped none c.e
    split
    · exact (ht.trans (.bump _ (by unfold verdictCnt Cnt.clipped; omega))).trans (.raise _ _)
    · exact ht
  have hall := hfail.trans (.releaseCheck _ r false)
  have hv : d.sigVerdict r c.subch = (d.sigFailed r c (Cnt.sigFail r) 1).releaseCheck r false := by
    unfold Dev.sigVerdict
    rw [Dev.runJobs_of_none hj]
    dsimp only
    rw [Dev.find_sigCell hc hs hf]
    dsimp only
    rw [if_neg (by simp [hrx]), if_neg (by simp [hs]), if_pos (by simp [hp])]
  rw [hv]
  refine ⟨(hall.cells r).trans ?_, (hall.counter _ (by unfold verdictCnt Cnt.sigFail; omega)).trans ?_⟩
  · rw [Dev.radio_bump, Dev.radio_modRadio_self]
  · rw [Dev.counter_bump_self, Dev.counter_congr (Dev.modRadio_counters _ _ _)]

end

/-! ## The CRC32 verdict -/

theorem verdictCnt_outcome (o : RxOutcome) (r : RadioId) : verdictCnt (o.counter r) := by
  cases o <;> (revert r; unfold verdictCnt; decide)

/-- The counters beside the verdict's own. -/
theorem Dev.countRx_heard (d : Dev) (r : RadioId) (c : Cell) (clipped : Bool) (o : RxOutcome) :
    (d.bump (o.counter r)).Heard (d.countRx r c clipped o) := by
  have hr (f : Nat → Nat) (hf : f = Cnt.clipped ∨ f = Cnt.lmStale) : ¬ verdictCnt (f r) := by
    rcases hf with rfl | rfl <;> (revert r; unfold verdictCnt; decide)
  unfold Dev.countRx
  dsimp only
  generalize d.bump (o.counter r) = e
  generalize hx : (if clipped then (e.bump (Cnt.clipped r)).raise (Reg.bbpRxstat_clip r) else e) = x
  have hex : e.Heard x := by
    rw [← hx]
    split
    · exact (Dev.Heard.bump e (hr _ (.inl rfl))).trans (.raise _ _)
    · exact .refl e
  split
  · have hs := hex.trans (.bump x (hr _ (.inr rfl)))
    split
    · exact hs.trans (.sensorViolation _ _ (by unfold verdictCnt; decide) _ _ _ _ _)
    · exact hs
  · exact hex

/-- A granted uplink's verdict: its cell is judged, its outcome counted, and its reception queued for the decode stage. -/
theorem Dev.judgeRx_of_uplink {d : Dev} {r : RadioId} {c : Cell} (hc : (d.radio r).cells = [c]) (hkind : c.kind = .uplink)
    (hlink : c.link = none) (hst : c.stripe = 1) (mpdu : List Byte) :
    ∃ (x : Dev) (rx : Rx),
      ((d.modRadio r fun y => { y with
        cells := [{ c with judged := true, crcOk := judge mpdu c.train c.map c.sig == .pass }] }).bump
          ((judge mpdu c.train c.map c.sig).counter r)).Heard x ∧
        d.judgeRx r c [(r, c)] [(r, c)] mpdu = { x with decodeQ := x.decodeQ ++ [rx] } ∧ rx.radio = r ∧ rx.sidx = c.owner ∧
        rx.sig = c.sig ∧ rx.mpdu = mpdu.take (readHdr mpdu).len ∧ rx.crcOk = (judge mpdu c.train c.map c.sig == .pass) ∧
        rx.level = c.level := by
  have hmark : (d.countErased r c [(r, c)]).markJudged [(r, c)] (judge mpdu c.train c.map c.sig == .pass) =
      d.modRadio r fun y => { y with
        cells := [{ c with judged := true, crcOk := judge mpdu c.train c.map c.sig == .pass }] } := by
    unfold Dev.countErased
    rw [if_neg (by rw [hkind]; decide), if_pos hst]
    exact Dev.modCell_single hc _
  generalize hj : d.judgeRx r c [(r, c)] [(r, c)] mpdu = j
  unfold Dev.judgeRx at hj
  extract_lets o h m e clipped d0 d1 d2 none' a acc d3 d4 v d5 d6 d7 rx d8 at hj
  have h1 : (d0.bump (o.counter r)).Heard d1 := Dev.countRx_heard d0 r c clipped o
  have h2 : d1.Heard d2 := by
    show d1.Heard (if _ then _ else _)
    split
    · exact .confirmRx d1 c hlink _
    · exact .refl d1
  have h3 : d2.Heard d3 := by
    have ha : d2.Heard a.1 := .answerRx d2 r hkind hlink o m
    show d2.Heard (if _ then _ else _)
    split
    · exact ha.trans (.bump a.1 (by unfold verdictCnt; decide))
    · exact ha
  have h4 : d3.Heard d4 := by
    show d3.Heard (if _ then _ else _)
    split
    · exact .bump d3 (by unfold verdictCnt; decide)
    · exact .refl d3
  have h5 : d4.Heard d5 := by
    show d4.Heard (if _ then _ else _ : Dev × Bool).1
    split
    · exact .checkRecovery d4 _ _
    · exact .refl d4
  have h6 : d5.Heard d6 := by
    show d5.Heard (match a.2.1 with | some _ => _ | none => _)
    split
    · split
      · exact .refl d5
      · exact .sendAcks d5 _ _ _ _ _
    · exact .refl d5
  have h7 : d6.Heard d7 := .traceRx d6 _ _ _ _ _ _
  have hd0 : d0 = _ := hmark
  refine ⟨d7, rx, ?_, ?_, rfl, rfl, rfl, rfl, rfl, rfl⟩
  · rw [← hd0]
    exact (((((h1.trans h2).trans h3).trans h4).trans h5).trans h6).trans h7
  · exact hj.symm.trans (if_neg (by rw [hkind, Bool.and_eq_true]; exact fun k => absurd k.2 (by decide)))

/-- The CRC32 verdict of a granted uplink whose train ends. -/
theorem Dev.crcVerdict_of_uplink {d : Dev} {r : RadioId} {c : Cell} (hc : (d.radio r).cells = [c]) (hkind : c.kind = .uplink)
    (hrun : d.rfReadyRun r = true) (hs : c.state = .data) (hn : c.judged = false) (hst : c.stripe = 1)
    (hend : c.firstS + c.train = d.rxSlot r + 1) (hj : d.vit.jobs = []) :
    d.crcVerdict r c.subch = d.judgeRx r c [(r, c)] [(r, c)] (d.rxBytes r c) := by
  have hfind : ((d.radio r).cells.find? fun x => x.subch == c.subch && x.state == .data && !x.judged &&
      decide (x.firstS + x.train = d.rxSlot r + 1)) = some c := by
    rw [hc, List.find?_cons_of_pos]
    simp [hs, hn, hend]
  have hgroup : d.rxGroup r c = [(r, c)] := by
    unfold Dev.rxGroup
    rw [if_neg (by rw [hkind]; decide), if_pos hst]
  have hpass : ([(r, c)] : List (RadioId × Cell)).filter (fun p => p.2.state == .data) = [(r, c)] := by
    simp [hs]
  unfold Dev.crcVerdict
  rw [Dev.runJobs_of_none hj]
  dsimp only
  rw [hfind]
  dsimp only
  rw [if_neg (by simp [hrun]), hgroup, hpass]
  exact if_neg (by simp)

/-- Settles O43. -/
theorem syncAndVerdicts : Obligations.SyncAndVerdicts := by
  unfold Obligations.SyncAndVerdicts
  intro s r c hup hc hkind hlink
  refine ⟨fun half cfg hrx hf hi hair hcfg hsub => ?_, fun hrx hs hf hj => ⟨fun hp ha => ?_, fun hp => ?_⟩,
    fun upsets hrun hs hn hst hend hj => ?_⟩
  · intro x v e he hpass hno
    exact .of_runUp hup rfl (Dev.syncEvaluation_of_one hc hkind hlink hrx hf hi hair hcfg hsub rfl he hpass hno)
  · exact .of_runUp hup rfl (Dev.sigVerdict_of_pass hc hlink hrx hs hf hj hp ha)
  · exact ⟨_, .of_runUp hup rfl rfl, Dev.sigVerdict_of_fail hc hrx hs hf hj hp⟩
  · intro mpdu o
    have hv := Dev.crcVerdict_of_uplink (d := s.dev.withUpsets upsets) hc hkind hrun hs hn hst hend hj
    obtain ⟨x, rx, hheard, hjudge, hr, hsidx, hsig, hm, hok, hlevel⟩ :=
      Dev.judgeRx_of_uplink (d := s.dev.withUpsets upsets) hc hkind hlink hst mpdu
    refine ⟨_, .of_runUp hup rfl (hv.trans hjudge), ?_, ?_, rx, ?_, hr, hsidx, hsig, hm, hok, hlevel⟩
    · refine (hheard.counter _ (verdictCnt_outcome o r)).trans ?_
      rw [Dev.counter_bump_self, Dev.counter_congr (Dev.modRadio_counters _ _ _)]
      rfl
    · refine (hheard.cells r).trans ?_
      rw [Dev.radio_bump, Dev.radio_modRadio_self]
    · exact congrArg (· ++ [rx]) (hheard.decodeQ.trans (Dev.modRadio_decodeQ _ _ _))

end Sys2Proof.Machine
end

section
/-! # The end of a reception (R114, R116, R117, R180, R18, R109) -/

namespace Sys2Proof.Machine

/-! ## A window -/

/-- The stuck marks and the cells' CLIPPED marks of the radios are those of `d`. -/
structure Dev.MarksKept (d e : Dev) : Prop where
  stuck : ∀ q, (e.radio q).stuck = (d.radio q).stuck
  clipped : ∀ q, (e.radio q).cells.map (·.clipped) = (d.radio q).cells.map (·.clipped)

theorem Dev.MarksKept.refl (d : Dev) : d.MarksKept d := ⟨fun _ => rfl, fun _ => rfl⟩

theorem Dev.MarksKept.trans {a b c : Dev} (h : a.MarksKept b) (k : b.MarksKept c) : a.MarksKept c :=
  ⟨fun q => (k.stuck q).trans (h.stuck q), fun q => (k.clipped q).trans (h.clipped q)⟩

theorem Dev.MarksKept.of_radio {d e : Dev} (h : ∀ q, e.radio q = d.radio q) : d.MarksKept e :=
  ⟨fun q => by rw [h q], fun q => by rw [h q]⟩

theorem Dev.MarksKept.bump (d : Dev) (i : Nat) : d.MarksKept (d.bump i) := .of_radio fun q => Dev.radio_bump d i q

theorem Dev.MarksKept.raise (d : Dev) (f : Field) : d.MarksKept (d.raise f) := .of_radio fun q => Dev.radio_raise d f q

theorem Dev.MarksKept.modRadio (d : Dev) (r : RadioId) {f : Radio → Radio} (hs : ∀ x, (f x).stuck = x.stuck)
    (hc : ∀ x, (f x).cells.map (·.clipped) = x.cells.map (·.clipped)) : d.MarksKept (d.modRadio r f) := by
  refine ⟨fun q => ?_, fun q => ?_⟩ <;> rw [Dev.radio_modRadio]
  · split
    next hq => rw [hs, hq]
    next => rfl
  · split
    next hq => rw [hc, hq]
    next => rfl

/-- Radios whose cells change without their marks. -/
theorem Dev.MarksKept.modCells (d : Dev) (r : RadioId) {f : Cell → Cell} (h : ∀ c, (f c).clipped = c.clipped) :
    d.MarksKept (d.modRadio r fun x => { x with cells := x.cells.map f }) :=
  .modRadio d r (fun _ => rfl) fun x => by rw [List.map_map]; exact List.map_congr_left fun c _ => h c

theorem Dev.MarksKept.modCell (d : Dev) (r : RadioId) (c : Cell) {f : Cell → Cell} (h : (f c).clipped = c.clipped) :
    d.MarksKept (d.modCell r c f) := by
  refine .modCells d r fun y => ?_
  split
  next hy => rw [hy, h]
  next => rfl

theorem Dev.MarksKept.foldl {α : Type} {f : Dev → α → Dev} (h : ∀ (d : Dev) a, d.MarksKept (f d a)) (l : List α) (d : Dev) :
    d.MarksKept (l.foldl f d) := List.foldlRecOn l f (.refl d) fun _ hb a _ => hb.trans (h _ a)

theorem Dev.MarksKept.runJob (d : Dev) (j : VitJob) : d.MarksKept (d.runJob j) := by
  unfold Dev.runJob
  dsimp only
  split
  · refine .trans (b := { d with vit := d.vit.dispatch j }) (.of_radio fun _ => rfl) (.modCells _ _ fun c => ?_)
    split <;> rfl
  · exact .of_radio fun _ => rfl

theorem Dev.MarksKept.runJobs (d : Dev) (t : Option Int) : d.MarksKept (d.runJobs t) := by
  unfold Dev.runJobs
  refine .trans ?_ (.foldl Dev.MarksKept.runJob _ _)
  exact .of_radio fun _ => rfl

theorem Dev.MarksKept.addJob (d : Dev) (j : VitJob) : d.MarksKept (d.addJob j) := .of_radio fun _ => rfl

theorem Dev.MarksKept.symbolJob (d : Dev) (r : RadioId) (c : Cell) (close : Int) : d.MarksKept (d.symbolJob r c close) := by
  unfold Dev.symbolJob
  dsimp only
  split
  · exact .refl d
  · split
    · exact .refl d
    · refine .trans (.foldl (fun e p => ?_) _ d) (.addJob _ _)
      exact .modCell e p.1 p.2 rfl

theorem Dev.MarksKept.cellWindow (d : Dev) (r : RadioId) (mode : Fin 3) (w : WindowObs) (bin : Int → Cplx) (damp : Bool)
    (close : Int) (subch : Nat) : d.MarksKept (d.cellWindow r mode w bin damp close subch) := by
  unfold Dev.cellWindow
  dsimp only
  split
  · exact .refl d
  · split
    · exact .modCell d r _ rfl
    · split
      · exact .addJob d _
      · exact .refl d
    · split
      · exact .trans (.modCell d r _ rfl) (.symbolJob _ r _ close)
      · exact .refl d
    · exact .refl d

theorem Dev.MarksKept.observe (d : Dev) (r : RadioId) (key : Nat) (x : Cdb) : d.MarksKept (d.observe r key x) := by
  unfold Dev.observe
  generalize Sys2Proof.Machine.observe _ _ _ _ _ _ = o
  have hm : d.MarksKept (d.modRadio r fun y => { y with floors := Sparse.put none y.floors key (some o.1) }) :=
    .modRadio d r (fun _ => rfl) fun _ => rfl
  dsimp only
  generalize (d.modRadio r fun y => { y with floors := Sparse.put none y.floors key (some o.1) }) = e at *
  split
  · exact (hm.trans (.bump e _)).trans (.raise _ _)
  · exact hm

theorem Dev.MarksKept.flushQuiet (d : Dev) (r : RadioId) : d.MarksKept (d.flushQuiet r) := by
  unfold Dev.flushQuiet
  split
  · exact .refl d
  · have hm : d.MarksKept (d.modRadio r fun x => { x with quiet := [] }) := .modRadio d r (fun _ => rfl) fun _ => rfl
    dsimp only
    generalize (d.modRadio r fun x => { x with quiet := [] }) = e at *
    refine hm.trans (.foldl (fun x p => ?_) _ e)
    exact .observe x r p.1 p.2

theorem Dev.MarksKept.takeWindow (d : Dev) (r : RadioId) (chan : Nat) (mode : Fin 3) (w : WindowObs) (clipped : Bool) :
    d.MarksKept (d.takeWindow r chan mode w clipped) := by
  have h1 := Dev.MarksKept.runJobs d (some (windowEnd (d.rxSlot r) mode w))
  unfold Dev.takeWindow
  dsimp only
  generalize d.runJobs _ = e at *
  refine .trans ?_ (.flushQuiet _ r)
  refine .trans ?_ (.modRadio _ r (fun _ => rfl) fun _ => rfl)
  exact h1.trans (.foldl (fun x s => .cellWindow x r mode w _ _ _ s) _ e)

theorem Dev.MarksKept.coexFall (d : Dev) (r : RadioId) : d.MarksKept (d.coexFall r) := by
  unfold Dev.coexFall
  split <;> exact .modRadio d r (fun _ => rfl) fun _ => rfl

theorem Dev.MarksKept.releaseCheck (d : Dev) (r : RadioId) (last : Bool) : d.MarksKept (d.releaseCheck r last) := by
  unfold Dev.releaseCheck
  dsimp only
  split
  · exact .refl d
  · generalize hx : (if (d.radio r).agc = .frozen ∧ !(d.radio r).passed then
        (d.bump (Cnt.falseDet r)).raise (Reg.bbpRxstat_false_det r) else d) = x
    have hdx : d.MarksKept x := by
      rw [← hx]
      split
      · exact (Dev.MarksKept.bump d _).trans (.raise _ _)
      · exact .refl d
    have hm := hdx.trans (.modRadio x r (f := fun y => { y with
      agc := .preset, gain := x.presetGain r, gainHist := y.gain :: y.gainHist, released := true }) (fun _ => rfl) fun _ => rfl)
    generalize (x.modRadio r fun y => { y with
      agc := .preset, gain := x.presetGain r, gainHist := y.gain :: y.gainHist, released := true }) = y at *
    split
    · exact hm.trans (.coexFall y r)
    · exact hm

/-- A window taken marks the cells by its extreme samples, and tells whether every sample so far held one code. -/
theorem Dev.windowClose_of_taken {d : Dev} {r : RadioId} {w : WindowObs} (h : d.windowTaken r w = true) :
    let clip := decide (orElse0 (d.cfgFld (Reg.bbpRxcfg_clip_min r)) 1 ≤ w.clip)
    ((d.windowClose r w).radio r).stuck = ((d.radio r).stuck && w.stuck) ∧
      ((d.windowClose r w).radio r).cells.map (·.clipped) = (d.radio r).cells.map fun (c : Cell) =>
        let use := c.useIn (d.rxSlot r) w.period
        c.clipped || (clip && decide ((c.state = .acq ∨ c.state = .data) ∧ (use = .sig ∨ use = .data))) := by
  intro clip
  generalize hj : d.windowClose r w = j
  unfold Dev.windowClose at hj
  rw [if_neg (by simp [h])] at hj
  extract_lets d1 clipped d2 chan d3 at hj
  have hs1 : d1.radio r = { d.radio r with stuck := (d.radio r).stuck && w.stuck } := Dev.radio_modRadio_self ..
  have hclip : clipped = clip := by
    show decide (orElse0 (d1.cfgFld _) 1 ≤ w.clip) = _
    rw [show d1.cfgFld (Reg.bbpRxcfg_clip_min r) = d.cfgFld (Reg.bbpRxcfg_clip_min r) from
      congrArg (Field.of _) (Dev.cfg_congr (Dev.modRadio_regs d r _) (Dev.modRadio_eff d r _) _)]
  have hslot : d1.rxSlot r = d.rxSlot r := by
    unfold Dev.rxSlot
    rw [hs1, show d1.tim = d.tim from Dev.modRadio_tim _ _ _]
    rfl
  have h2 : (d2.radio r).stuck = ((d.radio r).stuck && w.stuck) ∧
      (d2.radio r).cells.map (·.clipped) = (d.radio r).cells.map fun (c : Cell) =>
        let use := c.useIn (d.rxSlot r) w.period
        c.clipped || (clip && decide ((c.state = .acq ∨ c.state = .data) ∧ (use = .sig ∨ use = .data))) := by
    show (Dev.radio (if clipped = true then _ else _) r).stuck = _ ∧ List.map _ (Dev.radio (if clipped = true then _ else _) r).cells = _
    rw [hclip]
    split
    next hc =>
      unfold Dev.markClipped
      rw [Dev.radio_modRadio_self, hs1, hslot, hc]
      refine ⟨rfl, ?_⟩
      rw [List.map_map]
      refine List.map_congr_left fun c _ => ?_
      simp only [Function.comp, Bool.true_and]
      split
      next ht => simp [ht]
      next ht => simp [ht]
    next hc =>
      rw [hs1, Bool.eq_false_iff.mpr hc]
      simp
  have h3 : d2.MarksKept d3 := by
    show d2.MarksKept (match d2.chan chan with | some c => _ | none => _)
    split
    · exact .takeWindow ..
    · exact .refl d2
  have hall : d2.MarksKept j := by
    rw [← hj]
    split
    · exact h3.trans (.releaseCheck ..)
    · exact h3
  exact ⟨(hall.stuck r).trans h2.1, (hall.clipped r).trans h2.2⟩

/-! ## ACK symbols -/

/-- The gain for the ACK symbols owed. -/
theorem Dev.ackrxPreset_of_row {d : Dev} {r : RadioId} (hrun : d.rfReadyRun r = true)
    (hrow : (d.rowCarried r d.tim.slotS).type = rowDown ∨ (d.rowCarried r d.tim.slotS).type = rowMesh) :
    let l := d.owedLevels r
    let g := if l = [] then (d.radio r).gain
      else clampGain (gainFor (sumLevels l) (d.agcTarget r + d.agcHead r + d.agcAckHead r))
    let e := d.modRadio r fun x => { x with agc := .ackrx, gain := g, gainHist := [] }
    d.ackrxPreset r = if d.paEn r then e else e.drive r false true := by
  intro l g e
  have hpa : e.paEn r = d.paEn r := by unfold Dev.paEn; rw [Dev.radio_modRadio_self]
  unfold Dev.ackrxPreset
  dsimp only
  rw [if_neg (by rcases hrow with h | h <;> simp [hrun, h]), ← hpa]

/-- Every radio changes by the same function, and nothing else. -/
theorem Dev.radio_modRadios (d : Dev) (f : Radio → Radio) (r : RadioId) :
    (radios.foldl (fun d q => d.modRadio q f) d).radio r = f (d.radio r) :=
  match r with
  | 0 => rfl
  | 1 => rfl
  | 2 => rfl

/-- The device with other radios. -/
def Dev.withRadios (d : Dev) (x y z : Radio) : Dev := { d with r0 := x, r1 := y, r2 := z }

theorem Dev.withRadios_modRadio (d : Dev) (r : RadioId) (f : Radio → Radio) (x y z : Radio) :
    (d.modRadio r f).withRadios x y z = d.withRadios x y z :=
  match r with
  | 0 => rfl
  | 1 => rfl
  | 2 => rfl

theorem Dev.modRadios_only (d : Dev) (f : Radio → Radio) :
    radios.foldl (fun d q => d.modRadio q f) d = d.withRadios (f d.r0) (f d.r1) (f d.r2) := rfl

/-- The code of a group of one part: that of its ACK symbol. -/
theorem groupCode_single {p : TxPart} {o : Option Byte} (ho : p.ack = some o) (hm : p.member < 96) :
    groupCode [p] = o.map ackCode := by
  have hf (m : Nat) : (([p].find? fun x => x.member == m && (x.ack.getD none).isSome).bind fun x => x.ack.getD none) =
      if p.member = m then o else none := by
    by_cases h : p.member = m
    · cases o <;> simp [h, ho]
    · simp [h]
  unfold groupCode
  simp only [hf]
  congr 1
  cases hr : (List.range 96).findSome? fun m => if p.member = m then o else none with
  | none => simpa [hm] using (List.findSome?_eq_none_iff.mp hr p.member (List.mem_range.mpr hm)).symm
  | some b =>
    obtain ⟨m, -, h⟩ := List.exists_of_findSome?_eq_some hr
    split at h
    · exact h.symm
    · exact nomatch h

/-- The one part whose ACK symbol is known answers its MPDU, and nothing waits any longer. -/
theorem Dev.settleAck_single {d : Dev} {r : RadioId} {p : TxPart} (hawait : (d.radio r).await = [p])
    (hother : ∀ q, q ≠ r → (d.radio q).await = []) {o : Option Byte} (ho : p.ack = some o) (hm : p.member < 96) :
    ∃ x y z, ((d.withRadios x y z).radio r).await = [] ∧
      d.settleAck p = (d.withRadios x y z).answer p (o.map ackCode) := by
  have hgroup : d.ackGroup p = [p] := by
    have hq (q : RadioId) : ((d.radio q).await.filter fun x => x.mpdu == p.mpdu && x.firstS == p.firstS && x.what == p.what) =
        if q = r then [p] else [] := by
      split
      next h => rw [h, hawait]; simp
      next h => rw [hother q h]; rfl
    unfold Dev.ackGroup
    rw [List.flatMap_congr fun q _ => hq q]
    clear hawait hother hq
    match r with
    | 0 => rfl
    | 1 => rfl
    | 2 => rfl
  let f (x : Radio) : Radio :=
    { x with await := x.await.filter fun y => !(y.mpdu == p.mpdu && y.firstS == p.firstS && y.what == p.what) }
  refine ⟨f d.r0, f d.r1, f d.r2, ?_, ?_⟩
  · rw [← Dev.modRadios_only, Dev.radio_modRadios]
    simp [f, hawait]
  · unfold Dev.settleAck
    dsimp only
    rw [hgroup, groupCode_single ho hm, if_neg (by simp [ho]), Dev.modRadios_only]

/-- What the ACK symbol of a part says, if it is there. -/
def Dev.ackHeard (d : Dev) (r : RadioId) (cfg : ChanCfg) (subch : Nat) (w : Samples) : Option Byte :=
  let y := (subchK cfg.mode subch).map (windowBin cfg.mode (compensate ((d.radio r).gain :: (d.radio r).gainHist) w))
  let energy := ofLin (y.foldl (fun a z => a + binPower (fftSize cfg.mode) z) 0 / y.length)
  let present := ackPresent (ackSoft y) (ackDecode (ackSoft y)) energy
    (d.noiseOf r (((d.radio r).chan).getD 0) subch + 100 * d.cfgFld (Reg.bbpRxcfg_ack_det r))
  if present then some (ackDecode (ackSoft y)) else none

section
variable {d : Dev} {r : RadioId} {p : TxPart} {cfg : ChanCfg} (hawait : (d.radio r).await = [p])
  (hother : ∀ q, q ≠ r → (d.radio q).await = []) (hrun : d.rfReadyRun r = true)
  (hcfg : d.chan (((d.radio r).chan).getD 0) = some cfg) (hack : p.ack = none) (hend : p.firstS + p.train - 1 = d.tim.slotS)
  (hm : p.member < 96)
include hawait hother hrun hcfg hack hend hm

/-- The ACK symbol of the one part that waits is counted, and answers the part's MPDU. -/
theorem Dev.ackReceive_single (w : Samples) :
    ∃ x y z, ((d.withRadios x y z).radio r).await = [] ∧
      d.ackReceive r p.subch w = ((d.withRadios x y z).bump
        (if (d.ackHeard r cfg p.subch w).isSome then Cnt.ackRxOk r else Cnt.ackRxMiss r)).answer
          { p with ack := some (d.ackHeard r cfg p.subch w) } ((d.ackHeard r cfg p.subch w).map ackCode) := by
  have hfind : ((d.radio r).await.find? fun x => x.subch == p.subch && x.ack.isNone && x.firstS + x.train - 1 == d.tim.slotS) =
      some p := by
    rw [hawait, List.find?_cons_of_pos]
    simp [hack, hend]
  generalize hj : d.ackReceive r p.subch w = j
  unfold Dev.ackReceive at hj
  rw [hfind] at hj
  dsimp only at hj
  rw [hcfg] at hj
  dsimp only at hj
  rw [if_neg (by simp [hrun])] at hj
  generalize hc : (if ackPresent _ _ _ _ = true then Cnt.ackRxOk r else Cnt.ackRxMiss r) = c at hj
  generalize ho : (if ackPresent _ _ _ _ = true then some (ackDecode _) else none) = o at hj
  have hheard : d.ackHeard r cfg p.subch w = o := ho
  have hcnt : (if o.isSome then Cnt.ackRxOk r else Cnt.ackRxMiss r) = c := by
    rw [← ho, ← hc]
    split <;> rfl
  rw [hheard, hcnt]
  obtain ⟨x, y, z, haw, hset⟩ := Dev.settleAck_single (d := (d.bump c).modRadio r fun x => { x with
    await := x.await.map fun y => if y = p then { p with ack := some o } else y }) (r := r) (p := { p with ack := some o })
    (by rw [Dev.radio_modRadio_self, Dev.radio_bump, hawait]; simp)
    (fun q hq => by rw [Dev.radio_modRadio_ne _ hq, Dev.radio_bump, hother q hq]) rfl hm
  rw [Dev.withRadios_modRadio] at haw hset
  exact ⟨x, y, z, haw, hj.symm.trans hset⟩

end

/-! ## The decode stage -/

theorem Dev.decodeStage_single {d : Dev} {rx : Rx} (h : d.decodeQ = [rx]) (hs : 1 ≤ rx.stage) :
    d.decodeStage = ({ d with decodeQ := [] } : Dev).decodeOne rx := by
  have hdue : (d.decodeQ.filter fun x => decide (1 ≤ x.stage)) = [rx] := by
    rw [h]
    exact List.filter_cons_of_pos (decide_eq_true hs)
  unfold Dev.decodeStage
  dsimp only
  rw [hdue, h]
  simp

/-- Work for the workers changes the task engine, registers, counters and the level's peak only. -/
def Dev.TaskOnly (d e : Dev) : Prop := e = { d with tsk := e.tsk, regs := e.regs, counters := e.counters, obs := e.obs }

theorem Dev.TaskOnly.refl (d : Dev) : d.TaskOnly d := rfl

theorem Dev.TaskOnly.trans {a b c : Dev} (h : a.TaskOnly b) (k : b.TaskOnly c) : a.TaskOnly c := by
  unfold Dev.TaskOnly at *
  rw [k, h]

theorem Dev.TaskOnly.setFld (d : Dev) (f : Field) (v : Nat) : d.TaskOnly (d.setFld f v) := rfl

theorem Dev.TaskOnly.bump (d : Dev) (i : Nat) : d.TaskOnly (d.bump i) := rfl

theorem Dev.TaskOnly.withTsk (d : Dev) (t : Tsk) : d.TaskOnly { d with tsk := t } := rfl

theorem Dev.TaskOnly.give (d : Dev) (i : Item) (w : WorkerId) : d.TaskOnly (d.give i w) := by
  unfold Dev.give
  generalize hc : d.bump _ = e
  have hb : d.TaskOnly e := hc ▸ .bump d _
  dsimp only
  generalize ht : ({ e with tsk := _ } : Dev) = x
  have hx : d.TaskOnly x := hb.trans (ht ▸ .withTsk e _)
  split
  · exact (hx.trans (.setFld _ _ _)).trans (.setFld _ _ _)
  · exact hx.trans (.setFld _ _ _)

theorem Dev.TaskOnly.offer (d : Dev) (i : Item) : d.TaskOnly (d.offer i) := by
  unfold Dev.offer
  dsimp only
  split
  · split
    · exact .give _ _ _
    · split
      · exact .refl d
      · exact .give _ _ _
  · split
    · exact .refl d
    · exact .give _ _ _

theorem Dev.TaskOnly.showLevel (d : Dev) : d.TaskOnly d.showLevel := by
  have hs := Dev.TaskOnly.setFld d Reg.tskLevel_in_use d.tsk.items.length
  unfold Dev.showLevel
  dsimp only
  generalize d.setFld Reg.tskLevel_in_use d.tsk.items.length = e at *
  split
  · refine hs.trans (.trans ?_ (.setFld _ _ _))
    rfl
  · exact hs

theorem Dev.TaskOnly.newItem (d : Dev) (p : Pool) (key : Nat) (work : Work) (x : Option (Fin 8 × Nat)) :
    d.TaskOnly (d.newItem p key work x) := by
  unfold Dev.newItem
  dsimp only
  generalize (Item.mk _ _ _ _ _ _ _ _ _ _ _) = i
  generalize ht : ({ d with tsk := _ } : Dev) = e
  have he : d.TaskOnly e := ht ▸ .withTsk d _
  have hl : d.TaskOnly (e.bump Cnt.itemCreated).showLevel := (he.trans (.bump e _)).trans (.showLevel _)
  split
  · exact hl
  · exact hl.trans (.offer _ _)

theorem Dev.TaskOnly.createDev (d : Dev) (key : Nat) (work : Work) : d.TaskOnly (d.createDev key work) := by
  unfold Dev.createDev Dev.create
  cases d.poolFor .device with
  | some p => exact .newItem d p key work none
  | none =>
    refine .trans (.trans (.trans (.setFld d Reg.tskStat_shared_empty 1) (.setFld _ Reg.tskStat_dev_defer 1))
      (.bump _ Cnt.deferDev)) ?_
    exact .withTsk _ _

theorem Dev.sensor_setSensor (d : Dev) (i : Nat) (x : SensorCtx) : (d.setSensor i x).sensor i = x :=
  Sparse.get_put_same _ _ _ _

/-- The decode queue, and a sensor's level and arrival error, are those of `d`. -/
structure Dev.LevelKept (i : Nat) (d e : Dev) : Prop where
  decodeQ : e.decodeQ = d.decodeQ
  level : (e.sensor i).level = (d.sensor i).level
  arrival : (e.sensor i).e = (d.sensor i).e

theorem Dev.LevelKept.refl (i : Nat) (d : Dev) : d.LevelKept i d := ⟨rfl, rfl, rfl⟩

theorem Dev.LevelKept.trans {i : Nat} {a b c : Dev} (h : a.LevelKept i b) (k : b.LevelKept i c) : a.LevelKept i c :=
  ⟨k.decodeQ.trans h.decodeQ, k.level.trans h.level, k.arrival.trans h.arrival⟩

theorem Dev.LevelKept.setSensor {i : Nat} (d : Dev) {x : SensorCtx} (hl : x.level = (d.sensor i).level)
    (he : x.e = (d.sensor i).e) : d.LevelKept i (d.setSensor i x) where
  decodeQ := rfl
  level := by rw [Dev.sensor_setSensor]; exact hl
  arrival := by rw [Dev.sensor_setSensor]; exact he

theorem Dev.LevelKept.of_tasks (i : Nat) {d e : Dev} (h : d.TaskOnly e) : d.LevelKept i e := by
  have hs : e.sensor i = d.sensor i := by rw [h]; rfl
  exact ⟨by rw [h], by rw [hs], by rw [hs]⟩

theorem Dev.LevelKept.recompute (d : Dev) (i : Nat) : d.LevelKept i (d.recompute i) := by
  have hb : d.LevelKept i (d.applyBoundary .recompute) := ⟨rfl, rfl, rfl⟩
  unfold Dev.recompute
  dsimp only
  generalize d.applyBoundary .recompute = e at *
  split
  · exact hb
  · next snr _ =>
    have hq : d.LevelKept i (e.setSensor i { e.sensor i with floorQ := e.floorQpsk snr.flatten }) := by
      refine hb.trans (.setSensor e ?_ ?_) <;> rfl
    generalize e.setSensor i _ = y at *
    refine hq.trans ?_
    unfold Dev.tryIssue
    dsimp only
    split
    · refine .trans (.setSensor y ?_ ?_) (.of_tasks i (.createDev _ _ _)) <;> rfl
    · refine .setSensor y ?_ ?_ <;> rfl

/-- The sender's level and arrival error become those of the reception. -/
theorem Dev.takeContext_level (d : Dev) (i : Nat) (rx : Rx) :
    (d.takeContext i rx).decodeQ = d.decodeQ ∧ ((d.takeContext i rx).sensor i).level = some rx.level ∧
      ((d.takeContext i rx).sensor i).e = rx.e := by
  generalize hj : d.takeContext i rx = j
  unfold Dev.takeContext at hj
  extract_lets d1 d2 x at hj
  have h2 : d1.LevelKept i d2 := .recompute d1 i
  have hall : d1.LevelKept i j := by
    rw [← hj]
    split
    · exact h2.trans (.of_tasks i (.createDev _ _ _))
    · exact h2
  have hs : d1.sensor i = { rx.mem.foldl SensorCtx.takeMember (d.sensor i) with
      level := some rx.level, e := rx.e, cfo := rx.cfo } := Dev.sensor_setSensor ..
  exact ⟨hall.decodeQ, by rw [hall.level, hs], by rw [hall.arrival, hs]⟩

/-! ## The obligation -/

section
variable {d : Dev} {x : Downlink} (hq : (d.sensor x.sidx).queue = [x]) (hj : x.ftype ≠ tJoinRsp) (hb : x.addr ≠ bcastAddr)
include hq

/-- The one downlink of a sensor's queue is what its ACK symbol answers. -/
theorem answer_of_head {p : TxPart} (hwhat : p.what = .head x.sidx) (hm : x.mpdu = p.mpdu) (hs : x.sent = true)
    (code : Option Nat) : d.answer p code = d.dlAnswer x code := by
  have hfind : (d.sensor x.sidx).queue.find? (fun y => y.mpdu == p.mpdu && y.sent) = some x := by
    rw [hq, List.find?_cons_of_pos]
    simp [hm, hs]
  unfold Dev.answer
  rw [hwhat]
  dsimp only
  rw [hfind]

include hj hb

/-- Accepted, it leaves the queue. -/
theorem dlAnswer_of_accept (ho : x.origin = .device) :
    ((d.dlAnswer x (some 0)).sensor x.sidx).queue = [] ∧ (∀ q, (d.dlAnswer x (some 0)).radio q = d.radio q) ∧
      ∀ c, (d.dlAnswer x (some 0)).counter c = (d.bump Cnt.dlAccepted).counter c := by
  have hdrop : (d.bump Cnt.dlAccepted).dropDl x =
      (d.bump Cnt.dlAccepted).setSensor x.sidx { d.sensor x.sidx with queue := [] } := by
    unfold Dev.dropDl
    dsimp only
    rw [if_neg hj, if_neg hb]
    unfold Dev.modSensor
    rw [show ((d.bump Cnt.dlAccepted).sensor x.sidx) = d.sensor x.sidx from rfl]
    dsimp only
    rw [hq]
    simp
  obtain ⟨n, he⟩ : ∃ n : Int, d.dlAnswer x (some 0) =
      ((d.bump Cnt.dlAccepted).setSensor x.sidx { d.sensor x.sidx with queue := [] }).modSensor x.sidx fun s =>
        { s with queue := s.queue.map fun (y : Downlink) => { y with enterS := max y.enterS n } } := by
    unfold Dev.dlAnswer Dev.dlFinish
    dsimp only
    rw [if_neg hj, hdrop, ho]
    exact ⟨_, rfl⟩
  rw [he]
  refine ⟨?_, fun q => ?_, fun _ => rfl⟩
  · unfold Dev.modSensor
    rw [Dev.sensor_setSensor, Dev.sensor_setSensor]
    rfl
  · exact Dev.radio_bump d Cnt.dlAccepted q

/-- Missing, it is repeated with RETRY. -/
theorem dlAnswer_of_missing (hr : x.repeats + 1 ≤ d.retryMax) :
    d.dlAnswer x none = d.setSensor x.sidx { d.sensor x.sidx with queue := [{ x with
      repeats := x.repeats + 1, sent := false, enterS := d.curS + 2, mpdu := setRetry x.mpdu }] } := by
  unfold Dev.dlAnswer Dev.mapDl
  dsimp only
  rw [if_neg (by omega), if_neg hj, if_neg hb]
  unfold Dev.modSensor
  dsimp only
  rw [hq]
  simp

end

theorem ackRxOk_ne (r : RadioId) : Cnt.ackRxOk r ≠ Cnt.dlAccepted := by revert r; decide

/-- Settles O44. -/
theorem receptionEnds : Obligations.ReceptionEnds := by
  unfold Obligations.ReceptionEnds
  intro s hup
  refine ⟨fun r w => ⟨fun hw => ?_, fun hw => ?_⟩, fun r hrun hrow => ?_,
    fun r p i x w cfg hrun haw hoth hcfg hack hend hwhat hq hmp hsent hidx hj hb ho hm => ?_,
    fun rx hq hst hl hi hacc => ⟨fun hp => ?_, fun hp => ?_⟩, fun rx i hq hst hl hi hacc => ?_⟩
  · exact .of_runUp hup rfl (if_pos (by simp [hw]))
  · exact ⟨_, .of_runUp hup rfl rfl, Dev.windowClose_of_taken hw⟩
  · have hp : s.dev.ackrxPreset r = _ := Dev.ackrxPreset_of_row hrun hrow
    exact ⟨fun hpa => .of_runUp hup rfl (hp.trans (if_pos hpa)),
      fun hpa => .of_runUp hup rfl (hp.trans (if_neg (by simp [hpa])))⟩
  · intro y energy present
    have hheard : s.dev.ackHeard r cfg p.subch w = if present = true then some (ackDecode (ackSoft y)) else none := rfl
    obtain ⟨a, b, c, hnone, hrec⟩ := Dev.ackReceive_single haw hoth hrun hcfg hack hend hm w
    subst hidx
    refine ⟨fun hp hcode => ?_, fun hp hrep => ?_⟩
    · rw [hheard, hp, if_pos rfl] at hrec
      generalize hd : (s.dev.withRadios a b c).bump _ = d at hrec
      have hqd : (d.sensor x.sidx).queue = [x] := by rw [← hd]; exact hq
      have hans := hrec.trans ((answer_of_head hqd hwhat hmp hsent _).trans (congrArg (fun k => d.dlAnswer x (some k)) hcode))
      obtain ⟨hqueue, hradio, hcnt⟩ := dlAnswer_of_accept hqd hj hb ho
      refine ⟨_, .of_runUp hup rfl hans, ?_, hqueue, ?_, ?_⟩
      · rw [hradio, ← hd, Dev.radio_bump]
        exact hnone
      · rw [hcnt, ← hd]
        exact (Dev.counter_bumpBy ..).trans ((if_neg (ackRxOk_ne r)).trans (Dev.counter_bump_self ..))
      · rw [hcnt, ← hd, Dev.counter_bump_self]
        exact congrArg (· + 1) ((Dev.counter_bumpBy ..).trans (if_neg (ackRxOk_ne r).symm))
    · rw [hheard, hp, if_neg Bool.false_ne_true] at hrec
      generalize hd : (s.dev.withRadios a b c).bump _ = d at hrec
      have hqd : (d.sensor x.sidx).queue = [x] := by rw [← hd]; exact hq
      have hrepd : x.repeats + 1 ≤ d.retryMax := by rw [← hd]; exact hrep
      have hans := hrec.trans ((answer_of_head hqd hwhat hmp hsent _).trans (dlAnswer_of_missing hqd hj hb hrepd))
      refine ⟨_, .of_runUp hup rfl hans, ?_, ?_, ?_⟩
      · show (d.radio r).await = []
        rw [← hd, Dev.radio_bump]
        exact hnone
      · rw [Dev.sensor_setSensor, ← hd]
        rfl
      · show d.counter _ = _
        rw [← hd]
        exact Dev.counter_bump_self ..
  · exact .of_runUp hup rfl (by rw [Dev.decodeStage_single hq hst]; simp [Dev.decodeOne, hl, hi, hacc, hp])
  · exact .of_runUp hup rfl (by rw [Dev.decodeStage_single hq hst]; simp [Dev.decodeOne, hl, hi, hacc, hp])
  · obtain ⟨hdq, hlv, he⟩ := Dev.takeContext_level { s.dev with decodeQ := [] } i rx
    exact ⟨_, .of_runUp hup rfl (by rw [Dev.decodeStage_single hq hst]; simp [Dev.decodeOne, hl, hi, hacc]), hdq, hlv, he⟩

end Sys2Proof.Machine
end

section
/-! # The ages of loading maps, downlinks and wake requests (R182, R187, R197) -/

namespace Sys2Proof.Machine

/-- The aging of a sensor's one downlink. -/
theorem Dev.dlAge_single {d : Dev} {i : Nat} {x : Downlink} (hi : i ≠ 0xFFFFF) (hq : (d.sensor i).queue = [x]) :
    d.dlAge i = if !x.sent && decide (x.enterSf + d.ageMax ≤ d.tim.slotS / 512) then (d.dropDl x).dlFinish x stTimeout else d := by
  unfold Dev.dlAge
  dsimp only
  rw [if_neg hi, hq]
  rfl

/-- A downlink of the device that is too old leaves its queue and is counted. -/
theorem dropDl_dlFinish_of_timeout {d : Dev} {x : Downlink} (hq : (d.sensor x.sidx).queue = [x]) (hj : x.ftype ≠ tJoinRsp)
    (hb : x.addr ≠ bcastAddr) (ho : x.origin = .device) :
    (d.dropDl x).dlFinish x stTimeout =
      (d.setSensor x.sidx { d.sensor x.sidx with queue := [] }).bump Cnt.dlTimeout := by
  have hdrop : d.dropDl x = d.setSensor x.sidx { d.sensor x.sidx with queue := [] } := by
    unfold Dev.dropDl Dev.modSensor
    dsimp only
    rw [if_neg hj, if_neg hb, hq]
    simp
  unfold Dev.dlFinish
  dsimp only
  rw [if_pos rfl, ho, hdrop]

/-- The aging of the one wake request. -/
theorem Dev.wakeAge_single {d : Dev} {w : WakeReq} (hq : d.sch.wakeQ = [w]) :
    d.wakeAge = if !w.started && decide (w.sinceSf + d.ageMax ≤ d.tim.slotS / 512) then
      ({ d with sch := { d.sch with wakeQ := [] } } : Dev).finish w.cmd stTimeout 0 else d := by
  have hsame : ({ d.sch with wakeQ := [w] } : Sch) = d.sch := by rw [← hq]
  generalize hold : (!w.started && decide (w.sinceSf + d.ageMax ≤ d.tim.slotS / 512)) = old
  have hdue : (d.sch.wakeQ.filter fun w => !w.started && decide (w.sinceSf + d.ageMax ≤ d.tim.slotS / 512)) =
      if old then [w] else [] := by
    rw [hq, ← hold]
    exact List.filter_cons
  unfold Dev.wakeAge
  dsimp only
  rw [hdue, hq]
  cases old with
  | true => simp
  | false => exact congrArg (fun c => ({ d with sch := c } : Dev)) hsame

/-- Settles O45. -/
theorem ageTimeouts : Obligations.AgeTimeouts := by
  unfold Obligations.AgeTimeouts
  intro s hup
  refine ⟨fun i => ?_, fun i x hi hq hidx hj hb ho => ?_, fun w hq => ?_⟩
  · intro x
    refine ⟨fun hw hage => ?_, fun h => ?_⟩
    · refine .of_runUp hup rfl (if_neg ?_)
      show ¬ (!x.lmWait || decide (s.dev.tim.slotS / 512 < x.lmSince + s.dev.lmResend)) = true
      rw [hw, decide_eq_false (by omega)]
      decide
    · refine .of_runUp hup rfl (if_pos ?_)
      show (!x.lmWait || decide (s.dev.tim.slotS / 512 < x.lmSince + s.dev.lmResend)) = true
      rcases h with h | h
      · rw [h]
        rfl
      · rw [decide_eq_true h, Bool.or_true]
  · have hi' : i.toNat ≠ 0xFFFFF := fun h => hi (BitVec.eq_of_toNat_eq h)
    have hage := Dev.dlAge_single hi' hq
    refine ⟨fun hs hold => .of_runUp hup rfl (hage.trans ?_), fun h => .of_runUp hup rfl (hage.trans ?_)⟩
    · rw [if_pos (by simp [hs, hold])]
      rw [← hidx] at hq ⊢
      exact dropDl_dlFinish_of_timeout hq hj hb ho
    · exact if_neg (by rcases h with h | h <;> simp [h])
  · have hage := Dev.wakeAge_single hq
    exact ⟨fun hs hold => .of_runUp hup rfl (hage.trans (if_pos (by simp [hs, hold]))),
      fun h => .of_runUp hup rfl (hage.trans (if_neg (by rcases h with h | h <;> simp [h])))⟩

end Sys2Proof.Machine
end

section
/-! # Outputs only grow -/

namespace Sys2Proof.Machine

/-- What was put out before is put out after. -/
def Dev.Sends (d e : Dev) : Prop := ∀ o ∈ d.outs, o ∈ e.outs

theorem Dev.Sends.refl (d : Dev) : d.Sends d := fun _ h => h

theorem Dev.Sends.trans {a b c : Dev} (h : a.Sends b) (k : b.Sends c) : a.Sends c := fun o ho => k o (h o ho)

theorem Dev.Sends.of_same {d e : Dev} (h : e.outs = d.outs) : d.Sends e := fun _ ho => h ▸ ho

theorem Dev.Sends.foldl {α : Type} {f : Dev → α → Dev} (h : ∀ (d : Dev) a, d.Sends (f d a)) (l : List α) (d : Dev) :
    d.Sends (l.foldl f d) := List.foldlRecOn l f (.refl d) fun _ hb a _ => hb.trans (h _ a)

theorem Dev.Sends.out (d : Dev) (o : Output) : d.Sends (d.out o) := fun _ h => List.mem_cons_of_mem o h

theorem Dev.Sends.setFld (d : Dev) (f : Field) (v : Nat) : d.Sends (d.setFld f v) := .of_same rfl

theorem Dev.Sends.bump (d : Dev) (i : Nat) : d.Sends (d.bump i) := .of_same rfl

theorem Dev.Sends.modRadio (d : Dev) (r : RadioId) (f : Radio → Radio) : d.Sends (d.modRadio r f) :=
  .of_same (Dev.modRadio_outs ..)

theorem Dev.Sends.hostWrite (d : Dev) (a : Nat) (b : List Byte) : d.Sends (d.hostWrite a b) := by
  unfold Dev.hostWrite
  split
  · exact .out d _
  · exact .refl d

theorem Dev.Sends.msix (d : Dev) (v : Nat) : d.Sends (d.msix v) := by
  unfold Dev.msix
  split
  · exact .of_same rfl
  · exact .out d _

theorem Dev.Sends.signal (d : Dev) (i : Nat) : d.Sends (d.signal i) := by
  unfold Dev.signal
  split
  · exact .refl d
  · split
    · exact .msix d _
    · split
      · exact .refl d
      · exact .of_same rfl

theorem Dev.Sends.ringWrite (d : Dev) (i pb : Nat) (e : List Byte) : d.Sends (d.ringWrite i pb e) := by
  unfold Dev.ringWrite
  dsimp only
  generalize patch e pb _ = l
  have h := Dev.Sends.hostWrite d (d.entryAddr i (d.ring i).dev) l
  generalize d.hostWrite (d.entryAddr i (d.ring i).dev) l = x at *
  exact (h.trans (.of_same (e := x.setRingDev i _) rfl)).trans (.signal _ i)

theorem Dev.Sends.traceLostMsg (d : Dev) : d.Sends d.traceLostMsg := by
  unfold Dev.traceLostMsg
  dsimp only
  split
  · exact .refl d
  · exact .of_same rfl

theorem Dev.Sends.trace (d : Dev) (ty : Nat) (l : List Byte) : d.Sends (d.trace ty l) := by
  unfold Dev.trace
  split
  · exact .refl d
  · dsimp only
    generalize (if ty = 1 then true else _) = room
    split
    · exact .traceLostMsg d
    · exact .of_same rfl

theorem Dev.Sends.record (d : Dev) (w : Written) : d.Sends (d.record w) := .of_same rfl

theorem Dev.Sends.writeEvent (d : Dev) (e : List Byte) : d.Sends (d.writeEvent e) := by
  have h : d.Sends (if d.hosted then d.ringWrite 2 2 e else d.out (.localEvent e)) := by
    split
    · exact .ringWrite d 2 2 e
    · exact .out d _
  exact (h.trans (.bump _ _)).trans (.record _ _)

theorem Dev.Sends.drainEvents (n : Nat) (d : Dev) : d.Sends (Dev.drainEvents n d) := by
  induction n generalizing d with
  | zero => exact .refl d
  | succ n ih =>
    unfold Dev.drainEvents
    split
    · exact .refl d
    · split
      · refine .trans (.trans ?_ (.writeEvent _ _)) (ih _)
        exact .of_same rfl
      · split
        · exact .refl d
        · refine .trans (.trans ?_ (.writeEvent _ _)) (ih _)
          exact .of_same rfl

theorem Dev.Sends.event (d : Dev) (ty code : Nat) (l : List (Nat × List Byte)) : d.Sends (d.event ty code l) := by
  show d.Sends (d.eventR ty code false l)
  unfold Dev.eventR
  dsimp only
  refine (Dev.Sends.trace d 2 (d.eventEntry ty code false (evData l))).trans ?_
  generalize d.trace 2 (d.eventEntry ty code false (evData l)) = x
  split
  · refine .trans ?_ (.drainEvents 258 _)
    exact .of_same rfl
  · exact .of_same rfl

theorem Dev.Sends.writeCompl (d : Dev) (e : List Byte) (k : Nat) : d.Sends (d.writeCompl e k) := by
  have h : d.Sends (if d.hosted then d.ringWrite 1 7 e else d.out (.localCompl e)) := by
    split
    · exact .ringWrite d 1 7 e
    · exact .out d _
  unfold Dev.writeCompl
  dsimp only
  generalize (if d.hosted then d.ringWrite 1 7 e else d.out (.localCompl e)) = x at h ⊢
  generalize (if beAt e 7 1 % 2 == 1 then Cnt.cmdDone else Cnt.cmdInProgress) = c
  have h3 := ((h.trans (.trace x 5 (complTrace e))).trans (.bump _ c)).trans (.record _ (.compl k (beAt e 7 1 % 2 == 1)))
  split
  · exact h3.trans (.of_same rfl)
  · exact h3

theorem Dev.Sends.drainCompl (n : Nat) (d : Dev) : d.Sends (Dev.drainCompl n d) := by
  induction n generalizing d with
  | zero => exact .refl d
  | succ n ih =>
    unfold Dev.drainCompl
    split
    · exact .refl d
    · split
      · exact .refl d
      · refine .trans (.trans ?_ (.writeCompl _ _ _)) (ih _)
        exact .of_same rfl

theorem Dev.Sends.complete (d : Dev) (c : Cmd) (st res : Nat) : d.Sends (d.complete c st res) := by
  have h : d.Sends (d.tellLocal c st) := by
    unfold Dev.tellLocal
    split
    · split <;> exact .of_same rfl
    · exact .refl d
  show d.Sends (d.completion c st true res)
  unfold Dev.completion
  dsimp only
  rw [if_pos rfl]
  generalize d.tellLocal c st = x at h ⊢
  split
  · exact h
  · refine h.trans (.trans ?_ (.drainCompl 64 _))
    exact .of_same rfl

theorem Dev.Sends.writeStatus (d : Dev) (r : Running) (st : Nat) : d.Sends (d.writeStatus r st).2 := by
  unfold Dev.writeStatus
  dsimp only
  split
  · exact .refl d
  · exact .hostWrite d _ _

theorem Dev.Sends.finish (d : Dev) (c : Cmd) (st res : Nat) : d.Sends (d.finish c st res) := by
  unfold Dev.finish
  split
  · exact .refl d
  · next r _ =>
    extract_lets x s
    have hw : d.Sends s.2 := .writeStatus d x st
    clear_value s
    refine .trans (hw.trans ?_) (.complete _ _ _ _)
    exact .of_same rfl

theorem Dev.Sends.progress (d : Dev) (op : Half) (pct part : Nat) : d.Sends (d.progress op pct part) := by
  unfold Dev.progress
  split
  · exact .refl d
  · exact (Dev.Sends.writeStatus d _ _).trans (.of_same rfl)

theorem Dev.Sends.chanCheck (d : Dev) : d.Sends d.chanCheck := by
  unfold Dev.chanCheck
  split
  · exact .refl d
  · split
    · exact (Dev.Sends.progress d _ _ _).trans (.finish _ _ _ _)
    · split
      · exact .refl d
      · exact .progress d _ _ _

end Sys2Proof.Machine
end

section
/-! # Bursts, the front end and calibration (R123 to R141, R148, R149) -/

namespace Sys2Proof.Machine

/-! ## The pins of a radio -/

/-- PA_EN, LNA_EN and COEX_REQ among the pins. -/
theorem pins_bits (pa lna req : Bool) (fe : Nat) :
    (BitVec.ofNat 9 (256 * pa.toNat + 128 * lna.toNat + 64 * req.toNat + fe % 64)).getLsbD 8 = pa ∧
      (BitVec.ofNat 9 (256 * pa.toNat + 128 * lna.toNat + 64 * req.toNat + fe % 64)).getLsbD 7 = lna := by
  have hfe : fe % 64 < 64 := Nat.mod_lt _ (by decide)
  generalize fe % 64 = n at hfe
  revert pa lna req n
  decide

theorem Dev.drive_paEn (d : Dev) (r : RadioId) (pa lna : Bool) : (d.drive r pa lna).paEn r = pa := by
  unfold Dev.paEn Dev.drive
  dsimp only
  rw [Dev.radio_modRadio_self]
  exact (pins_bits _ _ _ _).1

theorem Dev.drive_lnaEn (d : Dev) (r : RadioId) (pa lna : Bool) : (d.drive r pa lna).lnaEn r = (lna && !pa) := by
  unfold Dev.lnaEn Dev.drive
  dsimp only
  rw [Dev.radio_modRadio_self]
  exact (pins_bits _ _ _ _).2

/-- The pins with COEX_REQ asserted or not. -/
def coexPins (p : BitVec 9) (on : Bool) : BitVec 9 := (p &&& 0x1BF) ||| BitVec.ofNat 9 (64 * on.toNat)

theorem coexPins_bits (p : BitVec 9) (on : Bool) :
    (coexPins p on).getLsbD 6 = on ∧ (coexPins p on).getLsbD 8 = p.getLsbD 8 := by
  unfold coexPins
  cases on <;> simp

/-! ## What leaves a radio off the air -/

/-- A radio with nothing on air stays so, as does PA_EN low; sweeps go on, and what was put out stays put out. -/
structure Dev.StaysOff (d e : Dev) : Prop where
  onAir : ∀ q, (d.radio q).onAir = [] → (e.radio q).onAir = []
  pa : ∀ q, d.paEn q = false → e.paEn q = false
  sweep : ∀ q, (e.radio q).sweep = (d.radio q).sweep
  sends : d.Sends e

theorem Dev.StaysOff.of_radio {d e : Dev} (h : ∀ q, e.radio q = d.radio q) (k : d.Sends e) : d.StaysOff e where
  onAir q ho := by rw [h q, ho]
  pa q ho := by rw [← ho]; unfold Dev.paEn; rw [h q]
  sweep q := by rw [h q]
  sends := k

theorem Dev.StaysOff.of_same {d e : Dev} (h0 : e.r0 = d.r0) (h1 : e.r1 = d.r1) (h2 : e.r2 = d.r2) (k : e.outs = d.outs) :
    d.StaysOff e := .of_radio (Dev.radio_congr h0 h1 h2) (.of_same k)

theorem Dev.StaysOff.refl (d : Dev) : d.StaysOff d := .of_same rfl rfl rfl rfl

theorem Dev.StaysOff.trans {a b c : Dev} (h : a.StaysOff b) (k : b.StaysOff c) : a.StaysOff c :=
  ⟨fun q ho => k.onAir q (h.onAir q ho), fun q ho => k.pa q (h.pa q ho), fun q => (k.sweep q).trans (h.sweep q),
    h.sends.trans k.sends⟩

theorem Dev.StaysOff.ite {d a b : Dev} {p : Prop} [Decidable p] (h : d.StaysOff a) (k : d.StaysOff b) :
    d.StaysOff (if p then a else b) := by
  split
  · exact h
  · exact k

theorem Dev.StaysOff.of_book {d e : Dev} (h : d.Book e) (k : d.Sends e) : d.StaysOff e := .of_radio h.radio k

theorem Dev.StaysOff.foldl {α : Type} {f : Dev → α → Dev} (h : ∀ (d : Dev) a, d.StaysOff (f d a)) (l : List α) (d : Dev) :
    d.StaysOff (l.foldl f d) := List.foldlRecOn l f (.refl d) fun _ hb a _ => hb.trans (h _ a)

theorem Dev.StaysOff.modRadio (d : Dev) (r : RadioId) {f : Radio → Radio} (ho : ∀ x, x.onAir = [] → (f x).onAir = [])
    (hp : ∀ x, x.pins.getLsbD 8 = false → (f x).pins.getLsbD 8 = false) (hs : ∀ x, (f x).sweep = x.sweep) :
    d.StaysOff (d.modRadio r f) where
  onAir q h := by
    rw [Dev.radio_modRadio]
    split
    next hq => exact ho _ (hq ▸ h)
    next => exact h
  pa q h := by
    unfold Dev.paEn at h ⊢
    rw [Dev.radio_modRadio]
    split
    next hq => exact hp _ (hq ▸ h)
    next => exact h
  sweep q := by
    rw [Dev.radio_modRadio]
    split
    next hq => rw [hs, hq]
    next => rfl
  sends := .modRadio d r f

/-- A radio changes without its pins, its sweep and what it has on air. -/
theorem Dev.StaysOff.modRadio_same (d : Dev) (r : RadioId) {f : Radio → Radio}
    (h : ∀ x, (f x).onAir = x.onAir ∧ (f x).pins = x.pins ∧ (f x).sweep = x.sweep) : d.StaysOff (d.modRadio r f) :=
  .modRadio d r (fun x k => (h x).1.trans k) (fun x k => (h x).2.1 ▸ k) fun x => (h x).2.2

theorem Dev.StaysOff.setFld (d : Dev) (f : Field) (v : Nat) : d.StaysOff (d.setFld f v) := .of_same rfl rfl rfl rfl

theorem Dev.StaysOff.bump (d : Dev) (i : Nat) : d.StaysOff (d.bump i) := .of_same rfl rfl rfl rfl

theorem Dev.StaysOff.raise (d : Dev) (f : Field) : d.StaysOff (d.raise f) := .setFld d f 1

theorem Dev.StaysOff.event (d : Dev) (ty code : Nat) (l : List (Nat × List Byte)) : d.StaysOff (d.event ty code l) :=
  .of_book (.event d ty code l) (.event d ty code l)

theorem Dev.StaysOff.chanCheck (d : Dev) : d.StaysOff d.chanCheck := .of_book (.chanCheck d) (.chanCheck d)

theorem Dev.StaysOff.finish (d : Dev) (c : Cmd) (st res : Nat) : d.StaysOff (d.finish c st res) :=
  .of_book (.finish d c st res) (.finish d c st res)

theorem Dev.StaysOff.low (d : Dev) (r : RadioId) (lna : Bool) : d.StaysOff (d.drive r false lna) := by
  unfold Dev.drive
  exact .modRadio d r (fun _ h => h) (fun _ _ => (pins_bits _ _ _ _).1) fun _ => rfl

theorem Dev.StaysOff.coexReq (d : Dev) (r : RadioId) (on : Bool) : d.StaysOff (d.coexReq r on) :=
  .modRadio d r (fun _ h => h) (fun x h => ((coexPins_bits x.pins on).2).trans h) fun _ => rfl

theorem Dev.StaysOff.coexFall (d : Dev) (r : RadioId) : d.StaysOff (d.coexFall r) := by
  unfold Dev.coexFall
  split
  · exact .modRadio_same d r fun _ => ⟨rfl, rfl, rfl⟩
  · exact .coexReq d r false

theorem Dev.StaysOff.setRf (d : Dev) (r : RadioId) (new cause : Nat) : d.StaysOff (d.setRf r new cause) := by
  unfold Dev.setRf
  dsimp only
  split
  · exact .refl d
  · exact ((Dev.StaysOff.setFld d _ _).trans (.event _ _ _ _)).trans (.chanCheck _)

/-! ## A radio that fails, or loses a port -/

theorem Dev.StaysOff.modSensor (d : Dev) (i : Nat) (f : SensorCtx → SensorCtx) : d.StaysOff (d.modSensor i f) :=
  .of_same rfl rfl rfl rfl

theorem Dev.StaysOff.recordFaultSeq (d : Dev) (l : List (Nat × Byte)) : d.StaysOff (d.recordFaultSeq l) := by
  unfold Dev.recordFaultSeq
  exact .foldl (fun x p => Dev.StaysOff.modSensor x p.1 _) l d

theorem Dev.StaysOff.releasePart (d : Dev) (p : TxPart) : d.StaysOff (d.releasePart p) := by
  unfold Dev.releasePart
  split <;> exact .of_same rfl rfl rfl rfl

theorem Dev.StaysOff.releaseBurst (d : Dev) (b : Burst) : d.StaysOff (d.releaseBurst b) := by
  unfold Dev.releaseBurst
  refine (Dev.StaysOff.foldl Dev.StaysOff.releasePart b.parts d).trans ?_
  generalize b.parts.foldl Dev.releasePart d = e
  dsimp only
  split
  · exact .refl e
  · exact .of_same rfl rfl rfl rfl

theorem Dev.StaysOff.raLost (d : Dev) (l : List Cell) : d.StaysOff (d.raLost l) := .of_same rfl rfl rfl rfl

theorem Dev.StaysOff.moveBursts (d : Dev) (r : RadioId) (l : List Burst) : d.StaysOff (d.moveBursts r l) := by
  unfold Dev.moveBursts
  refine .foldl (fun d b => ?_) l d
  split
  · exact .modRadio_same _ _ fun _ => ⟨rfl, rfl, rfl⟩
  · exact .releaseBurst _ _

theorem Dev.StaysOff.clearAir (d : Dev) (r : RadioId) : d.StaysOff (d.clearAir r) := by
  unfold Dev.clearAir
  extract_lets x d1 d2 d3 d4
  have h1 : d.StaysOff d1 := .modRadio_same d r fun _ => ⟨rfl, rfl, rfl⟩
  have h2 : d1.StaysOff d2 := .recordFaultSeq d1 _
  have h3 : d2.StaysOff d3 := .raLost d2 _
  have h4 : d3.StaysOff d4 := .foldl Dev.StaysOff.releaseBurst _ d3
  clear_value d4 d3 d2 d1
  refine (((h1.trans h2).trans h3).trans h4).trans (.trans ?_ (.setFld _ _ _))
  exact .modRadio d4 r (fun _ _ => rfl) (fun _ h => h) fun _ => rfl

/-- What waits under a remap changes nothing on air. -/
theorem Dev.StaysOff.withRemaps (d : Dev) (l : List Remap) : d.StaysOff { d with sch := { d.sch with remaps := l } } :=
  .of_same rfl rfl rfl rfl

theorem Dev.StaysOff.failRadio (d : Dev) (r : RadioId) (cause : Nat) : d.StaysOff (d.failRadio r cause) := by
  unfold Dev.failRadio
  dsimp only
  generalize (List.filter _ (d.radio r).planned) = moved
  generalize d.remapFirst = first
  have h0 : d.StaysOff (d.modRadio r fun x => { x with planned := x.planned.filter fun b => !moved.contains b }) :=
    .modRadio_same _ _ fun _ => ⟨rfl, rfl, rfl⟩
  generalize (d.modRadio r fun x => { x with planned := x.planned.filter fun b => !moved.contains b }) = a at *
  have h1 := h0.trans ((Dev.StaysOff.clearAir a r).trans ((Dev.StaysOff.low _ r false).trans (.setRf _ r rsFailed cause)))
  generalize ((a.clearAir r).drive r false false).setRf r rsFailed cause = b at *
  exact h1.trans ((Dev.StaysOff.withRemaps b _).trans (.moveBursts _ r moved))

theorem Dev.StaysOff.inhibitPort (d : Dev) (r : RadioId) (hi : Bool) : d.StaysOff (d.inhibitPort r hi) := by
  unfold Dev.inhibitPort
  extract_lets first d1 d2 d3 both port sch d4 cut d5 d6 d7
  have h1 : d.StaysOff d1 := (Dev.StaysOff.raise d _).trans (.bump _ _)
  have h2 : d1.StaysOff d2 := .raise d1 _
  have h3 : d2.StaysOff d3 := .event d2 _ _ _
  have h4 : d3.StaysOff d4 := .withRemaps d3 _
  have h5 : d4.StaysOff d5 := .modRadio_same d4 r fun _ => ⟨rfl, rfl, rfl⟩
  have h6 : d5.StaysOff d6 := .recordFaultSeq d5 _
  have h7 : d6.StaysOff d7 := .moveBursts d6 r _
  have h := ((h1.trans h2).trans h3).trans h4
  split
  · exact h.trans (.failRadio d4 r 3)
  · exact (((h.trans h5).trans h6).trans h7).trans (.foldl Dev.StaysOff.releaseBurst _ d7)

theorem Dev.StaysOff.antennaCheck (d : Dev) (r : RadioId) (chan : Nat) (fwd refl : Cdb) :
    d.StaysOff (d.antennaCheck r chan fwd refl) := by
  unfold Dev.antennaCheck
  split
  · exact .refl d
  · extract_lets hi rl bo backed v start stop en v' d1 d2 d3 d4 again
    have h1 : d.StaysOff d1 := .modRadio_same d r fun _ => by split <;> exact ⟨rfl, rfl, rfl⟩
    have h2 : d1.StaysOff d2 := by
      show d1.StaysOff (if _ then _ else _)
      split
      · exact .bump d1 _
      · exact .refl d1
    have h3 : d2.StaysOff d3 := by
      show d2.StaysOff (if _ then _ else _)
      split
      · exact (Dev.StaysOff.raise d2 _).trans (.raise _ _)
      · exact .refl d2
    have h4 : d3.StaysOff d4 := by
      show d3.StaysOff (if _ then _ else _)
      split
      · exact .setFld d3 _ _
      · exact .refl d3
    have h := ((h1.trans h2).trans h3).trans h4
    refine .ite h (.ite (h.trans (.inhibitPort d4 r hi)) (h.trans (.trans ?_ (.bump _ _))))
    refine .modRadio_same d4 r fun x => ?_
    split <;> exact ⟨rfl, rfl, rfl⟩

theorem Dev.StaysOff.txChainCheck (d : Dev) (r : RadioId) (fwd expected : Cdb) : d.StaysOff (d.txChainCheck r fwd expected) := by
  unfold Dev.txChainCheck
  split
  · exact .refl d
  · extract_lets run d1
    have h1 : d.StaysOff d1 := .modRadio_same d r fun _ => ⟨rfl, rfl, rfl⟩
    split
    · exact h1.trans (.failRadio d1 r 5)
    · exact h1

/-! ## A retune -/

theorem Dev.StaysOff.sendTuner (d : Dev) (r : RadioId) (i : Nat) : d.StaysOff (d.sendTuner r i) := by
  unfold Dev.sendTuner
  split
  · exact .refl d
  · refine .foldl (fun x w => ?_) _ d
    exact .of_radio (fun _ => rfl) (.out x _)

theorem Dev.StaysOff.retuneTo (d : Dev) (r : RadioId) (i : Nat) : d.StaysOff (d.retuneTo r i) := by
  unfold Dev.retuneTo
  split
  · exact .refl d
  · extract_lets d1 hz y cold d2
    have h1 : d.StaysOff d1 := ((Dev.StaysOff.low d r false).trans (.setFld _ _ _)).trans (.sendTuner _ r i)
    have h2 : d1.StaysOff d2 := .modRadio_same d1 r fun _ => ⟨rfl, rfl, rfl⟩
    exact (h1.trans h2).trans (.bump d2 _)

theorem Dev.StaysOff.tuneNow (d : Dev) (r : RadioId) : d.StaysOff (d.tuneNow r) := by
  unfold Dev.tuneNow
  split
  · exact .refl d
  · split
    · split
      · exact .refl d
      · split
        · exact .refl d
        · exact .modRadio_same d r fun _ => ⟨rfl, rfl, rfl⟩
    · split
      · exact .retuneTo d r _
      · exact .refl d

theorem Dev.StaysOff.tuneAfter (d : Dev) (r : RadioId) : d.StaysOff (d.tuneAfter r) := by
  unfold Dev.tuneAfter
  split
  · refine .trans ?_ (.tuneNow _ r)
    exact .modRadio_same d r fun _ => ⟨rfl, rfl, rfl⟩
  · exact .refl d

/-! ## The end of a burst -/

theorem Dev.StaysOff.dropDl (d : Dev) (x : Downlink) : d.StaysOff (d.dropDl x) := by
  unfold Dev.dropDl
  dsimp only
  refine .ite (.of_same rfl rfl rfl rfl) (.ite (.of_same rfl rfl rfl rfl) (.modSensor d _ _))

theorem Dev.StaysOff.of_tasks {d e : Dev} (h : d.TaskOnly e) : d.StaysOff e := by
  rw [h]
  exact .of_same rfl rfl rfl rfl

theorem Dev.StaysOff.dlFinish (d : Dev) (x : Downlink) (status : Nat) : d.StaysOff (d.dlFinish x status) := by
  unfold Dev.dlFinish
  extract_lets d1
  have h1 : d.StaysOff d1 := .ite (.bump d _) (.ite ((Dev.StaysOff.bump d _).trans (.raise _ _)) (.refl d))
  split
  · exact h1
  · exact h1.trans (.of_tasks (.createDev d1 _ _))

theorem Dev.StaysOff.linkSent (d : Dev) (l : Nat) (p : TxPart) (lead : Nat) : d.StaysOff (d.linkSent l p lead) := by
  unfold Dev.linkSent
  extract_lets d1 d2
  have h2 : d1.StaysOff d2 := by
    show d1.StaysOff (match (d1.link l).queue.find? _ with | some x => _ | none => d1)
    split
    · exact .ite (.bump d1 _) (.refl d1)
    · exact .refl d1
  have h := (Dev.StaysOff.bump d Cnt.linkTx).trans h2
  exact .ite (h.trans (.of_same rfl rfl rfl rfl)) h

theorem Dev.StaysOff.partSent (d : Dev) (r : RadioId) (chan lead : Nat) (p : TxPart) :
    d.StaysOff (d.partSent r chan lead p) := by
  unfold Dev.partSent
  extract_lets first wait lmAgain dl
  have hwait (x : Dev) : x.StaysOff (wait x) := .modRadio_same x r fun _ => ⟨rfl, rfl, rfl⟩
  have hdl (l : List Downlink) (x : Dev) : x.StaysOff (dl l x) := by
    refine .ite (.refl x) ?_
    split
    · exact .ite ((Dev.StaysOff.bump x _).trans (.bump _ _)) (.bump x _)
    · exact .bump x _
  clear_value wait dl
  split
  · exact (hdl _ d).trans (hwait _)
  · exact (hdl _ d).trans (hwait _)
  · extract_lets n
    have hn (x : Dev) : x.StaysOff (n x) := .ite (.bump x _) (.refl x)
    exact .trans (.ite (((Dev.StaysOff.bump d _).trans (.bump _ _)).trans (hn _)) (.refl d)) (hwait _)
  · exact .bump d _
  · refine .ite (.refl d) ?_
    split
    · exact ((Dev.StaysOff.bump d _).trans (.dropDl _ _)).trans (.dlFinish _ _ _)
    · exact .refl d
  · exact (Dev.StaysOff.linkSent d _ p lead).trans (.modRadio_same _ r fun _ => ⟨rfl, rfl, rfl⟩)

theorem Dev.StaysOff.countAck (d : Dev) (a : Nat × Byte × Nat) : d.StaysOff (d.countAck a) := by
  unfold Dev.countAck
  refine .ite (.refl d) ?_
  dsimp only
  split <;> exact .of_same rfl rfl rfl rfl

theorem Dev.StaysOff.wakeSent (d : Dev) (b : Burst) : d.StaysOff (d.wakeSent b) := by
  unfold Dev.wakeSent
  split
  · exact .refl d
  · dsimp only
    split
    · exact .bump d _
    · refine .trans ?_ (.finish _ _ _ _)
      exact .of_same rfl rfl rfl rfl

/-- The end of the one burst on air puts it out, and PA_EN falls. -/
theorem Dev.burstEnd_single {d : Dev} {r : RadioId} {b : Burst} (h : (d.radio r).onAir = [b]) (fwd refl expected : Cdb) :
    ((d.burstEnd r fwd refl expected).radio r).onAir = [] ∧ (d.burstEnd r fwd refl expected).paEn r = false ∧
      (d.reachTai (d.endInstant r b)).airOut r b ∈ (d.burstEnd r fwd refl expected).outs := by
  generalize hj : d.burstEnd r fwd refl expected = j
  unfold Dev.burstEnd at hj
  split at hj
  case h_1 h0 => exact nomatch h.symm.trans h0
  case h_2 b' t h0 =>
  obtain ⟨rfl, rfl⟩ := List.cons.inj (h.symm.trans h0)
  extract_lets d1 d2 d3 d4 keep low d5 at hj
  have h2 : (d2.radio r).onAir = [] ∧ d1.airOut r b ∈ d2.outs := by
    refine ⟨congrArg Radio.onAir (Dev.radio_modRadio_self _ _ _), ?_⟩
    show _ ∈ (Dev.modRadio _ _ _).outs
    rw [Dev.modRadio_outs]
    exact List.mem_cons_self
  have h4 : d2.StaysOff d4 := .trans (.trans (b := d3) (.foldl (fun x p => .partSent x r b.chan b.lead p) _ d2)
    (.foldl Dev.StaysOff.countAck _ d3)) (.wakeSent _ b)
  have hlow : low.paEn r = false := Dev.drive_paEn _ _ _ _
  have h5 : low.StaysOff d5 := by
    show low.StaysOff (if ([] : List Burst) = [] then _ else d4)
    rw [if_pos rfl]
    exact .trans (.ite (.refl low) (.coexFall low r)) (.tuneAfter _ r)
  have hend : d5.StaysOff j := hj ▸ (Dev.StaysOff.antennaCheck d5 r b.chan fwd refl).trans (.txChainCheck _ r fwd expected)
  have hall := (h4.trans (.low d4 r _)).trans (h5.trans hend)
  exact ⟨hall.onAir r h2.1, (h5.trans hend).pa r hlow, hall.sends _ h2.2⟩

/-! ## The check of a burst -/

theorem Dev.Book.traceRadio (d : Dev) (r : RadioId) (ty : Nat) (l : List Byte) : d.Book (d.traceRadio r ty l) := by
  unfold Dev.traceRadio
  split
  · exact .trace d ty _
  · exact .refl d

theorem Dev.Book.traceTx (d : Dev) (r : RadioId) (b : Burst) (code : Option TxPart → Nat) : d.Book (d.traceTx r b code) := by
  unfold Dev.traceTx
  extract_lets one d1 d2
  have hone (x : Dev) (c n : Nat) : x.Book (one x c n) := .traceRadio x r 4 _
  have h1 : d.Book d1 := .foldl _ (fun x _ => hone x _ _) _ d
  have h2 : d1.Book d2 := .foldl _ (fun x _ => hone x _ _) _ d1
  split
  · exact (h1.trans h2).trans (hone d2 _ _)
  · exact h1.trans h2

theorem Dev.checkGroup_congr {d e : Dev} (h : ∀ q, (e.radio q).planned = (d.radio q).planned) (r : RadioId) :
    e.checkGroup r = d.checkGroup r := by
  have hn (q : RadioId) : e.nextBurst q = d.nextBurst q := congrArg List.head? (h q)
  unfold Dev.checkGroup Dev.stripeMates
  simp only [hn]

theorem Dev.reachTai_only (d : Dev) (t : Int) : d.reachTai t = { d with tim := (d.reachTai t).tim } := by
  unfold Dev.reachTai
  split <;> rfl

/-- The device at the check of a radio's next burst: its check is recorded. -/
def Dev.withCheck (d : Dev) (r : RadioId) (o : Bool × Bool) : Dev := d.modRadio r fun x => { x with checked := some o }

theorem Dev.withCheck_planned (d : Dev) (r : RadioId) (o : Bool × Bool) (q : RadioId) :
    ((d.withCheck r o).radio q).planned = (d.radio q).planned := by
  unfold Dev.withCheck
  rw [Dev.radio_modRadio]
  split
  next hq => rw [hq]
  next => rfl

/-- The check of one radio. -/
theorem Dev.checkNow_single {d : Dev} {r : RadioId} {o : Bool × Bool} (h : (d.radio r).checked = some o) :
    ∃ lost, (o.1 = true → o.2 = true → lost = []) ∧ d.checkNow [r] = d.checkOne r o lost := by
  have hres : ([r].filterMap fun y => (d.radio y).checked.map fun o => (y, o)) = [(r, o)] := by simp [h]
  unfold Dev.checkNow
  extract_lets res lost
  have hlist : res = [(r, o)] := hres
  refine ⟨lost, fun h1 h2 => ?_, by rw [hlist]; rfl⟩
  show ((res.filter fun x => !x.2.1 || !x.2.2).flatMap _) = []
  rw [hlist]
  simp [h1, h2]

section
variable {d : Dev} {r : RadioId} {b : Burst} {t : List Burst} (hp : (d.radio r).planned = b :: t)
  (hrun : d.rfReadyRun r = true) (hport : d.portInhibited r b.chan = false)
include hp hrun hport

theorem Dev.burstCheck_of_planned (lock gnt : Bool) :
    d.burstCheck r lock gnt =
      let e := d.withCheck r (lock, d.granted r gnt)
      if (e.checkGroup r).all fun y => (e.radio y).checked.isSome then
        (e.reachTai (e.groupInstant (e.checkGroup r))).checkNow (e.checkGroup r) else e := by
  have hcal : d.rfState r ≠ rsCalibrating := by
    intro h
    rw [show d.rfReadyRun r = (d.rfState r == rsReady || d.rfState r == rsRunning) from rfl, h] at hrun
    exact absurd hrun (by decide)
  generalize hj : d.burstCheck r lock gnt = j
  unfold Dev.burstCheck at hj
  rw [if_neg hcal] at hj
  split at hj
  case h_1 h0 => exact nomatch hp.symm.trans h0
  case h_2 b' t' h0 =>
  obtain ⟨rfl, rfl⟩ := List.cons.inj (hp.symm.trans h0)
  rw [if_neg (by simp [hrun]), if_neg (by simp [hport])] at hj
  exact hj.symm

/-- A companion that is not checked yet is waited for. -/
theorem Dev.burstCheck_of_waiting (lock gnt : Bool) {y : RadioId} (hy : y ∈ d.checkGroup r) (hne : y ≠ r)
    (hn : (d.radio y).checked = none) : d.burstCheck r lock gnt = d.withCheck r (lock, d.granted r gnt) := by
  rw [Dev.burstCheck_of_planned hp hrun hport]
  refine if_neg fun hall => ?_
  rw [Dev.checkGroup_congr (Dev.withCheck_planned d r _), List.all_eq_true] at hall
  have h := hall y hy
  unfold Dev.withCheck at h
  rw [Dev.radio_modRadio_ne _ hne, hn] at h
  exact nomatch h

/-- A burst that goes with no other is checked by itself. -/
theorem Dev.burstCheck_of_alone (lock gnt : Bool) (hg : d.checkGroup r = [r]) :
    ∃ (e : Dev) (lost : List (TxPart × Nat)), (lock = true → d.granted r gnt = true → lost = []) ∧
      e.radio r = { d.radio r with checked := some (lock, d.granted r gnt) } ∧ (∀ q, q ≠ r → e.radio q = d.radio q) ∧
      e.counters = d.counters ∧ d.burstCheck r lock gnt = e.checkOne r (lock, d.granted r gnt) lost := by
  have hplan := Dev.withCheck_planned d r (lock, d.granted r gnt)
  have hself : (d.withCheck r (lock, d.granted r gnt)).radio r = { d.radio r with checked := some (lock, d.granted r gnt) } :=
    Dev.radio_modRadio_self _ _ _
  have hother (q : RadioId) (hq : q ≠ r) : (d.withCheck r (lock, d.granted r gnt)).radio q = d.radio q :=
    Dev.radio_modRadio_ne _ hq _
  have hcnt : (d.withCheck r (lock, d.granted r gnt)).counters = d.counters := Dev.modRadio_counters _ _ _
  have hchecked := congrArg Radio.checked hself
  rw [Dev.burstCheck_of_planned hp hrun hport]
  dsimp only
  rw [Dev.checkGroup_congr hplan, hg, if_pos (by simp [hchecked]), Dev.reachTai_only]
  generalize (Dev.reachTai _ _).tim = x
  generalize d.withCheck r (lock, d.granted r gnt) = e at *
  obtain ⟨lost, hl, hnow⟩ := Dev.checkNow_single (d := { e with tim := x }) (r := r) hchecked
  exact ⟨{ e with tim := x }, lost, hl, hself, hother, hcnt, hnow⟩

end

/-- A burst of ACK symbols alone is given up without a part that waits again. -/
theorem Dev.abandon_of_acks {b : Burst} (hparts : b.parts = []) (hwake : b.wake = none) (d : Dev) (synth : Bool) :
    d.abandon b synth = if synth then d.recordFaultSeq (b.acked.filter fun a => !d.ackElsewhere a) else d := by
  unfold Dev.abandon
  dsimp only
  rw [hparts, hwake]
  rfl

theorem Dev.recordFaultSeq_kept (d : Dev) (l : List (Nat × Byte)) :
    (d.recordFaultSeq l).r0 = d.r0 ∧ (d.recordFaultSeq l).r1 = d.r1 ∧ (d.recordFaultSeq l).r2 = d.r2 ∧
      (d.recordFaultSeq l).regs = d.regs ∧ (d.recordFaultSeq l).counters = d.counters := by
  unfold Dev.recordFaultSeq
  induction l generalizing d with
  | nil => exact ⟨rfl, rfl, rfl, rfl, rfl⟩
  | cons a l ih => exact ih _

theorem not_bookCnt_radio (r : RadioId) :
    ¬ bookCnt (Cnt.txBurst r) ∧ ¬ bookCnt (Cnt.coexDenied r) ∧ ¬ bookCnt (Cnt.txSynthNotReady r) := by
  revert r
  unfold bookCnt
  decide

/-- A burst without failed parts goes on air, with PA_EN high and LNA_EN low. -/
theorem Dev.sendBurst_whole (d : Dev) (r : RadioId) {b : Burst} (h : b.parts ≠ [] ∨ b.acks ≠ [] ∨ b.wake ≠ none) :
    let e := d.sendBurst r b []
    (e.radio r).planned = (d.radio r).planned ∧ (e.radio r).onAir = (d.radio r).onAir ++ [b] ∧ e.paEn r = true ∧
      e.lnaEn r = false ∧ e.counter (Cnt.txBurst r) = d.counter (Cnt.txBurst r) + 1 ∧ ∀ q, q ≠ r → e.radio q = d.radio q := by
  intro e
  have hb : ({ b with parts := b.parts.filter fun p => !([] : List (TxPart × Nat)).any fun q => p.mate q.1 } : Burst) = b := by
    simp
  have hsend : ∃ x, d.Book x ∧ e = ((x.modRadio r fun x => { x with onAir := x.onAir ++ [b] }).drive r true false).bump
      (Cnt.txBurst r) := by
    show ∃ x, d.Book x ∧ d.sendBurst r b [] = _
    unfold Dev.sendBurst
    extract_lets code d1 b'
    have hb' : b' = b := hb
    refine ⟨d1, .traceTx d r b code, ?_⟩
    rw [if_neg (by rw [hb']; tauto), hb']
  clear_value e
  obtain ⟨x, hbook, rfl⟩ := hsend
  have hy : (x.modRadio r fun y => { y with onAir := y.onAir ++ [b] }).radio r =
      { d.radio r with onAir := (d.radio r).onAir ++ [b] } := by rw [Dev.radio_modRadio_self, hbook.radio]
  have hcnt : (x.modRadio r fun y => { y with onAir := y.onAir ++ [b] }).counter (Cnt.txBurst r) = d.counter (Cnt.txBurst r) :=
    (Dev.counter_congr (Dev.modRadio_counters _ _ _) _).trans (hbook.counter _ (not_bookCnt_radio r).1)
  have hother (q : RadioId) (hq : q ≠ r) :
      (x.modRadio r fun y => { y with onAir := y.onAir ++ [b] }).radio q = d.radio q := by
    rw [Dev.radio_modRadio_ne _ hq, hbook.radio]
  generalize (x.modRadio r fun y => { y with onAir := y.onAir ++ [b] }) = y at *
  obtain ⟨p, hpins⟩ := y.drive_radio r true false
  have hpa := y.drive_paEn r true false
  have hlna := y.drive_lnaEn r true false
  have hdrive := Dev.OtherRadios.drive r y true false
  have hdcnt : (y.drive r true false).counters = y.counters := Dev.modRadio_counters _ _ _
  generalize y.drive r true false = z at *
  rw [hy] at hpins
  refine ⟨?_, ?_, ?_, ?_, ?_, fun q hq => ?_⟩
  · rw [Dev.radio_bump, hpins]
  · rw [Dev.radio_bump, hpins]
  · unfold Dev.paEn
    rw [Dev.radio_bump]
    exact hpa
  · unfold Dev.lnaEn
    rw [Dev.radio_bump]
    exact hlna
  · rw [Dev.counter_bump_self, Dev.counter_congr hdcnt, hcnt]
  · rw [Dev.radio_bump, hdrive.radio q hq, hother q hq]

section
variable {d : Dev} {r : RadioId} {b : Burst} {t : List Burst} (hp : (d.radio r).planned = b :: t)
include hp

/-- The radio at its check takes the burst off its plan, and shows its lock. -/
theorem Dev.checkOne_of_planned (o : Bool × Bool) (lost : List (TxPart × Nat)) :
    ∃ (x : Dev) (fail : Bool) (n : Nat), x.radio r = { d.radio r with planned := t, checked := none, missRun := n } ∧
      (∀ q, q ≠ r → x.radio q = d.radio q) ∧ x.counters = d.counters ∧
      (o.1 = false → (d.radio r).missRun < 3 → fail = false) ∧
      d.checkOne r o lost =
        if !o.1 then
          let e := (((x.traceTx r b fun _ => stSynthNotReady).bump (Cnt.txSynthNotReady r)).raise
            (Reg.rfStat_synth_miss r)).abandon b true
          if fail then e.failRadio r 1 else e
        else if !o.2 then (((x.traceTx r b fun _ => stCoexDenied).bump (Cnt.coexDenied r)).raise
          (Reg.rfStat_coex_denied r)).abandon b false
        else x.sendBurst r b lost := by
  generalize hj : d.checkOne r o lost = j
  unfold Dev.checkOne at hj
  split at hj
  case h_1 h0 => exact nomatch hp.symm.trans h0
  case h_2 b' t' h0 =>
  obtain ⟨rfl, rfl⟩ := List.cons.inj (hp.symm.trans h0)
  extract_lets d1 l at hj
  have hd1 : d1.radio r = { d.radio r with planned := t, checked := none } := Dev.radio_modRadio_self _ _ _
  obtain ⟨-, ⟨n, hr, hn, hfail⟩, hother, hcnt, -⟩ := d1.lockSeen_frame r o.1
  refine ⟨l.1, l.2, n, hr.trans (by rw [hd1]), fun q hq => (hother q hq).trans (Dev.radio_modRadio_ne _ hq _),
    hcnt.trans (Dev.modRadio_counters _ _ _), fun hl hm => hfail.trans (decide_eq_false ?_), hj.symm⟩
  have := hn hl
  rw [hd1] at this
  dsimp only at this
  omega

/-- A check that passes sends the burst. -/
theorem Dev.checkOne_of_pass (h : b.parts ≠ [] ∨ b.acks ≠ [] ∨ b.wake ≠ none) :
    let e := d.checkOne r (true, true) []
    (e.radio r).planned = t ∧ (e.radio r).onAir = (d.radio r).onAir ++ [b] ∧ e.paEn r = true ∧
      e.lnaEn r = false ∧ e.counter (Cnt.txBurst r) = d.counter (Cnt.txBurst r) + 1 ∧ ∀ q, q ≠ r → e.radio q = d.radio q := by
  intro e
  obtain ⟨x, fail, n, hr, hother, hcnt, -, he⟩ := Dev.checkOne_of_planned hp (true, true) []
  obtain ⟨hplan, hair, hpa, hlna, hsent, hrest⟩ := Dev.sendBurst_whole x r h
  have hes : e = x.sendBurst r b [] := he
  rw [hes]
  refine ⟨by rw [hplan, hr], by rw [hair, hr], hpa, hlna, ?_, fun q hq => (hrest q hq).trans (hother q hq)⟩
  rw [hsent, Dev.counter_congr hcnt]

/-- Without a grant a burst of ACK symbols or of nothing else is given up. -/
theorem Dev.checkOne_of_denied (hparts : b.parts = []) (hwake : b.wake = none) (lost : List (TxPart × Nat)) :
    let e := d.checkOne r (true, false) lost
    (e.radio r).planned = t ∧ (e.radio r).onAir = (d.radio r).onAir ∧ e.bit (Reg.rfStat_coex_denied r) = true ∧
      e.counter (Cnt.coexDenied r) = d.counter (Cnt.coexDenied r) + 1 := by
  intro e
  obtain ⟨x, fail, n, hr, -, hcnt, -, he⟩ := Dev.checkOne_of_planned hp (true, false) lost
  have hbook := Dev.Book.traceTx x r b fun _ => stCoexDenied
  have hes : e = ((x.traceTx r b fun _ => stCoexDenied).bump (Cnt.coexDenied r)).raise (Reg.rfStat_coex_denied r) := by
    exact he.trans ((Dev.abandon_of_acks hparts hwake _ false).trans rfl)
  generalize (x.traceTx r b fun _ => stCoexDenied) = y at *
  rw [hes]
  refine ⟨?_, ?_, Dev.bit_raise_self _ _ (by simp [Reg.rfStat_coex_denied]), ?_⟩
  · rw [Dev.radio_raise, Dev.radio_bump, hbook.radio, hr]
  · rw [Dev.radio_raise, Dev.radio_bump, hbook.radio, hr]
  · rw [Dev.counter_raise, Dev.counter_bump_self, hbook.counter _ (not_bookCnt_radio r).2.1, Dev.counter_congr hcnt]

/-- Without lock, before the fourth miss, it is given up too. -/
theorem Dev.checkOne_of_unlocked (hparts : b.parts = []) (hwake : b.wake = none) (hm : (d.radio r).missRun < 3) (g : Bool)
    (lost : List (TxPart × Nat)) :
    let e := d.checkOne r (false, g) lost
    (e.radio r).planned = t ∧ (e.radio r).onAir = (d.radio r).onAir ∧ e.bit (Reg.rfStat_synth_miss r) = true ∧
      e.counter (Cnt.txSynthNotReady r) = d.counter (Cnt.txSynthNotReady r) + 1 := by
  intro e
  obtain ⟨x, fail, n, hr, -, hcnt, hfail, he⟩ := Dev.checkOne_of_planned hp (false, g) lost
  have hbook := Dev.Book.traceTx x r b fun _ => stSynthNotReady
  have hes : e = (((x.traceTx r b fun _ => stSynthNotReady).bump (Cnt.txSynthNotReady r)).raise
      (Reg.rfStat_synth_miss r)).abandon b true := he.trans ((if_pos rfl).trans (if_neg (by simp [hfail rfl hm])))
  generalize (x.traceTx r b fun _ => stSynthNotReady) = y at *
  rw [Dev.abandon_of_acks hparts hwake, if_pos rfl] at hes
  generalize hz : (y.bump (Cnt.txSynthNotReady r)).raise (Reg.rfStat_synth_miss r) = z at hes
  have hzr : z.radio r = x.radio r := by rw [← hz, Dev.radio_raise, Dev.radio_bump, hbook.radio]
  have hzb : z.bit (Reg.rfStat_synth_miss r) = true := by
    rw [← hz]
    exact Dev.bit_raise_self _ _ (by simp [Reg.rfStat_synth_miss])
  have hzc : z.counter (Cnt.txSynthNotReady r) = d.counter (Cnt.txSynthNotReady r) + 1 := by
    rw [← hz, Dev.counter_raise, Dev.counter_bump_self, hbook.counter _ (not_bookCnt_radio r).2.2, Dev.counter_congr hcnt]
  obtain ⟨h0, h1, h2, hregs, hcnts⟩ := z.recordFaultSeq_kept (b.acked.filter fun a => !z.ackElsewhere a)
  have hradio := Dev.radio_congr h0 h1 h2 r
  rw [hes]
  exact ⟨by rw [hradio, hzr, hr], by rw [hradio, hzr, hr], (Dev.bit_congr hregs _).trans hzb, (Dev.counter_congr hcnts _).trans hzc⟩

end

/-! ## Coexistence, lock and calibration -/

/-- Before a planned burst COEX_REQ rises, and no other radio changes. -/
theorem Dev.coexAssert_of_planned {d : Dev} {r : RadioId} (hen : d.cfgBit (Reg.rfCoexcfg_en r) = true)
    (hrun : d.rfReadyRun r = true) (hp : (d.radio r).planned ≠ []) :
    ((d.coexAssert r).radio r).pins.getLsbD 6 = true ∧ ∀ q, q ≠ r → (d.coexAssert r).radio q = d.radio q := by
  generalize hj : d.coexAssert r = j
  unfold Dev.coexAssert at hj
  extract_lets due d1 held at hj
  have hdue : due = true := by
    show ((d.radio r).planned != [] || _) = true
    simp [hp]
  have h1 (q : RadioId) : d1.radio q = d.radio q := by
    show Dev.radio (match (d.radio r).planned.head? with | some b => _ | none => d) q = _
    split
    · rw [Dev.reachTai_only]
      rfl
    · rfl
  rw [if_pos (by simp [hen, hrun, hdue])] at hj
  subst hj
  unfold Dev.coexReq
  refine ⟨?_, fun q hq => ?_⟩
  · rw [Dev.radio_modRadio_self]
    exact (coexPins_bits _ true).1
  · rw [Dev.radio_modRadio_ne _ hq, Dev.radio_modRadio_ne _ hq, h1]

/-- A chunk that fits is taken, and radiates nothing. -/
theorem Dev.calChunkDone_of_place {d : Dev} {r : RadioId} {t : TempRun} {start : Int} (ht : (d.radio r).tempRun = some t)
    (hp : d.chunkPlace r t start = true) (htg : d.tim.tgBegun = false) :
    let e := d.calChunkDone r start
    ((e.radio r).tempRun.map (·.left)) = some (t.left - 1) ∧ (e.radio r).calDone = (t.left - 1 == 0) ∧ e.paEn r = false ∧
      e.lnaEn r = false := by
  obtain ⟨n, he⟩ : ∃ n, d.calChunkDone r start = (d.modRadio r fun x => { x with
      tempRun := some { t with left := t.left - 1, chunkS := d.tim.slotS, chunks := n }, calDone := t.left - 1 == 0 }).drive r
        false false := by
    unfold Dev.calChunkDone
    split
    case h_1 h0 => exact nomatch ht.symm.trans h0
    case h_2 t' h0 =>
    obtain rfl := Option.some.inj (ht.symm.trans h0)
    refine ⟨_, (if_neg (by simp [hp])).trans (if_neg ?_)⟩
    unfold Dev.drive
    rw [Dev.modRadio_tim, Dev.modRadio_tim, htg]
    exact Bool.false_ne_true
  intro e
  have hee : e = _ := he
  clear_value e
  generalize hy : (d.modRadio r fun x => { x with
    tempRun := some { t with left := t.left - 1, chunkS := d.tim.slotS, chunks := n }, calDone := t.left - 1 == 0 }) = y at hee
  have hyr : (y.radio r).tempRun.map (·.left) = some (t.left - 1) ∧ (y.radio r).calDone = (t.left - 1 == 0) := by
    rw [← hy, Dev.radio_modRadio_self]
    exact ⟨rfl, rfl⟩
  obtain ⟨p, hr⟩ := y.drive_radio r false false
  subst hee
  rw [hr]
  exact ⟨hyr.1, hyr.2, Dev.drive_paEn _ _ _ _, Dev.drive_lnaEn _ _ _ _⟩

/-! ## The end of a sweep -/

theorem Dev.setEntry_entryValid (d : Dev) (r : RadioId) (i j : Nat) :
    (d.setEntry r i).entryValid r j = (decide (j = i) || d.entryValid r j) := by
  unfold Dev.entryValid Dev.setEntry
  rw [Dev.radio_modRadio_self]
  by_cases hj : j = i
  · simp [hj, Sparse.get_put_same]
  · simp [hj, Sparse.get_put_ne none none (d.radio r).entries _ hj]

/-- The entries that a sweep built are valid; else the radio is as before. -/
theorem Dev.setEntries_frame (d : Dev) (r : RadioId) (l : List Nat) :
    let e := l.foldl (fun d i => d.setEntry r i) d
    (∀ i ∈ l, e.entryValid r i = true) ∧ (∀ i, d.entryValid r i = true → e.entryValid r i = true) ∧
      (∃ t, e.radio r = { d.radio r with entries := t }) ∧ e.regs = d.regs ∧ e.chans = d.chans := by
  induction l generalizing d with
  | nil => exact ⟨fun _ h => (nomatch h), fun _ h => h, ⟨_, rfl⟩, rfl, rfl⟩
  | cons a l ih =>
    obtain ⟨hall, hkeep, ⟨t, ht⟩, hregs, hchans⟩ := ih (d.setEntry r a)
    refine ⟨fun i hi => ?_, fun i hi => hkeep i ?_, ⟨t, ht.trans ?_⟩, hregs.trans (Dev.modRadio_regs _ _ _),
      hchans.trans (Dev.modRadio_chans _ _ _)⟩
    · rcases List.mem_cons.mp hi with rfl | hi
      · exact hkeep i (by rw [Dev.setEntry_entryValid]; simp)
      · exact hall i hi
    · rw [Dev.setEntry_entryValid, hi, Bool.or_true]
    · unfold Dev.setEntry
      rw [Dev.radio_modRadio_self]

/-- A radio's state shows, and its other fields stay, whether or not it changes. -/
theorem Dev.setRf_frame (d : Dev) (r : RadioId) {new : Nat} (cause : Nat) (hn : new < 8) :
    (d.setRf r new cause).rfState r = new ∧ (∀ q, (d.setRf r new cause).radio q = d.radio q) ∧
      (d.setRf r new cause).fld (Reg.rfTemp_last r) = d.fld (Reg.rfTemp_last r) := by
  by_cases h : d.rfState r = new
  · have he : d.setRf r new cause = d := if_pos h
    rw [he]
    exact ⟨h, fun _ => rfl, rfl⟩
  · exact ⟨Dev.setRf_rfState cause h hn, Dev.setRf_radio cause h,
      ((Dev.setRf_book cause h).fld (not_bookAddr_rfTemp r)).trans
        (congrArg (Reg.rfTemp_last r).of (Dev.reg_setFld_ne _ _ _ _ (rfTemp_ne_rfStat r)))⟩

/-- A sweep that carries no command leaves the radio READY with the entries that it built. -/
theorem Dev.sweepDone_of_own (d : Dev) (r : RadioId) {w : Sweep} (hc : w.cmd = none) :
    let e := d.sweepDone r w
    (e.radio r).sweep = (d.radio r).sweep ∧ e.rfState r = rsReady ∧ (e.radio r).buildQ = w.changed ∧
      e.fld (Reg.rfTemp_last r) = w.temp.toNat ∧ ∀ i ∈ w.built, i ∉ w.changed → e.entryValid r i = true := by
  intro e
  have hj : d.sweepDone r w = e := rfl
  clear_value e
  unfold Dev.sweepDone at hj
  extract_lets good d1 d2 hz y d3 d4 sch at hj
  obtain ⟨hgood, -, ⟨t, hr1⟩, -⟩ := d.setEntries_frame r good
  have hr2 : d2.radio r = { d.radio r with entries := t } := hr1
  have htemp : d2.fld (Reg.rfTemp_last r) = w.temp.toNat := by
    refine (congrArg (Reg.rfTemp_last r).of (Dev.reg_setFld_ne _ _ _ _ (rfTemp_ne_rfStat r))).trans ?_
    exact (Dev.fld_setFld_self d1 (Reg.rfTemp_last r) _ (by simp [Reg.rfTemp_last])).trans (Nat.mod_eq_of_lt w.temp.isLt)
  have hentry : ∀ i ∈ good, d2.entryValid r i = true := hgood
  clear_value d2
  obtain ⟨x, hx, hstate, hradio, hfld⟩ : ∃ x, x = (d2.modRadio r fun x => { x with
      buildQ := w.changed, chan := w.built.getLast?, target := none, hz := hz, yApplied := y }) ∧ d3.rfState r = rsReady ∧
      (∀ q, d3.radio q = x.radio q) ∧ d3.fld (Reg.rfTemp_last r) = x.fld (Reg.rfTemp_last r) :=
    ⟨_, rfl, Dev.setRf_frame _ r 5 (by decide)⟩
  have hxr : x.radio r = { d2.radio r with
      buildQ := w.changed, chan := w.built.getLast?, target := none, hz := hz, yApplied := y } := by
    rw [hx, Dev.radio_modRadio_self]
  have hxregs : x.regs = d2.regs := by rw [hx, Dev.modRadio_regs]
  have hd4 : d4 = d3 := by simp only [d4, hc]
  rw [← hd4] at hstate hradio hfld
  obtain ⟨c, hbook⟩ : ∃ c : Sch, Dev.Book { d4 with sch := c } e := ⟨_, hj ▸ Dev.Book.chanCheck _⟩
  have her : e.radio r = x.radio r := (hbook.radio r).trans (hradio r)
  have hes : e.rfState r = rsReady := (hbook.sameRadios r).2.trans hstate
  have het : e.fld (Reg.rfTemp_last r) = w.temp.toNat :=
    (hbook.fld (not_bookAddr_rfTemp r)).trans (hfld.trans ((Dev.fld_congr hxregs _).trans htemp))
  rw [her, hxr, hr2]
  refine ⟨rfl, hes, rfl, het, fun i hi hn => ?_⟩
  have hv := hentry i (by simp [good, hi, hn])
  unfold Dev.entryValid at hv ⊢
  rw [her, hxr]
  exact hv

/-- A radio that fails shows FAILED, whatever it was. -/
theorem Dev.failRadio_rfState (d : Dev) (r : RadioId) (cause : Nat) : (d.failRadio r cause).rfState r = rsFailed := by
  unfold Dev.failRadio
  extract_lets first moved d1 d2 d3 others sch
  have h3 : d3.rfState r = rsFailed := (Dev.setRf_frame d2 r cause (by decide)).1
  exact (Dev.fld_congr (Dev.FrontKept.moveBursts _ r moved).regs _).trans h3

theorem Dev.endSweep_failed {d : Dev} {r : RadioId} {w : Sweep} (hw : (d.radio r).sweep = some w) (hc : w.cmd = none) :
    ((d.endSweep r false).radio r).sweep = none ∧ (d.endSweep r false).rfState r = rsFailed := by
  have he : d.endSweep r false = ((d.modRadio r fun x => { x with sweep := none }).failRadio r 2).resolveHeld r none stFault := by
    unfold Dev.endSweep
    rw [hw]
    simp [hc]
  generalize hy : (d.modRadio r fun x => { x with sweep := none }) = y at he
  have hyr : (y.radio r).sweep = none := by rw [← hy, Dev.radio_modRadio_self]
  obtain ⟨hradio, hstate⟩ := (y.failRadio r 2).resolveHeld_sameRadios r none stFault r
  rw [he, hradio, hstate]
  exact ⟨((Dev.StaysOff.failRadio y r 2).sweep r).trans hyr, y.failRadio_rfState r 2⟩

theorem Dev.endSweep_done {d : Dev} {r : RadioId} {w : Sweep} (hw : (d.radio r).sweep = some w) (hend : w.ends ≤ d.tim.slotS) :
    d.endSweep r true = (d.modRadio r fun x => { x with sweep := none }).sweepDone r w := by
  unfold Dev.endSweep
  rw [hw]
  exact (if_neg (by simp [hend])).trans (if_pos rfl)

/-! ## A radio's entry built in free slots -/

theorem Dev.sendTuner_radio (d : Dev) (r : RadioId) (i : Nat) (q : RadioId) : (d.sendTuner r i).radio q = d.radio q := by
  unfold Dev.sendTuner
  split
  · rfl
  · exact List.foldlRecOn (motive := fun (x : Dev) => x.radio q = d.radio q) _ _ rfl fun _ h _ _ => h

/-- A retune leaves the radio on its new index, with PA_EN low. -/
theorem Dev.retuneTo_radio {d : Dev} {r : RadioId} {i : Nat} {c : ChanCfg} (hc : d.chan i = some c) :
    ∃ (p : BitVec 9) (hz : Nat) (y : Int), p.getLsbD 8 = false ∧ (d.retuneTo r i).radio r =
      { d.radio r with pins := p, chan := some i, target := some i, hz := hz, yApplied := y } := by
  obtain ⟨p, hp⟩ := d.drive_radio r false false
  have hlow := d.drive_low r
  rw [hp] at hlow
  unfold Dev.retuneTo
  split
  case h_1 h0 => exact nomatch hc.symm.trans h0
  case h_2 c' h0 =>
  extract_lets d1 hz y cold d2
  have h1 : d1.radio r = { d.radio r with pins := p } := (Dev.sendTuner_radio _ r i r).trans ((Dev.radio_setBit _ _ _ r).trans hp)
  have h2 : d2.radio r = { d1.radio r with chan := some i, target := some i, hz := hz, yApplied := y } :=
    Dev.radio_modRadio_self _ _ _
  exact ⟨p, hz, y, hlow.1, by rw [Dev.radio_bump, h2, h1]⟩

theorem Dev.entryBuilt_of_free {d : Dev} {r : RadioId} {i : Nat} {c : ChanCfg} (hrun : d.rfReadyRun r = true)
    (hq : (d.radio r).buildQ.contains i = true) (hc : d.chan i = some c) (h0 : d.rowFree r (d.tim.slotS - 1) = true)
    (h1 : d.rowFree r d.tim.slotS = true) :
    let e := d.entryBuilt r i
    e.entryValid r i = true ∧ (e.radio r).chan = some i ∧ (e.radio r).buildQ = (d.radio r).buildQ.filter (· != i) ∧
      e.bit (Reg.rfStat_lock r) = true ∧ e.paEn r = false := by
  intro e
  have hj : d.entryBuilt r i = e := rfl
  clear_value e
  unfold Dev.entryBuilt at hj
  rw [if_neg (by rw [hrun, hq, h0, h1]; decide)] at hj
  obtain ⟨p, hz, y, hp, hr⟩ := Dev.retuneTo_radio (r := r) hc
  generalize d.retuneTo r i = x at hj hr
  extract_lets d1 at hj
  have hl : x.synthLocked r = (x.modRadio r fun x => { x with target := none }).setBit (Reg.rfStat_lock r) true := by
    unfold Dev.synthLocked
    rw [hr]
    rfl
  have hd1 : d1.radio r = { d.radio r with
      pins := p, chan := some i, target := none, hz := hz, yApplied := y,
      entries := Sparse.put none (d.radio r).entries i (some (calEntry r i)) } := by
    show (((x.synthLocked r).setEntry r i).radio r) = _
    unfold Dev.setEntry
    rw [Dev.radio_modRadio_self, hl, Dev.radio_setBit, Dev.radio_modRadio_self, hr]
  have hlock : d1.bit (Reg.rfStat_lock r) = true := by
    refine (Dev.bit_congr (Dev.modRadio_regs _ _ _) _).trans ?_
    rw [hl]
    exact Dev.bit_setBit_self _ _ true (by simp [Reg.rfStat_lock])
  clear_value d1
  generalize hz' : (d1.modRadio r fun x => { x with buildQ := x.buildQ.filter (· != i) }) = z at hj
  have hzr : z.radio r = { d1.radio r with buildQ := (d1.radio r).buildQ.filter (· != i) } := by
    rw [← hz', Dev.radio_modRadio_self]
  have hzl : z.bit (Reg.rfStat_lock r) = true := by rw [← hz', Dev.bit_congr (Dev.modRadio_regs _ _ _), hlock]
  have hbook : z.Book e := hj ▸ .chanCheck z
  have her := hbook.radio r
  have hel : e.bit (Reg.rfStat_lock r) = z.bit (Reg.rfStat_lock r) :=
    Dev.bit_of_reg (f := Reg.rfStat_lock r) (hbook.reg _ (not_bookAddr_rfStat r))
  unfold Dev.entryValid Dev.paEn
  rw [hel, her, hzr, hd1]
  refine ⟨?_, rfl, rfl, hzl, hp⟩
  rw [Sparse.get_put_same]
  rfl


/-- Settles O46. -/
theorem burstsAndCalibration : Obligations.BurstsAndCalibration := by
  unfold Obligations.BurstsAndCalibration
  intro s r hup
  refine ⟨fun hen => ⟨fun hrun hp => ?_, fun ho => ?_, fun ho => ?_⟩, fun gnt b t hp hrun hport => ⟨fun lock y hy hne hn => ?_,
    fun hg => ⟨fun hgnt hb => ?_, fun hparts hwake => ⟨fun hgnt => ?_, fun hm => ?_⟩⟩⟩, fun b fwd refl expected ho => ?_,
    fun ht => ?_, fun t start ht => ⟨fun hp => ?_, fun hp htg => ?_⟩, fun w hw hc => ⟨fun he => ?_, fun he => ?_, ?_⟩,
    fun i c hrun hq hc h0 h1 => ?_⟩
  · exact ⟨_, .of_runUp hup rfl rfl, Dev.coexAssert_of_planned hen hrun hp⟩
  · exact .of_runUp hup rfl (if_pos (by simp [hen, ho]))
  · exact .of_runUp hup rfl (if_neg (by simp [ho]))
  · exact .of_runUp hup rfl (Dev.burstCheck_of_waiting hp hrun hport lock gnt hy hne hn)
  · obtain ⟨e, lost, hlost, hself, hother, hcnt, hcheck⟩ := Dev.burstCheck_of_alone hp hrun hport true gnt hg
    rw [hgnt, hlost rfl hgnt] at hcheck
    obtain ⟨hplan, hair, hpa, hlna, hsent, hrest⟩ := Dev.checkOne_of_pass ((congrArg Radio.planned hself).trans hp) hb
    exact ⟨_, .of_runUp hup rfl hcheck, hplan, hair.trans (by rw [hself]), hpa, hlna, hsent.trans (by rw [Dev.counter_congr hcnt]),
      fun q hq => (hrest q hq).trans (hother q hq)⟩
  · obtain ⟨e, lost, -, hself, -, hcnt, hcheck⟩ := Dev.burstCheck_of_alone hp hrun hport true gnt hg
    rw [hgnt] at hcheck
    obtain ⟨hplan, hair, hbit, hdenied⟩ := Dev.checkOne_of_denied ((congrArg Radio.planned hself).trans hp) hparts hwake lost
    exact ⟨_, .of_runUp hup rfl hcheck, hplan, hair.trans (by rw [hself]), hbit, hdenied.trans (by rw [Dev.counter_congr hcnt])⟩
  · obtain ⟨e, lost, -, hself, -, hcnt, hcheck⟩ := Dev.burstCheck_of_alone hp hrun hport false gnt hg
    obtain ⟨hplan, hair, hbit, hmiss⟩ := Dev.checkOne_of_unlocked ((congrArg Radio.planned hself).trans hp) hparts hwake
      (by rw [hself]; exact hm) _ lost
    exact ⟨_, .of_runUp hup rfl hcheck, hplan, hair.trans (by rw [hself]), hbit, hmiss.trans (by rw [Dev.counter_congr hcnt])⟩
  · exact ⟨_, .of_runUp hup rfl rfl, Dev.burstEnd_single ho fwd refl expected⟩
  · exact .of_runUp hup rfl (if_neg (by simp [Option.isSome_iff_ne_none.mp ht]))
  · refine .of_runUp hup rfl ?_
    unfold Dev.calChunkDone
    rw [ht]
    exact if_pos (by rw [hp]; rfl)
  · exact ⟨_, .of_runUp hup rfl rfl, Dev.calChunkDone_of_place ht hp htg⟩
  · refine .of_runUp hup rfl ?_
    unfold Dev.endSweep
    rw [hw]
    exact if_pos (by simp [he])
  · obtain ⟨hsweep, hrest⟩ := Dev.sweepDone_of_own (s.dev.modRadio r fun x => { x with sweep := none }) r hc
    refine ⟨_, .of_runUp hup rfl (Dev.endSweep_done hw he), hsweep.trans ?_, hrest⟩
    rw [Dev.radio_modRadio_self]
  · exact ⟨_, .of_runUp hup rfl rfl, Dev.endSweep_failed hw hc⟩
  · exact ⟨_, .of_runUp hup rfl rfl, Dev.entryBuilt_of_free hrun hq hc h0 h1⟩

end Sys2Proof.Machine
end

section
/-! # Received Mladol frames (R217, R218, R222, R236, R365) -/

namespace Sys2Proof.Machine

/-! ## Opening a frame -/

/-- The epoch under which a Mladol frame opens, and what it carries. -/
def Dev.mladolOpen (d : Dev) (l : Nat) (m : List Byte) : Option (Nat × List Byte) :=
  let h := readHdr m
  let parent := d.cfgBit (Reg.mshLink_role l)
  let re := (Sparse.get 0 d.boot.rxEpoch l).toNat
  let low := h.flags.toNat % 16384 * 256 + h.seq.toNat
  if (d.kslot l).isNone ∨ d.linkKidx l ≠ h.keyidx.toNat ∨ h.len < 30 then none
  else (List.range 16).findSome? fun k =>
    if 67108864 ≤ re + k then none
    else
      let o := ccmOpen (d.slotKey l) (nonceC (if parent then 0x02 else 0x03) h.addr.toNat ((re + k) * 4194304 + low) h.keyidx.toNat)
        (ccmAad m 8) (slice m 18 (h.len - 22))
      if o.2 then some (re + k, o.1) else none

/-- What a decryption leaves: all but the engine, the epochs, KAO_STAT and its counters. -/
structure Dev.Decrypts (d e : Dev) : Prop where
  msh : e.msh = d.msh
  tim : e.tim = d.tim
  chans : e.chans = d.chans
  eff : e.eff = d.eff
  reg : ∀ a, a ≠ Reg.kaoStat → e.reg a = d.reg a
  counter : ∀ c, c ≠ Cnt.blockEnc → c ≠ Cnt.ccmOk → e.counter c = d.counter c

theorem Dev.Decrypts.refl (d : Dev) : d.Decrypts d := ⟨rfl, rfl, rfl, rfl, fun _ _ => rfl, fun _ _ _ => rfl⟩

theorem Dev.Decrypts.trans {a b c : Dev} (h : a.Decrypts b) (k : b.Decrypts c) : a.Decrypts c :=
  ⟨k.msh.trans h.msh, k.tim.trans h.tim, k.chans.trans h.chans, k.eff.trans h.eff, fun i hi => (k.reg i hi).trans (h.reg i hi),
    fun i h1 h2 => (k.counter i h1 h2).trans (h.counter i h1 h2)⟩

theorem Dev.Decrypts.bumpBy (d : Dev) {c : Nat} (n : Nat) (h : c = Cnt.blockEnc ∨ c = Cnt.ccmOk) : d.Decrypts (d.bumpBy c n) := by
  refine ⟨rfl, rfl, rfl, rfl, fun _ _ => rfl, fun i h1 h2 => (Dev.counter_bumpBy ..).trans (if_neg ?_)⟩
  rintro rfl
  exact h.elim h1 h2

theorem Dev.Decrypts.lanes (d : Dev) (n : Nat) : d.Decrypts (d.lanes false n) := by
  have h1 := Dev.Decrypts.bumpBy d (c := Cnt.blockEnc) n (.inl rfl)
  unfold Dev.lanes
  dsimp only
  rw [if_neg Bool.false_ne_true]
  generalize d.bumpBy Cnt.blockEnc n = e at *
  have h2 (k : Kao) : d.Decrypts { e with kao := k } :=
    h1.trans ⟨rfl, rfl, rfl, rfl, fun _ _ => rfl, fun _ _ _ => rfl⟩
  split
  · refine (h2 _).trans ⟨rfl, rfl, rfl, rfl, fun a ha => Dev.reg_setFld_ne _ _ _ _ ?_, fun _ _ _ => rfl⟩
    exact ha
  · exact h2 _

theorem Dev.openMladol_frame (d : Dev) (l : Nat) (m : List Byte) :
    d.Decrypts (d.openMladol l m).1 ∧ (d.openMladol l m).2 = (d.mladolOpen l m).map (·.2) := by
  unfold Dev.openMladol Dev.mladolOpen
  extract_lets h parent body re low try1
  split
  · exact ⟨.refl d, rfl⟩
  · split
    next hf => exact ⟨.lanes d _, (congrArg (Option.map (Prod.snd (α := Nat) (β := List Byte))) hf).symm⟩
    next ep p hf =>
      extract_lets e
      have he : d.Decrypts e := (Dev.Decrypts.lanes d _).trans (.bumpBy _ 1 (.inr rfl))
      exact ⟨he.trans ⟨rfl, rfl, rfl, rfl, fun _ _ => rfl, fun _ _ _ => rfl⟩, (congrArg (Option.map (Prod.snd (α := Nat) (β := List Byte))) hf).symm⟩

theorem Dev.mladolOpen_congr {d e : Dev} {l : Nat} (h : e.eff = d.eff) (hr : e.reg (Reg.mshLink l) = d.reg (Reg.mshLink l))
    (hk : e.kao = d.kao) (hb : e.boot.rxEpoch = d.boot.rxEpoch) (m : List Byte) : e.mladolOpen l m = d.mladolOpen l m := by
  have hc : e.cfgBit (Reg.mshLink_role l) = d.cfgBit (Reg.mshLink_role l) := by
    unfold Dev.cfgBit Dev.cfgFld Dev.cfg
    rw [h, show (Reg.mshLink_role l).addr = Reg.mshLink l from rfl, hr]
  unfold Dev.mladolOpen Dev.slotKey Dev.kslot Dev.linkKidx
  rw [hc, hk, hb]

/-- A device of the books opens the same frames. -/
theorem Dev.Book.openMladol {d e : Dev} (h : d.Book e) {l : Nat} (hl : l < 8) (m : List Byte) :
    (e.openMladol l m).2 = (d.openMladol l m).2 := by
  have hr : ¬ bookAddr (Reg.mshLink l) := by
    unfold bookAddr Reg.mshLink Reg.obsTraceStat
    omega
  rw [(e.openMladol_frame l m).2, (d.openMladol_frame l m).2,
    Dev.mladolOpen_congr h.eff (h.reg _ hr) h.kao (by rw [h.boot])]

/-! ## The delivery stage -/

theorem Dev.deliverMesh_single {d : Dev} {rx : Rx} (hq : d.msh.rxQ = [rx]) (hs : 2 ≤ rx.stage) :
    d.deliverMesh = ({ d with msh := { d.msh with rxQ := [] } } : Dev).meshDeliver rx := by
  have hdue : (d.msh.rxQ.filter fun x => decide (2 ≤ x.stage)) = [rx] := by
    rw [hq]
    exact List.filter_cons_of_pos (decide_eq_true hs)
  have hrest : (d.msh.rxQ.filter fun x => decide (x.stage < 2)) = [] := by
    rw [hq]
    exact List.filter_cons_of_neg (by simp only [decide_eq_true_eq]; omega)
  unfold Dev.deliverMesh
  dsimp only
  rw [hdue, hrest]
  rfl

/-- A peer violation is counted; the links stay. -/
theorem Dev.peerViolation_frame (d : Dev) (code l : Nat) (r : RadioId) (addr : Nat) :
    (d.peerViolation code Cnt.vLinkAuth l r addr).msh = d.msh ∧
      (d.peerViolation code Cnt.vLinkAuth l r addr).counter Cnt.vLinkAuth = d.counter Cnt.vLinkAuth + 1 := by
  have hc : ¬ bookCnt Cnt.vLinkAuth := by unfold bookCnt; decide
  have hb : ((d.bump Cnt.vLinkAuth).raise Reg.mshStat_violation).counter Cnt.vLinkAuth = d.counter Cnt.vLinkAuth + 1 :=
    Dev.counter_bump_self d _
  unfold Dev.peerViolation Dev.violation
  split
  · exact ⟨rfl, hb⟩
  · have hbook := Dev.Book.event { (d.bump Cnt.vLinkAuth).raise Reg.mshStat_violation with
      sch := { d.sch with violSeen := (code, l) :: d.sch.violSeen } } 0x0001 code [(8, [byte l, byte r]), (12, le 4 addr)]
    exact ⟨hbook.msh, (hbook.counter _ hc).trans hb⟩

theorem Dev.link_modLink (d : Dev) (l : Nat) (f : Link → Link) : (d.modLink l f).link l = f (d.link l) :=
  Sparse.get_put_same _ _ _ _

section
variable {d : Dev} {rx : Rx} {l : Nat} (hl : rx.link = some l)
include hl

/-- A frame that does not open is a violation of its link. -/
theorem Dev.meshDeliver_of_closed (ho : (d.openMladol l rx.mpdu).2 = none) :
    (d.meshDeliver rx).msh = d.msh ∧ (d.meshDeliver rx).counter Cnt.vLinkAuth = d.counter Cnt.vLinkAuth + 1 := by
  have hd := (d.openMladol_frame l rx.mpdu).1
  have he : d.meshDeliver rx =
      (d.openMladol l rx.mpdu).1.peerViolation 0x24 Cnt.vLinkAuth l rx.radio (readHdr rx.mpdu).addr.toNat := by
    unfold Dev.meshDeliver
    rw [hl]
    dsimp only
    rw [ho]
  obtain ⟨hm, hc⟩ := (d.openMladol l rx.mpdu).1.peerViolation_frame 0x24 l rx.radio (readHdr rx.mpdu).addr.toNat
  rw [he]
  exact ⟨hm.trans hd.msh, hc.trans (by rw [hd.counter _ (by decide) (by decide)])⟩

/-- A LINKMAP that opens becomes the peer's map. -/
theorem Dev.meshDeliver_of_linkmap {plain : List Byte} (ho : (d.openMladol l rx.mpdu).2 = some plain)
    (hk : beAt rx.mpdu 10 1 / 16 = mkLinkmap) :
    let codes := (List.range (d.chanSubch rx.chan)).map fun k =>
      let x := beAt plain (1 + k / 2) 1
      BitVec.ofNat 4 (if k % 2 = 0 then x / 16 else x)
    (codes.all fun c => decide (c.toNat < 12)) = true →
    (d.meshDeliver rx).msh.rxQ = d.msh.rxQ ∧ ((d.meshDeliver rx).link l).peerMap =
      ⟨BitVec.ofNat 4 (beAt plain 0 1 / 16), (d.link l).peerMap.floorQ, BitVec.ofNat 2 (beAt plain 0 1), codes⟩ := by
  intro codes hcodes
  have hd := (d.openMladol_frame l rx.mpdu).1
  obtain ⟨e, hrx, hmap, hchans, he⟩ : ∃ e : Dev, e.msh.rxQ = d.msh.rxQ ∧ (e.link l).peerMap = (d.link l).peerMap ∧
      e.chans = d.chans ∧ (d.openMladol l rx.mpdu).1.childLost l rx.mpdu = e := by
    refine ⟨_, ?_, ?_, ?_, rfl⟩ <;> unfold Dev.childLost <;> split
    · show (d.openMladol l rx.mpdu).1.msh.rxQ = _
      rw [hd.msh]
    · rw [hd.msh]
    · rw [Dev.link_modLink]
      unfold Dev.link
      rw [hd.msh]
    · unfold Dev.link
      rw [hd.msh]
    · exact hd.chans
    · exact hd.chans
  have hsub : e.chanSubch rx.chan = d.chanSubch rx.chan := by
    unfold Dev.chanSubch Dev.chan
    rw [hchans]
  have hgood : ¬ (codes.any fun c => decide (12 ≤ c.toNat)) = true := by
    rw [List.any_eq_true]
    rintro ⟨c, hc, hle⟩
    have := of_decide_eq_true (List.all_eq_true.mp hcodes c hc)
    have := of_decide_eq_true hle
    omega
  have hfinal : d.meshDeliver rx = e.modLink l fun k => { k with
      peerMap := { k.peerMap with
        version := BitVec.ofNat 4 (beAt plain 0 1 / 16), rate := BitVec.ofNat 2 (beAt plain 0 1), codes := codes } } := by
    unfold Dev.meshDeliver
    rw [hl]
    dsimp only
    rw [ho]
    dsimp only
    rw [he, if_neg (by rw [hk]; decide), if_pos hk, hsub]
    exact if_neg hgood
  rw [hfinal]
  refine ⟨hrx, ?_⟩
  rw [Dev.link_modLink, hmap]

end

/-! ## The search receiver -/

theorem Dev.parentLink_lt {d : Dev} {l c : Nat} (h : d.parentLink = some (l, c)) : l < 8 := by
  unfold Dev.parentLink Dev.links linksOf at h
  obtain ⟨x, hx, he⟩ := Option.map_eq_some_iff.mp h
  have hmem := (List.mem_filter.mp (List.mem_of_find?_eq_some hx)).1
  obtain ⟨i, hi, rfl⟩ := List.mem_map.mp hmem
  have := List.mem_range.mp (List.mem_filter.mp hi).1
  cases he
  exact this

theorem Dev.forceWaits_congr {d e : Dev} (h : e.tim.step = d.tim.step) : e.forceWaits = d.forceWaits := by
  unfold Dev.forceWaits
  rw [h]

/-- What a beacon accepted in SEARCH shows: TRACKING, one hop further than the parent, and the step that its time asks for. -/
structure Dev.Tracks (d e : Dev) (hop : Nat) (origin : Word) : Prop where
  state : e.mshState = msTracking
  hop : e.fld Reg.mshStat_hop = hop
  reacquired : e.bit Reg.mshStat_reacquired = true
  counter : e.counter Cnt.reacquire = d.counter Cnt.reacquire + 1
  step : ∃ step, e.tim.step = some ⟨step, none⟩
  seen : e.msh.parentSeen = some origin

/-- The parent link's state and hop, the clock and the count of reacquisitions, while a beacon is taken. -/
structure Dev.Searching (d e : Dev) (hop : Nat) : Prop where
  state : e.mshState = msSearch
  hop : e.fld Reg.mshStat_hop = hop
  tim : e.tim = d.tim
  counter : e.counter Cnt.reacquire = d.counter Cnt.reacquire

theorem Dev.Searching.delay {d e : Dev} {hop : Nat} (h : d.Searching e hop) (v : Nat) :
    d.Searching (e.setFld Reg.mshDelay_d v) hop where
  state := (congrArg Reg.mshStat_state.of (Dev.reg_setFld_ne _ _ _ _ (by decide))).trans h.state
  hop := (congrArg Reg.mshStat_hop.of (Dev.reg_setFld_ne _ _ _ _ (by decide))).trans h.hop
  tim := h.tim
  counter := h.counter

/-- A change to TRACKING shows the state, and begins its counts anew. -/
theorem Dev.setMsh_tracking {d : Dev} (h : d.mshState = msSearch) :
    d.setMsh msTracking = { d.setFld Reg.mshStat_state msTracking with
      msh := { d.msh with missed := 0, holdSfs := 0, dwellSfs := 0 } } := by
  unfold Dev.setMsh
  rw [if_neg (by rw [h]; decide)]
  rfl

/-- A beacon outside TRACKING: the gateway tracks its sender, and steps to its time. -/
def Dev.reacquired (d : Dev) (m body : List Byte) (s e : Int) : Dev :=
  let origin := BitVec.ofNat 32 (beAt m 12 4)
  let d := if d.mshState = msSearch ∧ d.msh.parentSeen ≠ some origin then d.setFld Reg.mshDelay_d 0 else d
  let step : Int := ((beAt body 0 8 : Int) - s) * 2500000 + roundDiv (d.delayPs - e) 1000
  let d := (d.setMsh msTracking).bump Cnt.reacquire
  let d := { d with
    msh := { d.msh with parentSeen := some origin, lastRxS := d.tim.slotS }
    tim := if d.forceWaits then d.tim else { d.tim with step := some ⟨step, none⟩, slew := 0 } }
  (d.raise Reg.mshStat_reacquired).event 0x0010 0 [(16, signedLe 8 step)]

theorem Dev.reacquired_tracks {d x : Dev} {hop : Nat} (h : d.Searching x hop) (hf : d.forceWaits = false)
    (m body : List Byte) (s e : Int) : d.Tracks (x.reacquired m body s e) hop (BitVec.ofNat 32 (beAt m 12 4)) := by
  unfold Dev.reacquired
  generalize BitVec.ofNat 32 (beAt m 12 4) = origin
  dsimp only
  generalize hy : (if x.mshState = msSearch ∧ x.msh.parentSeen ≠ some origin then x.setFld Reg.mshDelay_d 0 else x) = y
  have hsy : d.Searching y hop := by
    rw [← hy]
    split
    · exact h.delay 0
    · exact h
  clear hy
  generalize ((beAt body 0 8 : Int) - s) * 2500000 + roundDiv (y.delayPs - e) 1000 = step
  rw [Dev.setMsh_tracking hsy.state]
  have hforce : y.forceWaits = false := (Dev.forceWaits_congr (congrArg Tim.step hsy.tim)).trans hf
  generalize hz : Dev.bump { y.setFld Reg.mshStat_state msTracking with
    msh := { y.msh with missed := 0, holdSfs := 0, dwellSfs := 0 } } Cnt.reacquire = z
  have hzf : z.forceWaits = false := by rw [← hz]; exact hforce
  have hzs : z.mshState = msTracking := by
    rw [← hz]
    exact Dev.fld_setFld_self y Reg.mshStat_state _ (by decide)
  have hzh : z.fld Reg.mshStat_hop = hop := by
    rw [← hz]
    exact (Dev.fld_setFld_of_separate y Reg.mshStat_state Reg.mshStat_hop _ (by decide)).trans hsy.hop
  have hzc : z.counter Cnt.reacquire = d.counter Cnt.reacquire + 1 := by
    rw [← hz, ← hsy.counter]
    exact Dev.counter_bump_self _ _
  rw [if_neg (by simp [hzf])]
  generalize ht : ({ z with msh := _, tim := _ } : Dev) = w
  have hb := Dev.Book.event (w.raise Reg.mshStat_reacquired) 0x0010 0 [(16, signedLe 8 step)]
  have hwr : w.regs = z.regs := by rw [← ht]
  have hn : ¬ bookAddr Reg.mshStat := by unfold bookAddr; decide
  refine ⟨(hb.fld (f := Reg.mshStat_state) hn).trans ?_, (hb.fld (f := Reg.mshStat_hop) hn).trans ?_,
    (Dev.bit_of_reg (f := Reg.mshStat_reacquired) (hb.reg _ hn)).trans ?_, (hb.counter _ (by unfold bookCnt; decide)).trans ?_,
    ⟨step, ?_⟩, ?_⟩
  · exact (Dev.fld_setFld_of_separate w Reg.mshStat_reacquired Reg.mshStat_state 1 (by decide)).trans
      ((Dev.fld_congr hwr _).trans hzs)
  · exact (Dev.fld_setFld_of_separate w Reg.mshStat_reacquired Reg.mshStat_hop 1 (by decide)).trans
      ((Dev.fld_congr hwr _).trans hzh)
  · exact Dev.bit_raise_self w _ (by decide)
  · rw [← ht]
    exact hzc
  · rw [hb.tim, ← ht]
    rfl
  · rw [hb.msh, ← ht]
    rfl

theorem Dev.beaconAccepted_of_search {d : Dev} (hs : d.mshState = msSearch) (hf : d.forceWaits = false) (l : Nat)
    (m body : List Byte) (s e : Int) :
    d.Tracks (d.beaconAccepted l m body s e) (min 15 (beAt m 11 1 % 16 + 1)) (BitVec.ofNat 32 (beAt m 12 4)) := by
  generalize hj : d.beaconAccepted l m body s e = j
  unfold Dev.beaconAccepted at hj
  extract_lets hop d1 slot childE d2 at hj
  have h1 : d.Searching d1 (min 15 (hop + 1)) := by
    refine ⟨?_, ?_, rfl, rfl⟩
    · refine (Dev.fld_setFld_of_separate _ Reg.mshStat_up_lost Reg.mshStat_state _ (by decide)).trans ?_
      exact (Dev.fld_setFld_of_separate d Reg.mshStat_hop Reg.mshStat_state _ (by decide)).trans hs
    · refine (Dev.fld_setFld_of_separate _ Reg.mshStat_up_lost Reg.mshStat_hop _ (by decide)).trans ?_
      refine (Dev.fld_setFld_self d Reg.mshStat_hop _ (by decide)).trans (Nat.mod_eq_of_lt ?_)
      show min 15 (hop + 1) < 16
      omega
  have h2 : d.Searching d2 (min 15 (hop + 1)) := by
    show Dev.Searching d (match (d1.link l).sentD.find? _ with | some p => _ | none => d1) _
    split
    · split
      · exact h1
      · exact h1.delay _
    · exact h1
  have hre : j = d2.reacquired m body s e := hj.symm.trans (if_neg (by rw [h2.state]; decide))
  obtain ⟨hstate, hhop, hbit, hcnt, hstep, hseen⟩ := Dev.reacquired_tracks h2 hf m body s e
  rw [hre]
  exact ⟨hstate, hhop, hbit, hcnt, hstep, hseen⟩

theorem not_bookAddr_mshLinkpeer (l : Nat) (h : l < 8) : ¬ bookAddr (Reg.mshLinkpeer_peer_id l).addr := by
  unfold bookAddr Reg.mshLinkpeer_peer_id Reg.mshLinkpeer Reg.obsTraceStat
  dsimp only
  omega

theorem Dev.Book.traceRx (d : Dev) (r : RadioId) (c : Cell) (result : Nat) (clipped : Bool) (ack : Option Nat) (e : Int) :
    d.Book (d.traceRx r c result clipped ack e) := by
  unfold Dev.traceRx
  exact .traceRadio d r 3 _

/-- A beacon that opens and is accepted is taken as one. -/
theorem Dev.searchFound_of_beacon {d : Dev} {l : Nat} {m body : List Byte} (hty : (readHdr m).ftype = tMesh)
    (hk : beAt m 10 1 / 16 = mkLinkBeacon) (ha : d.searchAccepts l m = true) (ho : (d.openMladol l m).2 = some body)
    (hs : d.mshState = msSearch) (hf : d.forceWaits = false) (r : RadioId) (chan : Nat) (e : Int) :
    d.Tracks (d.searchFound r l chan m e) (min 15 (beAt m 11 1 % 16 + 1)) (BitVec.ofNat 32 (beAt m 12 4)) := by
  have hd := (d.openMladol_frame l m).1
  obtain ⟨y, hys, hyf, hyc, slot, he⟩ : ∃ y : Dev, y.mshState = msSearch ∧ y.forceWaits = false ∧
      y.counter Cnt.reacquire = d.counter Cnt.reacquire ∧
      ∃ slot, d.searchFound r l chan m e = y.beaconAccepted l m body slot e := by
    refine ⟨(((d.openMladol l m).1.bump Cnt.linkRxOk).modLink l fun k => { k with
      lastRxSeq := some (readHdr m).seq, peerAddr := some (readHdr m).addr }).setFld Reg.mshStat_cur_chan chan, ?_, ?_, ?_, (d.openMladol l m).1.tim.slotS, ?_⟩
    rotate_left
    rotate_left
    rotate_left
    · unfold Dev.searchFound
      rw [if_neg (by simp [hty, hk, ha])]
      dsimp only
      rw [ho]
      rfl
    · refine (Dev.fld_setFld_of_separate _ Reg.mshStat_cur_chan Reg.mshStat_state _ (by decide)).trans ?_
      exact (congrArg Reg.mshStat_state.of (hd.reg _ (by decide))).trans hs
    · exact (Dev.forceWaits_congr (congrArg Tim.step hd.tim)).trans hf
    · exact (Dev.counter_bumpBy ..).trans ((if_neg (by decide)).trans (hd.counter _ (by decide) (by decide)))
  obtain ⟨h1, h2, h3, h4, h5, h6⟩ := Dev.beaconAccepted_of_search hys hyf l m body slot e
  rw [he]
  exact ⟨h1, h2, h3, h4.trans (by rw [hyc]), h5, h6⟩

/-- Settles O47. -/
theorem meshDelivery : Obligations.MeshDelivery := by
  unfold Obligations.MeshDelivery
  intro s hup
  refine ⟨fun rx l hq hst hl => ?_, fun r arrival half windows mpdu body chan l c cfg x t hchan hpar hcfg hrun htr => ?_⟩
  · have hsingle := Dev.deliverMesh_single hq hst
    have hsame : (({ s.dev with msh := { s.dev.msh with rxQ := [] } } : Dev).openMladol l rx.mpdu).2 =
        (s.dev.openMladol l rx.mpdu).2 := by
      rw [(Dev.openMladol_frame _ l rx.mpdu).2, (Dev.openMladol_frame s.dev l rx.mpdu).2]
      rfl
    refine ⟨fun hnone => ?_, fun plain hplain hk => ?_⟩
    · obtain ⟨hm, hc⟩ := Dev.meshDeliver_of_closed hl (hsame.trans hnone)
      exact ⟨_, .of_runUp hup rfl hsingle, congrArg Msh.rxQ hm, hc⟩
    · intro m codes hcodes
      obtain ⟨hrx, hmap⟩ := Dev.meshDeliver_of_linkmap hl (hsame.trans hplain) hk hcodes
      exact ⟨_, .of_runUp hup rfl hsingle, hrx, hmap⟩
  · intro e hcells hframe hty hkind hacc hopen hforce
    have hsearch : s.dev.mshState = msSearch := by
      unfold Dev.searchChan at hchan
      split at hchan
      next h => exact h.1
      next => exact nomatch hchan
    have hl := Dev.parentLink_lt hpar
    generalize harr : roundE (roundDiv ((x :: t).foldl (fun (a : Int) y => a + y.e) 0) ((x :: t).length : Nat)) = arr
    have hsync : s.dev.searchSync r arrival half windows =
        (s.dev.traceRx r x 6 false none arr).searchFound r l chan mpdu arr := by
      unfold Dev.searchSync
      rw [hchan, hpar]
      dsimp only
      rw [hcfg]
      dsimp only
      rw [if_neg (by simp [hrun, htr]), hcells]
      dsimp only
      rw [hframe, ← harr]
    have hbook := Dev.Book.traceRx s.dev r x 6 false none arr
    generalize s.dev.traceRx r x 6 false none arr = y at *
    have hacc' : y.searchAccepts l mpdu = true := by
      rw [← hacc]
      unfold Dev.searchAccepts Dev.cfgFld Dev.cfg
      rw [hbook.eff, hbook.reg _ (not_bookAddr_mshLinkpeer l hl)]
    have hforce' : y.forceWaits = false := (Dev.forceWaits_congr (congrArg Tim.step hbook.tim)).trans hforce
    have hst : y.mshState = msSearch := (hbook.fld (f := Reg.mshStat_state) (by unfold bookAddr; decide)).trans hsearch
    obtain ⟨h1, h2, h3, h4, h5, h6⟩ := Dev.searchFound_of_beacon hty hkind hacc' ((hbook.openMladol hl mpdu).trans hopen) hst
      hforce' r chan arr
    exact ⟨_, .of_runUp hup rfl hsync, h1, h2, h4.trans (by rw [hbook.counter _ (by unfold bookCnt; decide)]), h3, h5, h6⟩

end Sys2Proof.Machine
end

section
/-! # Accesses to the DRAM -/

namespace Sys2Proof.Machine

/-! ## A request that is alone in the controller -/

theorem Dev.admitWaiting_of_none {d : Dev} (h : d.dmc.waiting = []) : d.admitWaiting = d := by
  unfold Dev.admitWaiting
  rw [h]
  exact congrArg (fun m => ({ d with dmc := m } : Dev)) (by rw [← h])

theorem Dev.urgencyNow_of_none {d : Dev} {k : Nat} (h : d.dmc.reqs = []) : d.urgencyNow k = 0 := by
  unfold Dev.urgencyNow Dev.oldestReq
  rw [h]
  rfl

/-- The one request of the controller leaves it empty. -/
theorem Dev.leaveReq_single {d : Dev} {r : DramReq} (hr : d.dmc.reqs = [r]) (hw : d.dmc.waiting = []) :
    ∃ m : Dmc, d.leaveReq r = { d with dmc := m } ∧ m.reqs = [] ∧ m.blocks = d.dmc.blocks ∧ m.poison = d.dmc.poison := by
  have hgone : d.dmc.reqs.filter (fun x => x.id != r.id) = [] := by simp [hr]
  unfold Dev.leaveReq Dev.showUrgency
  dsimp only
  rw [Dev.urgencyNow_of_none hgone, if_neg (by rintro ⟨h, _⟩; exact nomatch h)]
  exact ⟨_, Dev.admitWaiting_of_none hw, hgone, rfl, rfl⟩

theorem Dev.inOrder_single {d : Dev} {r : DramReq} (hr : d.dmc.reqs = [r]) (hu : d.dmc.unissued = []) : d.inOrder r = true := by
  unfold Dev.inOrder
  rw [hr, hu]
  simp

section
variable {d : Dev} {r : DramReq} (hr : d.dmc.reqs = [r]) (hu : d.dmc.unissued = []) (hrec : d.dmc.recovery = none)
include hr hu hrec

theorem Dev.dramReadDone_single (l : List Codeword) (h : (r.write && r.whole) = false) :
    d.dramReadDone [] r.id l = d.readDone r l := by
  unfold Dev.dramReadDone Dev.arriveAll
  rw [List.foldl_nil]
  dsimp only
  rw [show (d.dmc.reqs.find? fun x => x.id == r.id) = some r by simp [hr]]
  exact if_neg (by rw [Dev.inOrder_single hr hu, hrec, h]; decide)

theorem Dev.dramWriteRetire_single (hw : r.write = true) (hf : r.whole = true) :
    d.dramWriteRetire [] r.id = (({ d with dmc := { d.dmc with
      blocks := Sparse.put 0 d.dmc.blocks r.block.toNat r.data,
      poison := d.dmc.poison.filter (· != r.block.toNat) } } : Dev).bump Cnt.wrBlocks).leaveReq r := by
  unfold Dev.dramWriteRetire Dev.arriveAll
  rw [List.foldl_nil]
  dsimp only
  rw [show (d.dmc.reqs.find? fun x => x.id == r.id) = some r by simp [hr]]
  exact if_neg (by rw [Dev.inOrder_single hr hu, hrec, hw, hf]; decide)

end

/-! ## The error log -/

/-- The registers of the error log. -/
def logAddr (a : Nat) : Prop := a = Reg.dmcErrstat ∨ 0x400100 ≤ a ∧ a < 0x400200

/-- Nothing but the error log and its counter of lost entries differs. -/
structure Dev.LogOnly (d e : Dev) : Prop where
  dmc : e.dmc = d.dmc
  reg : ∀ a, ¬ logAddr a → e.reg a = d.reg a
  counter : ∀ c, c ≠ Cnt.errlogOvf → e.counter c = d.counter c

theorem Dev.LogOnly.refl (d : Dev) : d.LogOnly d := ⟨rfl, fun _ _ => rfl, fun _ _ => rfl⟩

theorem Dev.LogOnly.trans {a b c : Dev} (h : a.LogOnly b) (k : b.LogOnly c) : a.LogOnly c :=
  ⟨k.dmc.trans h.dmc, fun x hx => (k.reg x hx).trans (h.reg x hx), fun x hx => (k.counter x hx).trans (h.counter x hx)⟩

theorem Dev.LogOnly.setReg (d : Dev) (b : Nat) (v : Word) (h : logAddr b) : d.LogOnly (d.setReg b v) :=
  ⟨rfl, fun _ ha => Dev.reg_setReg_ne d (fun hab => ha (by rw [hab]; exact h)) v, fun _ _ => rfl⟩

theorem Dev.LogOnly.setFld (d : Dev) (f : Field) (v : Nat) (h : logAddr f.addr) : d.LogOnly (d.setFld f v) :=
  ⟨rfl, fun _ ha => Dev.reg_setFld_of_ne d f _ v (fun hab => ha (hab ▸ h)), fun _ _ => rfl⟩

theorem Dev.LogOnly.overflow (d : Dev) : d.LogOnly ((d.raise Reg.dmcErrstat_ovf).bump Cnt.errlogOvf) :=
  (Dev.LogOnly.setFld d Reg.dmcErrstat_ovf 1 (.inl rfl)).trans
    ⟨rfl, fun _ _ => rfl, fun _ hc => (Dev.counter_bumpBy ..).trans (if_neg hc)⟩

/-- The entry of the error log with number `n`. -/
structure Dev.Entry (d : Dev) (n block info : Nat) : Prop where
  addr : d.reg (Reg.dmcErrlogAddr n) = BitVec.ofNat 32 block
  info : d.reg (Reg.dmcErrlogInfo n) = BitVec.ofNat 32 info
  valid : d.bit (Reg.dmcErrlogCnt_valid n) = true
  next : d.fld Reg.dmcErrstat_wr_ptr = (n + 1) % 16

theorem Dev.Entry.congr {d e : Dev} {n block info : Nat} (h : d.Entry n block info)
    (ha : e.reg (Reg.dmcErrlogAddr n) = d.reg (Reg.dmcErrlogAddr n))
    (hi : e.reg (Reg.dmcErrlogInfo n) = d.reg (Reg.dmcErrlogInfo n))
    (hc : e.reg (Reg.dmcErrlogCnt n) = d.reg (Reg.dmcErrlogCnt n))
    (hp : e.reg Reg.dmcErrstat = d.reg Reg.dmcErrstat) : e.Entry n block info :=
  ⟨ha.trans h.addr, hi.trans h.info, (Dev.bit_of_reg hc).trans h.valid, (congrArg Reg.dmcErrstat_wr_ptr.of hp).trans h.next⟩

theorem logAddr_entry {n k : Nat} (h : n < 16) (hk : k < 0x10) : logAddr (0x400100 + k + n * 0x10) := .inr (by omega)

/-- What the log holds is outside the books. -/
theorem not_bookAddr_of_logAddr {a : Nat} (h : logAddr a) : ¬ bookAddr a := by
  unfold logAddr Reg.dmcErrstat at h
  unfold bookAddr Reg.obsTraceStat
  omega

theorem Dev.wrPtr_lt (d : Dev) : d.fld Reg.dmcErrstat_wr_ptr < 16 := Nat.mod_lt _ (by decide)

theorem Dev.errLog_only (d : Dev) (block info count : Nat) : d.LogOnly (d.errLog block info count).1 := by
  have hn := d.wrPtr_lt
  unfold Dev.errLog
  generalize d.fld Reg.dmcErrstat_wr_ptr = n at hn
  refine .trans ?_ (.setFld _ _ _ (.inl rfl))
  refine .trans ?_ (.setReg _ _ _ (logAddr_entry (k := 0xC) hn (by decide)))
  refine .trans ?_ (.setReg _ _ _ (logAddr_entry (k := 8) hn (by decide)))
  refine .trans ?_ (.setReg _ _ _ (logAddr_entry (k := 4) hn (by decide)))
  refine .trans ?_ (.setReg _ _ _ (logAddr_entry (k := 0) hn (by decide)))
  show d.LogOnly (if _ then _ else _)
  split
  · exact .overflow d
  · exact .refl d

theorem ofNat_valid (count : Nat) : (BitVec.ofNat 32 (2 ^ 31 + min 511 count)).toNat >>> 31 % 2 ^ 1 = 1 := by
  rw [BitVec.toNat_ofNat, Nat.shiftRight_eq_div_pow]
  omega

theorem Dev.errLog_entry (d : Dev) (block info count : Nat) :
    (d.errLog block info count).1.Entry (d.fld Reg.dmcErrstat_wr_ptr) block info := by
  have hn := d.wrPtr_lt
  unfold Dev.errLog
  generalize d.fld Reg.dmcErrstat_wr_ptr = n at hn
  dsimp only
  generalize (if d.bit (Reg.dmcErrlogCnt_valid n) = true then _ else d) = e
  generalize BitVec.ofNat 32 (Dev.sf _ * 2 ^ 20 + Dev.slot _) = t
  have hne {a b : Nat} (ha : a < 0x10) (hb : b < 0x10) (hab : a ≠ b) : 0x400100 + a + n * 0x10 ≠ 0x400100 + b + n * 0x10 := by omega
  have hptr (a : Nat) : 0x400100 + a + n * 0x10 ≠ Reg.dmcErrstat := by
    unfold Reg.dmcErrstat
    omega
  refine ⟨?_, ?_, ?_, (Dev.fld_setFld_self _ _ _ (by decide)).trans (Nat.mod_mod_of_dvd _ ⟨1, rfl⟩)⟩
  · refine (Dev.reg_setFld_of_ne _ _ _ _ (hptr 0)).trans ?_
    refine (Dev.reg_setReg_ne _ (hne (a := 0) (b := 0xC) (by decide) (by decide) (by decide)) _).trans ?_
    refine (Dev.reg_setReg_ne _ (hne (a := 0) (b := 8) (by decide) (by decide) (by decide)) _).trans ?_
    refine (Dev.reg_setReg_ne _ (hne (a := 0) (b := 4) (by decide) (by decide) (by decide)) _).trans ?_
    exact Dev.reg_setReg_same ..
  · refine (Dev.reg_setFld_of_ne _ _ _ _ (hptr 4)).trans ?_
    refine (Dev.reg_setReg_ne _ (hne (a := 4) (b := 0xC) (by decide) (by decide) (by decide)) _).trans ?_
    refine (Dev.reg_setReg_ne _ (hne (a := 4) (b := 8) (by decide) (by decide) (by decide)) _).trans ?_
    exact Dev.reg_setReg_same ..
  · refine (Dev.bit_of_reg (f := Reg.dmcErrlogCnt_valid n) (Dev.reg_setFld_of_ne _ Reg.dmcErrstat_wr_ptr _ _ (hptr 0xC))).trans ?_
    unfold Dev.bit Dev.fld
    rw [show (Reg.dmcErrlogCnt_valid n).addr = Reg.dmcErrlogCnt n from rfl, Dev.reg_setReg_same]
    exact beq_iff_eq.mpr (ofNat_valid count)

/-- A data error enters the log; its event is outside it. -/
theorem Dev.dataError_entry (d : Dev) (ty port : Nat) (rank : Bool) (bg bank block nibB nibA : Nat) :
    (d.dataError ty port rank bg bank block nibB nibA).Entry (d.fld Reg.dmcErrstat_wr_ptr) block
      (logInfo ty port rank.toNat bg bank nibB nibA) := by
  have h := d.errLog_entry block (logInfo ty port rank.toNat bg bank nibB nibA) 0
  have hn := d.wrPtr_lt
  have hb : (d.errLog block (logInfo ty port rank.toNat bg bank nibB nibA) 0).1.Book
      (d.dataError ty port rank bg bank block nibB nibA) := .event ..
  exact h.congr (hb.reg _ (not_bookAddr_of_logAddr (logAddr_entry (k := 0) hn (by decide))))
    (hb.reg _ (not_bookAddr_of_logAddr (logAddr_entry (k := 4) hn (by decide))))
    (hb.reg _ (not_bookAddr_of_logAddr (logAddr_entry (k := 0xC) hn (by decide))))
    (hb.reg _ (not_bookAddr_of_logAddr (.inl rfl)))

/-- What a data error leaves. -/
theorem Dev.dataError_kept (d : Dev) (ty port : Nat) (rank : Bool) (bg bank block nibB nibA : Nat) :
    let e := d.dataError ty port rank bg bank block nibB nibA
    e.dmc = d.dmc ∧ (∀ a, ¬ logAddr a → ¬ bookAddr a → e.reg a = d.reg a) ∧
      ∀ c, c ≠ Cnt.errlogOvf → ¬ bookCnt c → e.counter c = d.counter c := by
  intro e
  have h := d.errLog_only block (logInfo ty port rank.toNat bg bank nibB nibA) 0
  have hb : (d.errLog block (logInfo ty port rank.toNat bg bank nibB nibA) 0).1.Book e := .event ..
  exact ⟨hb.dmc.trans h.dmc, fun a ha hk => (hb.reg a hk).trans (h.reg a ha), fun c hc hk => (hb.counter c hk).trans (h.counter c hc)⟩

/-! ## The data of a read -/

/-- The count of uncorrectable reads touches DRAM_LOST and its counter alone. -/
theorem Dev.countLost_kept (d : Dev) :
    d.countLost.dmc = { d.dmc with ueThisSf := d.countLost.dmc.ueThisSf } ∧
      (∀ a, a ≠ Reg.glbFault → d.countLost.reg a = d.reg a) ∧
      ∀ c, c ≠ Cnt.dramLost → d.countLost.counter c = d.counter c := by
  unfold Dev.countLost
  dsimp only
  split
  · exact ⟨rfl, fun a ha => Dev.reg_setFld_of_ne _ Reg.glbFault_dram_lost a _ ha,
      fun c hc => (Dev.counter_bumpBy ..).trans (if_neg hc)⟩
  · exact ⟨rfl, fun _ _ => rfl, fun _ _ => rfl⟩

/-- Corrections touch DMC_STAT and their counter alone. -/
theorem Dev.corrections_kept (d : Dev) (l : List Checked) :
    (d.corrections l).dmc = d.dmc ∧ (∀ a, a ≠ Reg.dmcStat → (d.corrections l).reg a = d.reg a) ∧
      ∀ c, c ≠ Cnt.ce → (d.corrections l).counter c = d.counter c := by
  unfold Dev.corrections
  split
  · exact ⟨rfl, fun _ _ => rfl, fun _ _ => rfl⟩
  · exact ⟨rfl, fun a ha => Dev.reg_setFld_of_ne _ Reg.dmcStat_ce a _ ha,
      fun c hc => (Dev.counter_bumpBy ..).trans (if_neg hc)⟩

theorem Dev.corrections_of_none {l : List Checked} (h : fixedWords l = 0) (d : Dev) : d.corrections l = d := if_pos h

theorem contains_eq_false {l : List Nat} {k : Nat} (h : k ∉ l) : l.contains k = false := by simpa using h

/-- A read whose codewords are all without error leaves its port. -/
theorem Dev.readDone_of_clean {d : Dev} {r : DramReq} {l : List Codeword} (hp : r.block.toNat ∉ d.dmc.poison)
    (hw : r.write = false) (hb : badWords (d.checkWords l).2 = []) (hf : fixedWords (d.checkWords l).2 = 0) :
    d.readDone r l = ((d.checkWords l).1.bump Cnt.rdBlocks).leaveReq r := by
  unfold Dev.readDone
  dsimp only
  rw [show (d.checkWords l).1.dmc.poison.contains r.block.toNat = false from contains_eq_false hp, hw, hb,
    Dev.corrections_of_none hf]
  rfl

/-- A device that has met an uncorrectable codeword, before it answers. -/
def Dev.readFails (d : Dev) (r : DramReq) (l : List Codeword) (a b : Nat) : Dev :=
  let e := (d.checkWords l).1.bump Cnt.rdBlocks
  let e := (if r.write then e.bump Cnt.rmw else e).corrections (d.checkWords l).2
  (((e.bumpBy Cnt.ue (badWords (d.checkWords l).2).length).raise Reg.dmcStat_ue).countLost).dataError
    (if r.write then logUeRmw else logUeRead) r.port r.rank r.bg.toNat r.bank.toNat r.block.toNat b a

section
variable {d : Dev} {r : DramReq} {l : List Codeword} {a b : Nat} {t : List (Nat × Nat)}
  (hp : r.block.toNat ∉ d.dmc.poison) (hb : badWords (d.checkWords l).2 = (a, b) :: t)
include hp hb

/-- An uncorrectable codeword ends a read with an error, and leaves the block of a read-modify-write poisoned. -/
theorem Dev.readDone_of_bad : d.readDone r l = if r.write then
      (({ d.readFails r l a b with dmc := { (d.readFails r l a b).dmc with
        poison := r.block.toNat :: (d.readFails r l a b).dmc.poison.filter (· != r.block.toNat) } } : Dev).bump
          Cnt.wrBlocks).leaveReq r
    else ((d.readFails r l a b).leaveReq r).readLost r.use := by
  unfold Dev.readDone Dev.readFails
  dsimp only
  rw [show ((d.checkWords l).1.dmc.poison.contains r.block.toNat) = false from contains_eq_false hp, hb]
  rfl

end

/-- What an uncorrectable read shows. -/
theorem Dev.readFails_shows (d : Dev) (r : DramReq) (l : List Codeword) (a b : Nat) :
    let e := d.readFails r l a b
    e.dmc = { d.dmc with ueThisSf := e.dmc.ueThisSf } ∧ e.bit Reg.dmcStat_ue = true ∧
      e.counter Cnt.ue = d.counter Cnt.ue + BitVec.ofNat 64 (badWords (d.checkWords l).2).length ∧
      e.counter Cnt.rmw = d.counter Cnt.rmw + (if r.write then 1 else 0) ∧
      e.Entry (d.fld Reg.dmcErrstat_wr_ptr) r.block.toNat
        (logInfo (if r.write then logUeRmw else logUeRead) r.port r.rank.toNat r.bg.toNat r.bank.toNat b a) := by
  intro e
  obtain ⟨x, hx, hxd, hxr, hxc, hxm⟩ : ∃ x : Dev, x = (if r.write then ((d.checkWords l).1.bump Cnt.rdBlocks).bump Cnt.rmw
      else (d.checkWords l).1.bump Cnt.rdBlocks) ∧ x.dmc = d.dmc ∧ (∀ q, x.reg q = d.reg q) ∧
      x.counter Cnt.ue = d.counter Cnt.ue ∧ x.counter Cnt.rmw = d.counter Cnt.rmw + (if r.write then 1 else 0) := by
    refine ⟨_, rfl, ?_⟩
    cases r.write
    · refine ⟨rfl, fun _ => rfl, (Dev.counter_bumpBy ..).trans (if_neg (by decide)), ?_⟩
      exact ((Dev.counter_bumpBy ..).trans (if_neg (by decide))).trans (BitVec.add_zero _).symm
    · refine ⟨rfl, fun _ => rfl, ?_, ?_⟩
      · exact (Dev.counter_bumpBy ..).trans ((if_neg (by decide)).trans ((Dev.counter_bumpBy ..).trans (if_neg (by decide))))
      · exact (Dev.counter_bumpBy ..).trans ((if_pos rfl).trans (congrArg (· + 1)
          ((Dev.counter_bumpBy ..).trans (if_neg (by decide)))))
  obtain ⟨y, hy, hyd, hyr, hyc⟩ : ∃ y : Dev, y = x.corrections (d.checkWords l).2 ∧ y.dmc = x.dmc ∧
      (∀ q, q ≠ Reg.dmcStat → y.reg q = x.reg q) ∧ ∀ c, c ≠ Cnt.ce → y.counter c = x.counter c :=
    ⟨_, rfl, Dev.corrections_kept ..⟩
  generalize hn : (badWords (d.checkWords l).2).length = n
  obtain ⟨hzd, hzr, hzc⟩ := ((y.bumpBy Cnt.ue n).raise Reg.dmcStat_ue).countLost_kept
  have he : e = (((y.bumpBy Cnt.ue n).raise Reg.dmcStat_ue).countLost).dataError
      (if r.write then logUeRmw else logUeRead) r.port r.rank r.bg.toNat r.bank.toNat r.block.toNat b a := by
    rw [hy, hx, ← hn]
    rfl
  have hentry := Dev.dataError_entry (((y.bumpBy Cnt.ue n).raise Reg.dmcStat_ue).countLost)
    (if r.write then logUeRmw else logUeRead) r.port r.rank r.bg.toNat r.bank.toNat r.block.toNat b a
  obtain ⟨hed, her, hec⟩ := Dev.dataError_kept (((y.bumpBy Cnt.ue n).raise Reg.dmcStat_ue).countLost)
    (if r.write then logUeRmw else logUeRead) r.port r.rank r.bg.toNat r.bank.toNat r.block.toNat b a
  rw [← he] at hentry hed her hec
  clear_value e
  refine ⟨?_, ?_, ?_, ?_, ?_⟩
  · have hd : e.dmc = { y.dmc with ueThisSf := e.dmc.ueThisSf } := by
      rw [hed]
      exact hzd
    rw [hd, hyd, hxd]
  · refine (Dev.bit_of_reg (her _ ?_ ?_)).trans ((Dev.bit_of_reg (hzr _ (by decide))).trans (Dev.bit_raise_self _ _))
    · unfold logAddr; decide
    · unfold bookAddr; decide
  · refine (hec _ (by decide) (by unfold bookCnt; decide)).trans ((hzc _ (by decide)).trans ?_)
    refine (Dev.counter_bumpBy ..).trans ((if_pos rfl).trans ?_)
    rw [hyc _ (by decide), hxc]
  · refine (hec _ (by decide) (by unfold bookCnt; decide)).trans ((hzc _ (by decide)).trans ?_)
    refine (Dev.counter_bumpBy ..).trans ((if_neg (by decide)).trans ?_)
    rw [hyc _ (by decide), hxm]
  · have hptr : (((y.bumpBy Cnt.ue n).raise Reg.dmcStat_ue).countLost).fld Reg.dmcErrstat_wr_ptr =
        d.fld Reg.dmcErrstat_wr_ptr := by
      refine congrArg Reg.dmcErrstat_wr_ptr.of ?_
      refine (hzr _ (by decide)).trans ((Dev.reg_setFld_of_ne _ Reg.dmcStat_ue _ _ (by decide)).trans ?_)
      exact (hyr _ (by decide)).trans (hxr _)
    rw [hptr] at hentry
    exact hentry

/-! ## The scrubber -/

theorem Dev.due_of_unreached {d : Dev} {c : Nat} (h : d.reachCycle c = none) (k : Dev → Dev) : d.due c k = d := by
  unfold Dev.due
  rw [h]

section
variable {d e x : Dev} (h : d.reachCycle (d.dmc.scrubFrom + d.scrubCycles) = some e)
  (hx : x = ({ e with dmc := { e.dmc with scrubFrom := d.dmc.scrubFrom + d.scrubCycles } } : Dev).applyBoundary .scrub)
include h hx

theorem Dev.scrubVisit_of_off (block : BitVec 29) (l : List Codeword) (hoff : x.cfgBit Reg.dmcScrubcfg_en = false) :
    d.scrubVisit block l = x := by
  refine (show d.scrubVisit block l = _ from Dev.due_of_reached h _).trans ?_
  dsimp only
  rw [← hx]
  exact if_pos (by rw [hoff]; rfl)

theorem Dev.scrubVisit_of_clean {y : Dev} {block : BitVec 29} {l : List Codeword} (hon : x.cfgBit Reg.dmcScrubcfg_en = true)
    (hreqs : x.dmc.reqs = []) (hp : block.toNat ∉ x.dmc.poison) (hb : badWords (x.checkWords l).2 = [])
    (hf : fixedWords (x.checkWords l).2 = 0) (hy : y = (x.checkWords l).1) :
    d.scrubVisit block l = if y.areaBlocks ≤ y.dmc.scrubPos + 1 then
        ({ y with dmc := { y.dmc with scrubPos := 0 } } : Dev).bump Cnt.scrubPass
      else { y with dmc := { y.dmc with scrubPos := y.dmc.scrubPos + 1 } } := by
  refine (show d.scrubVisit block l = _ from Dev.due_of_reached h _).trans ?_
  have hpy : y.dmc.poison.contains block.toNat = false := contains_eq_false (by rw [hy]; exact hp)
  dsimp only
  rw [← hx, hon, hreqs, if_neg (by exact Bool.false_ne_true), hb, Dev.corrections_of_none hf, ← hy, hpy]
  rfl

end

theorem Dev.areaBlocks_congr {d e : Dev} (h : e.fullConf = d.fullConf) : e.areaBlocks = d.areaBlocks := by
  unfold Dev.areaBlocks
  rw [h]

/-- The visits of the scrubber (R376). -/
theorem scrubVisits {s : State} (hup : Up s) (block : BitVec 29) (l : List Codeword) :
    let c := s.dev.dmc.scrubFrom + s.dev.scrubCycles
    (s.dev.reachCycle c = none → Gives (.scrubVisit block l) s s.dev) ∧
    ∀ e : Dev, s.dev.reachCycle c = some e →
      let d := ({ e with dmc := { e.dmc with scrubFrom := c } } : Dev).applyBoundary .scrub
      (d.cfgBit Reg.dmcScrubcfg_en = false → Gives (.scrubVisit block l) s d) ∧
      (d.cfgBit Reg.dmcScrubcfg_en = true → s.dev.dmc.reqs = [] → block.toNat ∉ s.dev.dmc.poison →
        badWords (d.checkWords l).2 = [] → fixedWords (d.checkWords l).2 = 0 →
        let x := (d.checkWords l).1
        (s.dev.dmc.scrubPos + 1 < s.dev.areaBlocks →
          Gives (.scrubVisit block l) s { x with dmc := { x.dmc with scrubPos := s.dev.dmc.scrubPos + 1 } }) ∧
        (s.dev.areaBlocks ≤ s.dev.dmc.scrubPos + 1 →
          Gives (.scrubVisit block l) s (({ x with dmc := { x.dmc with scrubPos := 0 } } : Dev).bump Cnt.scrubPass))) := by
  intro c
  refine ⟨fun h => .of_runUp hup rfl ?_, fun e he => ?_⟩
  · exact Dev.due_of_unreached h _
  · intro d
    have hdd : d.dmc = { e.dmc with scrubFrom := c } := rfl
    obtain ⟨z, hz⟩ : ∃ z, z = d := ⟨_, rfl⟩
    have hzd : z.dmc = { e.dmc with scrubFrom := c } := hz ▸ hdd
    have hzr : z.regs = e.regs := hz ▸ rfl
    have hdmc : e.dmc = s.dev.dmc := (congrArg Dev.dmc (Dev.reachCycle_only he)).trans rfl
    have hregs : e.regs = s.dev.regs := (congrArg Dev.regs (Dev.reachCycle_only he)).trans rfl
    have hconf : z.fullConf = s.dev.fullConf := Dev.bit_congr (hzr.trans hregs) _
    rw [← hz]
    refine ⟨fun h => .of_runUp hup rfl (Dev.scrubVisit_of_off he hz block l h), fun h hreqs hp hb hf => ?_⟩
    intro x
    have hv := Dev.scrubVisit_of_clean (y := x) he hz h (by rw [hzd, hdmc]; exact hreqs) (by rw [hzd, hdmc]; exact hp)
      hb hf rfl
    have hpos : x.dmc.scrubPos = s.dev.dmc.scrubPos := (congrArg Dmc.scrubPos hzd).trans (by rw [hdmc])
    have harea : x.areaBlocks = s.dev.areaBlocks := Dev.areaBlocks_congr hconf
    clear_value x
    rw [harea, hpos] at hv
    exact ⟨fun hlt => .of_runUp hup rfl (hv.trans (if_neg (Nat.not_le.mpr hlt))),
      fun hle => .of_runUp hup rfl (hv.trans (if_pos hle))⟩

/-- Settles O49. -/
theorem dramAccesses : Obligations.DramAccesses := by
  unfold Obligations.DramAccesses
  intro s hup
  refine ⟨fun r l hr hw hu _ hrec hp => ⟨fun hwr hb hf => ?_, fun a b t hwr huse hb => ?_, fun a b t hwr hwh hb => ?_,
    fun hwr hwh => ?_⟩, fun block l => ?_, .of_runUp hup rfl rfl, .of_runUp hup rfl rfl⟩
  · have hrun := (Dev.dramReadDone_single hr hu hrec l (by rw [hwr]; rfl)).trans (Dev.readDone_of_clean hp hwr hb hf)
    obtain ⟨m, hm, hreqs, hblocks, hpoison⟩ :=
      Dev.leaveReq_single (d := (s.dev.checkWords l).1.bump Cnt.rdBlocks) hr hw
    refine ⟨_, .of_runUp hup rfl (hrun.trans hm), hreqs, hblocks, hpoison, rfl, fun c => ?_⟩
    by_cases hc : c = Cnt.rdBlocks
    · subst hc
      exact ((Dev.counter_bumpBy (s.dev.checkWords l).1 Cnt.rdBlocks Cnt.rdBlocks 1).trans (if_pos rfl)).trans (if_pos rfl).symm
    · exact ((Dev.counter_bumpBy (s.dev.checkWords l).1 Cnt.rdBlocks c 1).trans (if_neg hc)).trans (if_neg hc).symm
  · intro n
    have hrun := (Dev.dramReadDone_single hr hu hrec l (by rw [hwr]; rfl)).trans
      ((Dev.readDone_of_bad hp hb).trans (if_neg (by rw [hwr]; decide)))
    rw [huse] at hrun
    obtain ⟨hd, hue, hcue, -, hentry⟩ := s.dev.readFails_shows r l a b
    generalize s.dev.readFails r l a b = y at *
    obtain ⟨m, hm, hreqs, hblocks, -⟩ := Dev.leaveReq_single (d := y)
      (show y.dmc.reqs = _ by rw [hd]; exact hr) (show y.dmc.waiting = _ by rw [hd]; exact hw)
    rw [hwr] at hentry
    have haddr : BitVec.ofNat 32 r.block.toNat = r.block.setWidth 32 := BitVec.eq_of_toNat_eq (by simp)
    have hentry : ({ y with dmc := m } : Dev).Entry n r.block.toNat
        (logInfo 1 r.port r.rank.toNat r.bg.toNat r.bank.toNat b a) := hentry.congr rfl rfl rfl rfl
    have hcue : ({ y with dmc := m } : Dev).counter Cnt.ue = _ := hcue
    have hue : ({ y with dmc := m } : Dev).bit Reg.dmcStat_ue = true := hue
    rw [hb] at hcue
    refine ⟨_, .of_runUp hup rfl (hrun.trans hm), hreqs, hblocks.trans (by rw [hd]), hue, hcue,
      hentry.addr.trans haddr, hentry.info, hentry.valid, hentry.next⟩
  · have hrun := (Dev.dramReadDone_single hr hu hrec l (by rw [hwr, hwh]; rfl)).trans
      ((Dev.readDone_of_bad hp hb).trans (if_pos hwr))
    obtain ⟨hd, -, -, hrmw, -⟩ := s.dev.readFails_shows r l a b
    generalize s.dev.readFails r l a b = y at *
    obtain ⟨m, hm, hreqs, hblocks, hpoison⟩ := Dev.leaveReq_single (d := ({ y with dmc := { y.dmc with
      poison := r.block.toNat :: y.dmc.poison.filter (· != r.block.toNat) } } : Dev).bump Cnt.wrBlocks)
      (show y.dmc.reqs = _ by rw [hd]; exact hr) (show y.dmc.waiting = _ by rw [hd]; exact hw)
    refine ⟨_, .of_runUp hup rfl (hrun.trans hm), hreqs, hblocks.trans (show y.dmc.blocks = _ by rw [hd]), fun k => ?_, ?_⟩
    · have hpo : m.poison = r.block.toNat :: s.dev.dmc.poison.filter (· != r.block.toNat) :=
        hpoison.trans (show r.block.toNat :: y.dmc.poison.filter _ = _ by rw [hd])
      show k ∈ m.poison ↔ _
      rw [hpo, List.mem_cons, List.mem_filter, bne_iff_ne]
      tauto
    · refine (Dev.counter_bumpBy ..).trans ((if_neg (by decide)).trans (hrmw.trans ?_))
      rw [hwr]
      rfl
  · have hrun := Dev.dramWriteRetire_single hr hu hrec hwr hwh
    obtain ⟨m, hm, hreqs, hblocks, hpoison⟩ := Dev.leaveReq_single (d := ({ s.dev with dmc := { s.dev.dmc with
      blocks := Sparse.put 0 s.dev.dmc.blocks r.block.toNat r.data,
      poison := s.dev.dmc.poison.filter (· != r.block.toNat) } } : Dev).bump Cnt.wrBlocks) hr hw
    refine ⟨_, .of_runUp hup rfl (hrun.trans hm), hreqs, ?_, fun k hk => ?_, ?_,
      (Dev.counter_bumpBy ..).trans (if_pos rfl)⟩
    · exact (congrArg (Sparse.get 0 · r.block.toNat) hblocks).trans (Sparse.get_put_same ..)
    · exact (congrArg (Sparse.get 0 · k) hblocks).trans (Sparse.get_put_ne _ _ _ _ hk)
    · refine hpoison.trans (List.filter_eq_self.mpr fun k hk => bne_iff_ne.mpr ?_)
      rintro rfl
      exact hp hk
  · exact scrubVisits hup block l

end Sys2Proof.Machine
end

section
/-! # Recovery, urgency, refresh and training of the DRAM controller -/

namespace Sys2Proof.Machine

/-! ## Parity recovery -/

theorem Dev.parityLog_only (d : Dev) (ty : Nat) (rank : Bool) (count : Nat) : d.LogOnly (d.parityLog ty rank count) :=
  d.errLog_only ..

theorem Dev.alertFall_of_replay {d : Dev} (hc : d.fullConf = true) (hr : d.dmc.recovery = none) (rank : Bool) :
    d.alertFall [] rank = { (d.bump Cnt.caAlert) with dmc := { d.dmc with recovery := some ⟨rank, 1, true, 0⟩ } } := by
  unfold Dev.alertFall Dev.arriveAll
  rw [List.foldl_nil]
  have hconf : (d.bump Cnt.caAlert).fullConf = true := hc
  have hrec : (d.bump Cnt.caAlert).dmc.recovery = none := hr
  dsimp only
  rw [hconf, hrec]
  rfl

/-- The one read in flight is answered with an error response that nothing takes. -/
theorem Dev.failInFlight_of_read {d : Dev} {r : DramReq} (hr : d.dmc.reqs = [r]) (hw : r.write = false)
    (hu : r.use = .other) (hq : d.dmc.waiting = []) :
    d.failInFlight = (({ d with
        dmc := { d.dmc with
          reqs := [], unissued := [], retry0 := [], retry1 := [], inorder := [], urgency := [] } } : Dev).bump
      Cnt.caFail).raise Reg.dmcStat_ca_fail := by
  unfold Dev.failInFlight
  rw [hr]
  dsimp only
  rw [List.foldl_cons, List.foldl_nil, hw, hu]
  exact Dev.admitWaiting_of_none hq

theorem Dev.alertFall_of_compact {d : Dev} {r : DramReq} (hc : d.fullConf = false) (hr : d.dmc.reqs = [r])
    (hw : r.write = false) (hu : r.use = .other) (hq : d.dmc.waiting = []) (rank : Bool) :
    let e := d.alertFall [] rank
    e.dmc.reqs = [] ∧ e.dmc.blocks = d.dmc.blocks ∧ e.dmc.recovery = some ⟨rank, 3, true, 0⟩ ∧
      e.bit Reg.dmcStat_ca_fail = true ∧ e.counter Cnt.caFail = d.counter Cnt.caFail + 1 ∧
      e.counter Cnt.caAlert = d.counter Cnt.caAlert + 1 := by
  intro e
  have hconf : (d.bump Cnt.caAlert).fullConf = false := hc
  obtain ⟨y, hy⟩ : ∃ y, y = (d.bump Cnt.caAlert).parityLog logCaParity rank (d.bump Cnt.caAlert).dmc.reqs.length := ⟨_, rfl⟩
  have hl : (d.bump Cnt.caAlert).LogOnly y := hy ▸ Dev.parityLog_only ..
  have hdmc : y.dmc = d.dmc := hl.dmc
  have he : e = { y.failInFlight with dmc := { y.failInFlight.dmc with recovery := some ⟨rank, 3, true, 0⟩ } } := by
    rw [hy]
    show d.alertFall [] rank = _
    unfold Dev.alertFall Dev.arriveAll
    rw [List.foldl_nil]
    dsimp only
    rw [hconf]
    rfl
  clear_value e
  rw [Dev.failInFlight_of_read (by rw [hdmc]; exact hr) hw hu (by rw [hdmc]; exact hq)] at he
  obtain ⟨w, hwd, hwc, hw⟩ : ∃ w : Dev, w.dmc = { y.dmc with
      reqs := [], unissued := [], retry0 := [], retry1 := [], inorder := [], urgency := [] } ∧
      w.counters = y.counters ∧
      e = { (w.bump Cnt.caFail).raise Reg.dmcStat_ca_fail with
        dmc := { w.dmc with recovery := some ⟨rank, 3, true, 0⟩ } } :=
    ⟨{ y with
      dmc := { y.dmc with
        reqs := [], unissued := [], retry0 := [], retry1 := [], inorder := [], urgency := [] } }, rfl, rfl, he⟩
  have hwcnt (i : Nat) : w.counter i = y.counter i := congrArg (Sparse.get 0 · i) hwc
  rw [hw]
  refine ⟨by rw [hwd], by rw [hwd, hdmc], rfl, Dev.bit_raise_self (w.bump Cnt.caFail) Reg.dmcStat_ca_fail, ?_, ?_⟩
  · refine (Dev.counter_bumpBy w Cnt.caFail Cnt.caFail 1).trans ((if_pos rfl).trans (congrArg (· + 1) ?_))
    refine (hwcnt _).trans ?_
    exact (hl.counter _ (by decide)).trans ((Dev.counter_bumpBy ..).trans (if_neg (by decide)))
  · refine (Dev.counter_bumpBy w Cnt.caFail Cnt.caAlert 1).trans ((if_neg (by decide)).trans ?_)
    refine (hwcnt _).trans ?_
    exact (hl.counter _ (by decide)).trans ((Dev.counter_bumpBy ..).trans (if_pos rfl))

section
variable {d : Dev} {c : Recovery} (hr : d.dmc.recovery = some c) (hl : c.low = true)
include hr hl

theorem Dev.alertRise_of_failed (h : 3 ≤ c.alerts) : d.alertRise = { d with dmc := { d.dmc with recovery := none } } := by
  unfold Dev.alertRise
  rw [hr]
  exact (if_neg (by rw [hl]; decide)).trans (if_pos h)

theorem Dev.alertRise_of_replay (h : c.alerts < 3) :
    let n := (d.retryBuf c.rank).length
    d.alertRise.bit Reg.dmcStat_replay = true ∧
      d.alertRise.counter Cnt.caReplayedCmds = d.counter Cnt.caReplayedCmds + BitVec.ofNat 64 n ∧
      d.alertRise.dmc = { d.dmc with recovery := if n = 0 then none else some { c with low := false, left := n } } := by
  intro n
  have hlog := ((d.bumpBy Cnt.caReplayedCmds n).raise Reg.dmcStat_replay).parityLog_only logCaReplay c.rank n
  obtain ⟨y, hy⟩ : ∃ y, y = ((d.bumpBy Cnt.caReplayedCmds n).raise Reg.dmcStat_replay).parityLog logCaReplay c.rank n := ⟨_, rfl⟩
  have he : d.alertRise = { y with dmc := { y.dmc with
      recovery := if n = 0 then none else some { c with low := false, left := n } } } := by
    rw [hy]
    unfold Dev.alertRise
    rw [hr]
    exact (if_neg (by rw [hl]; decide)).trans (if_neg (Nat.not_le.mpr h))
  rw [← hy] at hlog
  rw [he]
  refine ⟨?_, ?_, ?_⟩
  · refine (Dev.bit_of_reg (hlog.reg _ ?_)).trans (Dev.bit_raise_self _ Reg.dmcStat_replay)
    unfold logAddr
    decide
  · exact (hlog.counter _ (by decide)).trans ((Dev.counter_bumpBy ..).trans (if_pos rfl))
  · exact congrArg (fun m : Dmc => { m with recovery := if n = 0 then none else some { c with low := false, left := n } }) hlog.dmc

end

theorem Dev.setRetry_dmc (d : Dev) (rank : Bool) (l : List DramReq) :
    (d.setRetry rank l).dmc.recovery = d.dmc.recovery ∧ (d.setRetry rank l).dmc.unissued = d.dmc.unissued := by
  cases rank <;> exact ⟨rfl, rfl⟩

section
variable {d : Dev} {rank : Bool} {x : DramReq} {t : List DramReq} (hb : d.retryBuf rank = x :: t) (hu : d.dmc.unissued = [])
include hb hu

theorem Dev.retryRetire_of_calm (hr : d.dmc.recovery = none) : d.retryRetire rank = d.setRetry rank t := by
  obtain ⟨hrec, hun⟩ := d.setRetry_dmc rank t
  unfold Dev.retryRetire
  rw [hb]
  dsimp only
  rw [hrec, hr]
  dsimp only
  rw [hun, hu, show ((d.setRetry rank t).dmc.reqs.find? fun r => r.rank == rank && ([] : List Nat).contains r.id) = none by simp]

/-- The last entry of a replay ends the recovery. -/
theorem Dev.retryRetire_of_last {c : Recovery} (hr : d.dmc.recovery = some c) (hc : c.rank = rank) (hl : c.low = false)
    (h1 : c.left = 1) :
    d.retryRetire rank = { d.setRetry rank t with dmc := { (d.setRetry rank t).dmc with recovery := none } } := by
  obtain ⟨hrec, hun⟩ := d.setRetry_dmc rank t
  unfold Dev.retryRetire
  rw [hb]
  dsimp only
  rw [hrec, hr]
  dsimp only
  rw [if_pos ⟨hc, by rw [hl]; rfl⟩, if_pos (Nat.le_of_eq h1)]
  dsimp only
  rw [hun, hu, show ((d.setRetry rank t).dmc.reqs.find? fun r => r.rank == rank && ([] : List Nat).contains r.id) = none by simp]

end

/-! ## Urgency -/

theorem Dev.le_cyc_of_reachCycle {d e : Dev} {c : Nat} (h : d.reachCycle c = some e) : c ≤ e.tim.cyc := by
  unfold Dev.reachCycle at h
  split at h
  · next hle => exact Option.some.inj h ▸ hle
  · dsimp only at h
    split at h
    · exact nomatch h
    · exact Option.some.inj h ▸ Nat.le_refl _

/-- The urgency of an age of at least half the target. -/
theorem urgencyOf_of_half {age t : Nat} (h : t ≤ age) : (4 * age < 6 * t → urgencyOf age (2 * t) = 1) ∧
    (6 * t ≤ 4 * age → age < 2 * t → urgencyOf age (2 * t) = 2) ∧ (2 * t ≤ age → urgencyOf age (2 * t) = 3) := by
  unfold urgencyOf
  refine ⟨fun h1 => ?_, fun h1 h2 => ?_, fun h1 => ?_⟩
  · rw [if_neg (by omega), if_pos (by omega)]
  · rw [if_neg (by omega), if_neg (by omega), if_pos h2]
  · rw [if_neg (by omega), if_neg (by omega), if_neg (by omega)]

/-- A threshold of urgency lies at half the target or later. -/
theorem le_age_of_urgencyCycles {t old c0 now : Nat} (h : c0 + urgencyCycles t (min 3 (old + 1)) ≤ now) : t ≤ 5 * (now - c0) := by
  have hu : t * 2 ≤ t * (min 3 (old + 1) + 1) := Nat.mul_le_mul_left t (by omega)
  unfold urgencyCycles at h
  omega

theorem Dev.urgencyChange_of_reached {d e : Dev} {k : Fin 8} {c0 : Nat} (ho : d.oldestReq k = some c0)
    (he : d.reachCycle (c0 + urgencyCycles (d.dmcTarget k) (min 3 (Sparse.get 0 d.dmc.urgency k + 1))) = some e) :
    d.urgencyChange [] k = e.showUrgency k := by
  unfold Dev.urgencyChange Dev.arriveAll
  rw [List.foldl_nil]
  dsimp only
  rw [ho]
  exact Dev.due_of_reached he _

theorem Dev.urgencyChange_of_unreached {d : Dev} {k : Fin 8} {c0 : Nat} (ho : d.oldestReq k = some c0)
    (he : d.reachCycle (c0 + urgencyCycles (d.dmcTarget k) (min 3 (Sparse.get 0 d.dmc.urgency k + 1))) = none) :
    d.urgencyChange [] k = d := by
  unfold Dev.urgencyChange Dev.arriveAll
  rw [List.foldl_nil]
  dsimp only
  rw [ho]
  exact Dev.due_of_unreached he _

theorem Dev.showUrgency_shows {d : Dev} {k u : Nat} (hu : d.urgencyNow k = u) :
    (d.showUrgency k).tim = d.tim ∧ (d.showUrgency k).dmc = { d.dmc with urgency := Sparse.put 0 d.dmc.urgency k u } ∧
      (d.showUrgency k).counter (Cnt.lateP k) = if u = 3 ∧ Sparse.get 0 d.dmc.urgency k ≠ 3 then
        d.counter (Cnt.lateP k) + 1 else d.counter (Cnt.lateP k) := by
  unfold Dev.showUrgency
  rw [hu]
  dsimp only
  by_cases h : u = 3 ∧ Sparse.get 0 d.dmc.urgency k ≠ 3
  · rw [if_pos h, if_pos h]
    exact ⟨rfl, rfl, (Dev.counter_bumpBy ..).trans (if_pos rfl)⟩
  · rw [if_neg h, if_neg h]
    exact ⟨rfl, rfl, rfl⟩

/-- A threshold of urgency is reached. -/
theorem Dev.urgencyChange_shows {d e : Dev} {k : Fin 8} {c0 : Nat} (ho : d.oldestReq k = some c0)
    (he : d.reachCycle (c0 + urgencyCycles (d.dmcTarget k) (min 3 (Sparse.get 0 d.dmc.urgency k + 1))) = some e) :
    let age := 5 * (e.tim.cyc - c0)
    let t := d.dmcTarget k
    ∃ u : Nat, (d.urgencyChange [] k).tim = e.tim ∧
      (d.urgencyChange [] k).dmc = { d.dmc with urgency := Sparse.put 0 d.dmc.urgency k u } ∧
      (4 * age < 6 * t → u = 1) ∧ (6 * t ≤ 4 * age → age < 2 * t → u = 2) ∧ (2 * t ≤ age → u = 3) ∧
      (d.urgencyChange [] k).counter (Cnt.lateP k) = if 2 * t ≤ age ∧ Sparse.get 0 d.dmc.urgency k ≠ 3 then
        d.counter (Cnt.lateP k) + 1 else d.counter (Cnt.lateP k) := by
  intro age t
  have hdmc : e.dmc = d.dmc := (congrArg Dev.dmc (Dev.reachCycle_only he)).trans rfl
  obtain ⟨hregs, hcnt⟩ := Dev.reachCycle_frame he
  have hold : e.oldestReq k = some c0 := by
    unfold Dev.oldestReq
    rw [hdmc]
    exact ho
  have htarget : e.dmcTarget k = t := congrArg (max 100) (Dev.fld_congr hregs _)
  have hu : e.urgencyNow k = urgencyOf age (2 * t) := by
    unfold Dev.urgencyNow
    rw [hold, htarget]
  obtain ⟨h1, h2, h3⟩ := urgencyOf_of_half (le_age_of_urgencyCycles (Dev.le_cyc_of_reachCycle he))
  obtain ⟨htim, hd, hc⟩ := Dev.showUrgency_shows hu
  rw [Dev.urgencyChange_of_reached ho he]
  refine ⟨urgencyOf age (2 * t), htim, by rw [hd, hdmc], h1, h2, h3, hc.trans ?_⟩
  have hthree : urgencyOf age (2 * t) = 3 ↔ 2 * t ≤ age := by
    refine ⟨fun h => ?_, h3⟩
    by_contra hlt
    by_cases hmid : 4 * age < 6 * t
    · exact nomatch (h1 hmid).symm.trans h
    · exact nomatch (h2 (Nat.not_lt.mp hmid) (Nat.not_le.mp hlt)).symm.trans h
  simp only [hthree, hdmc, Dev.counter, hcnt]

/-! ## Refresh and training -/

/-- A rank's refresh at cycle `c` leaves `v` postponed. -/
def Dmc.refreshed (m : Dmc) (rank : Bool) (c v : Nat) : Dmc := { m with
  refFrom0 := if rank then m.refFrom0 else c, refFrom1 := if rank then c else m.refFrom1,
  postponed0 := if rank then m.postponed0 else v, postponed1 := if rank then v else m.postponed1 }

section
variable {d e : Dev} {rank : Bool} {c : Nat} (he : d.reachCycle c = some e)
  (hc : c = (if rank then d.dmc.refFrom1 else d.dmc.refFrom0) + d.refreshCycles)
include he hc

theorem Dev.refresh_of_reached : d.refresh rank =
    if d.dmc.urgency.any (fun x => x.2 == 3) && decide ((if rank then d.dmc.postponed1 else d.dmc.postponed0) < 4) then
      ({ e with dmc := d.dmc.refreshed rank c ((if rank then d.dmc.postponed1 else d.dmc.postponed0) + 1) } : Dev).bump
        Cnt.refPostponed
    else ({ e with dmc := d.dmc.refreshed rank c 0 } : Dev).applyTrain rank := by
  have hdmc : e.dmc = d.dmc := (congrArg Dev.dmc (Dev.reachCycle_only he)).trans rfl
  rw [hc] at he
  refine (show d.refresh rank = _ from Dev.due_of_reached he _).trans ?_
  rw [← hc, ← hdmc]
  cases rank <;> rfl

theorem Dev.refresh_of_urgent (hu : ∃ x ∈ d.dmc.urgency, x.2 = 3)
    (hn : (if rank then d.dmc.postponed1 else d.dmc.postponed0) < 4) :
    d.refresh rank = ({ e with
        dmc := d.dmc.refreshed rank c ((if rank then d.dmc.postponed1 else d.dmc.postponed0) + 1) } : Dev).bump Cnt.refPostponed := by
  rw [Dev.refresh_of_reached he hc]
  refine if_pos (Bool.and_eq_true_iff.mpr ⟨List.any_eq_true.mpr ?_, decide_eq_true hn⟩)
  obtain ⟨x, hx, h3⟩ := hu
  exact ⟨x, hx, beq_iff_eq.mpr h3⟩

theorem Dev.refresh_of_due (hu : (∀ x ∈ d.dmc.urgency, x.2 ≠ 3) ∨
      4 ≤ if rank then d.dmc.postponed1 else d.dmc.postponed0) :
    d.refresh rank = ({ e with dmc := d.dmc.refreshed rank c 0 } : Dev).applyTrain rank := by
  rw [Dev.refresh_of_reached he hc]
  refine if_neg fun h => ?_
  obtain ⟨hany, hlt⟩ := Bool.and_eq_true_iff.mp h
  obtain ⟨x, hx, h3⟩ := List.any_eq_true.mp hany
  rcases hu with hnone | hfour
  · exact hnone x hx (beq_iff_eq.mp h3)
  · exact Nat.not_lt.mpr hfour (of_decide_eq_true hlt)

end

theorem Dev.applyTrain_of_none {d : Dev} (h : d.dmc.run = none) (rank : Bool) : d.applyTrain rank = d := by
  unfold Dev.applyTrain
  rw [h]

/-- The last rank that a training result waits for takes it. -/
theorem Dev.applyTrain_of_last {d : Dev} {run : TrainRun} {l : List Int} {rank : Bool} (h : d.dmc.run = some run)
    (hres : run.result = some (l, [rank])) (hj : run.joined = []) (hr : d.dmc.recovery = none) :
    let e := d.applyTrain rank
    e.dmc = { d.dmc with run := none, taps := addTaps d.dmc.taps l } ∧ e.bit Reg.dmcStat_train_applied = true ∧
      e.fld Reg.dmcStat_train = 0 ∧ e.fld Reg.dmcTemp_last = run.temp.toNat ∧
      e.counter Cnt.retrainRun = d.counter Cnt.retrainRun + 1 := by
  intro e
  obtain ⟨x, hx⟩ : ∃ x : Dev, x = { d with dmc := { d.dmc with taps := addTaps d.dmc.taps l } } := ⟨_, rfl⟩
  obtain ⟨y, hy⟩ : ∃ y : Dev, y = (x.raise Reg.dmcStat_train_applied).bump Cnt.retrainRun := ⟨_, rfl⟩
  have he : e = ({ y.setFld Reg.dmcTemp_last run.temp.toNat with dmc := { y.dmc with run := none } } : Dev).setFld
      Reg.dmcStat_train 0 := by
    show d.applyTrain rank = _
    unfold Dev.applyTrain
    rw [h]
    dsimp only
    rw [hres]
    dsimp only
    rw [if_neg (by rw [hr]; simp), if_pos (by simp)]
    unfold Dev.endTrain
    rw [hj, hy, hx]
    rfl
  clear_value e
  rw [he]
  have hyd : y.dmc = { d.dmc with taps := addTaps d.dmc.taps l } := by rw [hy, hx]; rfl
  refine ⟨?_, ?_, ?_, ?_, ?_⟩
  · exact (congrArg (fun m : Dmc => { m with run := none }) hyd).trans rfl
  · refine (Dev.bit_setFld_of_separate _ _ Reg.dmcStat_train_applied _ (by decide)).trans ?_
    refine (Dev.bit_setFld_of_separate y Reg.dmcTemp_last Reg.dmcStat_train_applied _ (by decide)).trans ?_
    rw [hy]
    exact Dev.bit_raise_self x Reg.dmcStat_train_applied
  · exact Dev.fld_setFld_self _ _ _ (by decide)
  · refine (Dev.fld_setFld_of_separate _ _ Reg.dmcTemp_last _ (by decide)).trans ?_
    refine (Dev.fld_setFld_self y Reg.dmcTemp_last _ (by decide)).trans (Nat.mod_eq_of_lt run.temp.isLt)
  · refine (show _ = y.counter Cnt.retrainRun from rfl).trans ?_
    rw [hy]
    refine (Dev.counter_bumpBy ..).trans ((if_pos rfl).trans ?_)
    rw [hx]
    rfl

section
variable {d : Dev} {run : TrainRun} {l : List Int} (h : d.dmc.run = some run) (hres : run.result = none)
include h hres

theorem Dev.retrainMeasured_of_near (hl : ∀ x ∈ l, x.natAbs ≤ 16) :
    d.retrainMeasured l = ({ d with dmc := { d.dmc with run := some { run with
      result := some (l, if d.fullConf then [false, true] else [false]) } } } : Dev).setFld Reg.dmcStat_train 2 := by
  unfold Dev.retrainMeasured
  rw [h]
  dsimp only
  rw [hres, if_neg (by decide), if_neg ?_]
  intro hany
  obtain ⟨x, hx, hd⟩ := List.any_eq_true.mp hany
  exact Nat.not_lt.mpr (hl x hx) (of_decide_eq_true hd)

theorem Dev.retrainMeasured_of_far (hl : ∃ x ∈ l, 16 < x.natAbs) (hs : run.suspect = false) :
    d.retrainMeasured l = { ((d.raise Reg.dmcStat_train_suspect).bump Cnt.trainSuspect) with
      dmc := { d.dmc with run := some { run with suspect := true } } } := by
  obtain ⟨x, hx, hfar⟩ := hl
  unfold Dev.retrainMeasured
  rw [h]
  dsimp only
  rw [hres, if_neg (by decide), if_pos (List.any_eq_true.mpr ⟨x, hx, decide_eq_true hfar⟩), hs, if_neg Bool.false_ne_true]
  exact congrArg (fun t => ({ ((d.raise Reg.dmcStat_train_suspect).bump Cnt.trainSuspect) with
    dmc := { d.dmc with run := some t } } : Dev)) (by rw [← hres])

end

/-- Settles O50. -/
theorem dramRecoveryAndRefresh : Obligations.DramRecoveryAndRefresh := by
  unfold Obligations.DramRecoveryAndRefresh
  intro s rank hup
  refine ⟨fun hc hr => .of_runUp hup rfl (Dev.alertFall_of_replay hc hr rank), fun r hc hr hw hu hq => ?_,
    fun c hr hl => ⟨fun h => .of_runUp hup rfl (Dev.alertRise_of_failed hr hl h), fun h => ?_⟩,
    fun x t hb hu => ⟨fun hr => .of_runUp hup rfl (Dev.retryRetire_of_calm hb hu hr), fun c hr hc hl h1 => ?_⟩,
    fun k c0 ho => ?_, ?_, fun run l hrun hres => ⟨fun hl => ?_, fun hl hs => ?_⟩⟩
  · exact ⟨_, .of_runUp hup rfl rfl, Dev.alertFall_of_compact hc hr hw hu hq rank⟩
  · exact ⟨_, .of_runUp hup rfl rfl, Dev.alertRise_of_replay hr hl h⟩
  · exact .of_runUp hup rfl (Dev.retryRetire_of_last hb hu hr hc hl h1)
  · intro t old c
    refine ⟨fun hnone => .of_runUp hup rfl (Dev.urgencyChange_of_unreached ho hnone), fun e he => ?_⟩
    intro age
    obtain ⟨u, htim, hdmc, h1, h2, h3, hcnt⟩ := Dev.urgencyChange_shows ho he
    exact ⟨_, u, .of_runUp hup rfl rfl, htim, hdmc, h1, h2, h3, hcnt⟩
  · intro c
    refine ⟨fun hnone => .of_runUp hup rfl (Dev.due_of_unreached hnone _), fun e he => ?_⟩
    intro n At
    refine ⟨fun hu hn => .of_runUp hup rfl (Dev.refresh_of_urgent he rfl hu hn), fun hu hrun => ?_,
      fun run l hu hrun hres hj hr => ?_⟩
    · exact .of_runUp hup rfl ((Dev.refresh_of_due he rfl hu).trans
        (Dev.applyTrain_of_none (d := { e with dmc := s.dev.dmc.refreshed rank c 0 }) hrun rank))
    · have hd : s.dev.refresh rank = _ := Dev.refresh_of_due he rfl hu
      obtain ⟨hdmc, happ, htrain, hlast, hcnt⟩ :=
        Dev.applyTrain_of_last (d := { e with dmc := s.dev.dmc.refreshed rank c 0 }) (rank := rank) hrun hres hj hr
      refine ⟨_, .of_runUp hup rfl hd, hdmc, happ, htrain, hlast, hcnt.trans ?_⟩
      exact congrArg (· + 1) (congrArg (Sparse.get 0 · Cnt.retrainRun) (Dev.reachCycle_frame he).2)
  · exact .of_runUp hup rfl (Dev.retrainMeasured_of_near hrun hres hl)
  · exact .of_runUp hup rfl (Dev.retrainMeasured_of_far hrun hres hl hs)

end Sys2Proof.Machine
end

section
/-! # Events of the rings -/

namespace Sys2Proof.Machine

/-! ## What an event leaves of the rings -/

/-- The registers that hold a ring's configuration and its status. -/
def ringAddr (a : Nat) : Prop := 0x41000 ≤ a ∧ a < 0x42000

/-- From `d` to `e` at most the event ring's index, its moderation and what the trace and the host show have changed. -/
structure Dev.EventOnly (d e : Dev) : Prop where
  ring : ∀ i, i ≠ 2 → e.ring i = d.ring i
  halted : ∀ i, (e.ring i).halted = (d.ring i).halted
  cfg : ∀ k < 48, e.reg (Reg.hifRingCfg k) = d.reg (Reg.hifRingCfg k)
  err : ∀ k < 48, e.bit (Reg.hifRingStat_err k) = d.bit (Reg.hifRingStat_err k)
  dmaErr : e.bit Reg.hifStat_dma_err = d.bit Reg.hifStat_dma_err
  ringErr : e.bit Reg.hifStat_ring_err = d.bit Reg.hifStat_ring_err
  counter : ∀ c, c ≠ Cnt.msixSent → c ≠ Cnt.eventWritten → c ≠ Cnt.eventLost → c ≠ Cnt.traceDrop → e.counter c = d.counter c

theorem Dev.EventOnly.refl (d : Dev) : d.EventOnly d :=
  ⟨fun _ _ => rfl, fun _ => rfl, fun _ _ => rfl, fun _ _ => rfl, rfl, rfl, fun _ _ _ _ _ => rfl⟩

theorem Dev.EventOnly.trans {a b c : Dev} (h : a.EventOnly b) (k : b.EventOnly c) : a.EventOnly c where
  ring i hi := (k.ring i hi).trans (h.ring i hi)
  halted i := (k.halted i).trans (h.halted i)
  cfg i hi := (k.cfg i hi).trans (h.cfg i hi)
  err i hi := (k.err i hi).trans (h.err i hi)
  dmaErr := k.dmaErr.trans h.dmaErr
  ringErr := k.ringErr.trans h.ringErr
  counter i h1 h2 h3 h4 := (k.counter i h1 h2 h3 h4).trans (h.counter i h1 h2 h3 h4)

theorem ringAddr_cfg {k : Nat} (h : k < 48) : ringAddr (Reg.hifRingCfg k) := by
  unfold ringAddr Reg.hifRingCfg
  omega

theorem ringAddr_stat {k : Nat} (h : k < 48) : ringAddr (Reg.hifRingStat k) := by
  unfold ringAddr Reg.hifRingStat
  omega

/-- What writes neither a ring nor a register of the rings nor HIF_STAT. -/
theorem Dev.EventOnly.of_apart {d e : Dev} (hr : e.hif.rings = d.hif.rings) (ha : ∀ a, ringAddr a → e.reg a = d.reg a)
    (hs : e.reg Reg.hifStat = d.reg Reg.hifStat)
    (hc : ∀ c, c ≠ Cnt.msixSent → c ≠ Cnt.eventWritten → c ≠ Cnt.eventLost → c ≠ Cnt.traceDrop → e.counter c = d.counter c) :
    d.EventOnly e where
  ring i _ := Dev.ring_congr hr i
  halted i := congrArg Ring.halted (Dev.ring_congr hr i)
  cfg _ hk := ha _ (ringAddr_cfg hk)
  err _ hk := Dev.bit_of_reg (ha _ (ringAddr_stat hk))
  dmaErr := Dev.bit_of_reg hs
  ringErr := Dev.bit_of_reg hs
  counter := hc

theorem Dev.EventOnly.of_same {d e : Dev} (hr : e.hif.rings = d.hif.rings) (ha : e.regs = d.regs)
    (hc : e.counters = d.counters) : d.EventOnly e :=
  .of_apart hr (fun a _ => Dev.reg_congr ha a) (Dev.reg_congr ha _) fun c _ _ _ _ => congrArg (Sparse.get 0 · c) hc

/-- A register outside the rings and HIF_STAT. -/
theorem Dev.EventOnly.setReg (d : Dev) (b : Nat) (v : Word) (hb : ¬ ringAddr b) (hs : b ≠ Reg.hifStat) :
    d.EventOnly (d.setReg b v) :=
  .of_apart rfl (fun _ ha => Dev.reg_setReg_ne d (fun hab => hb (by rw [← hab]; exact ha)) v) (Dev.reg_setReg_ne d hs.symm v)
    fun _ _ _ _ _ => rfl

theorem Dev.EventOnly.setFld (d : Dev) (f : Field) (v : Nat) (hb : ¬ ringAddr f.addr) (hs : f.addr ≠ Reg.hifStat) :
    d.EventOnly (d.setFld f v) := .setReg d f.addr _ hb hs

theorem Dev.EventOnly.bump (d : Dev) {c : Nat} (h : c = Cnt.msixSent ∨ c = Cnt.eventWritten ∨ c = Cnt.eventLost ∨ c = Cnt.traceDrop) :
    d.EventOnly (d.bump c) := by
  refine .of_apart rfl (fun _ _ => rfl) rfl fun i h1 h2 h3 h4 => (Dev.counter_bumpBy ..).trans (if_neg ?_)
  rintro rfl
  rcases h with h | h | h | h
  · exact h1 h
  · exact h2 h
  · exact h3 h
  · exact h4 h

theorem not_ringAddr_traceStat : ¬ ringAddr Reg.obsTraceStat := by
  unfold ringAddr
  decide

theorem Dev.EventOnly.tracePush (d : Dev) (m : List Byte) : d.EventOnly (d.tracePush m) :=
  .trans (b := { d with obs := { d.obs with traceQ := d.obs.traceQ ++ [m] } }) (.of_same rfl rfl rfl)
    (.setFld _ Reg.obsTraceStat_level _ not_ringAddr_traceStat (by decide))

theorem Dev.EventOnly.trace (d : Dev) (ty : Nat) (l : List Byte) : d.EventOnly (d.trace ty l) := by
  unfold Dev.trace
  split
  · exact .refl d
  · dsimp only
    generalize (if ty = 1 then true else _) = room
    split
    · refine .trans ?_ (.tracePush _ _)
      unfold Dev.traceLostMsg
      dsimp only
      split
      · exact .refl d
      · exact .trans (b := { d with obs := { d.obs with traceLost := 0 } }) (.of_same rfl rfl rfl) (.tracePush _ _)
    · refine .trans ?_ (.setFld _ Reg.obsTraceStat_drop _ not_ringAddr_traceStat (by decide))
      exact .trans (b := { d with obs := { d.obs with traceLost := d.obs.traceLost + 1 } }) (.of_same rfl rfl rfl)
        (.bump _ (.inr (.inr (.inr rfl))))

theorem Dev.EventOnly.msix (d : Dev) (v : Nat) : d.EventOnly (d.msix v) := by
  unfold Dev.msix
  split
  · exact .setReg d _ _ (by unfold ringAddr; decide) (by decide)
  · exact .trans (b := d.out (.msix v)) (.of_same rfl rfl rfl) (.bump _ (.inl rfl))

/-- The event ring changes, and stays halted or not. -/
theorem Dev.EventOnly.setRing (d : Dev) (r : Ring) (h : r.halted = (d.ring 2).halted) : d.EventOnly (d.setRing 2 r) where
  ring i hi := Dev.ring_setRing_ne d r hi
  halted i := by
    by_cases hi : i = 2
    · rw [hi, Dev.ring_setRing_same, h]
    · rw [Dev.ring_setRing_ne d r hi]
  cfg _ _ := rfl
  err _ _ := rfl
  dmaErr := rfl
  ringErr := rfl
  counter _ _ _ _ _ := rfl

theorem Dev.EventOnly.signal (d : Dev) : d.EventOnly (d.signal 2) := by
  unfold Dev.signal
  split
  · exact .refl d
  · split
    · exact .msix d _
    · split
      · exact .refl d
      · exact .setRing d _ rfl

theorem hifRingCfg_ne_stat (k : Nat) : Reg.hifRingCfg k ≠ Reg.hifRingStat 2 := by
  unfold Reg.hifRingCfg Reg.hifRingStat
  omega

theorem Dev.EventOnly.showIndex (d : Dev) (n : Nat) : d.EventOnly (d.setFld (Reg.hifRingStat_idx 2) n) where
  ring _ _ := rfl
  halted _ := rfl
  cfg k _ := Dev.reg_setFld_of_ne d (Reg.hifRingStat_idx 2) _ n (hifRingCfg_ne_stat k)
  err k _ := by
    by_cases hk : k = 2
    · rw [hk]
      exact Dev.bit_setFld_of_separate d (Reg.hifRingStat_idx 2) (Reg.hifRingStat_err 2) n (by decide)
    · refine Dev.bit_of_reg (Dev.reg_setFld_of_ne d (Reg.hifRingStat_idx 2) _ n ?_)
      show Reg.hifRingStat k ≠ Reg.hifRingStat 2
      unfold Reg.hifRingStat
      omega
  dmaErr := Dev.bit_of_reg (Dev.reg_setFld_of_ne d (Reg.hifRingStat_idx 2) _ n (by decide))
  ringErr := Dev.bit_of_reg (Dev.reg_setFld_of_ne d (Reg.hifRingStat_idx 2) _ n (by decide))
  counter _ _ _ _ _ := rfl

theorem Dev.EventOnly.hostWrite (d : Dev) (a : Nat) (l : List Byte) : d.EventOnly (d.hostWrite a l) := by
  unfold Dev.hostWrite
  split
  · exact .of_same rfl rfl rfl
  · exact .refl d

theorem Dev.EventOnly.writeEvent (d : Dev) (e : List Byte) : d.EventOnly (d.writeEvent e) := by
  have hput : d.EventOnly (if d.hosted then d.ringWrite 2 2 e else d.out (.localEvent e)) := by
    split
    · unfold Dev.ringWrite
      refine .trans ?_ (.signal _)
      generalize patch e 2 _ = m
      refine .trans (.hostWrite d (d.entryAddr 2 (d.ring 2).dev) m) ?_
      generalize d.hostWrite _ m = x
      exact .trans (.setRing x { x.ring 2 with dev := (d.ring 2).dev + 1 } rfl) (.showIndex _ _)
    · exact .of_same rfl rfl rfl
  unfold Dev.writeEvent
  generalize (if d.hosted then d.ringWrite 2 2 e else d.out (.localEvent e)) = x at hput
  exact (hput.trans (.bump x (.inr (.inl rfl)))).trans (.of_same rfl rfl rfl)

theorem Dev.EventOnly.drainEvents (n : Nat) (d : Dev) : d.EventOnly (Dev.drainEvents n d) := by
  induction n generalizing d with
  | zero => exact .refl d
  | succ n ih =>
    unfold Dev.drainEvents
    split
    · exact .refl d
    · split
      · refine .trans ?_ (ih _)
        exact .trans (b := { d with hif := { d.hif with lost := 0 } }) (.of_same rfl rfl rfl) (.writeEvent _ _)
      · split
        · exact .refl d
        · next e t _ =>
          refine .trans ?_ (ih _)
          exact .trans (b := { d with hif := { d.hif with eventQ := t } }) (.of_same rfl rfl rfl) (.writeEvent _ _)

/-- HIF_STAT shows that an event was lost. -/
theorem Dev.EventOnly.showLost (d : Dev) : d.EventOnly (d.raise Reg.hifStat_evt_lost) where
  ring _ _ := rfl
  halted _ := rfl
  cfg k _ := Dev.reg_setFld_of_ne d Reg.hifStat_evt_lost _ 1 (by show Reg.hifRingCfg k ≠ Reg.hifStat; unfold Reg.hifRingCfg Reg.hifStat; omega)
  err k _ := Dev.bit_of_reg (Dev.reg_setFld_of_ne d Reg.hifStat_evt_lost _ 1
    (show Reg.hifRingStat k ≠ Reg.hifStat by unfold Reg.hifRingStat Reg.hifStat; omega))
  dmaErr := Dev.bit_setFld_of_separate d Reg.hifStat_evt_lost Reg.hifStat_dma_err 1 (by decide)
  ringErr := Dev.bit_setFld_of_separate d Reg.hifStat_evt_lost Reg.hifStat_ring_err 1 (by decide)
  counter _ _ _ _ _ := rfl

theorem Dev.EventOnly.event (d : Dev) (ty code : Nat) (l : List (Nat × List Byte)) : d.EventOnly (d.event ty code l) := by
  unfold Dev.event Dev.eventR
  refine .trans (.trace d 2 (d.eventEntry ty code false (evData l))) ?_
  generalize d.eventEntry ty code false (evData l) = m
  dsimp only
  generalize d.trace 2 m = x
  split
  · exact .trans (b := { x with hif := { x.hif with eventQ := x.hif.eventQ ++ [m] } }) (.of_same rfl rfl rfl) (.drainEvents _ _)
  · refine .trans ?_ (.showLost _)
    exact .trans (b := { x with hif := { x.hif with lost := x.hif.lost + 1 } }) (.of_same rfl rfl rfl)
      (.bump _ (.inr (.inr (.inl rfl))))

theorem Dev.EventOnly.violation (d : Dev) (code party : Nat) (l : List (Nat × List Byte)) :
    d.EventOnly (d.violation code party l) := by
  unfold Dev.violation
  split
  · exact .refl d
  · exact .trans (b := { d with sch := { d.sch with violSeen := (code, party) :: d.sch.violSeen } }) (.of_same rfl rfl rfl)
      (.event _ _ _ _)

/-! ## The poll of the doorbell page -/

/-- Ring `i` and the rings' configurations are the same. -/
structure Dev.SameRing (i : Nat) (d e : Dev) : Prop where
  ring : e.ring i = d.ring i
  cfg : ∀ k < 48, e.reg (Reg.hifRingCfg k) = d.reg (Reg.hifRingCfg k)

theorem Dev.SameRing.refl (i : Nat) (d : Dev) : d.SameRing i d := ⟨rfl, fun _ _ => rfl⟩

theorem Dev.SameRing.trans {i : Nat} {a b c : Dev} (h : a.SameRing i b) (k : b.SameRing i c) : a.SameRing i c :=
  ⟨k.ring.trans h.ring, fun x hx => (k.cfg x hx).trans (h.cfg x hx)⟩

theorem Dev.EventOnly.sameRing {d e : Dev} (h : d.EventOnly e) {i : Nat} (hi : i ≠ 2) : d.SameRing i e :=
  ⟨h.ring i hi, h.cfg⟩

theorem Dev.SameRing.ringEn {d e : Dev} {i : Nat} (h : d.SameRing i e) (hi : i < 48) : e.ringEn i = d.ringEn i :=
  Dev.bit_of_reg (h.cfg i hi)

theorem Dev.SameRing.ringLive {d e : Dev} {i : Nat} (h : d.SameRing i e) (hi : i < 48) : e.ringLive i = d.ringLive i := by
  unfold Dev.ringLive
  rw [h.ringEn hi, h.ring]

theorem Dev.SameRing.ringLimit {d e : Dev} {i : Nat} (h : d.SameRing i e) (hi : i < 48) : e.ringLimit i = d.ringLimit i := by
  have hsize : e.ringSize i = d.ringSize i := by
    have hi : e.fld (Reg.hifRingCfg_log2size i) = d.fld (Reg.hifRingCfg_log2size i) :=
      congrArg (Reg.hifRingCfg_log2size i).of (h.cfg i hi)
    have h0 : e.fld (Reg.hifRingCfg_log2size 0) = d.fld (Reg.hifRingCfg_log2size 0) :=
      congrArg (Reg.hifRingCfg_log2size 0).of (h.cfg 0 (by decide))
    unfold Dev.ringSize Dev.log2Size
    rw [hi, h0]
  unfold Dev.ringLimit
  rw [h.ring, hsize]

theorem Dev.ring_bump (d : Dev) (c i : Nat) : (d.bump c).ring i = d.ring i := Dev.ring_congr (d := d) (e := d.bump c) rfl i

theorem Dev.ring_raise (d : Dev) (f : Field) (i : Nat) : (d.raise f).ring i = d.ring i :=
  Dev.ring_congr (d := d) (e := d.raise f) rfl i

theorem Dev.SameRing.bump (i : Nat) (d : Dev) (c : Nat) : d.SameRing i (d.bump c) := ⟨d.ring_bump c i, fun _ _ => rfl⟩

theorem Dev.setRing_ringEn (d : Dev) (i j : Nat) (r : Ring) : (d.setRing i r).ringEn j = d.ringEn j := Dev.bit_congr rfl _

theorem Dev.setRing_counter (d : Dev) (i c : Nat) (r : Ring) : (d.setRing i r).counter c = d.counter c :=
  Dev.counter_congr rfl c

theorem Dev.haltRing_counter (d : Dev) (j c : Nat) : (d.haltRing j).counter c = d.counter c :=
  (Dev.counter_raise _ _ _).trans ((Dev.counter_raise _ _ _).trans (Dev.setRing_counter ..))

/-- A ring that is halted shows it, and no other ring changes. -/
theorem Dev.haltRing_shows (d : Dev) {j : Nat} (hj : j < 48) :
    (∀ i, i ≠ j → d.SameRing i (d.haltRing j)) ∧ (d.haltRing j).ring j = { d.ring j with halted := true } ∧
      (∀ k < 48, (d.haltRing j).reg (Reg.hifRingCfg k) = d.reg (Reg.hifRingCfg k)) ∧
      (d.haltRing j).bit (Reg.hifRingStat_err j) = true ∧ (d.haltRing j).bit Reg.hifStat_ring_err = true := by
  have hstat (k : Nat) : Reg.hifRingCfg k ≠ Reg.hifRingStat j := by
    unfold Reg.hifRingCfg Reg.hifRingStat
    omega
  have hcfg (k : Nat) (_ : k < 48) : (d.haltRing j).reg (Reg.hifRingCfg k) = d.reg (Reg.hifRingCfg k) := by
    refine (Dev.reg_setFld_of_ne _ Reg.hifStat_ring_err _ 1 ?_).trans (Dev.reg_setFld_of_ne _ (Reg.hifRingStat_err j) _ 1 (hstat k))
    show Reg.hifRingCfg k ≠ Reg.hifStat
    unfold Reg.hifRingCfg Reg.hifStat
    omega
  refine ⟨fun i hi => ⟨Dev.ring_setRing_ne d _ hi, hcfg⟩, Dev.ring_setRing_same d j _, hcfg, ?_, Dev.bit_raise_self _ _⟩
  have hne : Reg.hifRingStat j ≠ Reg.hifStat := by
    unfold Reg.hifRingStat Reg.hifStat
    omega
  refine (Dev.bit_of_reg (Dev.reg_setFld_of_ne _ Reg.hifStat_ring_err _ 1 hne)).trans ?_
  exact Dev.bit_raise_self _ (Reg.hifRingStat_err j) ⟨Nat.le_refl 32, rfl⟩

section
variable {d : Dev} {i v : Nat} {posts : List RxPost} (h2 : i ≠ 2) (hl : i < 48)
include h2 hl

omit hl in
/-- A poll of a ring leaves every other ring but the event ring. -/
theorem Dev.pollRing_other (j w : Nat) (hj : j < 48) (hij : i ≠ j) (l : List RxPost) : d.SameRing i (d.pollRing j w l) := by
  unfold Dev.pollRing
  dsimp only
  split
  · exact .refl i d
  · split
    · refine .trans ((d.haltRing_shows hj).1 i hij) ?_
      generalize d.haltRing j = x
      exact .trans (.bump i x _) ((Dev.EventOnly.violation _ _ _ _).sameRing h2)
    · split
      · exact ⟨Dev.ring_setRing_ne d _ hij, fun _ _ => rfl⟩
      · exact ⟨Dev.ring_setRing_ne d _ hij, fun _ _ => rfl⟩

/-- What a poll of a ring in use shows of it. -/
structure Dev.Polled (d e : Dev) (i v : Nat) : Prop where
  valid : (d.ring i).host ≤ v → v ≤ d.ringLimit i → (e.ring i).host = v ∧ e.ringLive i = true ∧
    (32 ≤ i → (e.ring i).posts.length = (d.ring i).posts.length + (v - (d.ring i).host))
  invalid : v < (d.ring i).host ∨ d.ringLimit i < v → (e.ring i).host = (d.ring i).host ∧ (e.ring i).halted = true

theorem Dev.pollRing_polled (hlive : d.ringLive i = true) : d.Polled (d.pollRing i v posts) i v := by
  have hhalt : (d.ring i).halted = false := by
    have hh := (Bool.and_eq_true_iff.mp hlive).2
    simpa using hh
  have hen : d.ringEn i = true := (Bool.and_eq_true_iff.mp hlive).1
  unfold Dev.pollRing
  dsimp only
  rw [if_neg (by rw [hlive]; decide)]
  by_cases hbad : v < (d.ring i).host ∨ d.ringLimit i < v
  · rw [if_pos hbad]
    obtain ⟨-, hring, -, -, -⟩ := d.haltRing_shows hl
    generalize d.haltRing i = x at hring ⊢
    have hev := Dev.EventOnly.violation (x.bump Cnt.vRingIndex) 0x50 i [(8, [byte i])]
    generalize (x.bump Cnt.vRingIndex).violation 0x50 i [(8, [byte i])] = e at hev ⊢
    have hr : e.ring i = { d.ring i with halted := true } := (hev.ring i h2).trans ((Dev.ring_bump ..).trans hring)
    refine ⟨fun h1 h3 => ?_, fun _ => ⟨by rw [hr], by rw [hr]⟩⟩
    rcases hbad with hb | hb
    · exact absurd h1 (Nat.not_le.mpr hb)
    · exact absurd h3 (Nat.not_le.mpr hb)
  · rw [if_neg hbad]
    have hlive' (r : Ring) (hr : r.halted = false) : (d.setRing i r).ringLive i = true := by
      refine Bool.and_eq_true_iff.mpr ⟨(d.setRing_ringEn i i r).trans hen, ?_⟩
      rw [Dev.ring_setRing_same, hr]
      rfl
    split
    · next hlt =>
      refine ⟨fun _ _ => ⟨?_, hlive' _ hhalt, fun h32 => absurd h32 (Nat.not_le.mpr hlt)⟩, fun h => absurd h hbad⟩
      rw [Dev.ring_setRing_same]
    · refine ⟨fun _ _ => ⟨?_, hlive' _ hhalt, fun _ => ?_⟩, fun h => absurd h hbad⟩
      · rw [Dev.ring_setRing_same]
      · rw [Dev.ring_setRing_same, List.length_append, List.length_append, List.length_take, List.length_replicate]
        omega

omit h2 hl in
/-- What a poll of a ring shows depends on the ring alone. -/
theorem Dev.Polled.of_same {d x y e : Dev} {i v : Nat} (hi : i < 48) (hx : d.SameRing i x) (h : x.Polled y i v)
    (he : y.SameRing i e) : d.Polled e i v where
  valid h1 h3 := by
    obtain ⟨hhost, hlive, hposts⟩ := h.valid (by rw [hx.ring]; exact h1) (by rw [hx.ringLimit hi]; exact h3)
    refine ⟨by rw [he.ring, hhost], (he.ringLive hi).trans hlive, fun h32 => ?_⟩
    rw [he.ring, hposts h32, hx.ring]
  invalid hb := by
    obtain ⟨hhost, hhalt⟩ := h.invalid (by rw [hx.ring, hx.ringLimit hi]; exact hb)
    exact ⟨by rw [he.ring, hhost, hx.ring], by rw [he.ring, hhalt]⟩

end

theorem Dev.pollRing_counter (d : Dev) (j w : Nat) (l : List RxPost) :
    (d.pollRing j w l).counter Cnt.dbPoll = d.counter Cnt.dbPoll := by
  unfold Dev.pollRing
  dsimp only
  split
  · rfl
  · split
    · have hhalt := d.haltRing_counter j Cnt.dbPoll
      generalize d.haltRing j = x at hhalt ⊢
      refine ((Dev.EventOnly.violation (x.bump Cnt.vRingIndex) _ _ _).counter _ (by decide) (by decide) (by decide)
        (by decide)).trans ?_
      exact ((Dev.counter_bumpBy ..).trans (if_neg (by decide))).trans hhalt
    · split
      · exact Dev.setRing_counter ..
      · exact Dev.setRing_counter ..

theorem Dev.pollRings_counter (p : Nat → Nat) (q : Nat → List RxPost) (l : List Nat) (d : Dev) :
    (l.foldl (fun d j => d.pollRing j (p j) (q j)) d).counter Cnt.dbPoll = d.counter Cnt.dbPoll := by
  induction l generalizing d with
  | nil => rfl
  | cons j t ih => exact (ih _).trans (Dev.pollRing_counter ..)

/-- Rings that are polled one after another: each other ring stays. -/
theorem Dev.pollRings_other (p : Nat → Nat) (q : Nat → List RxPost) {i : Nat} (h2 : i ≠ 2) (l : List Nat)
    (hb : ∀ j ∈ l, j < 48) (hi : i ∉ l) (d : Dev) : d.SameRing i (l.foldl (fun d j => d.pollRing j (p j) (q j)) d) := by
  induction l generalizing d with
  | nil => exact .refl i d
  | cons j t ih =>
    refine .trans ?_ (ih (fun k hk => hb k (List.mem_cons_of_mem j hk)) (fun h => hi (List.mem_cons_of_mem j h)) _)
    exact Dev.pollRing_other h2 j _ (hb j List.mem_cons_self) (fun h => hi (h ▸ List.mem_cons_self)) _

/-- Each ring in use of those polled is shown. -/
theorem Dev.pollRings_polled (p : Nat → Nat) (q : Nat → List RxPost) {i : Nat} (h2 : i ≠ 2) (hl : i < 48) (l : List Nat)
    (hb : ∀ j ∈ l, j < 48) (hn : l.Nodup) (hi : i ∈ l) (d : Dev) (hlive : d.ringLive i = true) :
    d.Polled (l.foldl (fun d j => d.pollRing j (p j) (q j)) d) i (p i) := by
  induction l generalizing d with
  | nil => exact absurd hi List.not_mem_nil
  | cons j t ih =>
    obtain ⟨hj, ht⟩ := List.nodup_cons.mp hn
    have hbt : ∀ k ∈ t, k < 48 := fun k hk => hb k (List.mem_cons_of_mem j hk)
    by_cases hij : i = j
    · subst hij
      exact .of_same hl (.refl i d) (Dev.pollRing_polled h2 hl hlive) (Dev.pollRings_other p q h2 t hbt hj _)
    · have hstep := Dev.pollRing_other (d := d) h2 j (p j) (hb j List.mem_cons_self) hij (q j)
      have hmem := (List.mem_cons.mp hi).resolve_left hij
      exact .of_same hl hstep (ih hbt ht hmem _ ((hstep.ringLive hl).trans hlive)) (.refl i _)

theorem mem_ringNumbers {i : Nat} (h : ringExists i = true) : i ∈ ringNumbers :=
  List.mem_filter.mpr ⟨List.mem_range.mpr (ringExists_lt h), h⟩

theorem ringNumbers_lt {j : Nat} (h : j ∈ ringNumbers) : j < 48 := List.mem_range.mp (List.mem_filter.mp h).1

theorem ringNumbers_nodup : ringNumbers.Nodup := List.nodup_range.filter _

/-- A poll of the doorbell page that falls due. -/
theorem Dev.doorbellPoll_of_due {d : Dev} (hup : d.mainUp = true) (hh : d.hosted = true) (ha : d.hif.attachDue = false)
    (hp : d.hif.polls < d.pollsPerSlot)
    (ht : d.tickTai d.tim.slotS + (2500000 * d.hif.polls + d.pollsPerSlot - 1 : Nat) / d.pollsPerSlot ≤ d.tai) (p : PollRead) :
    d.doorbellPoll p = ringNumbers.foldl (fun d i => d.pollRing i (p.words.getD (doorbellWord i) 0).toNat
        (p.posts.filter fun x => x.ring.val + 32 == i))
      (({ d with hif := { d.hif with polls := d.hif.polls + 1 } } : Dev).bump Cnt.dbPoll) := by
  unfold Dev.doorbellPoll
  rw [if_neg (by rw [hup, hh, ha, decide_eq_false (Nat.not_le.mpr hp)]; decide), Dev.dueTai_of_past ht]

/-! ## Moderated interrupts, status words and DMA errors -/

theorem Dev.msix_of_clear {d : Dev} {v : Nat} (h : (d.reg (Reg.msixTable v 3)).getLsbD 0 = false) :
    d.msix v = (d.out (.msix v)).bump Cnt.msixSent := if_neg (by rw [h]; decide)

theorem Dev.msix_of_masked {d : Dev} {v : Nat} (h : (d.reg (Reg.msixTable v 3)).getLsbD 0 = true) :
    d.msix v = d.setReg (Reg.msixPba 0) (d.reg (Reg.msixPba 0) ||| (1 <<< v)) := if_pos h

theorem Dev.moderationExpiry_of_reached {d e : Dev} {i : Nat} (hw : (d.ring i).modWait = true) (hup : d.mainUp = true)
    (he : d.reachCycle ((d.ring i).modFrom + cyclesPerUs * d.fld (Reg.hifRingCfg_mod_us i)) = some e) :
    d.moderationExpiry i = (e.setRing i { d.ring i with modWait := false }).msix (d.fld (Reg.hifRingCfg_vector i)) := by
  have hring : e.ring i = d.ring i := by
    have hhif : e.hif = d.hif := (congrArg Dev.hif (Dev.reachCycle_only he)).trans rfl
    exact Dev.ring_congr (congrArg Hif.rings hhif) i
  have hvec : e.fld (Reg.hifRingCfg_vector i) = d.fld (Reg.hifRingCfg_vector i) := Dev.fld_congr (Dev.reachCycle_frame he).1 _
  unfold Dev.moderationExpiry
  rw [if_neg (by rw [hw, hup]; decide), Dev.due_of_reached he, hring, hvec]

theorem Dev.statusUpdate_of_only {d : Dev} {op : Half} {r : Running} (hr : d.hif.runs = [r]) (ho : r.cmd.opcode = op)
    (hl : r.long = true) (ha : r.cmd.hdr.statusAddr ≠ 0) (he : r.cmd.epoch = d.hif.epoch) (hh : d.hosted = true) :
    d.statusUpdate op = { d.out (.hostWrite r.cmd.hdr.statusAddr.toNat (statusWord { r with upd := r.upd + 1 } stInProgress)) with
      hif := { d.hif with runs := [{ r with upd := r.upd + 1 }] } } := by
  have hfind : d.runningOp op = some r := by
    unfold Dev.runningOp
    rw [hr, List.find?_cons_of_pos (by rw [ho]; exact beq_self_eq_true op)]
  have hwrite : d.writeStatus r stInProgress = ({ r with upd := r.upd + 1 },
      d.out (.hostWrite r.cmd.hdr.statusAddr.toNat (statusWord { r with upd := r.upd + 1 } stInProgress))) := by
    unfold Dev.writeStatus Dev.hostWrite
    dsimp only
    rw [if_neg (not_or.mpr ⟨ha, by simp [hl, he]⟩), if_pos hh]
  have hruns : (d.out (.hostWrite r.cmd.hdr.statusAddr.toNat (statusWord { r with upd := r.upd + 1 } stInProgress))).hif = d.hif := rfl
  unfold Dev.statusUpdate
  rw [hfind]
  dsimp only
  rw [hwrite]
  dsimp only
  rw [hruns, hr, List.map_cons, List.map_nil, if_pos rfl]

/-- A DMA error halts its ring. -/
theorem Dev.ringDmaError_shows (d : Dev) {i : Nat} (hi : i < 48) :
    let e := d.ringDmaError i
    (e.ring i).halted = true ∧ e.bit (Reg.hifRingStat_err i) = true ∧ e.bit Reg.hifStat_dma_err = true ∧
      e.bit Reg.hifStat_ring_err = true ∧ e.counter Cnt.vDmaError = d.counter Cnt.vDmaError + 1 := by
  intro e
  obtain ⟨-, hring, -, herr, hrerr⟩ := d.haltRing_shows hi
  have hcnt := d.haltRing_counter i Cnt.vDmaError
  have hev : (((d.haltRing i).raise Reg.hifStat_dma_err).bump Cnt.vDmaError).EventOnly e := .violation ..
  clear_value e
  generalize d.haltRing i = x at *
  refine ⟨(hev.halted i).trans (congrArg Ring.halted ((Dev.ring_bump ..).trans ((Dev.ring_raise ..).trans hring))), (hev.err i hi).trans ?_, hev.dmaErr.trans ((Dev.bit_bump ..).trans (Dev.bit_raise_self x _)),
    hev.ringErr.trans ?_, (hev.counter _ (by decide) (by decide) (by decide) (by decide)).trans ?_⟩
  · have hne : Reg.hifRingStat i ≠ Reg.hifStat := by
      unfold Reg.hifRingStat Reg.hifStat
      omega
    exact (Dev.bit_bump ..).trans ((Dev.bit_of_reg (Dev.reg_setFld_of_ne x Reg.hifStat_dma_err _ 1 hne)).trans herr)
  · exact (Dev.bit_bump ..).trans
      ((Dev.bit_setFld_of_separate x Reg.hifStat_dma_err Reg.hifStat_ring_err 1 (by decide)).trans hrerr)
  · exact (Dev.counter_bumpBy (x.raise Reg.hifStat_dma_err) Cnt.vDmaError Cnt.vDmaError 1).trans
      ((if_pos rfl).trans (congrArg (· + 1) ((Dev.counter_raise ..).trans hcnt)))

/-! ## TX descriptors -/

section
variable {d e : Dev} {t : Fin 16} {k : Nat} (hh : d.hosted = true) (hf : d.hif.fetchStop = false)
  (hl : d.ringLive (16 + t.val) = true) (hlt : (d.ring (16 + t.val)).dev < (d.ring (16 + t.val)).host) (hw : d.hif.txWait = [])
  (hk : k = (d.ring (16 + t.val)).dev)
  (he : e = (d.setRingDev (16 + t.val) (k + 1)).setRing (16 + t.val)
    { d.ring (16 + t.val) with dev := k + 1, back := (d.ring (16 + t.val)).back ++ [k] }) (desc : List Byte)
include hh hf hl hlt hw hk he

theorem Dev.txDescriptor_refused (ho : e.txOk desc = false) (p : HostRead) :
    d.txDescriptor t desc p = (e.txDone t k e.hif.epoch stBadParam 0).txViolation t := by
  unfold Dev.txDescriptor
  dsimp only
  rw [hh, if_pos rfl, hf, hl, decide_eq_true hlt, hw, if_neg (by exact Bool.false_ne_true), if_pos rfl, if_pos rfl, ← hk, ← he,
    ho, if_pos (by decide)]

theorem Dev.txDescriptor_unread (ho : e.txOk desc = true) : d.txDescriptor t desc .err = e.ringDmaError (16 + t.val) := by
  unfold Dev.txDescriptor
  dsimp only
  rw [hh, if_pos rfl, hf, hl, decide_eq_true hlt, hw, if_neg (by exact Bool.false_ne_true), if_pos rfl, if_pos rfl, ← hk, ← he,
    ho, if_neg (by decide)]

theorem Dev.txDescriptor_read (ho : e.txOk desc = true) (b : List Byte) : d.txDescriptor t desc (.ok b) =
    if leAt desc 10 1 / 16 = 0 then
      e.txFrame t k (leAt desc 11 1 / 64) (leAt desc 11 1 % 8)
        (if (leAt desc 10 1).testBit 3 then some (BitVec.ofNat 16 (leAt desc 12 4 / 65536)) else none) (fit (leAt desc 8 2) b)
    else e.txDownlink t k desc (fit (leAt desc 8 2) b) := by
  unfold Dev.txDescriptor
  dsimp only
  rw [hh, if_pos rfl, hf, hl, decide_eq_true hlt, hw, if_neg (by exact Bool.false_ne_true), if_pos rfl, if_pos rfl, ← hk, ← he,
    ho, if_neg (by decide)]

end

theorem Up.operates_of_hosted {s : State} (hup : Up s) (h : s.dev.devState = dsHosted) : Operates s := by
  refine ⟨hup.1, Bool.and_eq_true_iff.mpr ⟨hup.2, ?_⟩⟩
  unfold Dev.operating
  rw [h]
  decide

theorem Dev.txOk_congr {d e : Dev} (hr : ∀ p, e.maxLen p = d.maxLen p) (hp : e.pairOn = d.pairOn) (desc : List Byte) :
    e.txOk desc = d.txOk desc := by
  unfold Dev.txOk
  rw [hr, hr, hp]

/-- Settles O51. -/
theorem ringEvents : Obligations.RingEvents := by
  unfold Obligations.RingEvents
  intro s hup hst
  have hh : s.dev.hosted = true := beq_iff_eq.mpr hst
  have hop := hup.operates_of_hosted hst
  refine ⟨fun p ha hp ht => ?_, fun t desc u hf hl hlt hw => ?_, fun i hw => ?_, fun op r hr ho hl ha he => ?_, fun i hi hl => ?_⟩
  · have hd := Dev.doorbellPoll_of_due hup.2 hh ha hp ht p
    generalize hx : (({ s.dev with hif := { s.dev.hif with polls := s.dev.hif.polls + 1 } } : Dev).bump Cnt.dbPoll) = x at hd
    have hsame (i : Nat) : s.dev.SameRing i x :=
      hx ▸ .trans (b := { s.dev with hif := { s.dev.hif with polls := s.dev.hif.polls + 1 } })
        ⟨Dev.ring_congr rfl i, fun _ _ => rfl⟩ (.bump i _ _)
    have hcnt : x.counter Cnt.dbPoll = s.dev.counter Cnt.dbPoll + 1 := by
      rw [← hx]
      exact (Dev.counter_bumpBy ..).trans (if_pos rfl)
    refine ⟨_, .of_runUp hup rfl hd, (Dev.pollRings_counter ..).trans hcnt, fun i hi h2 hl => ?_⟩
    intro v
    have hi48 := ringExists_lt hi
    have hp := Dev.pollRings_polled (fun i => (p.words.getD (doorbellWord i) 0).toNat)
      (fun i => p.posts.filter fun x => x.ring.val + 32 == i) h2 hi48 ringNumbers (fun _ => ringNumbers_lt) ringNumbers_nodup
      (mem_ringNumbers hi) x (((hsame i).ringLive hi48).trans hl)
    have hq := Dev.Polled.of_same hi48 (hsame i) hp (.refl i _)
    exact ⟨hq.valid, hq.invalid⟩
  · intro i k m e
    have hstep {p : HostRead} {x : Dev} (h : (s.dev.withUpsets u).txDescriptor t desc p = x) :
        Gives (.txDescriptor t desc p u) s x := .of_runOp hop rfl h
    obtain ⟨x, hx⟩ : ∃ x, s.dev.withUpsets u = x := ⟨_, rfl⟩
    have hxr : x.ring i = s.dev.ring i := hx ▸ Dev.ring_congr (d := s.dev) (e := s.dev.withUpsets u) rfl i
    have hxregs : x.regs = s.dev.regs := hx ▸ rfl
    have hxhif : x.hif = s.dev.hif := hx ▸ rfl
    have hxeth : x.eth = s.dev.eth := hx ▸ rfl
    have he : e = (x.setRingDev i (k + 1)).setRing i { x.ring i with dev := k + 1, back := (x.ring i).back ++ [k] } := by
      rw [hxr, ← hx]
    have hxl : x.ringLive i = true := by
      unfold Dev.ringLive Dev.ringEn
      rw [hxr, Dev.bit_congr hxregs]
      exact hl
    have hxh : x.hosted = true := by
      unfold Dev.hosted Dev.devState
      rw [Dev.fld_congr hxregs]
      exact hh
    have hok : e.txOk desc = s.dev.txOk desc := by
      have hreg (a : Nat) (ha : 0x300000 ≤ a) : e.reg a = s.dev.reg a := by
        rw [he]
        refine (Dev.reg_setFld_of_ne (x.setRing i { x.ring i with dev := k + 1 }) (Reg.hifRingStat_idx i) a (k + 1) ?_).trans ?_
        · show a ≠ Reg.hifRingStat i
          unfold Reg.hifRingStat
          omega
        · exact Dev.reg_congr hxregs a
      have heth : e.eth = s.dev.eth := by
        rw [he]
        exact hxeth
      refine Dev.txOk_congr (fun p => ?_) ?_ desc
      · exact congrArg (fun w => clampNat 1518 9216 ((Reg.ethCfg_maxlen p).of w)) (hreg _ (Nat.le_add_right _ _))
      · unfold Dev.pairOn Dev.pairWord
        rw [heth, hreg _ (by decide)]
    rw [hx] at hstep
    clear_value e
    refine ⟨fun ho b => hstep ?_, fun ho => ⟨hstep ?_, fun b hk => hstep ?_, fun b hk => hstep ?_⟩⟩
    · exact Dev.txDescriptor_refused hxh (hxhif ▸ hf) hxl (hxr ▸ hlt) (hxhif ▸ hw) (hxr ▸ rfl) he desc (hok.trans ho) b
    · exact Dev.txDescriptor_unread hxh (hxhif ▸ hf) hxl (hxr ▸ hlt) (hxhif ▸ hw) (hxr ▸ rfl) he desc (hok.trans ho)
    · exact (Dev.txDescriptor_read hxh (hxhif ▸ hf) hxl (hxr ▸ hlt) (hxhif ▸ hw) (hxr ▸ rfl) he desc (hok.trans ho) b).trans
        (if_pos hk)
    · exact (Dev.txDescriptor_read hxh (hxhif ▸ hf) hxl (hxr ▸ hlt) (hxhif ▸ hw) (hxr ▸ rfl) he desc (hok.trans ho) b).trans
        (if_neg (by rw [hk]; decide))
  · intro c v
    refine ⟨fun hnone => .of_runUp hup rfl ?_, fun e he => ?_⟩
    · exact (if_neg (by rw [hw, hup.2]; decide)).trans (Dev.due_of_unreached hnone _)
    · intro d
      have hd : s.dev.moderationExpiry i = d.msix v := Dev.moderationExpiry_of_reached hw hup.2 he
      have hreg (a : Nat) : d.reg a = s.dev.reg a := Dev.reg_congr (e := e) (Dev.reachCycle_frame he).1 a
      refine ⟨fun h => .of_runUp hup rfl (hd.trans (Dev.msix_of_clear ?_)), fun h => .of_runUp hup rfl (hd.trans ?_)⟩
      · rw [hreg]
        exact h
      · rw [Dev.msix_of_masked (by rw [hreg]; exact h), hreg]
  · exact .of_runOp hop rfl (Dev.statusUpdate_of_only hr ho hl ha he hh)
  · have hd : s.dev.dmaError i = s.dev.ringDmaError i := if_pos (by rw [hh, hup.2, hi, hl]; decide)
    exact ⟨_, .of_runUp hup rfl hd, Dev.ringDmaError_shows s.dev (ringExists_lt hi)⟩

end Sys2Proof.Machine
end

section
/-! # What PPL and egress leave of the counts of bad frames -/

namespace Sys2Proof.Machine

/-- The counts of oversize frames, FCS errors and code errors of the two ports (Table 9.2). -/
def rxErrCnts : List Nat := [0x283, 0x284, 0x285, 0x2A3, 0x2A4, 0x2A5]

theorem rxOversize_mem (p : PortId) : Cnt.rxOversize p ∈ rxErrCnts := by revert p; decide
theorem rxCodeErr_mem (p : PortId) : Cnt.rxCodeErr p ∈ rxErrCnts := by revert p; decide
theorem rxFcsErr_mem (p : PortId) : Cnt.rxFcsErr p ∈ rxErrCnts := by revert p; decide

/-- The counts of bad frames are the same. -/
def Dev.RxKept (d e : Dev) : Prop := ∀ c ∈ rxErrCnts, e.counter c = d.counter c

theorem Dev.RxKept.refl (d : Dev) : d.RxKept d := fun _ _ => rfl

theorem Dev.RxKept.trans {a b c : Dev} (h : a.RxKept b) (k : b.RxKept c) : a.RxKept c :=
  fun x hx => (k x hx).trans (h x hx)

theorem Dev.RxKept.of_same {d e : Dev} (h : e.counters = d.counters) : d.RxKept e := fun c _ => Dev.counter_congr h c

theorem Dev.RxKept.bumpBy (d : Dev) {c : Nat} (n : Nat) (h : c ∉ rxErrCnts) : d.RxKept (d.bumpBy c n) :=
  fun i hi => (Dev.counter_bumpBy ..).trans (if_neg fun hic => h (by rw [← hic]; exact hi))

theorem Dev.RxKept.bump (d : Dev) {c : Nat} (h : c ∉ rxErrCnts) : d.RxKept (d.bump c) := .bumpBy d 1 h

theorem Dev.RxKept.foldl {α : Type} {f : Dev → α → Dev} (hf : ∀ (d : Dev) a, d.RxKept (f d a)) (l : List α) (d : Dev) :
    d.RxKept (l.foldl f d) := by
  induction l generalizing d with
  | nil => exact .refl d
  | cons a t ih => exact (hf d a).trans (ih _)

theorem rxErrCnts_outside {c : Nat} (h : c ∈ rxErrCnts) : ¬ bookCnt c := by
  revert c
  unfold bookCnt
  decide

theorem Dev.Book.rxKept {d e : Dev} (h : d.Book e) : d.RxKept e := fun c hc => h.counter c (rxErrCnts_outside hc)

/-! ## The lookups -/

theorem Dev.RxKept.showFill (d : Dev) : d.RxKept d.showFill := .of_same rfl

theorem Dev.RxKept.setMac (d : Dev) (k : Nat) (e : Option MacEntry) : d.RxKept (d.setMac k e) := .of_same rfl
theorem Dev.RxKept.setIp6 (d : Dev) (k : Nat) (e : Option Ip6Entry) : d.RxKept (d.setIp6 k e) := .of_same rfl
theorem Dev.RxKept.setPfx (d : Dev) (k : Nat) (e : Option PfxEntry) : d.RxKept (d.setPfx k e) := .of_same rfl
theorem Dev.RxKept.setServer (d : Dev) (k : Nat) (e : Option ServerEntry) : d.RxKept (d.setServer k e) := .of_same rfl

theorem Dev.RxKept.upset (d : Dev) (t : Fin 5) : d.RxKept (d.upset t).1 := by
  unfold Dev.upset
  split
  · exact .of_same rfl
  · exact .refl d

theorem Dev.RxKept.parityFail (d : Dev) (t : Fin 5) (i : Nat) : d.RxKept (d.parityFail t i) := by
  unfold Dev.parityFail
  refine .trans ?_ (Dev.Book.event _ _ _ _).rxKept
  exact .trans (.bump d (by revert t; decide)) (.of_same rfl)

theorem Dev.RxKept.restoreMac (d : Dev) : d.RxKept d.restoreMac :=
  .trans (b := { d with fwd := { d.fwd with lostMac := [] } }) (.of_same rfl) (.foldl (fun _ _ => .setMac _ _ _) _ _)

theorem Dev.RxKept.restoreIp6 (d : Dev) : d.RxKept d.restoreIp6 :=
  .trans (b := { d with fwd := { d.fwd with lostIp6 := [] } }) (.of_same rfl) (.foldl (fun _ _ => .setIp6 _ _ _) _ _)

theorem Dev.RxKept.restoreServer (d : Dev) : d.RxKept d.restoreServer :=
  .trans (b := { d with fwd := { d.fwd with lostSrv := [] } }) (.of_same rfl) (.foldl (fun _ _ => .setServer _ _ _) _ _)

theorem Dev.RxKept.ite {d a b : Dev} {c : Prop} [Decidable c] (ha : d.RxKept a) (hb : d.RxKept b) : d.RxKept (if c then a else b) := by
  split
  · exact ha
  · exact hb

theorem Dev.RxKept.macLookup (d : Dev) (mac : BitVec 48) (vid : BitVec 12) : d.RxKept (d.macLookup mac vid).1 := by
  unfold Dev.macLookup
  refine .trans (.restoreMac d) ?_
  generalize d.restoreMac = x
  dsimp only
  split
  · exact .refl x
  · split
    · exact .refl x
    · have hu := Dev.RxKept.upset x 0
      generalize x.upset 0 = u at hu ⊢
      split
      · refine .trans ?_ (.parityFail _ _ _)
        refine hu.trans (.of_same ?_)
        split
        · rfl
        · rfl
      · exact .setMac _ _ _

theorem Dev.RxKept.ip6Lookup (d : Dev) (a : BitVec 128) : d.RxKept (d.ip6Lookup a).1 := by
  unfold Dev.ip6Lookup
  refine .trans (.restoreIp6 d) ?_
  generalize d.restoreIp6 = x
  dsimp only
  split
  · exact .refl x
  · split
    · exact .refl x
    · have hu := Dev.RxKept.upset x 1
      generalize x.upset 1 = u at hu ⊢
      split
      · refine .trans ?_ (.parityFail _ _ _)
        refine hu.trans (.of_same ?_)
        split
        · rfl
        · rfl
      · exact .setIp6 _ _ _

theorem Dev.RxKept.pfxLookup (d : Dev) (a : BitVec 128) : d.RxKept (d.pfxLookup a).1 := by
  unfold Dev.pfxLookup
  split
  · exact .refl d
  · have hu := Dev.RxKept.upset d 2
    generalize d.upset 2 = u at hu ⊢
    dsimp only
    split
    · exact hu.trans (.trans (.setPfx _ _ _) (.parityFail _ _ _))
    · exact .refl d

theorem Dev.RxKept.serverLookup (d : Dev) (n : Nat) : d.RxKept (d.serverLookup n).1 := by
  unfold Dev.serverLookup
  refine .trans (.restoreServer d) ?_
  generalize d.restoreServer = x
  dsimp only
  split
  · exact .refl x
  · have hu := Dev.RxKept.upset x 4
    generalize x.upset 4 = u at hu ⊢
    split
    · refine .trans ?_ (.parityFail _ _ _)
      exact hu.trans (.of_same rfl)
    · exact .refl x

theorem Dev.RxKept.sensorLookup (d : Dev) (addr : BitVec 24) : d.RxKept (d.sensorLookup addr).1 := by
  unfold Dev.sensorLookup
  split
  · exact .refl d
  · next k e _ =>
    have hc : d.RxKept (d.cacheSensor k e) := .of_same rfl
    have hu := Dev.RxKept.upset (d.cacheSensor k e) 3
    dsimp only
    generalize (d.cacheSensor k e).upset 3 = u at hu ⊢
    split
    · refine hc.trans (hu.trans (.trans (.parityFail u.1 3 k) ?_))
      dsimp only
      split
      · exact .of_same rfl
      · exact .refl _
    · exact hc

theorem Dev.RxKept.lookups (d : Dev) (dst : List Byte) : d.RxKept (d.lookups dst).1 :=
  .trans (.ip6Lookup d _) (.pfxLookup _ _)

theorem rule_not_mem (a : BitVec 64) : Cnt.rule (actCounter a) ∉ rxErrCnts := by
  have h : actCounter a < 128 := Nat.mod_lt _ (by decide)
  unfold Cnt.rule rxErrCnts
  simp only [List.mem_cons, List.not_mem_nil, or_false, not_or]
  omega

theorem Dev.RxKept.classify (d : Dev) (ver : Nat) (k : MsgKey) (l : List Byte) : d.RxKept (d.classify ver k l).1 := by
  unfold Dev.classify
  split
  · exact .refl d
  · exact .ite (.bump d (rule_not_mem _)) (.refl d)

theorem Dev.RxKept.routeFrom (d : Dev) (dst : List Byte) (first : Option Ip6Entry) (pfx : Option PfxEntry) :
    d.RxKept (d.routeFrom dst first pfx).1 := by
  unfold Dev.routeFrom
  split
  · exact .refl d
  · exact .bump d (by decide)
  · dsimp only
    split
    · exact .ip6Lookup d _
    · exact .trans (.ip6Lookup d _) (.bump _ (by decide))

/-! ## The copies that PPL makes -/

/-- Is a copy one for a port? -/
def Deliver.isPort : Deliver → Bool
  | .port _ _ _ => true
  | _ => false

/-- Where PPL makes a copy for a port, the counts of bad frames are the same. -/
def Dev.PortKept (d : Dev) (o : Dev × List Deliver) : Prop := (∃ x ∈ o.2, x.isPort = true) → d.RxKept o.1

theorem Dev.PortKept.of_kept {d : Dev} {o : Dev × List Deliver} (h : d.RxKept o.1) : d.PortKept o := fun _ => h

theorem Dev.PortKept.of_none {d : Dev} {o : Dev × List Deliver} (h : o.2.all (fun x => !x.isPort) = true) : d.PortKept o := by
  rintro ⟨x, hx, hp⟩
  have hn := List.all_eq_true.mp h x hx
  rw [hp] at hn
  exact nomatch hn

theorem Dev.PortKept.after {d e : Dev} {o : Dev × List Deliver} (h : d.RxKept e) (k : e.PortKept o) : d.PortKept o :=
  fun hx => h.trans (k hx)

/-- A mirror copy goes to a ring. -/
theorem Dev.PortKept.mirror {d : Dev} {o : Dev × List Deliver} (h : d.PortKept o) (m : Msg) (a : BitVec 64) (rule : Nat) :
    d.PortKept (o.1, mirrorOf m a rule ++ o.2) := by
  rintro ⟨x, hx, hp⟩
  refine h ⟨x, (List.mem_append.mp hx).resolve_left fun hm => ?_, hp⟩
  unfold mirrorOf at hm
  split at hm
  · rw [List.mem_singleton.mp hm] at hp
    exact nomatch hp
  · exact List.not_mem_nil hm

theorem Dev.PortKept.ringCopy (d : Dev) (m : Msg) (n reason rule : Nat) : d.PortKept (d.ringCopy m n reason rule) := by
  unfold Dev.ringCopy
  split
  · exact .of_none rfl
  · exact .of_none rfl

theorem Dev.PortKept.sendDatagram (d : Dev) (m : Msg) (a : BitVec 64) (rule : Nat) (dst : List Byte) (port : Nat) :
    d.PortKept (d.sendDatagram m a rule dst port) := by
  unfold Dev.sendDatagram
  dsimp only
  refine .after (.lookups d dst) ?_
  generalize d.lookups dst = l
  refine .after (.routeFrom l.1 dst l.2.1 l.2.2) ?_
  generalize l.1.routeFrom dst l.2.1 l.2.2 = r
  split
  · exact .of_none rfl
  · exact .of_none rfl
  · split
    · exact .of_none rfl
    · split
      · exact .of_none rfl
      · exact .of_kept (Dev.RxKept.bump r.1 (c := Cnt.routed) (by decide))

theorem Dev.PortKept.bluaneTo (d : Dev) (m : Msg) (a : BitVec 64) (rule : Nat) (t : Target) : d.PortKept (d.bluaneTo m a rule t) := by
  unfold Dev.bluaneTo
  dsimp only
  split
  · exact .of_none rfl
  · exact .of_none rfl
  · next n =>
    split
    · exact .of_none rfl
    · refine .after (.serverLookup d n) ?_
      generalize d.serverLookup n = o
      split
      · exact .of_none rfl
      · exact .sendDatagram _ _ _ _ _ _
  · split
    · exact .of_none rfl
    · exact .of_none rfl

theorem Dev.PortKept.refuseDl (d : Dev) (x : Downlink) : d.PortKept (d.refuseDl x) := by
  unfold Dev.refuseDl
  split
  · exact .of_none rfl
  · exact .of_none rfl

theorem Dev.PortKept.takeDownlink (d : Dev) (m : Msg) (x : Downlink) (entry : Option SensorEntry) :
    d.PortKept (d.takeDownlink m x entry) := by
  have hrefuse (e : Dev) : (e.refuseDl x).2.all (fun x => !x.isPort) = true := by
    unfold Dev.refuseDl
    split
    · rfl
    · rfl
  unfold Dev.takeDownlink
  extract_lets max joinRsp
  split
  · exact .of_none (hrefuse _)
  · split
    · split
      · exact .of_none (hrefuse _)
      · exact .of_none rfl
    · split
      · split
        · exact .of_none rfl
        · exact .of_none (hrefuse _)
      · split
        · exact .of_none rfl
        · split
          · exact .of_none rfl
          · exact .of_none rfl

theorem Dev.PortKept.terminate (d : Dev) (m : Msg) (good : Bool) (origin : DlOrigin) (entry : Option SensorEntry) :
    d.PortKept (d.terminate m good origin entry) := by
  unfold Dev.terminate
  dsimp only
  split
  · exact .of_none rfl
  · exact .takeDownlink _ _ _ _

theorem Dev.PortKept.bridge (d : Dev) (m : Msg) (p : Parsed) (a : BitVec 64) (rule : Nat) (inPort : Option PortId) :
    d.PortKept (d.bridge m p a rule inPort) := by
  unfold Dev.bridge
  refine .after (.macLookup d (BitVec.ofNat 48 p.dmac) (BitVec.ofNat 12 p.vidO)) ?_
  generalize d.macLookup (BitVec.ofNat 48 p.dmac) (BitVec.ofNat 12 p.vidO) = o
  dsimp only
  split
  · split
    · exact .of_none rfl
    · exact .of_kept (Dev.RxKept.bump _ (by decide))
  · split
    · exact .ringCopy _ _ _ _ _
    · generalize (if o.1.pairOn = true then 2 else _) = x
      split
      · exact .ringCopy _ _ _ _ _
      · split
        · exact .of_none rfl
        · exact .of_kept (Dev.RxKept.bump _ (by decide))

theorem Dev.PortKept.route (d : Dev) (m : Msg) (p : Parsed) (a : BitVec 64) (rule : Nat) (exact : Option Ip6Entry)
    (pfx : Option PfxEntry) : d.PortKept (d.route m p a rule exact pfx) := by
  unfold Dev.route
  split
  · exact .of_none rfl
  · split
    · exact .of_none rfl
    · refine .after (.routeFrom d p.dst exact pfx) ?_
      generalize d.routeFrom p.dst exact pfx = r
      dsimp only
      split
      · exact .of_none rfl
      · exact .of_none rfl
      · split
        · exact .of_none rfl
        · generalize (if r.1.pairOn = true then 2 else _) = x
          split
          · exact .of_none rfl
          · exact .of_kept (Dev.RxKept.bump _ (by decide))

theorem Dev.RxKept.ringCopy (d : Dev) (m : Msg) (n reason rule : Nat) : d.RxKept (d.ringCopy m n reason rule).1 := by
  unfold Dev.ringCopy
  split
  · exact .bump d (by decide)
  · exact .refl d

theorem Dev.PortKept.frameDefault (d : Dev) (m : Msg) (p : Parsed) (a : BitVec 64) (rule : Nat) (inPort : Option PortId)
    (exact : Option Ip6Entry) (pfx : Option PfxEntry) (entry : Option SensorEntry) :
    d.PortKept (d.frameDefault m p a rule inPort exact pfx entry) := by
  unfold Dev.frameDefault
  dsimp only
  generalize (if d.dmacClass p.dmac = 0 ∨ d.dmacClass p.dmac = 2 then p.ptpOff else none) = ptp
  cases ptp with
  | some o =>
    dsimp only
    split
    · exact .of_none rfl
    · exact .of_kept (.refl d)
  | none =>
    dsimp only
    split
    · split
      · exact .of_none rfl
      · exact .after (.bump d (by decide)) (.terminate _ _ _ _ _)
    · split
      · split
        · exact .route _ _ _ _ _ _ _
        · exact .ringCopy _ _ _ _ _
      · split
        · exact .bridge _ _ _ _ _ _
        · have hr : d.RxKept (if d.bit Reg.pplCfg_bcast_host = true then d.ringCopy m d.ctrlRing 0 rule else (d, [])).1 := by
            split
            · exact .ringCopy _ _ _ _ _
            · exact .refl d
          generalize (if d.bit Reg.pplCfg_bcast_host = true then d.ringCopy m d.ctrlRing 0 rule else (d, [])) = x at hr ⊢
          exact .of_kept (hr.trans (.ite (.bump _ (by decide)) (.refl _)))

theorem Dev.PortKept.frameTo (d : Dev) (m : Msg) (p : Parsed) (a : BitVec 64) (rule : Nat) (t : Target) :
    d.PortKept (d.frameTo m p a rule t) := by
  unfold Dev.frameTo
  split
  · exact .ringCopy _ _ _ _ _
  · exact .of_kept (.refl d)
  · exact .ringCopy _ _ _ _ _
  · exact .ringCopy _ _ _ _ _

/-- A frame in PPL from which no table learns. -/
theorem Dev.PortKept.pplFrame (d : Dev) (m : Msg) (inPort : Option PortId) (named : Option (Nat × Nat)) :
    d.PortKept (d.pplFrame m inPort named fun d _ => d) := by
  unfold Dev.pplFrame
  extract_lets o d1 m1 p d2 l d3 dcls pcls isEnc h e d4 key c d5 rule a d6 src hash out
  have h1 : d.RxKept d1 := .bump d (by decide)
  have h2 : d1.RxKept d2 := by
    show d1.RxKept (if _ then _ else _)
    exact .ite (.bump d1 (by decide)) (.refl d1)
  have h3 : d2.RxKept d3 := by
    show d2.RxKept (if _ then _ else _ : Dev × _).1
    split
    · exact .lookups d2 _
    · exact .refl d2
  have h4 : d3.RxKept d4 := by
    show d3.RxKept (if _ then _ else _ : Dev × _).1
    split
    · exact .sensorLookup d3 _
    · exact .refl d3
  have h5 : d4.RxKept d5 := .classify d4 _ _ _
  have h6 : d5.RxKept d6 := by
    show d5.RxKept (if _ then _ else _)
    exact .ite (.refl d5) (.refl d5)
  have hout : d6.PortKept out := by
    show d6.PortKept (if _ then _ else _)
    split
    · exact .of_none rfl
    · split
      · split
        · exact .of_none rfl
        · split
          · exact .bluaneTo _ _ _ _ _
          · exact .frameTo _ _ _ _ _ _
      · split
        · exact .of_kept (.refl d6)
        · exact .frameDefault _ _ _ _ _ _ _ _ _
  exact .mirror (.after (h1.trans (h2.trans (h3.trans (h4.trans (h5.trans h6))))) hout) _ _ _

/-! ## A frame that starts on a port -/

theorem Dev.RxKept.modPort (d : Dev) (p : PortId) (f : EthPort → EthPort) : d.RxKept (d.modPort p f) :=
  .of_same (d.modPort_counters p f)

theorem Dev.RxKept.stampPut (d : Dev) (p : PortId) (id : BitVec 16) (t : Int) : d.RxKept (d.stampPut p id t).1 := by
  unfold Dev.stampPut
  dsimp only
  generalize (if p = 0 then d.tim.stamps0 else d.tim.stamps1) = l
  split
  · exact .trans (.bump d (by decide)) (.of_same rfl)
  · dsimp only
    exact .ite (.of_same rfl) (.of_same rfl)

theorem Dev.RxKept.ownSent (d : Dev) (p : PortId) (f : EgFrame) (t : Int) : d.RxKept (d.ownSent p f t) := by
  unfold Dev.ownSent
  split
  · exact .refl d
  · dsimp only
    generalize (if p = 0 then d.tim.stamps0 else d.tim.stamps1) = l
    split
    · exact .stampPut _ _ _ _
    · split
      · exact .of_same rfl
      · unfold Dev.setPtp
        exact .ite (.of_same rfl) (.of_same rfl)

theorem Dev.RxKept.txBegin (d : Dev) (p : PortId) (q : Nat) (f : EgFrame) : d.RxKept (d.txBegin p q f) := by
  unfold Dev.txBegin
  extract_lets x d1 t b d2 d3 d4
  have h1 : d.RxKept d1 := by
    show d.RxKept (if _ then _ else _)
    exact .ite (.modPort d p _) (.refl d)
  have h2 : d1.RxKept d2 := by
    show d1.RxKept (if _ then _ else _)
    exact .ite (.bump d1 (by decide)) (.refl d1)
  have h3 : d2.RxKept d3 := .trans (.modPort d2 p _) (.modPort _ p _)
  have h4 : d3.RxKept d4 := by
    show d3.RxKept (match f.tsId with | some _ => _ | none => _)
    split
    · exact .stampPut _ _ _ _
    · exact .refl d3
  exact h1.trans (h2.trans (h3.trans (h4.trans (.ownSent _ _ _ _))))

theorem Dev.RxKept.cutThrough (d : Dev) (x q : Nat) (f : EgFrame) (bad : Bool) : d.RxKept (d.cutThrough x q f bad) := by
  unfold Dev.cutThrough
  dsimp only
  generalize d.outPort x f.pick = o
  exact .trans (.bump d (by revert o; decide)) (.txBegin _ _ _ _)

end Sys2Proof.Machine
end

section
/-! # Frames received, and pause -/

namespace Sys2Proof.Machine

/-! ## Changes of a port -/

theorem Dev.port_modPort_self (d : Dev) (p : PortId) (f : EthPort → EthPort) : (d.modPort p f).port p = f (d.port p) := by
  unfold Dev.modPort
  rw [Dev.port_setPort, if_pos rfl]

theorem Dev.modPort_modPort (d : Dev) (p : PortId) (f g : EthPort → EthPort) :
    (d.modPort p f).modPort p g = d.modPort p fun x => g (f x) :=
  match p with
  | 0 => rfl
  | 1 => rfl

theorem Dev.setBit_modPort (d : Dev) (p : PortId) (g : EthPort → EthPort) (f : Field) (b : Bool) :
    (d.modPort p g).setBit f b = (d.setBit f b).modPort p g :=
  match p with
  | 0 => rfl
  | 1 => rfl

theorem Dev.bit_modPort (d : Dev) (p : PortId) (g : EthPort → EthPort) (f : Field) : (d.modPort p g).bit f = d.bit f :=
  Dev.bit_congr (d.modPort_regs p g) f

theorem Dev.fld_modPort (d : Dev) (p : PortId) (g : EthPort → EthPort) (f : Field) : (d.modPort p g).fld f = d.fld f :=
  Dev.fld_congr (d.modPort_regs p g) f

/-! ## Bad frames -/

/-- The payload that the patterns search depends on registers alone. -/
theorem Dev.classifiedEarly_congr {d e : Dev} (h : e.regs = d.regs) (b : List Byte) : e.classifiedEarly b = d.classifiedEarly b := by
  unfold Dev.classifiedEarly Dev.payloadOf Dev.hasEncap Dev.ownIp
  simp only [Dev.reg_congr h, Dev.fld_congr h]

theorem Dev.maxLen_congr {d e : Dev} (h : e.regs = d.regs) (p : PortId) : e.maxLen p = d.maxLen p :=
  congrArg (clampNat 1518 9216) (Dev.fld_congr h _)

theorem rxOversize_ne_rxRunt (p : PortId) : Cnt.rxOversize p ≠ Cnt.rxRunt p := by revert p; decide
theorem rxCodeErr_ne_rxOversize (p : PortId) : Cnt.rxCodeErr p ≠ Cnt.rxOversize p := by revert p; decide
theorem rxFcsErr_ne_rxOversize (p : PortId) : Cnt.rxFcsErr p ≠ Cnt.rxOversize p := by revert p; decide

/-- A frame whose classification ends after it leaves nothing but its count. -/
theorem Dev.badFrame_of_late {d : Dev} {p : PortId} {f g : EthRx} {cause : Nat}
    (hg : g = if cause = Cnt.rxOversize p then { f with bytes := f.bytes.take (d.maxLen p - 3) } else f)
    (h : cause = Cnt.rxRunt p ∨ cause = Cnt.rxCtrlOther p ∨ d.classifiedEarly g.bytes = false) :
    d.badFrame p f cause = d.bump cause := by
  have hlen : (d.bump cause).maxLen p = d.maxLen p := Dev.maxLen_congr rfl p
  unfold Dev.badFrame
  dsimp only
  rw [hlen, ← hg, Dev.classifiedEarly_congr (d := d) (e := d.bump cause) rfl, if_pos h]

/-- A bad frame is counted once, whether it was cut through or not. -/
theorem Dev.badFrame_counts (d : Dev) (p : PortId) (f : EthRx) {cause : Nat} (hc : cause ∈ rxErrCnts) :
    (d.badFrame p f cause).counter cause = d.counter cause + 1 := by
  have hbump : (d.bump cause).counter cause = d.counter cause + 1 := (Dev.counter_bumpBy ..).trans (if_pos rfl)
  unfold Dev.badFrame
  dsimp only
  generalize d.bump cause = x at hbump ⊢
  generalize (if cause = Cnt.rxOversize p then _ else f : EthRx) = g
  split
  · exact hbump
  · have hppl := Dev.PortKept.pplFrame x (x.ethMsg p g) (some p) none
    generalize x.pplFrame (x.ethMsg p g) (some p) none (fun d _ => d) = o at hppl ⊢
    split
    · next a q y ho =>
      split
      · have hkept : x.RxKept o.1 := hppl ⟨_, by rw [ho]; exact List.mem_singleton_self _, rfl⟩
        exact ((hkept.trans (.cutThrough o.1 a q y true)) cause hc).trans hbump
      · exact hbump
    · exact hbump

section
variable {d : Dev} {p : PortId} {f : EthRx}

theorem Dev.frameReceived_of_bad (hl : d.linkUp p = true) {c : Nat} (h : d.rxCause p f = some c) :
    d.frameReceived p f = d.badFrame p f c := by
  unfold Dev.frameReceived
  rw [if_neg (by rw [hl]; decide), h]

theorem Dev.rxCause_of_runt (h : f.bytes.length + 4 < 64) : d.rxCause p f = some (Cnt.rxRunt p) := if_pos h

theorem Dev.rxCause_of_long (h : 64 ≤ f.bytes.length + 4) (hm : d.maxLen p < f.bytes.length + 4) :
    d.rxCause p f = some (Cnt.rxOversize p) := (if_neg (Nat.not_lt.mpr h)).trans (if_pos hm)

variable (h : 64 ≤ f.bytes.length + 4) (hm : f.bytes.length + 4 ≤ d.maxLen p)
include h hm

theorem Dev.rxCause_of_code (hc : f.codeErr = true) : d.rxCause p f = some (Cnt.rxCodeErr p) :=
  (if_neg (Nat.not_lt.mpr h)).trans ((if_neg (Nat.not_lt.mpr hm)).trans (if_pos hc))

variable (hc : f.codeErr = false)
include hc

theorem Dev.rxCause_of_fcs (hf : f.fcs.toNat ≠ ethFcs f.bytes) : d.rxCause p f = some (Cnt.rxFcsErr p) :=
  (if_neg (Nat.not_lt.mpr h)).trans ((if_neg (Nat.not_lt.mpr hm)).trans ((if_neg (by rw [hc]; decide)).trans (if_pos hf)))

variable (hf : f.fcs.toNat = ethFcs f.bytes)
include hf

theorem Dev.rxCause_of_ctrl (ht : beAt f.bytes 12 2 = 0x8808) (ho : beAt f.bytes 14 2 ≠ 1) :
    d.rxCause p f = some (Cnt.rxCtrlOther p) :=
  (if_neg (Nat.not_lt.mpr h)).trans ((if_neg (Nat.not_lt.mpr hm)).trans ((if_neg (by rw [hc]; decide)).trans
    ((if_neg (not_not.mpr hf)).trans (if_pos ⟨ht, ho⟩))))

theorem Dev.rxCause_of_good (ho : ¬ (beAt f.bytes 12 2 = 0x8808 ∧ beAt f.bytes 14 2 ≠ 1)) : d.rxCause p f = none :=
  (if_neg (Nat.not_lt.mpr h)).trans ((if_neg (Nat.not_lt.mpr hm)).trans ((if_neg (by rw [hc]; decide)).trans
    ((if_neg (not_not.mpr hf)).trans (if_neg ho))))

omit h hm hc hf in
theorem Dev.frameReceived_of_frame (hl : d.linkUp p = true) (hg : d.rxCause p f = none) (ht : beAt f.bytes 12 2 ≠ 0x8808) :
    d.frameReceived p f = d.goodFrame p f := by
  unfold Dev.frameReceived
  rw [if_neg (by rw [hl]; decide), hg]
  exact if_neg fun h => ht h.1

omit h hm hc hf in
theorem Dev.frameReceived_of_pause (hl : d.linkUp p = true) (hg : d.rxCause p f = none) (ht : beAt f.bytes 12 2 = 0x8808)
    (hn : f.bytes.length = 60) : d.frameReceived p f = d.takePause p (beAt f.bytes 16 2) := by
  unfold Dev.frameReceived
  rw [if_neg (by rw [hl]; decide), hg]
  exact if_pos ⟨ht, hn⟩

end

/-- A PAUSE frame that holds a port which none holds yet. -/
theorem Dev.takePause_of_free {d : Dev} {p : PortId} (he : d.bit (Reg.ethPausecfg_rx_en p) = true)
    (hs : d.bit (Reg.ethStat_storm p) = false) (hp : d.paused p = false) (q : Nat) :
    d.takePause p q = ((d.bump (Cnt.rxPause p)).modPort p fun x => { x with
      pauseLeft := q, pauseFrom := d.tim.cyc, heldFrom := d.tim.cyc }).setBit (Reg.ethStat_paused p) (q != 0) := by
  have hpx : (d.bump (Cnt.rxPause p)).paused p = false := hp
  unfold Dev.takePause Dev.countPaused
  dsimp only
  rw [hpx, Dev.bit_bump, Dev.bit_bump, he, hs, if_neg (by decide), if_neg (by decide), hpx]
  rfl

/-! ## Good frames -/

section
variable {d : Dev} {p : PortId} {f : EthRx}

theorem Dev.goodFrame_of_full (h : 524288 < d.occ p + (f.bytes.length + 4)) (hx : (d.port p).xoffIntervals < 2) :
    d.goodFrame p f = d.bump (Cnt.dropInFull p) := by
  unfold Dev.goodFrame
  dsimp only
  rw [if_pos h]
  exact if_neg fun hh => Nat.not_lt.mpr hh.1 hx

variable {c : Dev} {o : Dev × List Deliver} (h : d.occ p + (f.bytes.length + 4) ≤ 524288)
  (hc : c = (d.bump (Cnt.rxOk p)).bumpBy (Cnt.rxBytes p) (f.bytes.length + 4))
  (ho : o = c.pplFrame (c.ethMsg p f) (some p) none fun d x => d.learn x p f.hostMac f.hostIp6)
include h hc ho

theorem Dev.goodFrame_of_store {e : Dev}
    (he : e = o.1.modPort p fun x => { x with inBuf := x.inBuf ++ [⟨f.bytes.length + 4, c.curVer, .eth p, o.2⟩] })
    (hn : ∀ x q g, o.2 = [.port x q g] → o.1.cutsThrough p x q g = false) :
    d.goodFrame p f = (Dev.pumpIn p ((e.port p).inBuf.length + 1) e).xoffCheck p := by
  unfold Dev.goodFrame
  dsimp only
  rw [if_neg (Nat.not_lt.mpr h), ← hc, ← ho, ← he]
  split
  · next x q g hx => exact if_neg (by rw [hn x q g hx]; decide)
  · rfl

theorem Dev.goodFrame_of_cut {x q : Nat} {g : EgFrame} (hx : o.2 = [.port x q g]) (hcut : o.1.cutsThrough p x q g = true) :
    d.goodFrame p f = o.1.cutThrough x q g false := by
  unfold Dev.goodFrame
  dsimp only
  rw [if_neg (Nat.not_lt.mpr h), ← hc, ← ho, hx]
  exact if_pos hcut

end

/-! ## The pauses that a port sends -/

theorem roundDiv_natCast (n m : Nat) : (roundDiv (n : Int) (m : Int)).toNat = (2 * n + m) / (2 * m) := by
  unfold roundDiv
  dsimp only
  rw [if_pos (Int.natCast_nonneg n), Int.natAbs_natCast, Int.natAbs_natCast, Int.toNat_natCast]

/-- HIGH lies above LOW (R293). -/
theorem Dev.low_lt_high (d : Dev) (p : PortId) : d.low p < d.high p := by
  have hpct : 30 ≤ d.highPct p := by
    unfold Dev.highPct clampNat
    split
    · exact Nat.le_refl _
    · split
      · decide
      · omega
  unfold Dev.low Dev.high
  omega

/-- The pause of an interval: at most 2,048 quanta, and that at HIGH or above. -/
theorem pauseQuanta_le {a b : Nat} (h : a ≤ b) (hb : 0 < b) :
    (2 * (2048 * a) + max 1 b) / (2 * max 1 b) ≤ 2048 ∧ (a = b → (2 * (2048 * a) + max 1 b) / (2 * max 1 b) = 2048) := by
  have hmax : max 1 b = b := Nat.max_eq_right hb
  rw [hmax]
  refine ⟨Nat.le_of_lt_succ ((Nat.div_lt_iff_lt_mul (by omega)).mpr (by omega)), ?_⟩
  rintro rfl
  exact Nat.div_eq_of_lt_le (by omega) (by omega)

section
variable {d : Dev} {p : PortId} (ht : d.bit (Reg.ethPausecfg_tx_en p) = true)
include ht

theorem Dev.controlPause_of_low (h : d.occ p ≤ d.low p) :
    d.controlPause p = (d.setBit (Reg.ethStat_xoff p) false).modPort p fun x => { x with
      xoffFrom := d.tim.cyc, pauseQ := x.pauseQ ++ [0] } := by
  unfold Dev.controlPause
  dsimp only
  have hocc : (d.modPort p fun x => { x with xoffFrom := d.tim.cyc }).occ p = d.occ p := by
    unfold Dev.occ
    rw [Dev.port_modPort_self]
  have hlow : (d.modPort p fun x => { x with xoffFrom := d.tim.cyc }).low p = d.low p := by
    unfold Dev.low Dev.highPct
    rw [Dev.fld_modPort, Dev.fld_modPort]
  rw [Dev.bit_modPort, ht, hocc, hlow, if_neg (by decide), if_pos h, Dev.setBit_modPort, Dev.modPort_modPort]

theorem Dev.controlPause_of_high (h : d.low p < d.occ p) :
    ∃ q, q ≤ 2048 ∧ (d.high p ≤ d.occ p → q = 2048) ∧
      d.controlPause p = d.modPort p fun x => { x with
        xoffFrom := d.tim.cyc, pauseQ := x.pauseQ ++ [q], xoffIntervals := min 2 (x.xoffIntervals + 1) } := by
  have hlt := d.low_lt_high p
  obtain ⟨hle, heq⟩ := pauseQuanta_le (a := min (d.high p - d.low p) (d.occ p - d.low p)) (b := d.high p - d.low p)
    (Nat.min_le_left _ _) (Nat.sub_pos_of_lt hlt)
  refine ⟨_, hle, fun hh => heq (Nat.min_eq_left (Nat.sub_le_sub_right hh _)), ?_⟩
  unfold Dev.controlPause
  dsimp only
  have hocc : (d.modPort p fun x => { x with xoffFrom := d.tim.cyc }).occ p = d.occ p := by
    unfold Dev.occ
    rw [Dev.port_modPort_self]
  have hlow : (d.modPort p fun x => { x with xoffFrom := d.tim.cyc }).low p = d.low p := by
    unfold Dev.low Dev.highPct
    rw [Dev.fld_modPort, Dev.fld_modPort]
  have hhigh : (d.modPort p fun x => { x with xoffFrom := d.tim.cyc }).high p = d.high p := by
    unfold Dev.high Dev.highPct
    rw [Dev.fld_modPort]
  rw [Dev.bit_modPort, ht, hocc, hlow, hhigh, if_neg (by decide), if_neg (Nat.not_le.mpr h), Dev.modPort_modPort,
    ← roundDiv_natCast]
  rfl

end

/-! ## The end of a received pause -/

theorem not_bookAddr_ethStat (p : PortId) : ¬ bookAddr (Reg.ethStat p) := by
  revert p
  unfold bookAddr
  decide

theorem Dev.countPaused_frame (d : Dev) (p : PortId) : (d.countPaused p).regs = d.regs ∧ (d.countPaused p).eth = d.eth := by
  unfold Dev.countPaused
  split
  · exact ⟨rfl, rfl⟩
  · exact ⟨rfl, rfl⟩

theorem Dev.port_congr {d e : Dev} (h : e.eth = d.eth) (p : PortId) : e.port p = d.port p :=
  match p with
  | 0 => congrArg Eth.p0 h
  | 1 => congrArg Eth.p1 h

/-- A pause storm as it is declared. -/
def Dev.declareStorm (d : Dev) (p : PortId) : Dev :=
  let e := ((d.countPaused p).setBit (Reg.ethStat_paused p) false).raise (Reg.ethStat_storm p)
  ((e.modPort p fun x => { x with pauseLeft := 0, stormFrom := e.tim.cyc }).bump (Cnt.vPauseStorm p)).violation 0x40 p
    [(8, [byte p])]

theorem Dev.pauseStorm_of_due {d e : Dev} {p : PortId} (hp : d.paused p = true) (hm : d.fld (Reg.ethPausecfg_storm_ms p) ≠ 0)
    (he : d.reachCycle ((d.port p).heldFrom + d.fld (Reg.ethPausecfg_storm_ms p) * cyclesPerMs) = some e) :
    d.pauseStorm p = e.declareStorm p := by
  unfold Dev.pauseStorm
  rw [if_neg (by rw [hp]; simp [hm]), Dev.due_of_reached he]
  rfl

theorem storm_separate_paused (p : PortId) : (Reg.ethStat_storm p).separate (Reg.ethStat_paused p) = true := by
  revert p
  decide

theorem vPauseStorm_ne_pausedUs (p : PortId) : Cnt.vPauseStorm p ≠ Cnt.pausedUs p := by revert p; decide

theorem not_bookCnt_vPauseStorm (p : PortId) : ¬ bookCnt (Cnt.vPauseStorm p) := by
  revert p
  unfold bookCnt
  decide

theorem Dev.violation_book (d : Dev) (code party : Nat) (l : List (Nat × List Byte)) :
    ∃ v, ({ d with sch := { d.sch with violSeen := v } } : Dev).Book (d.violation code party l) := by
  unfold Dev.violation
  split
  · exact ⟨d.sch.violSeen, .refl d⟩
  · exact ⟨_, .event _ _ _ _⟩

theorem Dev.declareStorm_shows (d : Dev) (p : PortId) :
    let e := d.declareStorm p
    e.paused p = false ∧ e.bit (Reg.ethStat_storm p) = true ∧ (e.port p).pauseLeft = 0 ∧
      e.counter (Cnt.vPauseStorm p) = d.counter (Cnt.vPauseStorm p) + 1 ∧ (e.port p).queues = (d.port p).queues := by
  intro e
  have hcnt : (d.countPaused p).counter (Cnt.vPauseStorm p) = d.counter (Cnt.vPauseStorm p) := by
    unfold Dev.countPaused
    split
    · exact (Dev.counter_bumpBy ..).trans (if_neg (vPauseStorm_ne_pausedUs p))
    · rfl
  have heth := (d.countPaused_frame p).2
  obtain ⟨y, hy⟩ : ∃ y, y = ((d.countPaused p).setBit (Reg.ethStat_paused p) false).raise (Reg.ethStat_storm p) := ⟨_, rfl⟩
  have hyp : y.port p = d.port p := by
    rw [hy]
    exact Dev.port_congr heth p
  have hyc : y.counter (Cnt.vPauseStorm p) = d.counter (Cnt.vPauseStorm p) := by
    rw [hy]
    exact (Dev.counter_raise ..).trans hcnt
  have hys : y.bit (Reg.ethStat_storm p) = true := by
    rw [hy]
    exact Dev.bit_raise_self _ _ ⟨(by decide : 6 + 1 ≤ 32), rfl⟩
  have hyu : y.bit (Reg.ethStat_paused p) = false := by
    rw [hy]
    refine (Dev.bit_setFld_of_separate _ (Reg.ethStat_storm p) (Reg.ethStat_paused p) 1 (storm_separate_paused p)).trans ?_
    exact Dev.bit_setBit_self _ _ false ⟨(by decide : 4 + 1 ≤ 32), rfl⟩
  obtain ⟨z, hz⟩ : ∃ z, z = (y.modPort p fun x => { x with pauseLeft := 0, stormFrom := y.tim.cyc }).bump (Cnt.vPauseStorm p) :=
    ⟨_, rfl⟩
  have hzregs : z.regs = y.regs := by
    rw [hz]
    exact y.modPort_regs p _
  have hzp : z.port p = { y.port p with pauseLeft := 0, stormFrom := y.tim.cyc } := by
    rw [hz]
    exact (Dev.port_congr rfl p).trans (y.port_modPort_self p _)
  have hzc : z.counter (Cnt.vPauseStorm p) = y.counter (Cnt.vPauseStorm p) + 1 := by
    rw [hz]
    refine (Dev.counter_bumpBy ..).trans ((if_pos rfl).trans (congrArg (· + 1) ?_))
    exact Dev.counter_congr (y.modPort_counters p _) _
  have he : e = z.violation 0x40 p [(8, [byte p])] := by
    rw [hz, hy]
    rfl
  obtain ⟨v, hb⟩ := z.violation_book 0x40 p [(8, [byte p])]
  rw [← he] at hb
  clear_value e
  have hport : e.port p = z.port p := Dev.port_congr hb.eth p
  have hbit (f : Field) (hf : f.addr = Reg.ethStat p) : e.bit f = y.bit f :=
    Dev.bit_of_reg (hf ▸ (hb.reg _ (not_bookAddr_ethStat p)).trans (Dev.reg_congr hzregs _))
  refine ⟨(hbit _ rfl).trans hyu, (hbit _ rfl).trans hys, ?_, (hb.counter _ (not_bookCnt_vPauseStorm p)).trans ?_, ?_⟩
  · rw [hport, hzp]
  · exact hzc.trans (by rw [hyc])
  · rw [hport, hzp, hyp]

theorem Dev.pauseInterval_of_due {d e : Dev} {p : PortId} (hx : d.bit (Reg.ethStat_xoff p) = true)
    (he : d.reachCycle ((d.port p).xoffFrom + d.quantaCycles p 2048) = some e) : d.pauseInterval p = e.controlPause p :=
  (if_neg (by rw [hx]; decide)).trans (Dev.due_of_reached he _)

/-- What the pause of a port turns on does not change with the time. -/
theorem Dev.pause_of_reached {d e : Dev} {c : Nat} (p : PortId) (he : d.reachCycle c = some e) :
    e.occ p = d.occ p ∧ e.low p = d.low p ∧ e.high p = d.high p ∧
      e.bit (Reg.ethPausecfg_tx_en p) = d.bit (Reg.ethPausecfg_tx_en p) := by
  have hregs := (Dev.reachCycle_frame he).1
  have hport : e.port p = d.port p := Dev.port_congr ((congrArg Dev.eth (Dev.reachCycle_only he)).trans rfl) p
  unfold Dev.occ Dev.low Dev.high Dev.highPct
  rw [hport, Dev.fld_congr hregs, Dev.fld_congr hregs, Dev.bit_congr hregs]
  exact ⟨rfl, rfl, rfl, rfl⟩

/-- Settles O52. -/
theorem framesAndPause : Obligations.FramesAndPause := by
  unfold Obligations.FramesAndPause
  intro s p hup
  refine ⟨fun f u => ?_, fun e hx ht he => ⟨fun hlow => ?_, fun hhigh => ?_⟩, fun e => ?_, fun e hp hm he => ?_, fun e hs he => ?_⟩
  · intro d n
    have hregs : d.regs = s.dev.regs := rfl
    have hport : d.port p = s.dev.port p := Dev.port_congr rfl p
    have hocc : d.occ p = s.dev.occ p := by
      unfold Dev.occ
      rw [hport]
    have hmax : d.maxLen p = s.dev.maxLen p := Dev.maxLen_congr hregs p
    have hcyc : d.tim.cyc = s.dev.tim.cyc := rfl
    have hcnt (c : Nat) : d.counter c = s.dev.counter c := Dev.counter_congr rfl c
    have hgive {x : Dev} (h : d.frameReceived p f = x) : Gives (.frameReceived p f u) s x := .of_runUp hup rfl h
    have hlink (b : Bool) (h : s.dev.linkUp p = b) : d.linkUp p = b := (Dev.bit_congr hregs _).trans h
    refine ⟨fun hl => hgive (if_pos (by rw [hlink _ hl]; rfl)), fun hl => ?_⟩
    have hl := hlink _ hl
    rw [← hmax, ← hocc, ← hcyc, ← hport]
    have hbit (g : Field) : s.dev.bit g = d.bit g := (Dev.bit_congr hregs g).symm
    have hpaused : s.dev.paused p = d.paused p := hbit _
    rw [hbit, hbit, hpaused, ← hcnt, ← hcnt, ← hcnt]
    clear_value d
    intro early
    refine ⟨fun hn => hgive ?_, fun h hm => ⟨⟨_, hgive rfl, ?_⟩, fun he => hgive ?_⟩,
      fun h hm hc => ⟨⟨_, hgive rfl, ?_⟩, fun he => hgive ?_⟩, fun h hm hc hf => ⟨⟨_, hgive rfl, ?_⟩, fun he => hgive ?_⟩,
      fun h hm hc hf => ⟨fun hty ho => hgive ?_, fun hty ho hn he hs hp => hgive ?_, fun hty => ⟨fun ho => ?_, fun ho hx => hgive ?_⟩⟩⟩
    · rw [Dev.frameReceived_of_bad hl (Dev.rxCause_of_runt hn)]
      exact Dev.badFrame_of_late rfl (.inl rfl)
    · rw [Dev.frameReceived_of_bad hl (Dev.rxCause_of_long h hm)]
      exact Dev.badFrame_counts d p f (rxOversize_mem p)
    · rw [Dev.frameReceived_of_bad hl (Dev.rxCause_of_long h hm)]
      exact Dev.badFrame_of_late (if_pos rfl).symm (.inr (.inr he))
    · rw [Dev.frameReceived_of_bad hl (Dev.rxCause_of_code h hm hc)]
      exact Dev.badFrame_counts d p f (rxCodeErr_mem p)
    · rw [Dev.frameReceived_of_bad hl (Dev.rxCause_of_code h hm hc)]
      exact Dev.badFrame_of_late (if_neg (rxCodeErr_ne_rxOversize p)).symm (.inr (.inr he))
    · rw [Dev.frameReceived_of_bad hl (Dev.rxCause_of_fcs h hm hc hf)]
      exact Dev.badFrame_counts d p f (rxFcsErr_mem p)
    · rw [Dev.frameReceived_of_bad hl (Dev.rxCause_of_fcs h hm hc hf)]
      exact Dev.badFrame_of_late (if_neg (rxFcsErr_ne_rxOversize p)).symm (.inr (.inr he))
    · rw [Dev.frameReceived_of_bad hl (Dev.rxCause_of_ctrl h hm hc hf hty ho)]
      exact Dev.badFrame_of_late rfl (.inr (.inl rfl))
    · rw [Dev.frameReceived_of_pause hl (Dev.rxCause_of_good h hm hc hf fun hh => hh.2 ho) hty (by omega)]
      exact Dev.takePause_of_free he hs hp _
    · intro c o e
      have hgood := Dev.frameReceived_of_frame hl (Dev.rxCause_of_good h hm hc hf fun hh => hty hh.1) hty
      refine ⟨fun hn => hgive (hgood.trans ?_), fun x q g hx hcut => hgive (hgood.trans ?_)⟩
      · exact Dev.goodFrame_of_store ho rfl rfl rfl hn
      · exact Dev.goodFrame_of_cut ho rfl rfl hx hcut
    · rw [Dev.frameReceived_of_frame hl (Dev.rxCause_of_good h hm hc hf fun hh => hty hh.1) hty]
      exact Dev.goodFrame_of_full ho hx
  · refine .of_runUp hup rfl ((Dev.pauseInterval_of_due hx he).trans ?_)
    obtain ⟨hocc, hl, -, hen⟩ := Dev.pause_of_reached p he
    exact Dev.controlPause_of_low (hen.trans ht) (by rw [hocc, hl]; exact hlow)
  · obtain ⟨hocc, hl, hh, hen⟩ := Dev.pause_of_reached p he
    obtain ⟨q, hle, heq, hq⟩ := Dev.controlPause_of_high (d := e) (hen.trans ht) (by rw [hocc, hl]; exact hhigh)
    exact ⟨q, hle, fun h => heq (by rw [hh, hocc]; exact h), .of_runUp hup rfl ((Dev.pauseInterval_of_due hx he).trans hq)⟩
  · intro n hp he
    refine .of_runUp hup rfl ?_
    exact (if_neg (by rw [hp]; decide)).trans (Dev.due_of_reached he _)
  · have hstorm := e.declareStorm_shows p
    obtain ⟨hpaused, hbit, hleft, hcnt, hq⟩ := hstorm
    have hport : e.port p = s.dev.port p := Dev.port_congr ((congrArg Dev.eth (Dev.reachCycle_only he)).trans rfl) p
    refine ⟨_, .of_runUp hup rfl (Dev.pauseStorm_of_due hp hm he), hpaused, hbit, hleft, hcnt.trans ?_, hq.trans ?_⟩
    · rw [Dev.counter_congr (Dev.reachCycle_frame he).2]
    · rw [hport]
  · refine .of_runUp hup rfl ?_
    exact (if_neg (by rw [hs]; decide)).trans (Dev.due_of_reached he _)

end Sys2Proof.Machine
end

section
/-! # Egress of an Ethernet port -/

namespace Sys2Proof.Machine

/-! ## Queues -/

theorem Dev.port_modPort_ne (d : Dev) {p q : PortId} (f : EthPort → EthPort) (h : q ≠ p) : (d.modPort p f).port q = d.port q := by
  unfold Dev.modPort
  rw [Dev.port_setPort, if_neg h]

theorem Dev.queue_congr {d e : Dev} {p : PortId} (h : e.port p = d.port p) (q : Nat) : e.queue p q = d.queue p q := by
  unfold Dev.queue
  rw [h]

theorem Dev.queue_setQueue_self (d : Dev) (p : PortId) (q : Nat) (x : EgQueue) : (d.setQueue p q x).queue p q = x := by
  unfold Dev.queue Dev.setQueue
  rw [Dev.port_modPort_self]
  exact Sparse.get_put_same ..

theorem Dev.queue_setQueue_ne (d : Dev) (p o : PortId) {q r : Nat} (x : EgQueue) (h : ¬ (o = p ∧ r = q)) :
    (d.setQueue p q x).queue o r = d.queue o r := by
  unfold Dev.queue Dev.setQueue
  by_cases ho : o = p
  · rw [ho, Dev.port_modPort_self]
    exact Sparse.get_put_ne _ _ _ _ fun hr => h ⟨ho, hr⟩
  · rw [Dev.port_modPort_ne d _ ho]

/-! ## The choice of a frame -/

theorem Dev.gates_of_off {d : Dev} {p : PortId} (h : d.bit (Reg.tshGclCfg_en p) = false) : d.gates p = none := if_pos (by rw [h]; rfl)

/-- No gate closes while gate lists are off. -/
theorem Dev.gateLeft_of_off {d : Dev} {p : PortId} (h : d.bit (Reg.tshGclCfg_en p) = false) (q : Nat) : d.gateLeft p q = none := by
  unfold Dev.gateLeft
  rw [Dev.gates_of_off h, h]
  rfl

theorem Dev.gateDrop_of_off {d : Dev} {p : PortId} (h : d.bit (Reg.tshGclCfg_en p) = false) (q n : Nat) : d.gateDrop p q n = d := by
  have hw : d.longestWindow p q = none := by
    unfold Dev.longestWindow
    rw [Dev.gates_of_off h]
  cases n with
  | zero => rfl
  | succ n =>
    unfold Dev.gateDrop
    dsimp only
    split
    · rfl
    · exact if_pos (by rw [hw]; rfl)

theorem Dev.gateDrops_of_off {d : Dev} {p : PortId} (h : d.bit (Reg.tshGclCfg_en p) = false) (l : List Nat) :
    l.foldl (fun d q => d.gateDrop p q (d.queue p q).frames.length) d = d := by
  induction l with
  | nil => rfl
  | cons q t ih => rw [List.foldl_cons, Dev.gateDrop_of_off h, ih]

theorem Dev.eligibleHead_of_empty {d : Dev} {p : PortId} {q : Nat} (h : (d.queue p q).frames = []) : d.eligibleHead p q = none := by
  unfold Dev.eligibleHead
  dsimp only
  rw [h]

theorem Dev.eligibleHead_of_free {d : Dev} {p : PortId} {q : Nat} {f : EgFrame} {t : List EgFrame}
    (hq : (d.queue p q).frames = f :: t) (hh : f.held = false) (hp : d.paused p = false) (hs : (d.queue p q).shapeOn = false)
    (hg : d.bit (Reg.tshGclCfg_en p) = false) : d.eligibleHead p q = some f := by
  unfold Dev.eligibleHead
  dsimp only
  rw [hq]
  exact if_neg (by rw [hh, hp, hs, Dev.gateLeft_of_off hg]; exact Bool.false_ne_true)

section
variable {d : Dev} {p : PortId} (h : ∀ q, (d.queue p q).frames = [])
include h

theorem Dev.visit_of_empty (n q : Nat) : d.visit p n q = (d, none) := by
  induction n generalizing q with
  | zero => rfl
  | succ n ih =>
    unfold Dev.visit
    rw [Dev.eligibleHead_of_empty (h q)]
    exact ih _

/-- With nothing queued no frame is chosen; at most a deficit is cleared. -/
theorem Dev.chooseFrame_of_empty : (d.chooseFrame p).2 = none ∧
    ((d.chooseFrame p).1 = d ∨ ∃ q, (d.chooseFrame p).1 = d.setDeficit p q 0) := by
  unfold Dev.chooseFrame
  rw [Dev.eligibleHead_of_empty (h 7), Dev.eligibleHead_of_empty (h 6)]
  dsimp only
  unfold Dev.chooseGroup
  split
  · rw [Dev.visit_of_empty h]
    exact ⟨rfl, .inl rfl⟩
  · next q _ =>
    rw [Dev.eligibleHead_of_empty (h q)]
    dsimp only
    rw [if_pos (h q)]
    have he (r : Nat) : ((d.setDeficit p q 0).queue p r).frames = [] := by
      unfold Dev.setDeficit
      by_cases hr : r = q
      · rw [hr, Dev.queue_setQueue_self]
        exact h q
      · rw [Dev.queue_setQueue_ne _ _ _ _ fun hh => hr hh.2]
        exact h r
    rw [Dev.visit_of_empty he]
    exact ⟨rfl, .inr ⟨q, rfl⟩⟩

end

/-! ## The frame boundary -/

section
variable {d : Dev} {p : PortId} (hl : d.linkUp p = true)
include hl

theorem Dev.boundary_of_pause {n : Nat} {t : List Nat} (hs : (d.port p).sending = none) (hp : (d.port p).pauseQ = n :: t) :
    d.boundary p = (((d.modPort p fun x => { x with pauseQ := t }).txBusy p 64).out (.eth p (d.pauseFrame n) false)).bump
      (Cnt.txPause p) := by
  have hend : d.txEnd p = d := by
    unfold Dev.txEnd
    rw [hs]
  unfold Dev.boundary
  rw [hend]
  dsimp only
  rw [if_neg (by rw [hl]; decide), hp]

omit hl in
theorem Dev.txBegin_of_plain {d : Dev} {p : PortId} {q : Nat} {f : EgFrame} (hs : (d.queue p q).shapeOn = false)
    (hr : f.resid = none) (ht : f.tsId = none) (ho : f.own = none) :
    d.txBegin p q f = (d.modPort p fun x => { x with sending := some (q, f) }).txBusy p f.len := by
  unfold Dev.txBegin
  dsimp only
  rw [hs, if_neg Bool.false_ne_true, hr, if_neg (by decide), ht]
  unfold Dev.ownSent
  dsimp only
  rw [ho]
  dsimp only
  rw [← ho, ← ht, ← hr]

/-- Q7 goes ahead of the other queues. -/
theorem Dev.boundary_of_express {f : EgFrame} {t : List EgFrame} (hs : (d.port p).sending = none) (hp : (d.port p).pauseQ = [])
    (hg : d.bit (Reg.tshGclCfg_en p) = false) (hpa : d.paused p = false) (hq : (d.queue p 7).frames = f :: t)
    (hsh : (d.queue p 7).shapeOn = false) (hh : f.held = false) (ht : f.tsId = none) (hr : f.resid = none) (ho : f.own = none) :
    d.boundary p = ((d.setQueue p 7 { d.queue p 7 with frames := t }).modPort p fun x => { x with
      sending := some (7, f) }).txBusy p f.len := by
  have hend : d.txEnd p = d := by
    unfold Dev.txEnd
    rw [hs]
  have hchoose : d.chooseFrame p = (d, some (7, f)) := by
    unfold Dev.chooseFrame
    rw [Dev.eligibleHead_of_free hq hh hpa hsh hg]
  unfold Dev.boundary
  rw [hend]
  dsimp only
  rw [if_neg (by rw [hl]; decide), hp]
  dsimp only
  rw [Dev.gateDrops_of_off hg, hchoose]
  dsimp only
  rw [hq, List.drop_one, List.tail_cons]
  exact Dev.txBegin_of_plain (by rw [Dev.queue_setQueue_self]; exact hsh) hr ht ho

end

theorem qTx_ne_txOk (p : PortId) (q : Nat) : Cnt.qTx p q ≠ Cnt.txOk p ∧ Cnt.qTx p q ≠ Cnt.txBytes p := by
  have hp := p.isLt
  unfold Cnt.qTx Cnt.txOk Cnt.txBytes
  omega

theorem txOk_ne_txBytes (p : PortId) : Cnt.txOk p ≠ Cnt.txBytes p := by revert p; decide

theorem Dev.queue_of_none {d : Dev} {p : PortId} (h : (d.port p).queues = []) (q : Nat) : (d.queue p q).frames = [] := by
  unfold Dev.queue
  rw [h]
  rfl

/-- What the end of the frame in progress shows, with nothing behind it. -/
theorem Dev.boundary_of_last {d : Dev} {p : PortId} {q : Nat} {f : EgFrame} (hl : d.linkUp p = true)
    (hg : d.bit (Reg.tshGclCfg_en p) = false) (hs : (d.port p).sending = some (q, f)) (hp : (d.port p).pauseQ = [])
    (hq : (d.port p).queues = []) (hsrc : f.src = .air) (hst : f.stomp = false) :
    let e := d.boundary p
    (e.port p).sending = none ∧
      e.outs = .eth p (f.bytes ++ List.replicate (60 - f.bytes.length) 0) false :: d.outs ∧
      e.counter (Cnt.qTx p q) = d.counter (Cnt.qTx p q) + 1 ∧ e.counter (Cnt.txOk p) = d.counter (Cnt.txOk p) + 1 := by
  intro e
  obtain ⟨x, hx⟩ : ∃ x, x = (d.modPort p fun y => { y with sending := none }).out
      (.eth p (f.bytes ++ List.replicate (60 - f.bytes.length) 0) false) := ⟨_, rfl⟩
  obtain ⟨y, hy⟩ : ∃ y, y = ((x.bump (Cnt.qTx p q)).bump (Cnt.txOk p)).bumpBy (Cnt.txBytes p) f.len := ⟨_, rfl⟩
  have hend : d.txEnd p = y := by
    unfold Dev.txEnd
    rw [hs]
    dsimp only
    rw [hst, if_neg Bool.false_ne_true, hsrc, hy, hx]
    rfl
  have hxport : x.port p = { d.port p with sending := none } := by
    rw [hx]
    exact (Dev.port_congr rfl p).trans (d.port_modPort_self p _)
  have hxcnt (i : Nat) : x.counter i = d.counter i := by
    rw [hx]
    exact Dev.counter_congr (d.modPort_counters p _) i
  have hxregs : x.regs = d.regs := by
    rw [hx]
    exact d.modPort_regs p _
  have hxouts : x.outs = .eth p (f.bytes ++ List.replicate (60 - f.bytes.length) 0) false :: d.outs := by
    rw [hx]
    exact congrArg (List.cons _) (d.modPort_outs p _)
  have hyport : y.port p = x.port p := by
    rw [hy]
    exact Dev.port_congr rfl p
  have hyregs : y.regs = x.regs := by
    rw [hy]
    rfl
  have hyouts : y.outs = x.outs := by
    rw [hy]
    rfl
  obtain ⟨hne1, hne2⟩ := qTx_ne_txOk p q
  have hyq : y.counter (Cnt.qTx p q) = x.counter (Cnt.qTx p q) + 1 := by
    rw [hy]
    refine (Dev.counter_bumpBy ..).trans ((if_neg hne2).trans ?_)
    refine (Dev.counter_bumpBy ..).trans ((if_neg hne1).trans ?_)
    exact (Dev.counter_bumpBy ..).trans (if_pos rfl)
  have hyo : y.counter (Cnt.txOk p) = x.counter (Cnt.txOk p) + 1 := by
    rw [hy]
    refine (Dev.counter_bumpBy ..).trans ((if_neg (txOk_ne_txBytes p)).trans ?_)
    refine (Dev.counter_bumpBy ..).trans ((if_pos rfl).trans (congrArg (· + 1) ?_))
    exact (Dev.counter_bumpBy ..).trans (if_neg hne1.symm)
  have hempty : ∀ r, (y.queue p r).frames = [] := Dev.queue_of_none (by rw [hyport, hxport]; exact hq)
  have he : e = (y.chooseFrame p).1 := by
    show d.boundary p = _
    unfold Dev.boundary
    rw [hend]
    have hly : y.linkUp p = true := (Dev.bit_congr (hyregs.trans hxregs) _).trans hl
    dsimp only
    rw [if_neg (by rw [hly]; decide), hyport, hxport]
    dsimp only
    rw [hp]
    dsimp only
    rw [Dev.gateDrops_of_off ((Dev.bit_congr (hyregs.trans hxregs) _).trans hg), (Dev.chooseFrame_of_empty hempty).1]
  have hkept : (e.port p).sending = (y.port p).sending ∧ e.outs = y.outs ∧ ∀ i, e.counter i = y.counter i := by
    rcases (Dev.chooseFrame_of_empty hempty).2 with h | ⟨r, h⟩
    · rw [he, h]
      exact ⟨rfl, rfl, fun _ => rfl⟩
    · rw [he, h]
      unfold Dev.setDeficit Dev.setQueue
      rw [Dev.port_modPort_self]
      exact ⟨rfl, y.modPort_outs p _, fun i => Dev.counter_congr (y.modPort_counters p _) i⟩
  clear_value e
  obtain ⟨hsend, houts, hcnt⟩ := hkept
  refine ⟨hsend.trans (by rw [hyport, hxport]), houts.trans (hyouts.trans hxouts), (hcnt _).trans ?_, (hcnt _).trans ?_⟩
  · rw [hyq, hxcnt]
  · rw [hyo, hxcnt]

/-! ## Gate lists -/

/-- A port's waiting gate list comes into force. -/
def Dev.takeGates (d : Dev) (p : PortId) (g : GateList) : Dev :=
  (d.modPort p fun x => { x with gates := some g, pendGates := none }).setBit (Reg.tshGclCfg_pending p) false

theorem Dev.gatesDue_of_reached {d : Dev} {p : PortId} {g : GateList} (hg : (d.port p).pendGates = some g) (h : g.start ≤ d.tai) :
    d.gatesDue p = d.takeGates p g := by
  unfold Dev.gatesDue
  rw [hg]
  exact if_neg (Int.not_lt.mpr h)

theorem Dev.tai_setTai (d : Dev) {t : Int} (h0 : 0 ≤ t) (h1 : t < 281474976710656 * 1000000000) : (d.setTai t).tai = t := by
  unfold Dev.setTai Dev.tai
  dsimp only
  rw [BitVec.toNat_ofInt, BitVec.toNat_ofInt]
  omega

theorem Dev.tai_nonneg (d : Dev) : 0 ≤ d.tai := by
  unfold Dev.tai
  omega

theorem Dev.tai_congr {d e : Dev} (hs : e.tim.sec = d.tim.sec) (hn : e.tim.ns = d.tim.ns) : e.tai = d.tai := by
  unfold Dev.tai
  rw [hs, hn]

theorem Dev.tai_elapsed (d : Dev) (n : Nat) : ({ d with tim := { d.tim with elapsed := n } } : Dev).tai = d.tai :=
  Dev.tai_congr rfl rfl

theorem Dev.tai_cyc (d : Dev) (n : Nat) : ({ d with tim := { d.tim with cyc := n } } : Dev).tai = d.tai :=
  Dev.tai_congr rfl rfl

theorem Dev.tai_advanceTo (d : Dev) (t : Int) : (d.advanceTo t).tai = (d.setTai t).tai := by
  unfold Dev.advanceTo
  exact Dev.tai_cyc (d.setTai t) _

theorem Dev.tai_reachTai {d : Dev} {t : Int} (h : d.tai < t) (hn : t < d.tickTai d.nextS) (hm : t < 281474976710656 * 1000000000) :
    (d.reachTai t).tai = t := by
  have hd : (d.reachTai t).tai = (d.setTai t).tai := by
    unfold Dev.reachTai
    rw [if_neg (not_or.mpr ⟨Int.not_le.mpr h, Int.not_le.mpr hn⟩)]
    exact (Dev.tai_elapsed _ _).trans (d.tai_advanceTo t)
  exact hd.trans (d.tai_setTai (Int.le_trans d.tai_nonneg (Int.le_of_lt h)) hm)

theorem Dev.reachTai_of_past {d : Dev} {t : Int} (h : t ≤ d.tai) : d.reachTai t = d := if_pos (.inl h)

theorem Dev.gateEntryChange_of_none {d : Dev} {p : PortId} (h : d.bit (Reg.tshGclCfg_en p) = false)
    (hg : (d.port p).pendGates = none) : d.gateEntryChange p = d := by
  unfold Dev.gateEntryChange
  rw [Dev.gates_of_off h, hg]
  rfl

/-- A waiting list whose start has passed is taken at once. -/
theorem Dev.gateEntryChange_of_past {d : Dev} {p : PortId} {g : GateList} (hg : (d.port p).pendGates = some g)
    (h : g.start ≤ d.tai) : d.gateEntryChange p = d.takeGates p g := by
  have hstep (t : Int) (ht : t ≤ g.start) : (d.reachTai t).gatesDue p = d.takeGates p g := by
    rw [Dev.reachTai_of_past (Int.le_trans ht h)]
    exact Dev.gatesDue_of_reached hg h
  unfold Dev.gateEntryChange
  rw [hg]
  cases d.gates p with
  | none => exact hstep _ (Int.le_refl _)
  | some x => exact hstep _ (Int.min_le_right _ _)

theorem Dev.gateEntryChange_of_first {d : Dev} {p : PortId} {g : GateList} (hg : (d.port p).pendGates = some g)
    (h : d.tai < g.start) (hn : g.start < d.tickTai d.nextS) (hm : g.start < 281474976710656 * 1000000000)
    (hgates : (d.port p).gates = none) : d.gateEntryChange p = (d.reachTai g.start).takeGates p g := by
  have hnone : d.gates p = none := by
    unfold Dev.gates
    rw [hg]
    dsimp only
    rw [if_neg (Int.not_le.mpr h), hgates]
    split
    · rfl
    · rfl
  have hport : (d.reachTai g.start).port p = d.port p :=
    Dev.port_congr ((congrArg Dev.eth (d.reachTai_only g.start)).trans rfl) p
  unfold Dev.gateEntryChange
  rw [hg, hnone]
  exact Dev.gatesDue_of_reached (by rw [hport]; exact hg) (Int.le_of_eq (Dev.tai_reachTai h hn hm).symm)

/-! ## Shapers -/

/-- A queue after its refill (R313). -/
def Dev.refilled (d : Dev) (p : PortId) (q : Nat) (x : EgQueue) : EgQueue :=
  let cap : Int := 8 * orElse0 (d.fld (Reg.tshShape_burst p q)) 1
  if !d.bit (Reg.tshShape_en p q) then { x with shapeOn := false, tokens := 0 }
  else if !x.shapeOn then { x with shapeOn := true, tokens := cap }
  else { x with tokens := min cap (x.tokens + (clampNat 1 10000 (d.fld (Reg.tshShape_rate p q)) : Nat)) }

theorem Dev.refillQueue_eq (d : Dev) (p : PortId) (q : Nat) : d.refillQueue p q = d.setQueue p q (d.refilled p q (d.queue p q)) := by
  unfold Dev.refillQueue Dev.refilled
  dsimp only
  split
  · rfl
  · split
    · rfl
    · rfl

theorem Dev.refilled_congr {d e : Dev} (h : e.regs = d.regs) (p : PortId) (q : Nat) (x : EgQueue) :
    e.refilled p q x = d.refilled p q x := by
  unfold Dev.refilled
  rw [Dev.fld_congr h, Dev.fld_congr h, Dev.bit_congr h]

/-- What the refill of queues leaves. -/
structure Dev.Refills (d e : Dev) : Prop where
  regs : e.regs = d.regs
  counters : e.counters = d.counters
  tim : e.tim = d.tim

theorem Dev.Refills.refl (d : Dev) : d.Refills d := ⟨rfl, rfl, rfl⟩

theorem Dev.Refills.trans {a b c : Dev} (h : a.Refills b) (k : b.Refills c) : a.Refills c :=
  ⟨k.regs.trans h.regs, k.counters.trans h.counters, k.tim.trans h.tim⟩

theorem Dev.Refills.one (d : Dev) (p : PortId) (q : Nat) : d.Refills (d.refillQueue p q) := by
  rw [Dev.refillQueue_eq]
  exact ⟨d.modPort_regs p _, d.modPort_counters p _, d.modPort_tim p _⟩

theorem Dev.refillQueue_queue (d : Dev) (p o : PortId) (q r : Nat) :
    (d.refillQueue p q).queue o r = if o = p ∧ r = q then d.refilled p q (d.queue p q) else d.queue o r := by
  rw [Dev.refillQueue_eq]
  split
  · next h =>
    obtain ⟨rfl, rfl⟩ := h
    exact Dev.queue_setQueue_self ..
  · next h => exact Dev.queue_setQueue_ne _ _ _ _ h

/-- The queues of a port are refilled one by one. -/
theorem Dev.refillQueues_queue (p o : PortId) (r : Nat) (l : List Nat) (hn : l.Nodup) (d : Dev) :
    let e := l.foldl (fun d q => d.refillQueue p q) d
    d.Refills e ∧ e.queue o r = if o = p ∧ r ∈ l then d.refilled p r (d.queue p r) else d.queue o r := by
  induction l generalizing d with
  | nil => exact ⟨.refl d, (if_neg fun h => List.not_mem_nil h.2).symm⟩
  | cons q t ih =>
    obtain ⟨hq, ht⟩ := List.nodup_cons.mp hn
    obtain ⟨hk, hv⟩ := ih ht (d.refillQueue p q)
    have hone := Dev.Refills.one d p q
    refine ⟨hone.trans hk, hv.trans ?_⟩
    rw [Dev.refilled_congr hone.regs, Dev.refillQueue_queue, Dev.refillQueue_queue]
    by_cases ho : o = p
    · subst ho
      by_cases hrq : r = q
      · subst hrq
        simp [hq]
      · simp [hrq]
    · simp [ho]

/-- The refill of a port's queues. -/
def Dev.refillPort (d : Dev) (p : PortId) : Dev := (List.range 8).foldl (fun d q => d.refillQueue p q) d

theorem Dev.refillPort_queue (d : Dev) (p o : PortId) {r : Nat} (hr : r < 8) :
    d.Refills (d.refillPort p) ∧ (d.refillPort p).queue o r = if o = p then d.refilled p r (d.queue p r) else d.queue o r := by
  obtain ⟨hk, hv⟩ := Dev.refillQueues_queue p o r (List.range 8) List.nodup_range d
  refine ⟨hk, hv.trans ?_⟩
  simp [List.mem_range.mpr hr]

theorem Dev.shaperRefill_of_due {d e : Dev} (he : d.reachCycle (400 * (d.eth.refills + 1)) = some e) :
    d.shaperRefill = (Dev.refillPort { e with eth := { e.eth with refills := e.eth.refills + 1 } } 0).refillPort 1 := by
  refine (show d.shaperRefill = _ from Dev.due_of_reached he _).trans ?_
  rw [List.foldl_cons, List.foldl_cons, List.foldl_nil]
  rfl

theorem eq_zero_of_ne_one {o : PortId} (h : o ≠ 1) : o = 0 := by
  revert o
  decide

/-- A tick of the shapers refills every queue of both ports. -/
theorem Dev.refillPorts_queue (d : Dev) (o : PortId) {r : Nat} (hr : r < 8) :
    d.Refills ((d.refillPort 0).refillPort 1) ∧ ((d.refillPort 0).refillPort 1).queue o r = d.refilled o r (d.queue o r) := by
  obtain ⟨h0, hv0⟩ := d.refillPort_queue 0 o hr
  obtain ⟨h1, hv1⟩ := (d.refillPort 0).refillPort_queue 1 o hr
  rw [Dev.refilled_congr h0.regs] at hv1
  refine ⟨h0.trans h1, hv1.trans ?_⟩
  by_cases ho : o = 1
  · subst ho
    rw [if_pos rfl, (d.refillPort_queue 0 1 hr).2, if_neg (by decide)]
  · have ho := eq_zero_of_ne_one ho
    rw [if_neg (by rw [ho]; decide), hv0, if_pos ho, ho]

theorem Dev.refilled_shows (d : Dev) (p : PortId) (q : Nat) (x : EgQueue) :
    let y := d.refilled p q x
    let cap : Int := 8 * orElse0 (d.fld (Reg.tshShape_burst p q)) 1
    y.frames = x.frames ∧ y.deficit = x.deficit ∧ y.shapeOn = d.bit (Reg.tshShape_en p q) ∧
      (y.shapeOn = true → x.shapeOn = false → y.tokens = cap) ∧
      (y.shapeOn = true → x.shapeOn = true → y.tokens = min cap (x.tokens + clampNat 1 10000 (d.fld (Reg.tshShape_rate p q)))) := by
  intro y cap
  have hy : y = d.refilled p q x := rfl
  clear_value y
  unfold Dev.refilled at hy
  dsimp only at hy
  cases hen : d.bit (Reg.tshShape_en p q) with
  | false =>
    rw [hen, if_pos (by decide)] at hy
    rw [hy]
    exact ⟨rfl, rfl, rfl, fun h => (nomatch h), fun h => (nomatch h)⟩
  | true =>
    rw [hen, if_neg (by decide)] at hy
    cases hon : x.shapeOn with
    | false =>
      rw [hon, if_pos (by decide)] at hy
      rw [hy]
      exact ⟨rfl, rfl, rfl, fun _ _ => rfl, fun _ h => (nomatch h)⟩
    | true =>
      rw [hon, if_neg (by decide)] at hy
      rw [hy]
      exact ⟨rfl, rfl, rfl, fun _ h => (nomatch h), fun _ _ => rfl⟩

/-- Settles O53. -/
theorem egressResult : Obligations.EgressResult := by
  unfold Obligations.EgressResult
  intro s p hup
  refine ⟨fun e hl hg he => ?_, fun hg hn => .of_runUp hup rfl (Dev.gateEntryChange_of_none hg hn), fun g hg => ?_, fun e he => ?_⟩
  · have hregs := (Dev.reachCycle_frame he).1
    have honly := Dev.reachCycle_only he
    have hport : e.port p = s.dev.port p := Dev.port_congr ((congrArg Dev.eth honly).trans rfl) p
    have hcnt (i : Nat) : e.counter i = s.dev.counter i := Dev.counter_congr (Dev.reachCycle_frame he).2 i
    have houts : e.outs = s.dev.outs := (congrArg Dev.outs honly).trans rfl
    have hqueue : e.queue p 7 = s.dev.queue p 7 := Dev.queue_congr hport 7
    have hframe (n : Nat) : s.dev.pauseFrame n = e.pauseFrame n := by
      unfold Dev.pauseFrame Dev.ownMac
      rw [Dev.fld_congr hregs, Dev.reg_congr hregs]
    have hle : e.linkUp p = true := (Dev.bit_congr hregs _).trans hl
    have hge : e.bit (Reg.tshGclCfg_en p) = false := (Dev.bit_congr hregs _).trans hg
    have hpaused : s.dev.paused p = e.paused p := (Dev.bit_congr hregs _).symm
    have hgive {x : Dev} (h : e.boundary p = x) : Gives (.frameBoundary p) s x :=
      .of_runUp hup rfl ((show s.dev.frameBoundary p = _ from Dev.due_of_reached he _).trans h)
    rw [← hport, ← hqueue, ← houts, hpaused]
    refine ⟨fun n t hs hp => ?_, fun q f hs hp hq hsrc hst => ?_, fun f t hs hp hpa hq hsh hh ht hr ho => ?_⟩
    · rw [hframe]
      exact hgive (Dev.boundary_of_pause hle hs hp)
    · rw [← hcnt, ← hcnt]
      exact ⟨_, hgive rfl, Dev.boundary_of_last hle hge hs hp hq hsrc hst⟩
    · exact hgive (Dev.boundary_of_express hle hs hp hge hpa hq hsh hh ht hr ho)
  · intro take
    exact ⟨fun h => .of_runUp hup rfl (Dev.gateEntryChange_of_past hg h), fun h hn hm hgates =>
      .of_runUp hup rfl (Dev.gateEntryChange_of_first hg h hn hm hgates)⟩
  · have hregs := (Dev.reachCycle_frame he).1
    obtain ⟨x, hx⟩ : ∃ x : Dev, x = { e with eth := { e.eth with refills := e.eth.refills + 1 } } := ⟨_, rfl⟩
    have hxregs : x.regs = s.dev.regs := (hx ▸ rfl : x.regs = e.regs).trans hregs
    have hxcnt : x.counters = s.dev.counters := (hx ▸ rfl : x.counters = e.counters).trans (Dev.reachCycle_frame he).2
    have hxq (o : PortId) (q : Nat) : x.queue o q = s.dev.queue o q := by
      have heth : e.eth = s.dev.eth := (congrArg Dev.eth (Dev.reachCycle_only he)).trans rfl
      have hxp : x.port o = e.port o := by
        rw [hx]
        match o with
        | 0 => rfl
        | 1 => rfl
      exact Dev.queue_congr (hxp.trans (Dev.port_congr heth o)) q
    have hd : s.dev.shaperRefill = (x.refillPort 0).refillPort 1 := by
      rw [hx]
      exact Dev.shaperRefill_of_due he
    obtain ⟨hk, -⟩ := x.refillPorts_queue 0 (r := 0) (by decide)
    refine ⟨_, .of_runUp hup rfl hd, hk.regs.trans hxregs, hk.counters.trans hxcnt, hk.tim.trans (hx ▸ rfl), fun o q hq => ?_⟩
    intro y z cap
    have hz : z = s.dev.refilled o q y := by
      refine (x.refillPorts_queue o hq).2.trans ?_
      rw [Dev.refilled_congr hxregs, hxq]
    rw [hz]
    exact Dev.refilled_shows s.dev o q y

end Sys2Proof.Machine
end

section
/-! # Frames that a port drops, moves and holds (R283, R301, R302) -/

namespace Sys2Proof.Machine

/-! ## Queues of a port after each is changed -/

/-- A property of every frame that a change of queues leaves holds for every frame afterwards. -/
theorem Sparse.foldl_put_frames {g : EgQueue → EgQueue} {P : EgFrame → Prop} (hg : ∀ x, ∀ f ∈ (g x).frames, P f)
    (l : Sparse EgQueue) (acc : Sparse EgQueue) (h : ∀ k, ∀ f ∈ (Sparse.get emptyQueue acc k).frames, P f) (k : Nat) :
    ∀ f ∈ (Sparse.get emptyQueue
      (l.foldl (fun (t : Sparse EgQueue) (q : Nat × EgQueue) => Sparse.put emptyQueue t q.1 (g q.2)) acc) k).frames, P f := by
  induction l generalizing acc with
  | nil => exact h k
  | cons q t ih =>
    refine ih _ fun j => ?_
    by_cases hj : j = q.1
    · rw [hj, Sparse.get_put_same]
      exact hg _
    · rw [Sparse.get_put_ne _ _ _ _ hj]
      exact h j

/-- At most one pair is listed under a key. -/
def Sparse.Once (t : Sparse EgQueue) (k : Nat) : Prop := (t.filter fun p => p.1 == k).length ≤ 1

theorem Sparse.Once.put_ne {t : Sparse EgQueue} {k : Nat} (h : Sparse.Once t k) {j : Nat} (hj : j ≠ k) (v : EgQueue) :
    Sparse.Once (Sparse.put emptyQueue t j v) k := by
  unfold Sparse.Once
  rw [Sparse.filter_put emptyQueue (fun p => p.1 == k) j v fun _ => beq_eq_false_iff_ne.mpr hj]
  exact h

theorem Sparse.filter_drop (k : Nat) (t : Sparse EgQueue) : (Sparse.drop k t).filter (fun p => p.1 == k) = [] :=
  List.filter_eq_nil_iff.mpr fun p hp => by
    have hk := (Sparse.mem_drop k t p hp).2
    simpa using hk

theorem Sparse.filter_ins (k : Nat) (v : EgQueue) (t : Sparse EgQueue) (h : t.filter (fun p => p.1 == k) = []) :
    (Sparse.ins k v t).filter (fun p => p.1 == k) = [(k, v)] := by
  induction t with
  | nil => simp [Sparse.ins]
  | cons x t ih =>
    rw [List.filter_cons] at h
    split at h
    · exact nomatch h
    · next hx =>
      unfold Sparse.ins
      split
      · rw [List.filter_cons, if_pos (beq_self_eq_true k), List.filter_cons, if_neg hx, h]
      · rw [List.filter_cons, if_neg hx, ih h]

theorem Sparse.Once.put_self (t : Sparse EgQueue) (k : Nat) (v : EgQueue) : Sparse.Once (Sparse.put emptyQueue t k v) k := by
  unfold Sparse.Once Sparse.put
  split
  · rw [Sparse.filter_drop]
    exact Nat.zero_le 1
  · rw [Sparse.filter_ins _ _ _ (Sparse.filter_drop k t)]
    exact Nat.le_refl 1

/-- Changing each queue changes the queue under a key that is listed once. -/
theorem Sparse.foldl_put_once {g : EgQueue → EgQueue} (hg : g emptyQueue = emptyQueue) (l acc : Sparse EgQueue) (k : Nat)
    (h : Sparse.Once l k) (ha : Sparse.get emptyQueue acc k = emptyQueue) :
    Sparse.get emptyQueue
      (l.foldl (fun (t : Sparse EgQueue) (q : Nat × EgQueue) => Sparse.put emptyQueue t q.1 (g q.2)) acc) k =
      g (Sparse.get emptyQueue l k) := by
  have hnone (l acc : Sparse EgQueue) (h : l.filter (fun p => p.1 == k) = []) : Sparse.get emptyQueue
      (l.foldl (fun (t : Sparse EgQueue) (q : Nat × EgQueue) => Sparse.put emptyQueue t q.1 (g q.2)) acc) k =
      Sparse.get emptyQueue acc k := by
    induction l generalizing acc with
    | nil => rfl
    | cons q t ih =>
      rw [List.filter_cons] at h
      split at h
      · exact nomatch h
      · next hq =>
        refine (ih _ h).trans (Sparse.get_put_ne _ _ _ _ fun hk => hq ?_)
        rw [← hk]
        exact beq_self_eq_true _
  induction l generalizing acc with
  | nil => exact ha.trans hg.symm
  | cons q t ih =>
    obtain ⟨j, x⟩ := q
    unfold Sparse.Once at h
    rw [List.filter_cons] at h
    by_cases hj : j = k
    · subst hj
      rw [if_pos (beq_self_eq_true j), List.length_cons] at h
      have ht : t.filter (fun p => p.1 == j) = [] := List.length_eq_zero_iff.mp (by omega)
      refine (hnone t _ ht).trans ((Sparse.get_put_same ..).trans ?_)
      rw [Sparse.get, if_pos rfl]
    · rw [if_neg (by simpa using hj)] at h
      refine (ih _ h ?_).trans ?_
      · exact (Sparse.get_put_ne _ _ _ _ (Ne.symm hj)).trans ha
      · rw [Sparse.get, if_neg hj]

/-! ## What changes nothing but frames -/

/-- From `d` to `e` the ports' queues, and what the ports send, may have changed, and of the rest nothing that a link uses. -/
structure Dev.FramesOnly (d e : Dev) : Prop where
  regs : e.regs = d.regs
  counters : e.counters = d.counters
  tim : e.tim = d.tim
  outs : e.outs = d.outs
  pairStep : e.eth.pairStep = d.eth.pairStep
  pairCfg : e.eth.pairCfg = d.eth.pairCfg
  tryMode : ∀ p, (e.port p).tryMode = (d.port p).tryMode

theorem Dev.FramesOnly.refl (d : Dev) : d.FramesOnly d := ⟨rfl, rfl, rfl, rfl, rfl, rfl, fun _ => rfl⟩

theorem Dev.FramesOnly.trans {a b c : Dev} (h : a.FramesOnly b) (k : b.FramesOnly c) : a.FramesOnly c where
  regs := k.regs.trans h.regs
  counters := k.counters.trans h.counters
  tim := k.tim.trans h.tim
  outs := k.outs.trans h.outs
  pairStep := k.pairStep.trans h.pairStep
  pairCfg := k.pairCfg.trans h.pairCfg
  tryMode p := (k.tryMode p).trans (h.tryMode p)

theorem Dev.modPort_pair (d : Dev) (p : PortId) (f : EthPort → EthPort) :
    (d.modPort p f).eth.pairStep = d.eth.pairStep ∧ (d.modPort p f).eth.pairCfg = d.eth.pairCfg ∧
      (d.modPort p f).eth.moving = d.eth.moving :=
  match p with
  | 0 => ⟨rfl, rfl, rfl⟩
  | 1 => ⟨rfl, rfl, rfl⟩

theorem Dev.FramesOnly.modPort (d : Dev) (p : PortId) {f : EthPort → EthPort} (hf : ∀ x, (f x).tryMode = x.tryMode) :
    d.FramesOnly (d.modPort p f) where
  regs := modPort_regs d p f
  counters := modPort_counters d p f
  tim := modPort_tim d p f
  outs := modPort_outs d p f
  pairStep := (d.modPort_pair p f).1
  pairCfg := (d.modPort_pair p f).2.1
  tryMode q := by
    by_cases h : q = p
    · rw [h, Dev.port_modPort_self, hf]
    · rw [Dev.port_modPort_ne _ _ h]

theorem Dev.FramesOnly.foldl {α : Type} {f : Dev → α → Dev} (hf : ∀ (d : Dev) a, d.FramesOnly (f d a)) (l : List α) (d : Dev) :
    d.FramesOnly (l.foldl f d) := by
  induction l generalizing d with
  | nil => exact .refl d
  | cons a t ih => exact (hf d a).trans (ih _)

theorem Dev.FramesOnly.pairOn {d e : Dev} (h : d.FramesOnly e) : e.pairOn = d.pairOn := by
  unfold Dev.pairOn Dev.pairWord
  rw [h.pairCfg, Dev.reg_congr h.regs]

theorem Dev.FramesOnly.setQueue (d : Dev) (p : PortId) (q : Nat) (x : EgQueue) : d.FramesOnly (d.setQueue p q x) :=
  .modPort d p fun _ => rfl

theorem Dev.FramesOnly.mapFrames (d : Dev) (p : PortId) (f : EgFrame → EgFrame) : d.FramesOnly (d.mapFrames p f) :=
  .modPort d p fun _ => rfl

/-- A frame that no flow move holds back or waits for. -/
def EgFrame.freed (f : EgFrame) : EgFrame := { f with held := false, marked := false }

theorem Dev.moveOver_eq (d : Dev) : d.moveOver = { (d.mapFrames 0 EgFrame.freed).mapFrames 1 EgFrame.freed with
    eth := { ((d.mapFrames 0 EgFrame.freed).mapFrames 1 EgFrame.freed).eth with moving := none } } := rfl

theorem Dev.port_mapFrames_ne (d : Dev) {p q : PortId} (f : EgFrame → EgFrame) (h : q ≠ p) :
    (d.mapFrames p f).port q = d.port q := Dev.port_modPort_ne d _ h

/-- Without `moving` a port reads the same. -/
theorem Dev.port_moving (d : Dev) (m : Option FlowMove) (p : PortId) :
    ({ d with eth := { d.eth with moving := m } } : Dev).port p = d.port p :=
  match p with
  | 0 => rfl
  | 1 => rfl

theorem Dev.FramesOnly.moving (d : Dev) (m : Option FlowMove) :
    d.FramesOnly { d with eth := { d.eth with moving := m } } :=
  ⟨rfl, rfl, rfl, rfl, rfl, rfl, fun p => congrArg EthPort.tryMode (d.port_moving m p)⟩

theorem Dev.FramesOnly.moveOver (d : Dev) : d.FramesOnly d.moveOver :=
  ((Dev.FramesOnly.mapFrames d 0 _).trans (.mapFrames _ 1 _)).trans (.moving _ none)

/-- The other member's frames are still what they were when one member's are changed, so a port's frames are changed once. -/
theorem Dev.port_moveOver (d : Dev) (p : PortId) : d.moveOver.port p = (d.mapFrames p EgFrame.freed).port p := by
  rw [Dev.moveOver_eq, Dev.port_moving]
  by_cases h : p = 1
  · subst h
    unfold Dev.mapFrames
    rw [Dev.port_modPort_self, Dev.port_modPort_self, Dev.port_modPort_ne _ _ (by decide)]
  · rw [Dev.port_mapFrames_ne _ _ h, eq_zero_of_ne_one h]

theorem Dev.queue_moveOver_mem (d : Dev) (p : PortId) (q : Nat) :
    ∀ f ∈ (d.moveOver.queue p q).frames, f.held = false ∧ f.marked = false := by
  rw [Dev.queue_congr (d.port_moveOver p)]
  unfold Dev.queue Dev.mapFrames
  rw [Dev.port_modPort_self]
  refine Sparse.foldl_put_frames (g := fun x => { x with frames := x.frames.map EgFrame.freed })
    (P := fun f => f.held = false ∧ f.marked = false) (fun x f hf => ?_) _ _ ?_ q
  · obtain ⟨y, _, rfl⟩ := List.mem_map.mp hf
    exact ⟨rfl, rfl⟩
  · exact fun _ _ h => absurd h List.not_mem_nil

theorem Dev.queue_moveOver (d : Dev) (p : PortId) {q : Nat} (h : Sparse.Once (d.port p).queues q) :
    (d.moveOver.queue p q).frames = (d.queue p q).frames.map EgFrame.freed := by
  rw [Dev.queue_congr (d.port_moveOver p)]
  unfold Dev.queue Dev.mapFrames
  rw [Dev.port_modPort_self]
  exact congrArg EgQueue.frames
    (Sparse.foldl_put_once (g := fun x => { x with frames := x.frames.map EgFrame.freed }) rfl _ _ q h rfl)

theorem Dev.sending_moveOver (d : Dev) (p : PortId) (h : (d.port p).sending = none) : (d.moveOver.port p).sending = none := by
  rw [d.port_moveOver p]
  unfold Dev.mapFrames
  rw [Dev.port_modPort_self, h]
  rfl

/-! ## Frames that are dropped -/

theorem Dev.Book.txDone (d : Dev) (ring index epoch status : Nat) (seq : Byte) : d.Book (d.txDone ring index epoch status seq) := by
  unfold Dev.txDone
  refine .ite (.refl d) ?_
  exact (((Dev.Book.hostWrite d _ _).trans (.setRing _ _ _)).trans (.bump _ _ 1 (by unfold bookCnt; decide))).trans (.signal _ _)

theorem Dev.Book.copyEnd (d : Dev) (src : FrameSrc) (ok long : Bool) : d.Book (d.copyEnd src ok long) := by
  unfold Dev.copyEnd
  split
  · dsimp only
    split
    · exact .refl d
    · exact .ite ((Dev.Book.hif d _).trans (.txDone _ _ _ _ _ _)) (.hif d _)
  · exact .refl d

/-- From `d` to `e` frames have been dropped: their copies have ended, and DROP_LINK_DOWN has counted them. -/
structure Dev.Dropped (d e : Dev) : Prop where
  eth : e.eth = d.eth
  reg : ∀ a, ¬ bookAddr a → e.reg a = d.reg a
  counter : ∀ c, ¬ bookCnt c → c ≠ Cnt.dropLinkDown 0 → c ≠ Cnt.dropLinkDown 1 → e.counter c = d.counter c

/-- A port without a frame. -/
def EthPort.emptied (x : EthPort) : EthPort :=
  { x with
    sending := none
    queues := x.queues.foldl (fun (t : Sparse EgQueue) (q : Nat × EgQueue) =>
      Sparse.put emptyQueue t q.1 { q.2 with frames := [], deficit := 0 }) [] }

theorem EthPort.emptied_frames (x : EthPort) (q : Nat) : (Sparse.get emptyQueue x.emptied.queues q).frames = [] :=
  List.eq_nil_iff_forall_not_mem.mpr
    (Sparse.foldl_put_frames (g := fun q => { q with frames := [], deficit := 0 }) (P := fun _ => False)
      (fun _ _ h => absurd h List.not_mem_nil) _ _ (fun _ _ h => absurd h List.not_mem_nil) q)

theorem Dev.Dropped.foldl (p : PortId) (l : List EgFrame) (d : Dev) :
    d.Dropped (l.foldl (fun d f => (d.bump (Cnt.dropLinkDown p)).copyEnd f.src false false) d) := by
  induction l generalizing d with
  | nil => exact ⟨rfl, fun _ _ => rfl, fun _ _ _ _ => rfl⟩
  | cons f t ih =>
    have hc := Dev.Book.copyEnd (d.bump (Cnt.dropLinkDown p)) f.src false false
    obtain ⟨heth, hreg, hcnt⟩ := ih ((d.bump (Cnt.dropLinkDown p)).copyEnd f.src false false)
    refine ⟨heth.trans hc.eth, fun a ha => (hreg a ha).trans (hc.reg a ha), fun c hb h0 h1 => ?_⟩
    refine (hcnt c hb h0 h1).trans ((hc.counter c hb).trans ((Dev.counter_bumpBy ..).trans (if_neg fun hcp => ?_)))
    by_cases hp : p = 1
    · exact h1 (by rw [hcp, hp]; rfl)
    · exact h0 (by rw [hcp, eq_zero_of_ne_one hp]; rfl)

theorem Dev.flushPort_dropped (d : Dev) (p : PortId) : (d.modPort p EthPort.emptied).Dropped (d.flushPort p) :=
  Dev.Dropped.foldl p _ _

/-- What the drop of a port's frames leaves. -/
theorem Dev.flushPort_shows (d : Dev) (p : PortId) :
    (∀ a, ¬ bookAddr a → (d.flushPort p).reg a = d.reg a) ∧ (d.flushPort p).port p = (d.port p).emptied ∧
      (d.flushPort p).eth.pairStep = d.eth.pairStep ∧
      ∀ c, ¬ bookCnt c → c ≠ Cnt.dropLinkDown 0 → c ≠ Cnt.dropLinkDown 1 → (d.flushPort p).counter c = d.counter c := by
  have h := d.flushPort_dropped p
  refine ⟨fun a ha => (h.reg a ha).trans (Dev.reg_congr (modPort_regs d p _) a), ?_, ?_, fun c hb h0 h1 => ?_⟩
  · exact (Dev.port_congr h.eth p).trans (Dev.port_modPort_self ..)
  · rw [h.eth]
    exact (d.modPort_pair p _).1
  · exact (h.counter c hb h0 h1).trans (Dev.counter_congr (modPort_counters d p _) c)

end Sys2Proof.Machine
end

section
/-! # A link that is lost -/

namespace Sys2Proof.Machine

/-- A port whose link is lost: nothing pauses it, and nothing waits in its pause. -/
def EthPort.unlinked (c : Nat) (x : EthPort) : EthPort :=
  { x with pauseLeft := 0, pauseQ := [], xoffIntervals := 0, busyUntil := c }

theorem ethStat_chg_separate_link (p : PortId) : (Reg.ethStat_link_chg p).separate (Reg.ethStat_link p) = true := by
  revert p
  decide

theorem linkDown_ne_pausedUs (p : PortId) : Cnt.linkDown p ≠ Cnt.pausedUs p := by revert p; decide

theorem not_bookCnt_linkDown (p : PortId) : ¬ bookCnt (Cnt.linkDown p) := by
  revert p
  unfold bookCnt
  decide

theorem linkDown_ne_dropLinkDown (p o : PortId) : Cnt.linkDown p ≠ Cnt.dropLinkDown o := by
  revert p o
  decide

theorem Dev.countPaused_counter (d : Dev) (p : PortId) {c : Nat} (h : c ≠ Cnt.pausedUs p) :
    (d.countPaused p).counter c = d.counter c := by
  unfold Dev.countPaused
  split
  · exact (Dev.counter_bumpBy ..).trans (if_neg h)
  · rfl

/-- The mask that a lost link leaves of ETH_STAT holds no bit of LINK. -/
theorem Field.of_and_zero (f : Field) (v : Word) {m : Word} (h : f.of m = 0) : f.of (v &&& m) = 0 := by
  unfold Field.of at h ⊢
  rw [BitVec.toNat_and, Nat.shiftRight_and_distrib, Nat.and_mod_two_pow, h, Nat.and_zero]

/-- What a port whose link is lost leaves and shows. -/
structure Dev.LinkLost (d : Dev) (p : PortId) (e : Dev) : Prop where
  reg : ∀ a, ¬ bookAddr a → a ≠ Reg.ethStat p → e.reg a = d.reg a
  down : e.linkUp p = false
  chg : e.bit (Reg.ethStat_link_chg p) = true
  counter : ∀ c, ¬ bookCnt c → c ≠ Cnt.linkDown p → c ≠ Cnt.pausedUs p → e.counter c = d.counter c
  counted : e.counter (Cnt.linkDown p) = d.counter (Cnt.linkDown p) + 1
  eth : e.eth = (d.modPort p (EthPort.unlinked d.tim.cyc)).eth
  tim : e.tim = d.tim

theorem Dev.countPaused_tim (d : Dev) (p : PortId) : (d.countPaused p).tim = d.tim := by
  unfold Dev.countPaused
  split
  · rfl
  · rfl

theorem Dev.modPort_eth_congr {d e : Dev} (h : e.eth = d.eth) (p : PortId) (f : EthPort → EthPort) :
    (e.modPort p f).eth = (d.modPort p f).eth := by
  unfold Dev.modPort
  rw [Dev.port_congr h]
  match p with
  | 0 => exact congrArg (fun x : Eth => { x with p0 := f (d.port 0) }) h
  | 1 => exact congrArg (fun x : Eth => { x with p1 := f (d.port 1) }) h

theorem Dev.linkLost_shows {d : Dev} {p : PortId} (h : d.linkUp p = true) : d.LinkLost p (d.linkLost p) := by
  unfold Dev.linkLost
  rw [if_neg (by rw [h]; decide)]
  obtain ⟨hregs, heth⟩ := d.countPaused_frame p
  have htim := d.countPaused_tim p
  have hcnt : ∀ c, c ≠ Cnt.pausedUs p → (d.countPaused p).counter c = d.counter c := fun c => d.countPaused_counter p
  generalize d.countPaused p = x at hregs heth htim hcnt ⊢
  dsimp only
  obtain ⟨y, hy⟩ : ∃ y, y = x.setReg (Reg.ethStat p) (d.reg (Reg.ethStat p) &&& 0x0000004C) := ⟨_, rfl⟩
  have hyeth : y.eth = d.eth := (congrArg Dev.eth hy).trans heth
  have hytim : y.tim = d.tim := (congrArg Dev.tim hy).trans htim
  have hycnt : y.counters = x.counters := by
    rw [hy]
    rfl
  have hyreg : ∀ a, a ≠ Reg.ethStat p → y.reg a = d.reg a := fun a ha => by
    rw [hy, Dev.reg_setReg_ne _ ha, Dev.reg_congr hregs]
  have hylink : y.linkUp p = false := by
    unfold Dev.linkUp Dev.bit
    rw [hy, show Reg.ethStat p = (Reg.ethStat_link p).addr from rfl, Dev.fld_setReg_self,
      Field.of_and_zero _ _ (by clear * -; revert p; decide)]
    rfl
  rw [← hy, hytim]
  obtain ⟨z, hz⟩ : ∃ z, z = (y.modPort p (EthPort.unlinked d.tim.cyc)).raise (Reg.ethStat_link_chg p) := ⟨_, rfl⟩
  have hzreg : ∀ a, a ≠ Reg.ethStat p → z.reg a = d.reg a := fun a ha => by
    rw [hz]
    exact (Dev.reg_setFld_ne _ _ _ _ ha).trans ((Dev.reg_congr (modPort_regs y p _) a).trans (hyreg a ha))
  have hzlink : z.linkUp p = false := by
    rw [hz]
    exact (Dev.bit_setFld_of_separate _ _ _ _ (ethStat_chg_separate_link p)).trans ((y.bit_modPort p _ _).trans hylink)
  have hzchg : z.bit (Reg.ethStat_link_chg p) = true := by
    rw [hz]
    exact Dev.bit_raise_self _ _ ⟨(by decide : 3 + 1 ≤ 32), rfl⟩
  have hzeth : z.eth = (d.modPort p (EthPort.unlinked d.tim.cyc)).eth := by
    rw [hz]
    exact Dev.modPort_eth_congr hyeth p _
  have hztim : z.tim = d.tim := by
    rw [hz]
    exact (modPort_tim y p _).trans hytim
  have hzcnt : ∀ c, c ≠ Cnt.pausedUs p → z.counter c = d.counter c := fun c hc => by
    rw [hz]
    exact (Dev.counter_raise _ _ c).trans ((Dev.counter_congr (modPort_counters y p _) c).trans
      ((Dev.counter_congr hycnt c).trans (hcnt c hc)))
  show d.LinkLost p (((((y.modPort p (EthPort.unlinked d.tim.cyc)).raise (Reg.ethStat_link_chg p)).bump (Cnt.linkDown p)).event
    0x0013 0 [(8, [byte p, 0])]))
  rw [← hz]
  clear hz hy
  have he := Dev.Book.event (z.bump (Cnt.linkDown p)) 0x0013 0 [(8, [byte p, 0])]
  generalize (z.bump (Cnt.linkDown p)).event 0x0013 0 [(8, [byte p, 0])] = e at he ⊢
  have hereg : ∀ a, ¬ bookAddr a → e.reg a = z.reg a := fun a ha => he.reg a ha
  exact {
    reg := fun a ha h => (hereg a ha).trans (hzreg a h)
    down := (Dev.bit_of_reg (f := Reg.ethStat_link p) (hereg _ (not_bookAddr_ethStat p))).trans hzlink
    chg := (Dev.bit_of_reg (f := Reg.ethStat_link_chg p) (hereg _ (not_bookAddr_ethStat p))).trans hzchg
    counter := fun c hb h0 h1 => (he.counter c hb).trans ((Dev.counter_bumpBy ..).trans ((if_neg h0).trans (hzcnt c h1)))
    counted := (he.counter _ (not_bookCnt_linkDown p)).trans ((z.counter_bump_self _).trans
      (congrArg (· + 1) (hzcnt _ (linkDown_ne_pausedUs p))))
    eth := he.eth.trans hzeth
    tim := he.tim.trans hztim }

section
variable {d e : Dev} {p : PortId} (h : d.LinkLost p e)
include h

theorem Dev.LinkLost.port_self : e.port p = (d.port p).unlinked d.tim.cyc :=
  (Dev.port_congr h.eth p).trans (Dev.port_modPort_self ..)

/-- The frames of both ports stay. -/
theorem Dev.LinkLost.frames (o : PortId) : (e.port o).queues = (d.port o).queues ∧ (e.port o).sending = (d.port o).sending ∧
    (e.port o).tryMode = (d.port o).tryMode := by
  by_cases ho : o = p
  · subst ho
    rw [h.port_self]
    exact ⟨rfl, rfl, rfl⟩
  · rw [Dev.port_congr h.eth o, Dev.port_modPort_ne _ _ ho]
    exact ⟨rfl, rfl, rfl⟩

theorem Dev.LinkLost.pair : e.eth.pairStep = d.eth.pairStep ∧ e.eth.pairCfg = d.eth.pairCfg := by
  rw [h.eth]
  exact ⟨(d.modPort_pair p _).1, (d.modPort_pair p _).2.1⟩

theorem Dev.LinkLost.pairOn : e.pairOn = d.pairOn := by
  have hr : e.reg Reg.ethPaircfg = d.reg Reg.ethPaircfg :=
    h.reg _ (by unfold bookAddr; decide) (by clear * -; revert p; decide)
  unfold Dev.pairOn Dev.pairWord
  rw [h.pair.2, hr]

end

theorem Dev.retryPort_of_none {d : Dev} {p : PortId} (h : (d.port p).tryMode = none) : d.retryPort p = d :=
  if_neg (by rw [h]; exact Bool.false_ne_true)

/-! ## Outside the pair -/

theorem Dev.linkDown_alone {d : Dev} {p : PortId} (hl : d.linkUp p = true) (ht : (d.port p).tryMode = none)
    (hp : d.pairOn = false) :
    ∃ e, (d.linkDown p).retryPort p = e ∧ e.linkUp p = false ∧ e.bit (Reg.ethStat_link_chg p) = true ∧
      (e.port p).sending = none ∧ (∀ q, (e.queue p q).frames = []) ∧
      e.counter (Cnt.linkDown p) = d.counter (Cnt.linkDown p) + 1 := by
  have hlost := Dev.linkLost_shows hl
  unfold Dev.linkDown
  rw [if_neg (by rw [hl]; decide)]
  dsimp only
  generalize d.linkLost p = x at hlost ⊢
  rw [if_neg (by rw [hlost.pairOn, hp]; decide)]
  obtain ⟨hreg, hport, -, hcnt⟩ := x.flushPort_shows p
  generalize x.flushPort p = e at hreg hport hcnt ⊢
  have htry : (e.port p).tryMode = none := by
    rw [hport]
    exact (hlost.frames p).2.2.trans ht
  refine ⟨e, Dev.retryPort_of_none htry, ?_, ?_, by rw [hport]; rfl, fun q => ?_, ?_⟩
  · exact (Dev.bit_of_reg (f := Reg.ethStat_link p) (hreg _ (not_bookAddr_ethStat p))).trans hlost.down
  · exact (Dev.bit_of_reg (f := Reg.ethStat_link_chg p) (hreg _ (not_bookAddr_ethStat p))).trans hlost.chg
  · unfold Dev.queue
    rw [hport]
    exact EthPort.emptied_frames _ q
  · exact (hcnt _ (not_bookCnt_linkDown p) (linkDown_ne_dropLinkDown p 0) (linkDown_ne_dropLinkDown p 1)).trans hlost.counted

/-! ## In the pair: the other member takes the frames -/

/-- One queue of a failed member goes to the head of the other's. -/
def Dev.failQueue (p : PortId) (sent : Option (Nat × EgFrame)) (d : Dev) (q : Nat) : Dev :=
  let head := match sent with | some (k, f) => if k = q then [f] else [] | none => []
  let l := (head ++ (d.queue p q).frames).map EgFrame.freed
  (d.setQueue (otherPort p) q { d.queue (otherPort p) q with frames := l ++ (d.queue (otherPort p) q).frames }).setQueue p q
    { d.queue p q with frames := [] }

theorem Dev.memberFailover_eq (d : Dev) (p : PortId) : d.memberFailover p =
    (((((List.range 8).foldl (Dev.failQueue p (d.port p).sending) d).modPort p fun x => { x with sending := none }).moveOver).bump
      Cnt.linkFailover).faultEvent 5 p := rfl

theorem otherPort_ne (p : PortId) : otherPort p ≠ p := by revert p; decide

theorem Dev.FramesOnly.failQueue (p : PortId) (sent : Option (Nat × EgFrame)) (d : Dev) (q : Nat) :
    d.FramesOnly (d.failQueue p sent q) := (Dev.FramesOnly.setQueue d _ _ _).trans (.setQueue _ _ _ _)

theorem Dev.failQueue_ne (p : PortId) (sent : Option (Nat × EgFrame)) (d : Dev) {q r : Nat} (h : r ≠ q) (o : PortId) :
    (d.failQueue p sent q).queue o r = d.queue o r := by
  unfold Dev.failQueue
  rw [Dev.queue_setQueue_ne _ _ _ _ fun k => h k.2, Dev.queue_setQueue_ne _ _ _ _ fun k => h k.2]

theorem Dev.failQueue_self {p : PortId} {sent : Option (Nat × EgFrame)} {q : Nat} (h : ∀ k f, sent = some (k, f) → k ≠ q) (d : Dev) :
    ((d.failQueue p sent q).queue (otherPort p) q).frames =
      (d.queue p q).frames.map EgFrame.freed ++ (d.queue (otherPort p) q).frames := by
  unfold Dev.failQueue
  rw [Dev.queue_setQueue_ne _ _ _ _ fun k => otherPort_ne p k.1, Dev.queue_setQueue_self]
  cases sent with
  | none => rfl
  | some s =>
    dsimp only
    rw [if_neg (h s.1 s.2 rfl)]
    rfl

theorem Dev.queues_setQueue_self (d : Dev) (p : PortId) (q : Nat) (x : EgQueue) :
    ((d.setQueue p q x).port p).queues = Sparse.put emptyQueue (d.port p).queues q x := by
  unfold Dev.setQueue
  rw [Dev.port_modPort_self]

theorem Dev.queues_setQueue_ne (d : Dev) {p o : PortId} (q : Nat) (x : EgQueue) (h : o ≠ p) :
    ((d.setQueue p q x).port o).queues = (d.port o).queues := by
  unfold Dev.setQueue
  rw [Dev.port_modPort_ne _ _ h]

theorem Dev.failQueue_queues (p : PortId) (sent : Option (Nat × EgFrame)) (d : Dev) (q : Nat) :
    ∃ x, ((d.failQueue p sent q).port (otherPort p)).queues = Sparse.put emptyQueue (d.port (otherPort p)).queues q x := by
  unfold Dev.failQueue
  rw [Dev.queues_setQueue_ne _ _ _ (otherPort_ne p), Dev.queues_setQueue_self]
  exact ⟨_, rfl⟩

/-- The other member's queue after the failover of a list of queues. -/
theorem Dev.failQueues_shows {p : PortId} {sent : Option (Nat × EgFrame)} {q : Nat} (hs : ∀ k f, sent = some (k, f) → k ≠ q)
    (l : List Nat) (hn : l.Nodup) (d : Dev) :
    let e := l.foldl (Dev.failQueue p sent) d
    (q ∉ l → e.queue p q = d.queue p q ∧ e.queue (otherPort p) q = d.queue (otherPort p) q) ∧
    (Sparse.Once (d.port (otherPort p)).queues q → Sparse.Once (e.port (otherPort p)).queues q) ∧
    (q ∈ l → (e.queue (otherPort p) q).frames = (d.queue p q).frames.map EgFrame.freed ++ (d.queue (otherPort p) q).frames ∧
      Sparse.Once (e.port (otherPort p)).queues q) := by
  induction l generalizing d with
  | nil => exact ⟨fun _ => ⟨rfl, rfl⟩, id, fun h => absurd h List.not_mem_nil⟩
  | cons r t ih =>
    obtain ⟨hr, hn⟩ := List.nodup_cons.mp hn
    obtain ⟨hout, honce, hin⟩ := ih hn (d.failQueue p sent r)
    obtain ⟨x, hx⟩ := d.failQueue_queues p sent r
    intro e
    have he : e = t.foldl (Dev.failQueue p sent) (d.failQueue p sent r) := rfl
    clear_value e
    rw [he]
    refine ⟨fun hq => ?_, fun h => honce ?_, fun hq => ?_⟩
    · have hne : q ≠ r := fun h => hq (by rw [h]; exact List.mem_cons_self)
      obtain ⟨h1, h2⟩ := hout fun h => hq (List.mem_cons_of_mem r h)
      exact ⟨h1.trans (Dev.failQueue_ne _ _ _ hne p), h2.trans (Dev.failQueue_ne _ _ _ hne _)⟩
    · rw [hx]
      by_cases hqr : r = q
      · rw [hqr]
        exact .put_self _ _ _
      · exact h.put_ne hqr x
    · by_cases hqr : q = r
      · subst hqr
        refine ⟨?_, honce ?_⟩
        · rw [(hout hr).2, Dev.failQueue_self hs]
        · rw [hx]
          exact .put_self _ _ _
      · obtain ⟨h1, h2⟩ := hin ((List.mem_cons.mp hq).resolve_left hqr)
        refine ⟨h1.trans ?_, h2⟩
        rw [Dev.failQueue_ne _ _ _ hqr, Dev.failQueue_ne _ _ _ hqr]

theorem Dev.faultEvent_book (d : Dev) (cls part : Nat) : ({ d with freeCtr := d.freeCtr + 1 } : Dev).Book (d.faultEvent cls part) :=
  .event _ _ _ _

theorem map_bytes_freed (l : List EgFrame) : (l.map EgFrame.freed).map (fun f => f.bytes) = l.map fun f => f.bytes :=
  List.map_map.trans (List.map_congr_left fun _ _ => rfl)

/-- What a failover leaves and shows. -/
theorem Dev.memberFailover_shows (d : Dev) (p : PortId) :
    let e := d.memberFailover p
    (∀ a, ¬ bookAddr a → e.reg a = d.reg a) ∧ e.eth.pairStep = d.eth.pairStep ∧ (∀ o, (e.port o).tryMode = (d.port o).tryMode) ∧
      (e.port p).sending = none ∧ e.counter Cnt.linkFailover = d.counter Cnt.linkFailover + 1 ∧
      ∀ q, q < 8 → (∀ k f, (d.port p).sending = some (k, f) → k ≠ q) →
        ((e.queue (otherPort p) q).frames.map fun f => f.bytes) =
          ((d.queue p q).frames.map fun f => f.bytes) ++ (d.queue (otherPort p) q).frames.map fun f => f.bytes := by
  rw [Dev.memberFailover_eq]
  have hfold := fun q hs => Dev.failQueues_shows (p := p) (sent := (d.port p).sending) (q := q) hs (List.range 8) List.nodup_range d
  have hframes : d.FramesOnly ((List.range 8).foldl (Dev.failQueue p (d.port p).sending) d) :=
    .foldl (fun d q => .failQueue p _ d q) _ d
  generalize (List.range 8).foldl (Dev.failQueue p (d.port p).sending) d = x at hfold hframes ⊢
  obtain ⟨y, hy⟩ : ∃ y, y = x.modPort p fun z => { z with sending := none } := ⟨_, rfl⟩
  have hyf : x.FramesOnly y := by
    rw [hy]
    exact .modPort x p fun _ => rfl
  have hysend : (y.port p).sending = none := by
    rw [hy, Dev.port_modPort_self]
  have hyport : y.port (otherPort p) = x.port (otherPort p) := by
    rw [hy, Dev.port_modPort_ne _ _ (otherPort_ne p)]
  rw [← hy]
  clear hy
  have hz := (hframes.trans hyf).trans (.moveOver y)
  have hzsend := y.sending_moveOver p hysend
  have hzqueue := fun q => y.queue_moveOver (otherPort p) (q := q)
  generalize y.moveOver = z at hz hzsend hzqueue ⊢
  have he := (z.bump Cnt.linkFailover).faultEvent_book 5 p
  generalize (z.bump Cnt.linkFailover).faultEvent 5 p = e at he ⊢
  have heth : e.eth = z.eth := he.eth
  intro e'
  have he' : e' = e := rfl
  clear_value e'
  subst he'
  refine ⟨fun a ha => (he.reg a ha).trans (Dev.reg_congr hz.regs a), ?_, fun o => ?_, ?_, ?_, fun q hq hs => ?_⟩
  · rw [heth]
    exact hz.pairStep
  · rw [Dev.port_congr heth]
    exact hz.tryMode o
  · rw [Dev.port_congr heth]
    exact hzsend
  · refine (he.counter _ (by unfold bookCnt; decide)).trans ((z.counter_bump_self _).trans ?_)
    rw [Dev.counter_congr hz.counters]
  · obtain ⟨-, -, hin⟩ := hfold q hs
    obtain ⟨hfr, honce⟩ := hin (List.mem_range.mpr hq)
    rw [Dev.queue_congr (Dev.port_congr heth _), hzqueue q (by rw [hyport]; exact honce), map_bytes_freed,
      Dev.queue_congr hyport, hfr, List.map_append, map_bytes_freed]

theorem Dev.linkDown_paired {d : Dev} {p : PortId} (hl : d.linkUp p = true) (ht : (d.port p).tryMode = none)
    (hp : d.pairOn = true) (hs : d.eth.pairStep = none) :
    ∃ e, (d.linkDown p).retryPort p = e ∧ e.linkUp p = false ∧ (e.port p).sending = none ∧
      e.counter Cnt.linkFailover = d.counter Cnt.linkFailover + 1 ∧
      ∀ q, q < 8 → (∀ k f, (d.port p).sending = some (k, f) → k ≠ q) →
        ((e.queue (otherPort p) q).frames.map fun f => f.bytes) =
          ((d.queue p q).frames.map fun f => f.bytes) ++ (d.queue (otherPort p) q).frames.map fun f => f.bytes := by
  have hlost := Dev.linkLost_shows hl
  unfold Dev.linkDown
  rw [if_neg (by rw [hl]; decide)]
  dsimp only
  generalize d.linkLost p = x at hlost ⊢
  rw [if_pos (by rw [hlost.pairOn, hp])]
  obtain ⟨hreg, hstep, htry, hsend, hcnt, hq⟩ := x.memberFailover_shows p
  generalize x.memberFailover p = e at hreg hstep htry hsend hcnt hq ⊢
  have hfail : e.stepFailure p = e := by
    unfold Dev.stepFailure
    rw [hstep, hlost.pair.1, hs]
  rw [hfail]
  refine ⟨e, Dev.retryPort_of_none ((htry p).trans ((hlost.frames p).2.2.trans ht)), ?_, hsend, ?_, fun q hq8 hk => ?_⟩
  · exact (Dev.bit_of_reg (f := Reg.ethStat_link p) (hreg _ (not_bookAddr_ethStat p))).trans hlost.down
  · rw [hcnt, hlost.counter _ (by unfold bookCnt; decide) (by clear * -; revert p; decide) (by clear * -; revert p; decide)]
  · have hqueue (o : PortId) : (x.queue o q).frames = (d.queue o q).frames := by
      unfold Dev.queue
      rw [(hlost.frames o).1]
    rw [hq q hq8 (by rw [(hlost.frames p).2.1]; exact hk), hqueue, hqueue]

end Sys2Proof.Machine
end

section
/-! # Links that come up, the pair's steps, MDIO, aging and restored entries (O54) -/

namespace Sys2Proof.Machine

/-! ## A link that comes up -/

theorem ethStat_rate_separate_link (p : PortId) : (Reg.ethStat_rate p).separate (Reg.ethStat_link p) = true ∧
    (Reg.ethStat_an_done p).separate (Reg.ethStat_link p) = true ∧
    (Reg.ethStat_an_done p).separate (Reg.ethStat_rate p) = true := by
  revert p
  decide

theorem ethStat_ne_ethPaircfg (p : PortId) : Reg.ethPaircfg ≠ Reg.ethStat p := by revert p; decide

theorem Dev.linkIsUp_alone {d : Dev} {p : PortId} (hl : d.linkUp p = false) (h3 : 3 ≤ d.fld (Reg.ethCfg_mode p))
    (h4 : d.fld (Reg.ethCfg_mode p) ≤ 4) (hp : d.pairOn = false) :
    ∃ e, d.linkIsUp p = e ∧ e.linkUp p = true ∧ e.fld (Reg.ethStat_rate p) = d.fld (Reg.ethCfg_mode p) ∧
      e.bit (Reg.ethStat_an_done p) = true ∧ e.port p = d.port p := by
  have hm : d.modeOf p = d.fld (Reg.ethCfg_mode p) := if_pos h4
  unfold Dev.linkIsUp
  rw [hm]
  generalize d.fld (Reg.ethCfg_mode p) = m at h3 h4
  dsimp only
  have hoff : ¬ (d.linkUp p = true ∨ m = 0 ∨ m ≤ 2 ∧ d.fld Reg.pwrState_state = 1) := by
    rw [hl]
    rintro (h | h | ⟨h, -⟩)
    · exact nomatch h
    · omega
    · omega
  rw [if_neg hoff, decide_eq_true h3]
  obtain ⟨hs1, hs2, hs3⟩ := ethStat_rate_separate_link p
  obtain ⟨x, hx⟩ : ∃ x, x = ((d.raise (Reg.ethStat_link p)).setFld (Reg.ethStat_rate p) m).setBit (Reg.ethStat_an_done p) true :=
    ⟨_, rfl⟩
  have hxlink : x.linkUp p = true := by
    rw [hx]
    exact (Dev.bit_setFld_of_separate _ _ _ _ hs2).trans ((Dev.bit_setFld_of_separate _ _ _ _ hs1).trans
      (Dev.bit_raise_self _ _ ⟨(by decide : 0 + 1 ≤ 32), rfl⟩))
  have hxrate : x.fld (Reg.ethStat_rate p) = m := by
    rw [hx]
    refine (Dev.fld_setFld_of_separate _ _ _ _ hs3).trans ((Dev.fld_setFld_self _ _ _ (by decide : 16 + 3 ≤ 32)).trans ?_)
    exact Nat.mod_eq_of_lt (show m < 8 by omega)
  have hxdone : x.bit (Reg.ethStat_an_done p) = true := by
    rw [hx]
    exact Dev.bit_setBit_self _ _ _ ⟨(by decide : 1 + 1 ≤ 32), rfl⟩
  have hxpair : x.reg Reg.ethPaircfg = d.reg Reg.ethPaircfg := by
    rw [hx]
    exact (Dev.reg_setFld_ne _ _ _ _ (ethStat_ne_ethPaircfg p)).trans
      ((Dev.reg_setFld_ne _ _ _ _ (ethStat_ne_ethPaircfg p)).trans (Dev.reg_setFld_ne _ _ _ _ (ethStat_ne_ethPaircfg p)))
  have hxeth : x.eth = d.eth := by
    rw [hx]
    rfl
  rw [← hx]
  clear hx
  have he := Dev.Book.event x 0x0013 0 [(8, [byte p, byte m])]
  generalize x.event 0x0013 0 [(8, [byte p, byte m])] = e at he ⊢
  have heth : e.eth = d.eth := he.eth.trans hxeth
  have hpair : e.pairOn = false := by
    unfold Dev.pairOn Dev.pairWord at hp ⊢
    rw [heth, he.reg _ (by unfold bookAddr; decide), hxpair]
    exact hp
  rw [if_pos (by rw [hpair]; rfl)]
  exact ⟨e, rfl, (Dev.bit_of_reg (f := Reg.ethStat_link p) (he.reg _ (not_bookAddr_ethStat p))).trans hxlink,
    (congrArg (Field.of (Reg.ethStat_rate p)) (he.reg _ (not_bookAddr_ethStat p))).trans hxrate,
    (Dev.bit_of_reg (f := Reg.ethStat_an_done p) (he.reg _ (not_bookAddr_ethStat p))).trans hxdone, Dev.port_congr heth p⟩

/-! ## The load of a second -/

theorem en_eq_zero {w : Word} (h : (Reg.ethPaircfg_en.of w == 1) = false) : Reg.ethPaircfg_en.of w = 0 := by
  have h1 : Reg.ethPaircfg_en.of w ≠ 1 := fun k => by rw [k] at h; exact nomatch h
  have h2 : Reg.ethPaircfg_en.of w < 2 := Nat.mod_lt _ (by decide)
  omega

theorem Dev.judgeLoad_of_alone {d : Dev} (h : d.pairOn = false) (rx tx : Nat) : d.judgeLoad rx tx = d := by
  unfold Dev.judgeLoad
  exact if_pos (.inl (en_eq_zero h))

theorem Dev.port_eth (d : Dev) (s : Option PairStep) (c : Option Word) (p : PortId) :
    ({ d with eth := { d.eth with pairStep := s, pairCfg := c } } : Dev).port p = d.port p :=
  match p with
  | 0 => rfl
  | 1 => rfl

/-- The step of a member without a frame announces at once. -/
theorem Dev.startStep_of_empty {d : Dev} {p : PortId} {m : Nat} (hq : (d.port p).queues = []) (hs : (d.port p).sending = none) :
    (d.startStep p m).eth.pairStep = some ⟨p, .announce, m, d.fld (Reg.ethCfg_mode p), d.tim.cyc⟩ ∧
      (d.startStep p m).outs = .remoteFault p :: d.outs := by
  unfold Dev.startStep
  dsimp only
  generalize d.fld (Reg.ethCfg_mode p) = old
  obtain ⟨x, hx⟩ : ∃ x : Dev, x = { d with
    eth := { d.eth with pairStep := some ⟨p, .drain, m, old, d.tim.cyc⟩, pairCfg := some d.pairWord } } := ⟨_, rfl⟩
  have hxport : x.port p = d.port p := by
    rw [hx]
    exact d.port_eth _ _ p
  have hxtim : x.tim = d.tim := by rw [hx]
  have hxouts : x.outs = d.outs := by rw [hx]
  rw [← hx]
  clear hx
  have ho : otherPort (otherPort p) = p := by clear * -; revert p; decide
  obtain ⟨y, hy⟩ : ∃ y, y = x.startMove (otherPort p) p := ⟨_, rfl⟩
  have hyf : x.FramesOnly y := by
    rw [hy]
    exact (Dev.FramesOnly.mapFrames x _ _).trans (.moving _ _)
  have hyport : (y.port p).queues = [] ∧ (y.port p).sending = none := by
    have hport : y.port p = (x.mapFrames p fun f => { f with marked := true }).port p := by
      rw [hy]
      unfold Dev.startMove
      rw [ho]
      exact Dev.port_moving _ _ p
    rw [hport]
    unfold Dev.mapFrames
    rw [Dev.port_modPort_self, hxport, hq, hs]
    exact ⟨rfl, rfl⟩
  rw [← hy]
  clear hy
  have hmark : y.markedOn p = false := by
    unfold Dev.markedOn
    rw [hyport.1, hyport.2]
    rfl
  rw [if_neg (by rw [hmark]; decide)]
  have hz := hyf.trans (.moveOver y)
  generalize y.moveOver = z at hz
  unfold Dev.announce Dev.out
  dsimp only
  rw [hz.tim, hz.outs, hxtim, hxouts]
  exact ⟨rfl, rfl⟩

theorem Dev.judgeLoad_of_loaded {d : Dev} {rx tx : Nat} (hon : d.pairOn = true)
    (hen : Reg.ethPaircfg_step_en.of d.pairWord = 1) (hs : d.eth.pairStep = none) (hm : d.eth.moving = none)
    (h0 : d.fld (Reg.ethCfg_mode 0) = 2) (h1 : d.fld (Reg.ethCfg_mode 1) = 2) (l0 : d.linkUp 0 = true) (l1 : d.linkUp 1 = true)
    (hload : Reg.ethPaircfg_up_pct.of d.pairWord * 5000000000 < max rx tx * 100) :
    ∃ n, d.judgeLoad rx tx = ({ d with eth := { d.eth with below := n } } : Dev).startStep 1 1 := by
  have hon' : Reg.ethPaircfg_en.of d.pairWord = 1 := eq_of_beq hon
  unfold Dev.judgeLoad
  dsimp only
  rw [h0, h1, l0, l1, hs, hm, hen, hon']
  rw [if_neg (by decide)]
  exact ⟨_, if_pos ⟨by decide, hload⟩⟩

/-! ## The steps of the pair -/

theorem ethCfg_ne_ethStat (p o : PortId) : Reg.ethCfg p ≠ Reg.ethStat o := by
  revert p o
  decide

theorem not_bookAddr_ethPaircfg : ¬ bookAddr Reg.ethPaircfg := by unfold bookAddr; decide

theorem Dev.linkLost_down (d : Dev) (p : PortId) :
    (d.linkLost p).linkUp p = false ∧ (d.linkLost p).tim = d.tim := by
  cases hl : d.linkUp p with
  | true => exact ⟨(Dev.linkLost_shows hl).down, (Dev.linkLost_shows hl).tim⟩
  | false =>
    have h : d.linkLost p = d := by
      unfold Dev.linkLost
      exact if_pos (by rw [hl]; rfl)
    rw [h]
    exact ⟨hl, rfl⟩

/-- The end of the pair leaves the registers and the step. -/
theorem Dev.pairEnded_kept (d : Dev) (was : Bool) :
    (∀ a, ¬ bookAddr a → (d.pairEnded was).reg a = d.reg a) ∧ (d.pairEnded was).eth.pairStep = d.eth.pairStep := by
  unfold Dev.pairEnded
  split
  · exact ⟨fun _ _ => rfl, rfl⟩
  · have hm := Dev.FramesOnly.moveOver d
    generalize d.moveOver = x at hm
    have hone (y : Dev) (p : PortId) : (∀ a, ¬ bookAddr a → (if y.linkUp p then y else y.flushPort p).reg a = y.reg a) ∧
        (if y.linkUp p then y else y.flushPort p).eth.pairStep = y.eth.pairStep := by
      split
      · exact ⟨fun _ _ => rfl, rfl⟩
      · obtain ⟨hr, -, hs, -⟩ := y.flushPort_shows p
        exact ⟨hr, hs⟩
    rw [List.foldl_cons, List.foldl_cons, List.foldl_nil]
    obtain ⟨hr0, hs0⟩ := hone x 0
    generalize (if x.linkUp 0 then x else x.flushPort 0) = y at hr0 hs0
    obtain ⟨hr1, hs1⟩ := hone y 1
    exact ⟨fun a ha => (hr1 a ha).trans ((hr0 a ha).trans (Dev.reg_congr hm.regs a)), hs1.trans (hs0.trans hm.pairStep)⟩

theorem Dev.stepOver_kept (d : Dev) : (∀ a, ¬ bookAddr a → d.stepOver.reg a = d.reg a) ∧ d.stepOver.eth.pairStep = none :=
  Dev.pairEnded_kept { d with eth := { d.eth with pairStep := none, pairCfg := none, below := 0 } } d.pairOn

theorem not_bookAddr_ethMode (p : PortId) : ¬ bookAddr (Reg.ethCfg_mode p).addr := not_bookAddr_ethCfg p

theorem Dev.stepTimeout_shows (d : Dev) (p : PortId) {m : Nat} (hm : m < 8) :
    let e := (((d.setModeOf p m).raise (Reg.ethStat_rate_fail p)).setBit Reg.ethPaircfg_step_en false).stepOver
    e.fld (Reg.ethCfg_mode p) = m ∧ e.bit (Reg.ethStat_rate_fail p) = true ∧ e.bit Reg.ethPaircfg_step_en = false ∧
      e.eth.pairStep = none := by
  obtain ⟨x, hx⟩ : ∃ x, x = ((d.setModeOf p m).raise (Reg.ethStat_rate_fail p)).setBit Reg.ethPaircfg_step_en false := ⟨_, rfl⟩
  have hsep : (Reg.ethStat_rate_fail p).separate (Reg.ethCfg_mode p) = true ∧
      Reg.ethPaircfg_step_en.separate (Reg.ethCfg_mode p) = true ∧
      Reg.ethPaircfg_step_en.separate (Reg.ethStat_rate_fail p) = true := by
    clear * -
    revert p
    decide
  have hmode : x.fld (Reg.ethCfg_mode p) = m := by
    rw [hx]
    refine (Dev.fld_setFld_of_separate _ _ _ _ hsep.2.1).trans ((Dev.fld_setFld_of_separate _ _ _ _ hsep.1).trans
      ((Dev.fld_setFld_self _ _ _ (by decide : 16 + 3 ≤ 32)).trans ?_))
    exact Nat.mod_eq_of_lt hm
  have hfail : x.bit (Reg.ethStat_rate_fail p) = true := by
    rw [hx]
    exact (Dev.bit_setFld_of_separate _ _ _ _ hsep.2.2).trans (Dev.bit_raise_self _ _ ⟨(by decide : 2 + 1 ≤ 32), rfl⟩)
  have hen : x.bit Reg.ethPaircfg_step_en = false := by
    rw [hx]
    exact Dev.bit_setBit_self _ _ _
  rw [← hx]
  clear hx
  obtain ⟨hr, hs⟩ := x.stepOver_kept
  exact ⟨(congrArg (Field.of (Reg.ethCfg_mode p)) (hr _ (not_bookAddr_ethMode p))).trans hmode,
    (Dev.bit_of_reg (f := Reg.ethStat_rate_fail p) (hr _ (not_bookAddr_ethStat p))).trans hfail,
    (Dev.bit_of_reg (f := Reg.ethPaircfg_step_en) (hr _ not_bookAddr_ethPaircfg)).trans hen, hs⟩

/-! ## A mode that STANDALONE tries -/

theorem Dev.tryPort_shows {d : Dev} {p : PortId} {m : Nat} (hl : d.linkUp p = false) (hm : m < 8) :
    (d.tryPort p m).fld (Reg.ethCfg_mode p) = m ∧ ((d.tryPort p m).port p).tryMode = some m := by
  unfold Dev.tryPort
  generalize d.tim.cyc = c
  obtain ⟨x, hx⟩ : ∃ x, x = d.modPort p fun y => { y with tryMode := some m, tryFrom := c } := ⟨_, rfl⟩
  have hxport : (x.port p).tryMode = some m := by
    rw [hx, Dev.port_modPort_self]
  have hxlink : x.linkUp p = false := by
    rw [hx]
    exact (d.bit_modPort p _ _).trans hl
  rw [← hx]
  clear hx
  unfold Dev.ethCfgWrite
  dsimp only
  generalize d.reg (Reg.ethCfg p) = w
  obtain ⟨y, hy⟩ : ∃ y, y = x.setReg (Reg.ethCfg p) ((Reg.ethCfg_mode p).put w m &&& 0x00073FFF) := ⟨_, rfl⟩
  have hymode : y.fld (Reg.ethCfg_mode p) = m := by
    rw [hy]
    refine (x.fld_setReg_mask (Reg.ethCfg_mode p) _ ?_).trans
      ((Field.of_put_same _ _ _ (by decide : 16 + 3 ≤ 32)).trans (Nat.mod_eq_of_lt hm))
    clear * -
    revert p
    decide
  have hylink : y.linkUp p = false := by
    rw [hy]
    exact (Dev.bit_of_reg (f := Reg.ethStat_link p) (Dev.reg_setReg_ne _ (ethCfg_ne_ethStat p p).symm _)).trans hxlink
  have hyport : (y.port p).tryMode = some m := by
    rw [hy]
    exact (congrArg EthPort.tryMode (Dev.port_congr (d := x) rfl p)).trans hxport
  rw [← hy]
  unfold Dev.modeWritten
  rw [if_pos (.inr (by rw [hylink]; rfl))]
  exact ⟨hymode, hyport⟩

theorem Dev.modeTry_of_due {d e : Dev} {p : PortId} {m : Nat} (ht : (d.port p).tryMode = some m)
    (hs : d.devState = dsStandalone) (hl : d.linkUp p = false)
    (he : d.reachCycle ((d.port p).tryFrom + cyclesPerS) = some e) : d.modeTry p = e.tryPort p (m % 3 + 1) := by
  unfold Dev.modeTry
  rw [ht]
  dsimp only
  rw [if_neg (by rw [hs, hl]; decide), Dev.due_of_reached he]

/-! ## The aging sweep -/

/-- The MAC table swept to an entry. -/
def Dev.sweptMac (d : Dev) : Dev := { d with fwd := { d.fwd with macSwept := d.tim.cyc } }
/-- The IPv6 exact table swept to an entry. -/
def Dev.sweptIp6 (d : Dev) : Dev := { d with fwd := { d.fwd with ip6Swept := d.tim.cyc } }

theorem Dev.agingVisit_mac {d e : Dev} (k : Nat) (hit : Bool) (hen : d.bit (Reg.fwdTblcfg_age_en 0) = true)
    (he : d.reachCycle (d.fwd.macSwept + d.ageCycles 0) = some e) : d.agingVisit 0 k hit = e.sweptMac.ageEntry 0 k hit := by
  unfold Dev.agingVisit
  rw [if_neg (by simpa using hen), if_pos rfl, Dev.due_of_reached he]
  rfl

theorem Dev.agingVisit_ip6 {d e : Dev} (k : Nat) (hit : Bool) (hen : d.bit (Reg.fwdTblcfg_age_en 1) = true)
    (he : d.reachCycle (d.fwd.ip6Swept + d.ageCycles 1) = some e) : d.agingVisit 1 k hit = e.sweptIp6.ageEntry 1 k hit := by
  unfold Dev.agingVisit
  rw [if_neg (by simpa using hen), if_neg (by decide), Dev.due_of_reached he]
  rfl

section
variable {d : Dev} {k : Nat} {e : MacEntry} (h : d.macAt k = some e)
include h

theorem Dev.ageEntry_mac_hit : d.ageEntry 0 k true = d.setMac k (some { e with hit := true, clear := 0 }) := by
  unfold Dev.ageEntry
  rw [if_pos rfl]
  dsimp only
  rw [h]

theorem Dev.ageEntry_mac_eq : d.ageEntry 0 k false = if e.stat then d else if e.hit then d.setMac k (some { e with hit := false })
    else if e.clear + 1 = 2 then (d.setMac k none).bump Cnt.agedMac else d.setMac k (some { e with clear := e.clear + 1 }) := by
  unfold Dev.ageEntry
  rw [if_neg Bool.false_ne_true]
  dsimp only
  rw [h]

end

section
variable {d : Dev} {k : Nat} {e : Ip6Entry} (h : d.ip6At k = some e)
include h

theorem Dev.ageEntry_ip6_hit : d.ageEntry 1 k true = d.setIp6 k (some { e with hit := true, clear := 0 }) := by
  unfold Dev.ageEntry
  rw [if_pos rfl]
  dsimp only
  rw [h]

theorem Dev.ageEntry_ip6_old (hs : e.stat = false) (hh : e.hit = false) (hc : e.clear = 1) :
    d.ageEntry 1 k false = (d.setIp6 k none).bump Cnt.agedIp6 := by
  unfold Dev.ageEntry
  rw [if_neg Bool.false_ne_true]
  dsimp only
  rw [h]
  dsimp only
  rw [hs, hh, hc]
  rfl

end

/-! ## The statement -/

theorem Dev.setMac_fwd (d : Dev) (k : Nat) (e : Option MacEntry) :
    (d.setMac k e).fwd = { d.fwd with mac := Sparse.put none d.fwd.mac k e } := rfl

theorem Dev.staticRestore_mac {d : Dev} {k : Nat} {e : MacEntry} (h : Sparse.get none d.fwd.lostMac k = some e) :
    (d.staticRestore 0 k).macAt k = some e ∧ Sparse.get none (d.staticRestore 0 k).fwd.lostMac k = none := by
  have hr : d.staticRestore 0 k =
      ({ d with fwd := { d.fwd with lostMac := Sparse.put none d.fwd.lostMac k none } } : Dev).setMac k (some e) := by
    unfold Dev.staticRestore
    simp only [h]
  rw [Dev.macAt, hr, Dev.setMac_fwd]
  constructor
  · exact Sparse.get_put_same none d.fwd.mac k (some e)
  · exact Sparse.get_put_same none d.fwd.lostMac k none

theorem Dev.flowMoveComplete_of_clear {d : Dev} {m : FlowMove} (hm : d.eth.moving = some m) (hs : d.eth.pairStep = none)
    (hk : d.markedOn (otherPort m.dest) = false) : d.flowMoveComplete = d.moveOver := by
  unfold Dev.flowMoveComplete
  rw [hm]
  dsimp only
  rw [if_neg (by rw [hk]; decide)]
  have hstep := (Dev.FramesOnly.moveOver d).pairStep.trans hs
  unfold Dev.moveDone
  dsimp only
  rw [hstep]

theorem Dev.flowMoveComplete_of_marked {d : Dev} {m : FlowMove} (hm : d.eth.moving = some m)
    (hk : d.markedOn (otherPort m.dest) = true) : d.flowMoveComplete = d := by
  unfold Dev.flowMoveComplete
  rw [hm]
  exact if_pos hk

/-- Settles O54: what a lost link, a failed member and a step leave is proved for the functions they share, queue by queue. -/
theorem linksAndTables : Obligations.LinksAndTables := by
  intro s p hup
  refine ⟨fun hl ht => ⟨fun hp => ?_, fun hp hs => ?_⟩, fun hl h3 h4 hp => ?_, fun rx tx e he => ?_, fun m hm hs => ?_,
    fun x e hx => ?_, fun hb ack data => ?_, fun k x e hen hk he => ?_, fun k x e hen hk he => ?_, fun k e he => ?_,
    fun m e ht hs hl he => ?_⟩
  · obtain ⟨d, hd, h⟩ := Dev.linkDown_alone hl ht hp
    exact ⟨d, Gives.of_runUp hup rfl hd, h⟩
  · obtain ⟨d, hd, h⟩ := Dev.linkDown_paired hl ht hp hs
    exact ⟨d, Gives.of_runUp hup rfl hd, h⟩
  · obtain ⟨d, hd, h⟩ := Dev.linkIsUp_alone hl h3 h4 hp
    exact ⟨d, Gives.of_runUp hup rfl hd, h⟩
  · have hdue : s.dev.loadWindow rx tx = ({ e with eth := { e.eth with loadFrom := e.tim.cyc } } : Dev).judgeLoad rx tx :=
      Dev.due_of_reached he _
    obtain ⟨hregs, heth, houts⟩ : e.regs = s.dev.regs ∧ e.eth = s.dev.eth ∧ e.outs = s.dev.outs := by
      rw [Dev.reachCycle_only he]
      exact ⟨rfl, rfl, rfl⟩
    obtain ⟨x, hx⟩ : ∃ x : Dev, x = { e with eth := { e.eth with loadFrom := e.tim.cyc } } := ⟨_, rfl⟩
    have hxword : x.pairWord = s.dev.pairWord := by
      unfold Dev.pairWord
      rw [Dev.reg_congr (d := s.dev) (by rw [hx, hregs]), show x.eth.pairCfg = s.dev.eth.pairCfg by rw [hx, heth]]
    have hxon : x.pairOn = s.dev.pairOn := by
      unfold Dev.pairOn
      rw [hxword]
    rw [← hx] at hdue ⊢
    refine ⟨fun hp => Gives.of_runUp hup rfl (hdue.trans (Dev.judgeLoad_of_alone (hxon.trans hp) rx tx)),
      fun hp hen hs hm h0 h1 l0 l1 hq hsend hload => ?_⟩
    have hxregs : x.regs = s.dev.regs := by rw [hx, hregs]
    have hxtim : x.tim = e.tim := by rw [hx]
    have hxouts : x.outs = s.dev.outs := by rw [hx, houts]
    have hxport : x.port 1 = s.dev.port 1 := by
      rw [hx]
      exact (congrArg Eth.p1 heth :)
    have hxpair : x.eth.pairStep = none ∧ x.eth.moving = none := by
      rw [hx, heth]
      exact ⟨hs, hm⟩
    obtain ⟨n, hn⟩ := Dev.judgeLoad_of_loaded (d := x) (rx := rx) (tx := tx) (hxon.trans hp) (by rw [hxword]; exact hen)
      hxpair.1 hxpair.2 ((Dev.fld_congr hxregs _).trans h0) ((Dev.fld_congr hxregs _).trans h1)
      ((Dev.bit_congr hxregs _).trans l0) ((Dev.bit_congr hxregs _).trans l1) (by rw [hxword]; exact hload)
    obtain ⟨y, hy⟩ : ∃ y : Dev, y = { x with eth := { x.eth with below := n } } := ⟨_, rfl⟩
    have hyport : y.port 1 = s.dev.port 1 := by
      rw [hy]
      exact hxport
    have hymode : y.fld (Reg.ethCfg_mode 1) = 2 := by
      rw [hy]
      exact (Dev.fld_congr hxregs _).trans h1
    have hytim : y.tim = e.tim := by rw [hy, hxtim]
    have hyouts : y.outs = s.dev.outs := by rw [hy, hxouts]
    rw [← hy] at hn
    obtain ⟨hstep, hout⟩ := Dev.startStep_of_empty (d := y) (p := 1) (m := 1) (by rw [hyport]; exact hq) (by rw [hyport]; exact hsend)
    exact ⟨y.startStep 1 1, Gives.of_runUp hup rfl (hdue.trans hn), by rw [hstep, show ((1 : PortId) : Nat) = 1 from rfl, hymode, hytim],
      by rw [hout, hyouts]⟩
  · refine ⟨fun hk => Gives.of_runUp hup rfl (Dev.flowMoveComplete_of_marked hm hk),
      fun hk => ⟨_, Gives.of_runUp hup rfl (Dev.flowMoveComplete_of_clear hm hs hk), rfl, s.dev.queue_moveOver_mem⟩⟩
  · refine ⟨fun hph hm he => ?_, fun hph hm he => ?_⟩
    · have hdue : s.dev.pairStepChange =
          { (e.linkLost x.member).setModeOf x.member x.newMode with
            eth := { ((e.linkLost x.member).setModeOf x.member x.newMode).eth with
              pairStep := some { x with
                phase := .change, since := ((e.linkLost x.member).setModeOf x.member x.newMode).tim.cyc } } } := by
        unfold Dev.pairStepChange
        rw [hx]
        dsimp only
        rw [if_neg (by rw [hph]; decide), Dev.due_of_reached he]
      obtain ⟨hdown, htim⟩ := e.linkLost_down x.member
      generalize e.linkLost x.member = y at hdown htim hdue
      refine ⟨_, Gives.of_runUp hup rfl hdue, ?_, ?_, ?_⟩
      · exact (Dev.fld_setFld_self y (Reg.ethCfg_mode x.member) x.newMode (by decide : 16 + 3 ≤ 32)).trans (Nat.mod_eq_of_lt hm)
      · exact (Dev.bit_of_reg (d := y) (f := Reg.ethStat_link x.member)
          (Dev.reg_setFld_ne y (Reg.ethCfg_mode x.member) _ _ (ethCfg_ne_ethStat _ _).symm)).trans hdown
      · show some _ = some _
        rw [show ((y.setModeOf x.member x.newMode).tim) = y.tim from rfl, htim]
    · refine ⟨_, Gives.of_runUp hup rfl (?_ : s.dev.pairStepTimeout = _), Dev.stepTimeout_shows e x.member hm⟩
      unfold Dev.pairStepTimeout
      rw [hx]
      dsimp only
      rw [if_neg (by rw [hph]; decide), Dev.due_of_reached he]
  · intro d
    have hd : s.dev.setBit Reg.ethMdio_busy false = d := rfl
    have hread : d.eth.mdioRead = s.dev.eth.mdioRead := rfl
    clear_value d
    have hdone : s.dev.mdioDone ack data =
        if d.eth.mdioRead then (d.setBit Reg.ethMdio_noack (!ack)).setFld Reg.ethMdio_data data.toNat else d := by
      unfold Dev.mdioDone
      rw [if_neg (by rw [hb]; decide), hd]
    refine ⟨fun hr => Gives.of_runUp hup rfl (hdone.trans (if_neg ?_)), fun hr => Gives.of_runUp hup rfl (hdone.trans (if_pos ?_))⟩
    · rw [hread, hr]
      decide
    · rw [hread, hr]
  · intro y
    have hat : e.sweptMac.macAt k = some x := by
      rw [← hk, Dev.reachCycle_only he]
      rfl
    have hy : e.sweptMac = y := rfl
    clear_value y
    rw [hy] at hat
    have hvisit (b : Bool) : s.dev.agingVisit 0 k b = y.ageEntry 0 k b := by rw [Dev.agingVisit_mac k b hen he, hy]
    have heq := (hvisit false).trans (Dev.ageEntry_mac_eq hat)
    refine ⟨Gives.of_runUp hup rfl ((hvisit true).trans (Dev.ageEntry_mac_hit hat)),
      fun hs => Gives.of_runUp hup rfl (heq.trans (if_pos hs)), fun hs => ?_⟩
    rw [if_neg (by rw [hs]; decide)] at heq
    refine ⟨fun hh => Gives.of_runUp hup rfl (heq.trans (if_pos hh)), fun hh hc => ?_, fun hh hc => ?_⟩
    · rw [if_neg (by rw [hh]; decide), hc] at heq
      exact Gives.of_runUp hup rfl heq
    · rw [if_neg (by rw [hh]; decide), hc] at heq
      exact Gives.of_runUp hup rfl heq
  · intro y
    have hat : e.sweptIp6.ip6At k = some x := by
      rw [← hk, Dev.reachCycle_only he]
      rfl
    have hy : e.sweptIp6 = y := rfl
    clear_value y
    rw [hy] at hat
    have hvisit (b : Bool) : s.dev.agingVisit 1 k b = y.ageEntry 1 k b := by rw [Dev.agingVisit_ip6 k b hen he, hy]
    exact ⟨Gives.of_runUp hup rfl ((hvisit true).trans (Dev.ageEntry_ip6_hit hat)),
      fun hs hh hc => Gives.of_runUp hup rfl ((hvisit false).trans (Dev.ageEntry_ip6_old hat hs hh hc))⟩
  · exact ⟨_, Gives.of_runUp hup rfl rfl, Dev.staticRestore_mac he⟩
  · have hop : Operates s := ⟨hup.1, by unfold Dev.firmwareUp Dev.operating; rw [hup.2, hs]; rfl⟩
    have hel : e.linkUp p = false := (Dev.bit_congr (by rw [Dev.reachCycle_only he]) _).trans hl
    obtain ⟨h1, h2⟩ := Dev.tryPort_shows (m := m % 3 + 1) hel (by omega)
    exact ⟨_, Gives.of_runOp hop rfl (Dev.modeTry_of_due ht hs hl he), h1, h2⟩

end Sys2Proof.Machine
end

section
/-! # The network clock (O55) -/

namespace Sys2Proof.Machine

/-! ## The servo -/

/-- A configuration register reads the same where the register and the values in force are the same. -/
theorem Dev.cfg_of_reg {d e : Dev} {a : Nat} (hr : e.reg a = d.reg a) (he : e.eff = d.eff) : e.cfg a = d.cfg a := by
  unfold Dev.cfg
  rw [hr, he]

/-- From `d` to `e` the servo may have moved, and no more than a servo moves has changed. -/
structure Dev.ServoMoved (d e : Dev) : Prop where
  eff : e.eff = d.eff
  reg : ∀ a, a ≠ Reg.timStat → a ≠ Reg.timFreqEst → e.reg a = d.reg a
  counter : ∀ c, c ≠ Cnt.lockGain → c ≠ Cnt.holdoverIn → e.counter c = d.counter c
  step : e.tim.step = d.tim.step
  ppsSeen : e.tim.ppsSeen = d.tim.ppsSeen

theorem Dev.ServoMoved.refl (d : Dev) : d.ServoMoved d := ⟨rfl, fun _ _ _ => rfl, fun _ _ _ => rfl, rfl, rfl⟩

theorem Dev.ServoMoved.trans {a b c : Dev} (h : a.ServoMoved b) (k : b.ServoMoved c) : a.ServoMoved c where
  eff := k.eff.trans h.eff
  reg r h1 h2 := (k.reg r h1 h2).trans (h.reg r h1 h2)
  counter i h1 h2 := (k.counter i h1 h2).trans (h.counter i h1 h2)
  step := k.step.trans h.step
  ppsSeen := k.ppsSeen.trans h.ppsSeen

theorem Dev.ServoMoved.of_same {d e : Dev} (he : e.eff = d.eff) (hr : e.regs = d.regs) (hc : e.counters = d.counters)
    (hs : e.tim.step = d.tim.step) (hp : e.tim.ppsSeen = d.tim.ppsSeen) : d.ServoMoved e :=
  ⟨he, fun a _ _ => Dev.reg_congr hr a, fun c _ _ => Dev.counter_congr hc c, hs, hp⟩

theorem Dev.ServoMoved.setStat (d : Dev) (s : Nat) : d.ServoMoved (d.setFld Reg.timStat_state s) :=
  ⟨rfl, fun _ h _ => Dev.reg_setFld_ne _ _ _ _ h, fun _ _ _ => rfl, rfl, rfl⟩

theorem Dev.ServoMoved.setFreq (d : Dev) (v : Word) : d.ServoMoved (d.setReg Reg.timFreqEst v) :=
  ⟨rfl, fun _ _ h => Dev.reg_setReg_ne _ h _, fun _ _ _ => rfl, rfl, rfl⟩

theorem Dev.ServoMoved.bump (d : Dev) {c : Nat} (h : c = Cnt.lockGain ∨ c = Cnt.holdoverIn) : d.ServoMoved (d.bump c) :=
  ⟨rfl, fun _ _ _ => rfl, fun _ h1 h2 => (Dev.counter_bumpBy ..).trans (if_neg fun hi => h.elim (fun k => h1 (hi.trans k))
    fun k => h2 (hi.trans k)), rfl, rfl⟩

theorem Dev.ppsOutGate_moved (d : Dev) : d.ServoMoved d.ppsOutGate ∧ d.ppsOutGate.regs = d.regs ∧
    d.ppsOutGate.counters = d.counters ∧ d.ppsOutGate.tim = d.tim := by
  unfold Dev.ppsOutGate
  split
  · exact ⟨.refl d, rfl, rfl, rfl⟩
  · exact ⟨.of_same rfl rfl rfl rfl rfl, rfl, rfl, rfl⟩

theorem Dev.ServoMoved.setServo (d : Dev) (s : Nat) : d.ServoMoved (d.setServo s) := by
  unfold Dev.setServo
  split
  · exact .refl d
  · extract_lets a b slew src c
    have hb : a.ServoMoved b := by
      show a.ServoMoved (if _ then _ else if _ then _ else _)
      split
      · exact .bump a (.inl rfl)
      · split
        · exact .bump a (.inr rfl)
        · exact .refl a
    have hc : b.ServoMoved c := .of_same rfl rfl rfl rfl rfl
    refine .trans (.setStat d s) (.trans hb (.trans hc (.trans ?_ (Dev.ppsOutGate_moved _).1)))
    split
    · exact .setFreq c 0
    · exact .refl c

section
variable {d e : Dev} (h : d.ServoMoved e)
include h

theorem Dev.ServoMoved.cfgFld {f : Field} (hf : f.addr ≠ Reg.timStat ∧ f.addr ≠ Reg.timFreqEst := by decide) :
    e.cfgFld f = d.cfgFld f := congrArg f.of (Dev.cfg_of_reg (h.reg _ hf.1 hf.2) h.eff)

theorem Dev.ServoMoved.stepMin : e.stepMin = d.stepMin := h.cfgFld

theorem Dev.ServoMoved.slewMax : e.slewMax = d.slewMax := by
  unfold Dev.slewMax
  rw [h.cfgFld (f := Reg.timServocfg_slew_max)]

end

theorem Dev.ServoMoved.lockRuns (d : Dev) (theta : Int) : d.ServoMoved (d.lockRuns theta) := by
  unfold Dev.lockRuns
  extract_lets near l a src e
  refine .trans (b := e) (.of_same rfl rfl rfl rfl rfl) ?_
  split
  · exact .setServo e _
  · split
    · exact .setServo e _
    · exact .refl e

/-- A servo that holds over takes no slew, keeps y, and counts it. -/
theorem Dev.setServo_holdover {d : Dev} (h : d.servo = 2) :
    (d.setServo 3).fld Reg.timStat_state = 3 ∧ (d.setServo 3).tim.slew = 0 ∧
      (d.setServo 3).reg Reg.timFreqEst = d.reg Reg.timFreqEst ∧
      (d.setServo 3).counter Cnt.holdoverIn = d.counter Cnt.holdoverIn + 1 := by
  obtain ⟨x, hx⟩ : ∃ x, x = (d.setFld Reg.timStat_state 3).bump Cnt.holdoverIn := ⟨_, rfl⟩
  have heq : d.setServo 3 = ({ x with tim := { x.tim with slew := 0, lockRun := 0, awayRun := 0, fresh := x.tim.fresh || false } } :
      Dev).ppsOutGate := by
    rw [hx]
    unfold Dev.setServo
    rw [if_neg (by rw [h]; decide)]
    rfl
  have hst : x.fld Reg.timStat_state = 3 := by
    rw [hx]
    exact (Dev.fld_setFld_self d Reg.timStat_state 3 (by decide)).trans rfl
  have hfreq : x.reg Reg.timFreqEst = d.reg Reg.timFreqEst := by
    rw [hx]
    exact Dev.reg_setFld_ne d Reg.timStat_state _ _ (by decide)
  have hcnt : x.counter Cnt.holdoverIn = d.counter Cnt.holdoverIn + 1 := by
    rw [hx]
    exact Dev.counter_bump_self _ _
  rw [heq]
  clear hx heq
  generalize x.tim.fresh = b
  obtain ⟨y, hy⟩ : ∃ y : Dev, y = { x with tim := { x.tim with slew := 0, lockRun := 0, awayRun := 0, fresh := b || false } } :=
    ⟨_, rfl⟩
  have hyr : y.regs = x.regs := by rw [hy]
  have hyc : y.counters = x.counters := by rw [hy]
  have hyt : y.tim.slew = 0 := by rw [hy]
  rw [← hy]
  obtain ⟨-, hr, hc, ht⟩ := y.ppsOutGate_moved
  exact ⟨(Dev.fld_congr (hr.trans hyr) _).trans hst, by rw [ht, hyt], (Dev.reg_congr (hr.trans hyr) _).trans hfreq,
    (Dev.counter_congr (hc.trans hyc) _).trans hcnt⟩

/-! ## An offset that is taken -/

/-- What a valid offset of less than half a second brings. -/
theorem Dev.takeOffset_shows (d : Dev) {theta : Int} (hlo : -500000000 ≤ theta) (hhi : theta < 500000000) (hs : d.tim.step = none) :
    let e := d.takeOffset theta
    e.tim.ppsSeen = d.tim.ppsSeen ∧ e.reg Reg.timOffset = BitVec.ofInt 32 theta ∧
      (∀ c, c ≠ Cnt.lockGain → c ≠ Cnt.holdoverIn → c ≠ Cnt.offsetValid → e.counter c = d.counter c) ∧
      e.counter Cnt.offsetValid = d.counter Cnt.offsetValid + 1 ∧
      (d.stepMin ≤ theta.natAbs → e.tim.step = some ⟨-theta, none⟩) ∧
      (theta.natAbs < d.stepMin → e.tim.step = none ∧ e.tim.slew.natAbs ≤ d.slewMax) := by
  unfold Dev.takeOffset
  extract_lets a b src c x y m src2 e
  have haoff : a.reg Reg.timOffset = BitVec.ofInt 32 theta := by
    have hclamp : clampInt (-2147483648) 2147483647 theta = theta := by
      unfold clampInt
      omega
    refine (Dev.reg_setReg_same ..).trans ?_
    rw [hclamp]
  have hareg : ∀ r, r ≠ Reg.timOffset → a.reg r = d.reg r := fun r hr => (Dev.reg_setReg_ne _ hr _).trans rfl
  have hacnt : ∀ i, a.counter i = (d.bump Cnt.offsetValid).counter i := fun i => Dev.counter_congr rfl i
  have haeff : a.eff = d.eff := rfl
  have hatim : a.tim = d.tim := rfl
  clear_value a
  have hb : a.ServoMoved b := .setFreq a _
  have hc : b.ServoMoved c := .of_same rfl rfl rfl rfl rfl
  have hx : c.ServoMoved x := by
    show c.ServoMoved (if _ then _ else _)
    split
    · exact .setServo c _
    · exact .refl c
  have hy : a.ServoMoved y := hb.trans (hc.trans (hx.trans (.lockRuns x theta)))
  clear_value y
  clear hx hc hb x c src b
  have hcfg {f : Field} (h1 : f.addr ≠ Reg.timOffset) : a.cfgFld f = d.cfgFld f :=
    congrArg f.of (Dev.cfg_of_reg (hareg _ h1) haeff)
  have hmin : y.stepMin = d.stepMin := hy.stepMin.trans (hcfg (f := Reg.timServocfg_step_min) (by decide))
  have hmax : y.slewMax = d.slewMax := hy.slewMax.trans (by
    unfold Dev.slewMax
    rw [hcfg (f := Reg.timServocfg_slew_max) (by decide)])
  have hseen : y.tim.ppsSeen = d.tim.ppsSeen := by rw [hy.ppsSeen, hatim]
  have hstep : y.tim.step = none := by rw [hy.step, hatim, hs]
  have hoff : y.reg Reg.timOffset = BitVec.ofInt 32 theta := (hy.reg _ (by decide) (by decide)).trans haoff
  have hcnt : ∀ c, c ≠ Cnt.lockGain → c ≠ Cnt.holdoverIn → y.counter c = (d.bump Cnt.offsetValid).counter c :=
    fun c h1 h2 => (hy.counter c h1 h2).trans (hacnt c)
  have hother : ∀ c, c ≠ Cnt.lockGain → c ≠ Cnt.holdoverIn → c ≠ Cnt.offsetValid → y.counter c = d.counter c :=
    fun c h1 h2 h3 => (hcnt c h1 h2).trans ((Dev.counter_bumpBy ..).trans (if_neg h3))
  have hvalid : y.counter Cnt.offsetValid = d.counter Cnt.offsetValid + 1 :=
    (hcnt _ (by decide) (by decide)).trans (d.counter_bump_self _)
  have hm : m.natAbs ≤ d.slewMax := by
    show (min (y.slewMax : Int) (Config.slewMag theta.natAbs : Int)).natAbs ≤ d.slewMax
    rw [hmax]
    omega
  have hm0 : ∀ c : Prop, ∀ [Decidable c], (if c then m else -m).natAbs ≤ d.slewMax := fun c _ => by
    split
    · exact hm
    · rw [Int.natAbs_neg]
      exact hm
  clear_value m
  show e.tim.ppsSeen = _ ∧ _
  by_cases hlt : theta.natAbs < y.stepMin
  · have he : e = { y with tim := { y.tim with slew := if 0 ≤ theta then m else -m } } := if_pos hlt
    clear_value e
    refine ⟨by rw [he]; exact hseen, ?_, ?_, ?_, fun h => absurd hlt (by rw [hmin]; omega), fun _ => ⟨by rw [he]; exact hstep, ?_⟩⟩
    · rw [Dev.reg_congr (d := y) (by rw [he]), hoff]
    · exact fun c h1 h2 h3 => (Dev.counter_congr (by rw [he]) c).trans (hother c h1 h2 h3)
    · exact (Dev.counter_congr (by rw [he]) _).trans hvalid
    · rw [he]
      exact hm0 _
  · have he : e = { y with tim := { y.tim with step := some ⟨-theta, none⟩ } } := if_neg hlt
    clear_value e
    refine ⟨by rw [he]; exact hseen, ?_, ?_, ?_, fun _ => by rw [he], fun h => absurd (by rw [hmin]; exact h) hlt⟩
    · rw [Dev.reg_congr (d := y) (by rw [he]), hoff]
    · exact fun c h1 h2 h3 => (Dev.counter_congr (by rw [he]) c).trans (hother c h1 h2 h3)
    · exact (Dev.counter_congr (by rw [he]) _).trans hvalid

/-! ## PPS -/

/-- The device at an accepted edge of PPS_IN. -/
def Dev.ppsEdge (d : Dev) : Dev := ({ d with tim := { d.tim with ppsSeen := true, ppsAt := d.tim.cyc } } : Dev).bump Cnt.ppsInEdge

theorem Dev.ppsEdge_regs (d : Dev) : d.ppsEdge.regs = d.regs ∧ d.ppsEdge.eff = d.eff := ⟨rfl, rfl⟩

theorem foldSecond_bounds (t : Int) : -500000000 ≤ foldSecond t ∧ foldSecond t < 500000000 := by
  unfold foldSecond
  omega

theorem Dev.timeSrc_congr {d e : Dev} (hr : e.regs = d.regs) (he : e.eff = d.eff) : e.timeSrc = d.timeSrc := by
  unfold Dev.timeSrc Dev.cfgFld
  rw [Dev.cfg_congr hr he]

theorem Dev.trackEn_congr {d e : Dev} (hr : e.regs = d.regs) (he : e.eff = d.eff) : e.trackEn = d.trackEn := by
  unfold Dev.trackEn Dev.cfgBit Dev.cfgFld
  rw [Dev.cfg_congr hr he]

section
variable {d : Dev} {rising : Bool} {width : Nat} (hr : rising ≠ d.bit Reg.timPpscfg_in_pol)
include hr

theorem Dev.ppsIn_of_short (hw : width < 100) : d.ppsIn rising width = d.bump Cnt.ppsInBad := by
  have hacc : d.ppsAccepts width (d.tim.cyc - d.tim.ppsAt) = false := by
    unfold Dev.ppsAccepts
    rw [decide_eq_false (by omega : ¬ 100 ≤ width)]
    rfl
  unfold Dev.ppsIn
  rw [if_neg (by simpa using hr), if_pos (by rw [hacc]; rfl)]

theorem Dev.ppsIn_of_accepted (hw : 100 ≤ width) (hg : d.tim.ppsSeen = false ∨ 800000000 ≤ d.tim.cyc - d.tim.ppsAt ∨
      (399600000 ≤ d.tim.cyc - d.tim.ppsAt ∧ d.tim.cyc - d.tim.ppsAt ≤ 400400000)) :
    d.ppsIn rising width =
      if !d.ppsEdge.trackEn && (d.ppsEdge.timeSrc == 2 || d.ppsEdge.timeSrc == 3) then d.ppsEdge.measure d.ppsEdge.ppsTheta none
      else d.ppsEdge := by
  have hacc : d.ppsAccepts width (d.tim.cyc - d.tim.ppsAt) = true := by
    unfold Dev.ppsAccepts cyclesPerMs
    generalize d.tim.cyc - d.tim.ppsAt = gap at hg ⊢
    rw [decide_eq_true hw]
    simpa [or_assoc] using hg
  unfold Dev.ppsIn
  rw [if_neg (by simpa using hr), if_neg (by rw [hacc]; decide)]
  rfl

end

theorem Dev.ppsTheta_of_plain {d : Dev} (h : d.timeSrc = 3 ∨ d.timeSrc = 2 ∧ d.tim.ptpOfs = none) :
    d.ppsTheta = foldSecond ((d.tim.ns.toNat : Int) - d.fld Reg.timPpsCorr_in) := by
  unfold Dev.ppsTheta
  dsimp only
  split
  · next o ho =>
    rcases h with h | ⟨-, h⟩
    · rw [if_neg (by rw [h]; decide)]
    · rw [h] at ho
      exact nomatch ho
  · rfl

theorem Dev.measure_of_fresh {d : Dev} (theta : Int) (hs : d.tim.step = none) (ht : d.tsk.takeover = none)
    (hf : d.tim.fresh = true) : d.measure theta none = d.takeOffset theta := by
  unfold Dev.measure Dev.forceWaits
  rw [hs, ht, hf, if_neg (by decide), if_neg (fun h => h.2 rfl)]

theorem Dev.ppsOutOn_iff (d : Dev) : d.ppsOutOn = true ↔
    d.fld Reg.timPpscfg_out_mode = 1 ∨ (d.fld Reg.timPpscfg_out_mode = 2 ∧ d.fld Reg.timStat_state = 2) := by
  unfold Dev.ppsOutOn Dev.servo svLocked
  simp only [Bool.or_eq_true, Bool.and_eq_true, beq_iff_eq]

/-! ## The masters of a port -/

theorem Dev.ptpPort_setPtp_self (d : Dev) (p : PortId) (x : PtpPort) : (d.setPtp p x).ptpPort p = x := by
  unfold Dev.setPtp Dev.ptpPort
  split
  · rfl
  · rfl

theorem Dev.ptpPort_setPtp_other (d : Dev) (p : PortId) (x : PtpPort) :
    (d.setPtp p x).ptpPort (otherPort p) = d.ptpPort (otherPort p) :=
  match p with
  | 0 => rfl
  | 1 => rfl

theorem Dev.setPtp_regs (d : Dev) (p : PortId) (x : PtpPort) : (d.setPtp p x).regs = d.regs := by
  unfold Dev.setPtp
  split
  · rfl
  · rfl

/-- A port that knows no master is no slave port. -/
theorem Dev.slavePort_ne_of_none {d : Dev} {p : PortId} (h : (d.ptpPort p).master = none) : d.slavePort ≠ some p := by
  have hrank : d.portRank p = none := by
    unfold Dev.portRank
    rw [h]
    split
    · rfl
    · rfl
  unfold Dev.slavePort
  intro hs
  by_cases hp : p = 1
  · subst hp
    rw [hrank] at hs
    cases h0 : d.portRank 0 with
    | none =>
      rw [h0] at hs
      exact nomatch hs
    | some a =>
      rw [h0] at hs
      dsimp only at hs
      split at hs
      · exact nomatch hs
      · exact absurd (Option.some.inj hs) (by decide)
  · rw [eq_zero_of_ne_one hp] at hrank hs
    rw [hrank] at hs
    cases h1 : d.portRank 1 with
    | none =>
      rw [h1] at hs
      exact nomatch hs
    | some a =>
      rw [h1] at hs
      dsimp only at hs
      split at hs
      · exact nomatch hs
      · exact absurd (Option.some.inj hs) (by decide)

theorem Dev.chooseMaster_shows (d : Dev) (p : PortId) (l : List (List Byte × List Int)) :
    let e := d.chooseMaster p l
    (e.ptpPort p).foreign = l ∧ (l = [] → (e.ptpPort p).master = none) ∧ e.ptpPort (otherPort p) = d.ptpPort (otherPort p) ∧
      e.regs = d.regs := by
  unfold Dev.chooseMaster
  dsimp only
  rw [Dev.ptpPort_setPtp_self, Dev.ptpPort_setPtp_other, Dev.setPtp_regs]
  refine ⟨rfl, fun h => ?_, rfl, rfl⟩
  rw [h]
  rfl

/-! ## The statement -/

/-- Settles O55: an accepted edge of PPS_IN is an offset that the servo takes, and the servo's moves are one frame. -/
theorem networkClock : Obligations.NetworkClock := by
  intro s p hup
  refine ⟨?_, fun rising width => ?_, fun e he => ?_, ?_, fun e he => ?_, fun e he => ?_, ?_⟩
  · intro x
    refine ⟨fun hm => ?_, fun hs => ?_⟩
    · intro a b
      refine ⟨Gives.of_runUp hup rfl (?_ : s.dev.ptpInterval p 0 = _), Gives.of_runUp hup rfl (?_ : s.dev.ptpInterval p 1 = _)⟩
      · exact if_neg (by rw [hm]; decide)
      · exact if_neg (by rw [hm]; decide)
    · intro a
      exact Gives.of_runUp hup rfl (if_neg (not_not.mpr hs) : s.dev.ptpInterval p 2 = _)
  · refine ⟨fun hr => Gives.of_runUp hup rfl (if_pos (by rw [hr]; exact beq_self_eq_true _) : s.dev.ppsIn rising width = _),
      fun hr hw => Gives.of_runUp hup rfl (Dev.ppsIn_of_short hr hw), fun hr hw => ?_⟩
    intro gap hg
    have hin := Dev.ppsIn_of_accepted hr hw hg
    obtain ⟨hregs, heff⟩ := s.dev.ppsEdge_regs
    rw [Dev.trackEn_congr hregs heff, Dev.timeSrc_congr hregs heff] at hin
    refine ⟨fun h => Gives.of_runUp hup rfl (hin.trans (if_neg ?_)), fun ht hsrc hs hto hf => ?_⟩
    · rcases h with h | h
      · rw [h]
        exact Bool.false_ne_true
      · simp only [Bool.and_eq_true, Bool.or_eq_true, beq_iff_eq, not_and]
        omega
    · intro theta
      rw [if_pos (by rw [ht]; rcases hsrc with h | ⟨h, -⟩ <;> rw [h] <;> rfl)] at hin
      obtain ⟨x, hx⟩ : ∃ x, x = s.dev.ppsEdge := ⟨_, rfl⟩
      have hxtheta : x.ppsTheta = theta := by
        rw [hx, Dev.ppsTheta_of_plain (by rw [Dev.timeSrc_congr hregs heff]; exact hsrc), Dev.fld_congr hregs]
        rfl
      have hxs : x.tim.step = none := by rw [hx]; exact hs
      have hxt : x.tsk.takeover = none := by rw [hx]; exact hto
      have hxf : x.tim.fresh = true := by rw [hx]; exact hf
      have hxseen : x.tim.ppsSeen = true := by rw [hx]; rfl
      have hxedge : x.counter Cnt.ppsInEdge = s.dev.counter Cnt.ppsInEdge + 1 := by
        rw [hx]
        exact Dev.counter_bump_self _ _
      have hxvalid : x.counter Cnt.offsetValid = s.dev.counter Cnt.offsetValid := by
        rw [hx]
        exact (Dev.counter_bumpBy ..).trans (if_neg (by decide))
      have hcfg : x.stepMin = s.dev.stepMin ∧ x.slewMax = s.dev.slewMax := by
        rw [hx]
        unfold Dev.stepMin Dev.slewMax Dev.cfgFld
        rw [Dev.cfg_congr hregs heff]
        exact ⟨rfl, rfl⟩
      rw [← hx, hxtheta, Dev.measure_of_fresh theta hxs hxt hxf] at hin
      obtain ⟨hlo, hhi⟩ := foldSecond_bounds ((s.dev.tim.ns.toNat : Int) - s.dev.fld Reg.timPpsCorr_in)
      have hb : -500000000 ≤ theta ∧ theta < 500000000 := ⟨hlo, hhi⟩
      clear_value theta
      obtain ⟨hseen, hoff, hcnt, hvalid, hstep, hslew⟩ := x.takeOffset_shows hb.1 hb.2 hxs
      rw [hcfg.1] at hstep hslew
      rw [hcfg.2] at hslew
      exact ⟨_, Gives.of_runUp hup rfl hin, hseen.trans hxseen, hoff, (hcnt _ (by decide) (by decide) (by decide)).trans hxedge,
        hvalid.trans (congrArg (· + 1) hxvalid), hstep, hslew⟩
  · exact Gives.of_runUp hup rfl (Dev.due_of_reached he _ : s.dev.ppsLost = _)
  · intro on
    refine ⟨fun hon hns hsec => Gives.of_runUp hup rfl (if_neg ?_ : s.dev.ppsOutRise = _),
      fun h => Gives.of_runUp hup rfl (if_pos ?_ : s.dev.ppsOutRise = _)⟩
    · rw [s.dev.ppsOutOn_iff.mpr hon, decide_eq_false (by omega), beq_eq_false_iff_ne.mpr hsec]
      decide
    · rcases h with h | h | h
      · rw [Bool.eq_false_iff.mpr fun k => h (s.dev.ppsOutOn_iff.mp k)]
        rfl
      · rw [decide_eq_true h]
        simp
      · rw [h]
        simp
  · refine Gives.of_runUp hup rfl ((Dev.due_of_reached he _ : s.dev.ppsOutFall = _).trans ?_)
    rw [show s.dev.pins = e.pins by rw [Dev.reachCycle_only he]]
  · obtain ⟨hregs, hcnt⟩ : e.regs = s.dev.regs ∧ e.counters = s.dev.counters := by
      rw [Dev.reachCycle_only he]
      exact ⟨rfl, rfl⟩
    have hdue : s.dev.servoTimeout = e.servoLoss := Dev.due_of_reached he _
    have hst : e.servo = s.dev.fld Reg.timStat_state := Dev.fld_congr hregs _
    refine ⟨fun h => Gives.of_runUp hup rfl (hdue.trans (if_neg (by rw [hst]; exact h))), fun h => ?_⟩
    obtain ⟨h1, h2, h3, h4⟩ := Dev.setServo_holdover (hst.trans h)
    exact ⟨_, Gives.of_runUp hup rfl (hdue.trans (if_pos (hst.trans h))), h1, h2, h3.trans (Dev.reg_congr hregs _),
      h4.trans (congrArg (· + 1) (Dev.counter_congr hcnt _))⟩
  · intro x
    obtain ⟨h1, h2, h3, h4⟩ :=
      s.dev.chooseMaster_shows p (x.foreign.filter fun f => some (slice f.1 20 10) != x.master.map (slice · 20 10))
    refine ⟨_, Gives.of_runUp hup rfl (rfl : s.dev.announceTimeout p = _), h1, fun h => ?_, h3, h4⟩
    have hm := h2 (h1.symm.trans h)
    exact ⟨hm, Dev.slavePort_ne_of_none hm⟩

end Sys2Proof.Machine
end

section
/-! # What a reset leaves, and what a wake keeps -/

namespace Sys2Proof.Machine

/-! ## Registers after a reset -/

/-- A filtered map keeps the keys that pass, and the others read as the default. -/
theorem Sparse.get_filter {α : Type} (d : α) (p : Nat → Bool) (t : Sparse α) (k : Nat) :
    Sparse.get d (t.filter fun x => p x.1) k = if p k then Sparse.get d t k else d := by
  induction t with
  | nil => exact (ite_self d).symm
  | cons x t ih =>
    obtain ⟨j, v⟩ := x
    rw [List.filter_cons]
    by_cases hj : j = k
    · subst hj
      split
      · rw [Sparse.get, Sparse.get, if_pos rfl, if_pos rfl]
      · next hp => rw [ih, if_neg hp]
    · rw [Sparse.get, if_neg hj]
      split
      · rw [Sparse.get, if_neg hj, ih]
      · exact ih

/-- SYS_RST_N's reset as registers: the Silt domain's stay, the others read their Reset value. -/
theorem Dev.sysCore_reg (d : Dev) {a : Nat} (h1 : a ≠ Reg.bootStat) (h2 : a ≠ Reg.pwrState) :
    d.sysCore.reg a = if silent a then d.reg a else resetVal a := by
  unfold Dev.sysCore
  dsimp only
  generalize d.fld Reg.bootStat_strap = strap
  refine (Dev.reg_setFld_ne _ Reg.pwrState_state _ _ h2).trans ((Dev.reg_setFld_ne _ Reg.bootStat_strap _ _ h1).trans ?_)
  exact Sparse.get_filter (resetVal a) silent d.regs a

theorem Dev.sysCore_counters (d : Dev) : d.sysCore.counters = d.counters := rfl

theorem Dev.sysCore_boot (d : Dev) : d.sysCore.boot = d.boot.flash := rfl

/-- The firmware's part of a field that lies in one register. -/
theorem Dev.fld_of_reg {d e : Dev} {f : Field} (h : e.reg f.addr = d.reg f.addr) : e.fld f = d.fld f := congrArg f.of h

theorem hifStat_resets : Reg.hifStat_dev_state.of (resetVal Reg.hifStat) = dsBoot := by decide +kernel

theorem Dev.sysCore_devState (d : Dev) : d.sysCore.devState = dsBoot := by
  have h : d.sysCore.reg Reg.hifStat = resetVal Reg.hifStat := (d.sysCore_reg (by decide) (by decide)).trans (if_neg (by decide))
  exact (congrArg Reg.hifStat_dev_state.of h).trans hifStat_resets

/-- FAULT_LOCK as its registers show it. -/
theorem Dev.faultLock_shows (d : Dev) :
    d.faultLock.devState = dsFaultLock ∧ d.faultLock.bit Reg.pwrAonStatus_locked = true ∧ d.faultLock.pwr.seq = none ∧
      d.faultLock.pwr.restart = false ∧ d.faultLock.counter Cnt.faultLockEntry = d.counter Cnt.faultLockEntry + 1 ∧
      (∀ c, c ≠ Cnt.faultLockEntry → d.faultLock.counter c = d.counter c) ∧
      ∀ a, a ≠ Reg.pwrAonStatus → a ≠ Reg.hifStat → d.faultLock.reg a = d.reg a := by
  obtain ⟨x, hx⟩ : ∃ x, x = ((d.bump Cnt.faultLockEntry).raise Reg.pwrAonStatus_locked).setFld Reg.hifStat_dev_state dsFaultLock :=
    ⟨_, rfl⟩
  have heq : d.faultLock = { x with pwr := { x.pwr with seq := none, restart := false, entering := none, armed := false } } := by
    rw [hx]
    rfl
  have hregs : d.faultLock.regs = x.regs := by rw [heq]
  have hcnts : d.faultLock.counters = x.counters := by rw [heq]
  refine ⟨?_, ?_, by rw [heq], by rw [heq], ?_, fun c hc => ?_, fun a h1 h2 => ?_⟩
  · refine (Dev.fld_congr hregs _).trans ?_
    rw [hx]
    exact (Dev.fld_setFld_self _ Reg.hifStat_dev_state dsFaultLock (by decide)).trans rfl
  · refine (Dev.bit_congr hregs _).trans ?_
    rw [hx]
    exact (Dev.bit_setFld_of_separate _ _ _ _ (by decide)).trans (Dev.bit_raise_self _ Reg.pwrAonStatus_locked)
  · refine (Dev.counter_congr hcnts _).trans ?_
    rw [hx]
    exact d.counter_bump_self _
  · refine (Dev.counter_congr hcnts _).trans ?_
    rw [hx]
    exact (Dev.counter_bumpBy d Cnt.faultLockEntry c 1).trans (if_neg hc)
  · refine (Dev.reg_congr hregs _).trans ?_
    rw [hx]
    exact (Dev.reg_setFld_ne _ Reg.hifStat_dev_state _ _ h2).trans (Dev.reg_setFld_ne _ Reg.pwrAonStatus_locked _ _ h1)

/-! ## What a wake's parts keep -/

/-- From `d` to `e` nothing that shows the power state has changed. -/
structure Dev.PowerKept (d e : Dev) : Prop where
  devState : e.devState = d.devState
  pwrState : e.reg Reg.pwrState = d.reg Reg.pwrState
  wakeOk : e.counter Cnt.wakeOk = d.counter Cnt.wakeOk
  seq : e.pwr.seq = d.pwr.seq
  armed : e.pwr.armed = d.pwr.armed
  activeCmd : e.pwr.activeCmd = d.pwr.activeCmd
  stalled : e.pwr.stalled = d.pwr.stalled
  selfRefresh : e.dmc.selfRefresh = d.dmc.selfRefresh

theorem Dev.PowerKept.refl (d : Dev) : d.PowerKept d := ⟨rfl, rfl, rfl, rfl, rfl, rfl, rfl, rfl⟩

theorem Dev.PowerKept.trans {a b c : Dev} (h : a.PowerKept b) (k : b.PowerKept c) : a.PowerKept c :=
  ⟨k.1.trans h.1, k.2.trans h.2, k.3.trans h.3, k.4.trans h.4, k.5.trans h.5, k.6.trans h.6, k.7.trans h.7, k.8.trans h.8⟩

/-- Where power and DRAM stay, the registers and the counter decide. -/
theorem Dev.PowerKept.of_regs {d e : Dev} (h1 : e.reg Reg.hifStat = d.reg Reg.hifStat) (h2 : e.reg Reg.pwrState = d.reg Reg.pwrState)
    (h3 : e.counter Cnt.wakeOk = d.counter Cnt.wakeOk) (h4 : e.pwr = d.pwr) (h5 : e.dmc.selfRefresh = d.dmc.selfRefresh) :
    d.PowerKept e :=
  ⟨congrArg Reg.hifStat_dev_state.of h1, h2, h3, by rw [h4], by rw [h4], by rw [h4], by rw [h4], h5⟩

theorem Dev.PowerKept.of_same {d e : Dev} (h1 : e.regs = d.regs) (h2 : e.counters = d.counters) (h3 : e.pwr = d.pwr)
    (h4 : e.dmc.selfRefresh = d.dmc.selfRefresh) : d.PowerKept e :=
  .of_regs (Dev.reg_congr h1 _) (Dev.reg_congr h1 _) (Dev.counter_congr h2 _) h3 h4

theorem Dev.PowerKept.setFld (d : Dev) {f : Field} (v : Nat) (h1 : f.addr ≠ Reg.hifStat) (h2 : f.addr ≠ Reg.pwrState) :
    d.PowerKept (d.setFld f v) :=
  .of_regs (Dev.reg_setFld_ne _ _ _ _ h1.symm) (Dev.reg_setFld_ne _ _ _ _ h2.symm) rfl rfl rfl

theorem Dev.PowerKept.setReg (d : Dev) {a : Nat} (v : Word) (h1 : a ≠ Reg.hifStat) (h2 : a ≠ Reg.pwrState) :
    d.PowerKept (d.setReg a v) :=
  .of_regs (Dev.reg_setReg_ne _ h1.symm _) (Dev.reg_setReg_ne _ h2.symm _) rfl rfl rfl

theorem Dev.PowerKept.bump (d : Dev) {c : Nat} (h : c ≠ Cnt.wakeOk) : d.PowerKept (d.bump c) :=
  .of_regs rfl rfl ((Dev.counter_bumpBy ..).trans (if_neg h.symm)) rfl rfl

theorem Dev.PowerKept.of_book {d e : Dev} (h : d.Book e) : d.PowerKept e :=
  ⟨h.devState, h.reg _ (by unfold bookAddr; decide), h.counter _ (by unfold bookCnt; decide), by rw [h.pwr], by rw [h.pwr],
    by rw [h.pwr], by rw [h.pwr], by rw [h.dmc]⟩

theorem Dev.PowerKept.ite {d a b : Dev} {c : Prop} [Decidable c] (ha : d.PowerKept a) (hb : d.PowerKept b) :
    d.PowerKept (if c then a else b) := by
  split
  · exact ha
  · exact hb

theorem Dev.PowerKept.foldl {α : Type} {f : Dev → α → Dev} (hf : ∀ (d : Dev) a, d.PowerKept (f d a)) (l : List α) (d : Dev) :
    d.PowerKept (l.foldl f d) := by
  induction l generalizing d with
  | nil => exact .refl d
  | cons a t ih => exact (hf d a).trans (ih _)

theorem Dev.PowerKept.modPort (d : Dev) (p : PortId) (f : EthPort → EthPort) : d.PowerKept (d.modPort p f) :=
  match p with
  | 0 => .of_same rfl rfl rfl rfl
  | 1 => .of_same rfl rfl rfl rfl

theorem tskWstat_ne (w : WorkerId) : Reg.tskWstat w ≠ Reg.hifStat ∧ Reg.tskWstat w ≠ Reg.pwrState := by
  revert w
  decide

theorem Dev.PowerKept.give (d : Dev) (i : Item) (w : WorkerId) : d.PowerKept (d.give i w) := by
  obtain ⟨h1, h2⟩ := tskWstat_ne w
  unfold Dev.give
  have hb : d.PowerKept (d.bump (if d.lastRunner i = some w then Cnt.dispatchAffine else Cnt.dispatchOther)) :=
    .bump d (by split <;> decide)
  generalize d.bump (if d.lastRunner i = some w then Cnt.dispatchAffine else Cnt.dispatchOther) = e at hb ⊢
  dsimp only
  generalize ht : ({ e with tsk := _ } : Dev) = x
  have hx : d.PowerKept x := hb.trans (ht ▸ .of_same rfl rfl rfl rfl)
  split
  · exact (hx.trans (.setFld _ (f := Reg.tskWstat_state w) _ h1 h2)).trans (.setFld _ (f := Reg.tskWstat_tag w) _ h1 h2)
  · exact hx.trans (.setFld _ (f := Reg.tskWstat_state w) _ h1 h2)

theorem Dev.PowerKept.dispatchAll (d : Dev) : d.PowerKept d.dispatchAll := by
  refine .foldl (fun d w => ?_) _ d
  split
  · exact .give _ _ _
  · exact .refl _

theorem Dev.PowerKept.ppsOutGate (d : Dev) : d.PowerKept d.ppsOutGate :=
  .ite (.refl d) (.of_same rfl rfl rfl rfl)

theorem Dev.PowerKept.setServo (d : Dev) (s : Nat) : d.PowerKept (d.setServo s) := by
  unfold Dev.setServo
  refine .ite (.refl d) ?_
  extract_lets a b slew src c
  have ha : d.PowerKept a := .setFld d _ (by decide) (by decide)
  have hb : a.PowerKept b := by
    show a.PowerKept (if _ then _ else if _ then _ else _)
    exact .ite (.bump a (by decide)) (.ite (.bump a (by decide)) (.refl a))
  have hc : b.PowerKept c := .of_same rfl rfl rfl rfl
  exact ha.trans (hb.trans (hc.trans (.trans (.ite (.setReg c 0 (by decide) (by decide)) (.refl c)) (.ppsOutGate _))))

theorem Dev.PowerKept.servoLoss (d : Dev) : d.PowerKept d.servoLoss := .ite (.setServo d _) (.refl d)

theorem Dev.PowerKept.setMsh (d : Dev) (s : Nat) : d.PowerKept (d.setMsh s) := by
  unfold Dev.setMsh
  refine .ite (.refl d) ?_
  extract_lets a b src c i ok
  have ha : d.PowerKept a := .setFld d _ (by decide) (by decide)
  have hb : a.PowerKept b := by
    show a.PowerKept (if _ then _ else _)
    exact .ite (.servoLoss a) (.refl a)
  have hc : b.PowerKept c := .of_same rfl rfl rfl rfl
  refine ha.trans (hb.trans (hc.trans ?_))
  refine .ite (.trans (.bump c (by decide)) (.setFld _ _ (by decide) (by decide))) (.ite ?_ (.ite ?_ (.refl c)))
  · exact .trans (.bump c (by decide)) (.setFld _ _ (by decide) (by decide))
  · exact .trans (.setFld c _ (by decide) (by decide)) (.setFld _ _ (by decide) (by decide))

theorem Dev.PowerKept.wakeTime (d : Dev) : d.PowerKept d.wakeTime := by
  unfold Dev.wakeTime
  split
  · exact .trans (.setServo d _) (.of_same rfl rfl rfl rfl)
  · split
    · exact .refl d
    · exact .setMsh d _

theorem Dev.PowerKept.wakeTrain (d : Dev) : d.PowerKept d.wakeTrain := by
  unfold Dev.wakeTrain
  refine .ite ?_ (.refl d)
  extract_lets src x
  have hx : d.PowerKept x := .of_same rfl rfl rfl rfl
  refine hx.trans (.trans (.trans (.setFld x (f := Reg.dmcStat_train_applied) 1 ?_ ?_) (.bump _ ?_)) (.setFld _ _ ?_ ?_))
  all_goals decide

theorem Dev.PowerKept.wakeEvents (d : Dev) (old ticks : Nat) : d.PowerKept (d.wakeEvents old ticks) := by
  unfold Dev.wakeEvents
  extract_lets a l b
  have ha : d.PowerKept a := .of_book (.event d _ _ _)
  have hb : a.PowerKept b := .foldl (fun d _ => .of_book (.event d _ _ _)) l a
  clear_value b
  exact ha.trans (hb.trans ⟨rfl, rfl, rfl, rfl, rfl, rfl, rfl, rfl⟩)

end Sys2Proof.Machine
end

section
/-! # The supply and the power sequence (O56) -/

namespace Sys2Proof.Machine

/-! ## The supply -/

theorem Dev.porCore_reg (d : Dev) (a : Nat) : d.porCore.reg a = resetVal a := rfl

theorem Dev.coldSeq_shows (d : Dev) (b : Bool) :
    (d.coldSeq b).devState = dsOff ∧ (d.coldSeq b).pwr.seq = some ⟨1, false, b⟩ ∧ (d.coldSeq b).pwr.vinUp = d.pwr.vinUp ∧
      ∀ a, a ≠ Reg.hifStat → (d.coldSeq b).reg a = d.reg a :=
  ⟨(Dev.fld_setFld_self d Reg.hifStat_dev_state dsOff (by decide)).trans rfl, rfl, rfl,
    fun _ h => Dev.reg_setFld_ne d Reg.hifStat_dev_state _ _ h⟩

theorem Dev.uvloRelease_of_down {d : Dev} (hv : d.pwr.vinUp = false) (he : d.pwr.extSupply = false) :
    d.uvloRelease = ({ d with pwr := { d.pwr with vinUp := true } } : Dev).coldSeq false := by
  unfold Dev.uvloRelease
  rw [if_neg (by rw [hv, he]; decide)]

theorem Dev.uvloEngage_shows {d : Dev} (hv : d.pwr.vinUp = true) :
    let e := d.uvloEngage
    e.pwr.vinUp = false ∧ e.devState = dsOff ∧ e.counters = [] ∧ e.kao = initKao ∧ e.boot = d.boot.flash ∧
      ∀ a, a ≠ Reg.hifStat → e.reg a = resetVal a := by
  unfold Dev.uvloEngage
  rw [if_neg (by rw [hv]; decide)]
  generalize d.pwr.porLow = low
  dsimp only
  obtain ⟨x, hx⟩ : ∃ x : Dev, x = { d.porCore with pwr := { d.porCore.pwr with vinUp := false, porLow := low } } := ⟨_, rfl⟩
  have hreg (a : Nat) : x.reg a = resetVal a := by
    rw [hx]
    rfl
  have hv : x.pwr.vinUp = false := by rw [hx]
  have hc : x.counters = [] := by
    rw [hx]
    rfl
  have hk : x.kao = initKao := by
    rw [hx]
    rfl
  have hb : x.boot = d.boot.flash := by
    rw [hx]
    rfl
  rw [← hx]
  clear hx
  exact ⟨hv, (Dev.fld_setFld_self x Reg.hifStat_dev_state dsOff (by decide)).trans rfl, hc, hk, hb,
    fun a h => (Dev.reg_setFld_ne x Reg.hifStat_dev_state _ _ h).trans (hreg a)⟩

/-! ## The steps -/

theorem Dev.tcxo_shows (d : Dev) (on : Bool) :
    (d.tcxo on).regs = d.regs ∧ (d.tcxo on).counters = d.counters ∧ (d.tcxo on).pwr = d.pwr := by
  unfold Dev.tcxo
  split
  · exact ⟨rfl, rfl, rfl⟩
  · exact ⟨rfl, rfl, rfl⟩

theorem PowerSeq.next_eq (q : PowerSeq) :
    q.next = if q.sentinel = true ∧ (q.step = 2 ∨ q.step = 4) then q.step + 2 else q.step + 1 := by
  unfold PowerSeq.next
  simp only [Bool.and_eq_true, Bool.or_eq_true, beq_iff_eq]

section
variable {d : Dev} {q : PowerSeq} (hq : d.pwr.seq = some q)
include hq

theorem Dev.powerStepDone_of_step (hs : q.step < 8) (t : Nat) :
    (d.powerStepDone t).regs = d.regs ∧ (d.powerStepDone t).pwr.seq = some ⟨q.next, false, q.sentinel⟩ := by
  unfold Dev.powerStepDone
  rw [hq]
  dsimp only
  rw [if_neg (by omega)]
  generalize d.pwr.entrySilt + siltNs t = n
  split
  · obtain ⟨hr, -, hp⟩ := Dev.tcxo_shows
      { d.siltTo n with pwr := { (d.siltTo n).pwr with seq := some ⟨q.next, false, q.sentinel⟩ } } true
    exact ⟨hr, by rw [hp]⟩
  · exact ⟨rfl, rfl⟩

/-- A step that fails is noted in PWR_AON_STATUS. -/
theorem Dev.powerStepTimeout_eq (hs : q.step < 8) (t : Nat) :
    ∃ e : Dev, (∀ f : Field, (Reg.pwrAonStatus_cause).separate f = true → (Reg.pwrAonStatus_fail).separate f = true →
        e.fld f = d.fld f) ∧ e.fld Reg.pwrAonStatus_cause = q.step ∧ e.bit Reg.pwrAonStatus_fail = true ∧
      e.counters = d.counters ∧
      d.powerStepTimeout t =
        if !q.retried then
          let x : Dev := { e.bump Cnt.stepRetry with pwr := { e.pwr with seq := some { q with retried := true } } }
          if q.step = 7 then x.tcxo true else x
        else
          let y := e.bump Cnt.attemptFail
          let x : Dev := { y with pwr := { y.pwr with
            seq := none, restart := true, attemptFailed := true, failSilt := y.pwr.silt
            failures := y.pwr.failures ++ [(q.step, t / 1024)] } }
          if y.fld Reg.pwrAonStatus_attempts = 8 then x.faultLock
          else x.setFld Reg.pwrAonStatus_attempts (y.fld Reg.pwrAonStatus_attempts + 1) := by
  obtain ⟨x, hx⟩ : ∃ x, x = ((d.siltTo (d.pwr.entrySilt + siltNs t)).setFld Reg.pwrAonStatus_cause q.step).raise
      Reg.pwrAonStatus_fail := ⟨_, rfl⟩
  obtain ⟨e, he⟩ : ∃ e, e = if q.step = 7 then x.tcxo false else x := ⟨_, rfl⟩
  have hex : e.regs = x.regs ∧ e.counters = x.counters := by
    rw [he]
    split
    · obtain ⟨hr, hc, -⟩ := x.tcxo_shows false
      exact ⟨hr, hc⟩
    · exact ⟨rfl, rfl⟩
  refine ⟨e, fun f h1 h2 => ?_, ?_, ?_, ?_, ?_⟩
  · refine (Dev.fld_congr hex.1 f).trans ?_
    rw [hx]
    exact (Dev.fld_setFld_of_separate _ _ _ _ h2).trans ((Dev.fld_setFld_of_separate _ _ _ _ h1).trans rfl)
  · refine (Dev.fld_congr hex.1 _).trans ?_
    rw [hx]
    exact (Dev.fld_setFld_of_separate _ _ _ _ (by decide)).trans ((Dev.fld_setFld_self _ _ _ (by decide)).trans
      (Nat.mod_eq_of_lt (show q.step < 16 by omega)))
  · refine (Dev.bit_congr hex.1 _).trans ?_
    rw [hx]
    exact Dev.bit_raise_self _ Reg.pwrAonStatus_fail
  · refine hex.2.trans ?_
    rw [hx]
    rfl
  · rw [he, hx]
    unfold Dev.powerStepTimeout
    rw [hq]
    dsimp only
    exact if_neg (by omega)

theorem Dev.powerStepTimeout_of_first (hs : q.step < 8) (hr : q.retried = false) (t : Nat) :
    let e := d.powerStepTimeout t
    e.pwr.seq = some { q with retried := true } ∧ e.fld Reg.pwrAonStatus_cause = q.step ∧ e.bit Reg.pwrAonStatus_fail = true ∧
      e.counter Cnt.stepRetry = d.counter Cnt.stepRetry + 1 := by
  obtain ⟨e, -, hcause, hfail, hcnt, heq⟩ := Dev.powerStepTimeout_eq hq hs t
  rw [heq, if_pos (by rw [hr]; rfl)]
  dsimp only
  obtain ⟨x, hx⟩ : ∃ x : Dev, x = { e.bump Cnt.stepRetry with pwr := { e.pwr with seq := some { q with retried := true } } } :=
    ⟨_, rfl⟩
  have hxr : x.regs = e.regs := by
    rw [hx]
    rfl
  have hxc : x.counter Cnt.stepRetry = d.counter Cnt.stepRetry + 1 := by
    rw [← Dev.counter_congr hcnt, ← e.counter_bump_self]
    exact Dev.counter_congr (by rw [hx]) _
  have hxs : x.pwr.seq = some { q with retried := true } := by rw [hx]
  rw [← hx]
  clear hx
  split
  · obtain ⟨hr, hc, hp⟩ := x.tcxo_shows true
    exact ⟨by rw [hp, hxs], (Dev.fld_congr (hr.trans hxr) _).trans hcause, (Dev.bit_congr (hr.trans hxr) _).trans hfail,
      (Dev.counter_congr hc _).trans hxc⟩
  · exact ⟨hxs, (Dev.fld_congr hxr _).trans hcause, (Dev.bit_congr hxr _).trans hfail, hxc⟩

theorem Dev.powerStepTimeout_of_failed (hs : q.step < 8) (hr : q.retried = true) (t : Nat) :
    let e := d.powerStepTimeout t
    (d.fld Reg.pwrAonStatus_attempts < 8 →
      e.pwr.seq = none ∧ e.pwr.restart = true ∧ e.fld Reg.pwrAonStatus_attempts = d.fld Reg.pwrAonStatus_attempts + 1 ∧
        e.counter Cnt.attemptFail = d.counter Cnt.attemptFail + 1) ∧
    (d.fld Reg.pwrAonStatus_attempts = 8 →
      e.devState = dsFaultLock ∧ e.bit Reg.pwrAonStatus_locked = true ∧ e.pwr.seq = none ∧ e.pwr.restart = false ∧
        e.counter Cnt.faultLockEntry = d.counter Cnt.faultLockEntry + 1) := by
  obtain ⟨e, hfld, -, -, hcnt, heq⟩ := Dev.powerStepTimeout_eq hq hs t
  rw [heq, if_neg (by rw [hr]; decide)]
  obtain ⟨y, hy⟩ : ∃ y, y = e.bump Cnt.attemptFail := ⟨_, rfl⟩
  have hyn : y.fld Reg.pwrAonStatus_attempts = d.fld Reg.pwrAonStatus_attempts :=
    (Dev.fld_congr (by rw [hy]; rfl) _).trans (hfld _ (by decide) (by decide))
  have hyc : y.counter Cnt.attemptFail = d.counter Cnt.attemptFail + 1 := by
    rw [hy, e.counter_bump_self, Dev.counter_congr hcnt]
  have hyl : y.counter Cnt.faultLockEntry = d.counter Cnt.faultLockEntry := by
    rw [hy]
    exact ((Dev.counter_bumpBy ..).trans (if_neg (by decide))).trans (Dev.counter_congr hcnt _)
  rw [← hy]
  clear hy
  dsimp only
  rw [hyn]
  obtain ⟨x, hx⟩ : ∃ x : Dev, x = { y with pwr := { y.pwr with
            seq := none, restart := true, attemptFailed := true, failSilt := y.pwr.silt
            failures := y.pwr.failures ++ [(q.step, t / 1024)] } } := ⟨_, rfl⟩
  have hxc : x.counters = y.counters := by rw [hx]
  have hxp : x.pwr.seq = none ∧ x.pwr.restart = true := by
    rw [hx]
    exact ⟨rfl, rfl⟩
  rw [← hx]
  clear hx
  refine ⟨fun h => ?_, fun h => ?_⟩
  · rw [if_neg (by omega)]
    exact ⟨hxp.1, hxp.2, (Dev.fld_setFld_self x _ _ (by decide)).trans (Nat.mod_eq_of_lt (show _ < 16 by omega)),
      (Dev.counter_congr (by rw [← hxc]; rfl) _).trans hyc⟩
  · rw [if_pos h]
    obtain ⟨h1, h2, h3, h4, h5, -, -⟩ := x.faultLock_shows
    exact ⟨h1, h2, h3, h4, h5.trans (congrArg (· + 1) ((Dev.counter_congr hxc _).trans hyl))⟩

end

/-! ## Step 8 -/

theorem Dev.coldStart_shows (d : Dev) :
    let e := d.coldStart
    e.devState = dsBoot ∧ e.pwr.seq = none ∧ e.fld Reg.pwrAonStatus_attempts = 0 ∧ e.bit Reg.pwrAonStatus_locked = false := by
  unfold Dev.coldStart
  dsimp only
  obtain ⟨x, hx⟩ : ∃ x : Dev, x = d.attemptOk := ⟨_, rfl⟩
  have hxa : x.fld Reg.pwrAonStatus_attempts = 0 := by
    rw [hx]
    exact (Dev.fld_setFld_self d Reg.pwrAonStatus_attempts 0 (by decide)).trans rfl
  rw [← hx]
  clear hx
  have hst := x.sysCore_devState
  have hat : x.sysCore.fld Reg.pwrAonStatus_attempts = 0 :=
    (Dev.fld_of_reg ((x.sysCore_reg (by decide) (by decide)).trans (if_pos (by decide)))).trans hxa
  have hseq : x.sysCore.pwr.seq = none := rfl
  generalize x.sysCore = y at hst hat hseq
  obtain ⟨z, hz⟩ : ∃ z, z = y.setBit Reg.pwrAonStatus_locked false := ⟨_, rfl⟩
  have hzst : z.devState = dsBoot := by
    rw [hz]
    exact (Dev.fld_setFld_of_separate _ _ _ _ (by decide)).trans hst
  have hzat : z.fld Reg.pwrAonStatus_attempts = 0 := by
    rw [hz]
    exact (Dev.fld_setFld_of_separate _ _ _ _ (by decide)).trans hat
  have hzl : z.bit Reg.pwrAonStatus_locked = false := by
    rw [hz]
    exact Dev.bit_setBit_self _ _ _
  have hzs : z.pwr.seq = none := by
    rw [hz]
    exact hseq
  rw [← hz]
  exact ⟨hzst, hzs, hzat, hzl⟩

/-- The device just before its wake: its clock is back, and PWR_STATE and DEV_STATE show where it returns. -/
theorem Dev.wakeUp_shows (d : Dev) (t : Nat) :
    let e := d.wakeUp t
    e.devState = d.pwr.backTo.toNat ∧ e.pwr.seq = none ∧ e.pwr.armed = false ∧ e.dmc.selfRefresh = false ∧
      e.fld Reg.pwrState_state = 0 ∧ e.counter Cnt.wakeOk = d.counter Cnt.wakeOk + 1 := by
  unfold Dev.wakeUp
  extract_lets a b src1 c src2 src3 src4 x y z w src5 src6 v e
  have hc : c.pwr.backTo = d.pwr.backTo ∧ c.pwr.seq = none ∧ c.counters = d.counters := ⟨rfl, rfl, rfl⟩
  have hx : x.pwr = { c.pwr with armed := false } ∧ x.dmc = { c.dmc with selfRefresh := false } ∧ x.counters = c.counters :=
    ⟨rfl, rfl, rfl⟩
  obtain ⟨hxp, hxd, hxc⟩ := hx
  have hy : y = (x.setFld Reg.hifStat_dev_state x.pwr.backTo.toNat).setFld Reg.pwrState_state psActive := rfl
  have hz : z = y.wakeTrain.wakeTime := rfl
  have hw : z.PowerKept w := .foldl (fun d p => .modPort d p _) _ z
  have hv : w.PowerKept v := .ite ⟨rfl, rfl, rfl, rfl, rfl, rfl, rfl, rfl⟩ (.refl w)
  have hlast : e = ((v.bump Cnt.wakeOk).wakeEvents psSentinel t).dispatchAll := rfl
  clear_value e v w z y x c
  clear src1 src2 src3 src4 b a
  have hyst : y.devState = d.pwr.backTo.toNat := by
    rw [hy]
    refine (Dev.fld_setFld_of_separate _ _ _ _ (by decide)).trans ((Dev.fld_setFld_self _ _ _ (by decide)).trans ?_)
    rw [hxp, ← hc.1]
    exact Nat.mod_eq_of_lt (BitVec.isLt _)
  have hyps : y.fld Reg.pwrState_state = 0 := by
    rw [hy]
    exact (Dev.fld_setFld_self _ _ _ (by decide)).trans rfl
  have hypwr : y.pwr.seq = none ∧ y.pwr.armed = false := by
    have h : y.pwr = x.pwr := by
      rw [hy]
      rfl
    rw [h, hxp]
    exact ⟨hc.2.1, rfl⟩
  have hydmc : y.dmc.selfRefresh = false := by
    have h : y.dmc = x.dmc := by
      rw [hy]
      rfl
    rw [h, hxd]
  have hycnt : y.counters = d.counters := by
    rw [hy]
    exact hxc.trans hc.2.2
  have hzk : y.PowerKept z := by
    rw [hz]
    exact .trans (.wakeTrain y) (.wakeTime _)
  have hvk : y.PowerKept v := hzk.trans (hw.trans hv)
  obtain ⟨u, hu⟩ : ∃ u, u = v.bump Cnt.wakeOk := ⟨_, rfl⟩
  have hur : u.regs = v.regs := by
    rw [hu]
    rfl
  have hup : u.pwr = v.pwr := by
    rw [hu]
    rfl
  have hud : u.dmc = v.dmc := by
    rw [hu]
    rfl
  have huc : u.counter Cnt.wakeOk = d.counter Cnt.wakeOk + 1 := by
    rw [hu, v.counter_bump_self, hvk.wakeOk, Dev.counter_congr hycnt]
  have he : u.PowerKept e := by
    rw [hlast, ← hu]
    exact .trans (.wakeEvents u psSentinel t) (.dispatchAll _)
  exact ⟨he.devState.trans ((Dev.fld_congr hur _).trans (hvk.devState.trans hyst)),
    he.seq.trans (by rw [hup, hvk.seq, hypwr.1]), he.armed.trans (by rw [hup, hvk.armed, hypwr.2]),
    he.selfRefresh.trans (by rw [hud, hvk.selfRefresh, hydmc]),
    (Dev.fld_of_reg (f := Reg.pwrState_state) (he.pwrState.trans ((Dev.reg_congr hur _).trans hvk.pwrState))).trans hyps,
    he.wakeOk.trans huc⟩

theorem Dev.powerStepDone_of_last {d : Dev} {q : PowerSeq} (hq : d.pwr.seq = some q) (hs : q.step = 8) (t : Nat) :
    d.powerStepDone t = if d.pwr.coldBoot then (d.siltTo (d.pwr.entrySilt + siltNs t)).coldStart
      else (d.siltTo (d.pwr.entrySilt + siltNs t)).wakeUp t := by
  unfold Dev.powerStepDone
  rw [hq]
  exact if_pos hs

/-! ## VCORE -/

section
variable {d : Dev} {n : Fin 4} (hm : d.mainUp = true) (he : d.pwr.extSupply = false)
  (hb : (d.fld Reg.pwrRailstat_ph_fail).testBit n.val = false)
include hm he hb

theorem Dev.phaseFault_eq : ∃ x : Dev,
    x.fld Reg.pwrRailstat_ph_fail = (d.fld Reg.pwrRailstat_ph_fail ||| 2 ^ n.val) % 16 ∧ x.devState = d.devState ∧
      x.counter Cnt.phaseFail = d.counter Cnt.phaseFail + 1 ∧
      d.phaseFault n = if d.fld Reg.pwrRailstat_ph_fail = 0 then x.faultEvent 6 n.val
        else
          let y := ((x.setFld Reg.pwrFltCause_cause 3).raise Reg.pwrFltCause_lean_only).faultLock
          { y with pwr := { y.pwr with coldBoot := true } } := by
  unfold Dev.phaseFault
  dsimp only
  generalize hbad : d.fld Reg.pwrRailstat_ph_fail = bad at hb ⊢
  rw [if_neg (by rw [hb, he, hm]; decide)]
  refine ⟨(d.setFld Reg.pwrRailstat_ph_fail (bad ||| 2 ^ n.val)).bump Cnt.phaseFail, ?_, ?_, ?_, rfl⟩
  · exact Dev.fld_setFld_self d Reg.pwrRailstat_ph_fail _ (by decide)
  · exact Dev.fld_setFld_of_separate d Reg.pwrRailstat_ph_fail Reg.hifStat_dev_state _ (by decide)
  · exact Dev.counter_bump_self _ _

theorem Dev.phaseFault_of_first (hz : d.fld Reg.pwrRailstat_ph_fail = 0) :
    (d.phaseFault n).fld Reg.pwrRailstat_ph_fail = 2 ^ n.val ∧ (d.phaseFault n).devState = d.devState ∧
      (d.phaseFault n).counter Cnt.phaseFail = d.counter Cnt.phaseFail + 1 := by
  obtain ⟨x, hph, hst, hcnt, heq⟩ := Dev.phaseFault_eq hm he hb
  rw [heq, if_pos hz]
  have hbook := x.faultEvent_book 6 n.val
  generalize x.faultEvent 6 n.val = e at hbook
  refine ⟨?_, hbook.devState.trans hst, (hbook.counter _ (by unfold bookCnt; decide)).trans hcnt⟩
  refine (hbook.fld (f := Reg.pwrRailstat_ph_fail) (by unfold bookAddr; decide)).trans (hph.trans ?_)
  rw [hz]
  clear * -
  revert n
  decide

theorem Dev.phaseFault_of_second (hz : d.fld Reg.pwrRailstat_ph_fail ≠ 0) :
    (d.phaseFault n).devState = dsFaultLock ∧ (d.phaseFault n).fld Reg.pwrFltCause_cause = 3 ∧
      (d.phaseFault n).bit Reg.pwrFltCause_lean_only = true ∧
      (d.phaseFault n).counter Cnt.phaseFail = d.counter Cnt.phaseFail + 1 := by
  obtain ⟨x, -, -, hcnt, heq⟩ := Dev.phaseFault_eq hm he hb
  rw [heq, if_neg hz]
  dsimp only
  obtain ⟨y, hy⟩ : ∃ y, y = (x.setFld Reg.pwrFltCause_cause 3).raise Reg.pwrFltCause_lean_only := ⟨_, rfl⟩
  have hyc : y.fld Reg.pwrFltCause_cause = 3 := by
    rw [hy]
    exact (Dev.fld_setFld_of_separate _ _ _ _ (by decide)).trans ((Dev.fld_setFld_self _ _ _ (by decide)).trans rfl)
  have hyl : y.bit Reg.pwrFltCause_lean_only = true := by
    rw [hy]
    exact Dev.bit_raise_self _ Reg.pwrFltCause_lean_only
  have hyn : y.counter Cnt.phaseFail = d.counter Cnt.phaseFail + 1 := by
    rw [hy]
    exact (Dev.counter_congr (d := x) rfl _).trans hcnt
  rw [← hy]
  obtain ⟨h1, -, -, -, -, hc, hr⟩ := y.faultLock_shows
  generalize y.faultLock = z at h1 hc hr
  obtain ⟨w, hw⟩ : ∃ w : Dev, w = { z with pwr := { z.pwr with coldBoot := true } } := ⟨_, rfl⟩
  have hwr : w.regs = z.regs := by rw [hw]
  have hwc : w.counters = z.counters := by rw [hw]
  rw [← hw]
  exact ⟨(Dev.fld_congr hwr _).trans h1,
    (Dev.fld_of_reg (f := Reg.pwrFltCause_cause) ((Dev.reg_congr hwr _).trans (hr _ (by decide) (by decide)))).trans hyc,
    (Dev.bit_of_reg (f := Reg.pwrFltCause_lean_only) ((Dev.reg_congr hwr _).trans (hr _ (by decide) (by decide)))).trans hyl,
    (Dev.counter_congr hwc _).trans ((hc _ (by decide)).trans hyn)⟩

end

theorem testBit_zero_phase (n : Fin 4) : (0 : Nat).testBit n.val = false := Nat.zero_testBit _

/-! ## Brown-out and the loss of REFCLK40 -/

/-- The main die's rails are up while it runs. -/
theorem Dev.railsUp_of_mainUp {d : Dev} (h : d.mainUp = true) : d.railsUp = true := by
  unfold Dev.mainUp at h
  unfold Dev.railsUp Dev.waking
  simp only [Bool.and_eq_true, Bool.not_eq_true', Bool.or_eq_true, beq_iff_eq, bne_iff_ne] at h ⊢
  obtain ⟨⟨⟨-, hs⟩, hr⟩, hst⟩ := h
  rw [Option.isSome_eq_false_iff.mpr hs, hr]
  refine .inr ⟨⟨⟨rfl, ?_⟩, ?_⟩, ?_⟩
  all_goals
    intro hd
    rw [hd] at hst
    revert hst
    decide

theorem Dev.brownOut_shows {d : Dev} (hm : d.mainUp = true) (hv : d.pwr.vinUp = true) :
    let e := d.brownOut
    e.devState = dsBoot ∧ e.bit Reg.pwrAonStatus_brownout = true ∧ e.fld Reg.bootStat_strap = d.fld Reg.bootStat_strap ∧
      e.kao = initKao ∧ e.boot = d.boot.flash ∧
      ∀ a, a ≠ Reg.bootStat → a ≠ Reg.pwrRailstat → a ≠ Reg.pwrAonStatus → e.reg a = resetVal a := by
  unfold Dev.brownOut
  rw [if_neg (by rw [hv]; exact Bool.false_ne_true)]
  dsimp only
  rw [Dev.railsUp_of_mainUp hm]
  have hstrap : d.fld Reg.bootStat_strap < 16 := Nat.mod_lt _ (by decide)
  generalize d.fld Reg.bootStat_strap = strap at hstrap ⊢
  obtain ⟨x, hx⟩ : ∃ x : Dev, x = (((d.porCore.setFld Reg.bootStat_strap strap).setBit Reg.pwrRailstat_extsup
      d.pwr.extSupply).raise Reg.pwrAonStatus_brownout).bump Cnt.brownout := ⟨_, rfl⟩
  have hreg : ∀ a, a ≠ Reg.bootStat → a ≠ Reg.pwrRailstat → a ≠ Reg.pwrAonStatus → x.reg a = resetVal a := fun a h1 h2 h3 => by
    rw [hx]
    exact (Dev.reg_setFld_ne _ Reg.pwrAonStatus_brownout _ _ h3).trans ((Dev.reg_setFld_ne _ Reg.pwrRailstat_extsup _ _ h2).trans
      ((Dev.reg_setFld_ne _ Reg.bootStat_strap _ _ h1).trans (d.porCore_reg a)))
  have hbrown : x.bit Reg.pwrAonStatus_brownout = true := by
    rw [hx]
    exact Dev.bit_raise_self _ Reg.pwrAonStatus_brownout
  have hst : x.fld Reg.bootStat_strap = strap := by
    rw [hx]
    exact (Dev.fld_setFld_of_separate _ _ _ _ (by decide)).trans ((Dev.fld_setFld_of_separate _ _ _ _ (by decide)).trans
      ((Dev.fld_setFld_self _ _ _ (by decide)).trans (Nat.mod_eq_of_lt hstrap)))
  have hk : x.kao = initKao ∧ x.boot = d.boot.flash := by
    rw [hx]
    exact ⟨rfl, rfl⟩
  rw [← hx]
  clear hx
  obtain ⟨y, hy⟩ : ∃ y : Dev, y = { x with pwr := { x.pwr with brownBoot := true, porLow := d.pwr.porLow, sysLow := d.pwr.sysLow } } :=
    ⟨_, rfl⟩
  have hyr : y.regs = x.regs := by rw [hy]
  have hyk : y.kao = x.kao ∧ y.boot = x.boot := by
    rw [hy]
    exact ⟨rfl, rfl⟩
  rw [← hy]
  show y.devState = dsBoot ∧ _
  exact ⟨(congrArg Reg.hifStat_dev_state.of ((Dev.reg_congr hyr _).trans (hreg _ (by decide) (by decide) (by decide)))).trans
      hifStat_resets, (Dev.bit_congr hyr _).trans hbrown, (Dev.fld_congr hyr _).trans hst, hyk.1.trans hk.1, hyk.2.trans hk.2,
    fun a h1 h2 h3 => (Dev.reg_congr hyr a).trans (hreg a h1 h2 h3)⟩

theorem Dev.refclkLoss_shows {d : Dev} (hm : d.mainUp = true) :
    let e := d.refclkLoss
    e.devState = dsOff ∧ e.pwr.seq = some ⟨1, false, true⟩ ∧ e.fld Reg.pwrFltCause_cause = 2 ∧ e.pwr.attemptFailed = true := by
  unfold Dev.refclkLoss
  rw [if_neg (by rw [hm]; decide)]
  dsimp only
  obtain ⟨hst, hseq, -, hreg⟩ := Dev.coldSeq_shows (d.setFld Reg.pwrFltCause_cause 2) true
  have hcause : ((d.setFld Reg.pwrFltCause_cause 2).coldSeq true).fld Reg.pwrFltCause_cause = 2 :=
    (Dev.fld_of_reg (hreg _ (by decide))).trans ((Dev.fld_setFld_self d Reg.pwrFltCause_cause 2 (by decide)).trans rfl)
  generalize (d.setFld Reg.pwrFltCause_cause 2).coldSeq true = x at hst hseq hcause
  exact ⟨hst, hseq, hcause, rfl⟩

/-! ## The statement -/

theorem Dev.vcoreAdjust_of_due {d e : Dev} (hm : d.mainUp = true) (hs : d.pwr.extSupply = false)
    (he : d.reachCycle d.pwr.vcoreNext = some e) (up : Bool) :
    d.vcoreAdjust up = ({ e with pwr := { d.pwr with vcoreNext := e.tim.cyc + 100 * cyclesPerUs } } : Dev).setFld
      Reg.pwrRailstat_vcore (if up then min 176 (d.fld Reg.pwrRailstat_vcore + 1) else max 144 (d.fld Reg.pwrRailstat_vcore - 1)) := by
  have hp : d.pwr = e.pwr := by rw [Dev.reachCycle_only he]
  unfold Dev.vcoreAdjust
  dsimp only
  generalize d.fld Reg.pwrRailstat_vcore = v
  rw [if_neg (by rw [hm, hs]; decide), Dev.due_of_reached he, hp]

/-- Settles O56: each supply and sequence command by the registers that it writes. -/
theorem supplyAndSequence : Obligations.SupplyAndSequence := by
  intro s hdef
  refine ⟨fun hv he => ?_, fun hv => ?_, fun q t hq => ⟨fun hs => ⟨?_, fun hr => ?_, fun hr hn => ?_, fun hr hn => ?_⟩,
    fun hs => ⟨fun hc => ?_, fun hc => ?_⟩⟩, fun hr => ?_, fun hm he n => ⟨fun hz => ?_, fun hz hb => ?_⟩, fun e hm hs he => ?_,
    fun hm hv => ?_, fun hm => ?_⟩
  · obtain ⟨h1, h2, h3, -⟩ := Dev.coldSeq_shows { s.dev with pwr := { s.dev.pwr with vinUp := true } } false
    exact ⟨_, Gives.of_run hdef rfl (Dev.uvloRelease_of_down hv he), h3, h2, h1⟩
  · exact ⟨_, Gives.of_run hdef rfl rfl, Dev.uvloEngage_shows hv⟩
  · obtain ⟨h1, h2⟩ := Dev.powerStepDone_of_step hq hs t
    exact ⟨_, Gives.of_run hdef rfl rfl, h1, by rw [h2, q.next_eq]⟩
  · exact ⟨_, Gives.of_run hdef rfl rfl, Dev.powerStepTimeout_of_first hq hs hr t⟩
  · exact ⟨_, Gives.of_run hdef rfl rfl, (Dev.powerStepTimeout_of_failed hq hs hr t).1 hn⟩
  · exact ⟨_, Gives.of_run hdef rfl rfl, (Dev.powerStepTimeout_of_failed hq hs hr t).2 hn⟩
  · have hd : s.dev.powerStepDone t = _ := (Dev.powerStepDone_of_last hq hs t).trans (if_pos hc)
    exact ⟨_, Gives.of_run hdef rfl hd, Dev.coldStart_shows _⟩
  · have hd : s.dev.powerStepDone t = _ := (Dev.powerStepDone_of_last hq hs t).trans (if_neg (by rw [hc]; decide))
    exact ⟨_, Gives.of_run hdef rfl hd, Dev.wakeUp_shows (s.dev.siltTo (s.dev.pwr.entrySilt + siltNs t)) t⟩
  · exact Gives.of_run hdef rfl (if_pos hr : s.dev.attemptRestart = _)
  · exact ⟨_, Gives.of_run hdef rfl rfl, Dev.phaseFault_of_first hm he (by rw [hz]; exact testBit_zero_phase n) hz⟩
  · exact ⟨_, Gives.of_run hdef rfl rfl, Dev.phaseFault_of_second hm he hb hz⟩
  · intro v d
    exact ⟨Gives.of_run hdef rfl (Dev.vcoreAdjust_of_due hm hs he true),
      Gives.of_run hdef rfl (Dev.vcoreAdjust_of_due hm hs he false)⟩
  · exact ⟨_, Gives.of_run hdef rfl rfl, Dev.brownOut_shows hm hv⟩
  · exact ⟨_, Gives.of_run hdef rfl rfl, Dev.refclkLoss_shows hm⟩

end Sys2Proof.Machine
end

section
/-! # Accesses to domains that are down (O57) -/

namespace Sys2Proof.Machine

section
variable {d : Dev} {x : Domain} (h : d.pwr.stalled = [x])
include h

theorem Dev.domainReady_of_only : d.domainReady x =
    let y : Dev := { d with pwr := { d.pwr with stalled := [], woken := d.pwr.woken ++ [x] } }
    if d.pwr.activeCmd.isSome && leanLoam.contains x then y.enterActive else y.bump Cnt.domainWake := by
  unfold Dev.domainReady
  rw [h]
  have hnone : [x].filter (· != x) = [] := by simp
  rw [if_neg (by simp), hnone]
  dsimp only
  split
  · exact if_neg (by decide)
  · rfl

end

theorem Dev.domainReady_of_other {d : Dev} {x : Domain} (h : x ∉ d.pwr.stalled) : d.domainReady x = d :=
  if_pos (by simpa using h)

theorem loam_mem {x : Domain} (h : x = .loam 2 ∨ x = .loam 3) : leanLoam.contains x = true := by
  rcases h with rfl | rfl
  · decide
  · decide

/-- ACTIVE is entered, and the command that waited for it is over. -/
theorem Dev.enterActive_shows (d : Dev) :
    d.enterActive.fld Reg.pwrState_state = 0 ∧ d.enterActive.pwr.activeCmd = none ∧
      d.enterActive.pwr.stalled = d.pwr.stalled := by
  unfold Dev.enterActive
  extract_lets c a src b e
  have ha : a.fld Reg.pwrState_state = 0 := (Dev.fld_setFld_self d Reg.pwrState_state psActive (by decide)).trans rfl
  have hb : b.regs = a.regs ∧ b.pwr.activeCmd = none ∧ b.pwr.stalled = d.pwr.stalled := ⟨rfl, rfl, rfl⟩
  have he : b.PowerKept e := by
    show b.PowerKept (match c with | some c => b.finish c stOk 0 | none => b)
    cases c with
    | none => exact .refl b
    | some c => exact .of_book (.finish b c stOk 0)
  have hd := he.trans (.dispatchAll e)
  obtain ⟨hr, hc, hs⟩ := hb
  exact ⟨(Dev.fld_of_reg (f := Reg.pwrState_state) (hd.pwrState.trans (Dev.reg_congr hr _))).trans ha, hd.activeCmd.trans hc,
    hd.stalled.trans hs⟩

/-- Settles O57, by the cases of an access and of a domain that becomes operational. -/
theorem domainAccesses : Obligations.DomainAccesses := by
  intro s x hup
  refine ⟨fun hoff hw hs => ?_, fun hon b => ?_, fun hs hc => ?_, fun c hs hc hx => ?_, fun hs => ?_⟩
  · have hgo : ¬ (!s.dev.domainOff x || s.dev.pwr.woken.contains x || s.dev.pwr.stalled.contains x) = true := by
      simp [hoff, hw, hs]
    exact ⟨Gives.of_runUp hup rfl ((if_neg hgo).trans (if_pos rfl) : s.dev.domainAccess x true = _),
      Gives.of_runUp hup rfl ((if_neg hgo).trans (if_neg Bool.false_ne_true) : s.dev.domainAccess x false = _)⟩
  · exact Gives.of_runUp hup rfl (if_pos (by rw [hon]; rfl) : s.dev.domainAccess x b = _)
  · exact Gives.of_runUp hup rfl ((Dev.domainReady_of_only hs).trans (if_neg (by rw [hc]; exact Bool.false_ne_true)))
  · obtain ⟨h1, h2, h3⟩ := Dev.enterActive_shows
      { s.dev with pwr := { s.dev.pwr with stalled := [], woken := s.dev.pwr.woken ++ [x] } }
    exact ⟨_, Gives.of_runUp hup rfl ((Dev.domainReady_of_only hs).trans (if_pos (by rw [hc, loam_mem hx]; rfl))), h1, h2, h3⟩
  · exact Gives.of_runUp hup rfl (Dev.domainReady_of_other hs)

end Sys2Proof.Machine
end

section
/-! # Reset pins and the TAP (O59) -/

namespace Sys2Proof.Machine

/-! ## The commands that act whatever the device's state (R516) -/

theorem exec_powerOnReset (s : State) (strap : BitVec 4) (testEn ext kept : Bool) :
    exec (.powerOnReset strap testEn ext kept) s = runReset (fun d => d.powerOn strap testEn ext kept) s := rfl

theorem exec_sysRstN (s : State) (strap : BitVec 4) : exec (.sysRstN strap) s = runReset (fun d => d.sysReset strap) s := rfl

theorem exec_porNAssert (s : State) : exec .porNAssert s = runReset Dev.porAssert s := rfl
theorem exec_sysRstNAssert (s : State) : exec .sysRstNAssert s = runReset Dev.sysAssert s := rfl
theorem exec_extest (s : State) : exec .extest s = runReset (fun d => d.tapSelect 0 true) s := rfl
theorem exec_samplePreload (s : State) (l : List Bool) :
    exec (.samplePreload l) s = runReset (fun d => d.tapSample l) s := rfl
theorem exec_idcode (s : State) : exec .idcode s = runReset Dev.tapIdcode s := rfl
theorem exec_clamp (s : State) : exec .clamp s = runReset (fun d => d.tapSelect 3 true) s := rfl
theorem exec_highz (s : State) : exec .highz s = runReset (fun d => d.tapSelect 4 true) s := rfl
theorem exec_bypass (s : State) (op : BitVec 4) :
    exec (.bypass op) s = runReset (fun d => d.tapSelect (tapBypass op) false) s := rfl

theorem Gives.of_runReset {i : Instr} {s : State} {f : Dev → Dev} {d : Dev} (hi : exec i s = runReset f s) (hd : f s.dev = d) :
    Gives i s d := by
  unfold Gives
  rw [hi, ← hd]
  rfl

/-! ## POR_N -/

/-- A power-on reset of a device whose rails are up. -/
def Dev.repowered (d : Dev) (strap : BitVec 4) (testEn brown : Bool) : Dev :=
  let x := (({ d with obs := { d.obs with testEn := testEn } } : Dev).porCore.setFld Reg.bootStat_strap strap.toNat).setBit
    Reg.pwrAonStatus_brownout brown
  ({ x with pwr := { x.pwr with extSupply := false, sysLow := d.pwr.sysLow } } : Dev).setBit Reg.pwrRailstat_extsup false

theorem Dev.powerOn_of_up {d : Dev} (hv : d.pwr.vinUp = true) (hs : d.pwr.seq = none) (hr : d.railsUp = true) (strap : BitVec 4)
    (testEn kept : Bool) :
    d.powerOn strap testEn false kept = d.repowered strap testEn (d.bit Reg.pwrAonStatus_brownout && kept) := by
  unfold Dev.powerOn
  rw [Bool.false_and]
  dsimp only
  rw [if_neg (by rw [hv]; decide), hr, hs]
  rfl

theorem Dev.powerOn_of_down {d : Dev} (hv : d.pwr.vinUp = false) (strap : BitVec 4) (testEn kept : Bool) :
    d.powerOn strap testEn false kept = { d with pwr := { d.pwr with porLow := false } } := by
  unfold Dev.powerOn
  rw [Bool.false_and]
  dsimp only
  rw [if_pos (by rw [hv]; rfl)]

theorem Dev.repowered_shows (d : Dev) (strap : BitVec 4) (testEn brown : Bool) :
    let e := d.repowered strap testEn brown
    e.devState = dsBoot ∧ e.fld Reg.bootStat_strap = strap.toNat ∧ e.obs.testEn = testEn ∧ e.obs.tapUndef = false ∧
      e.counters = [] ∧ e.bit Reg.pwrAonStatus_brownout = brown ∧ e.pwr.porLow = false ∧ e.boot = d.boot.flash ∧
      ∀ a, a ≠ Reg.bootStat → a ≠ Reg.pwrAonStatus → a ≠ Reg.pwrRailstat → e.reg a = resetVal a := by
  unfold Dev.repowered
  dsimp only
  obtain ⟨w, hw⟩ : ∃ w : Dev, w = ({ d with obs := { d.obs with testEn := testEn } } : Dev).porCore := ⟨_, rfl⟩
  have hwreg (a : Nat) : w.reg a = resetVal a := by
    rw [hw]
    rfl
  have hwobs : w.obs.testEn = testEn ∧ w.obs.tapUndef = false ∧ w.counters = [] ∧ w.pwr.porLow = false ∧ w.boot = d.boot.flash := by
    rw [hw]
    exact ⟨rfl, rfl, rfl, rfl, rfl⟩
  rw [← hw]
  clear hw
  obtain ⟨x, hx⟩ : ∃ x : Dev, x = (w.setFld Reg.bootStat_strap strap.toNat).setBit Reg.pwrAonStatus_brownout brown := ⟨_, rfl⟩
  have hxbrown : x.bit Reg.pwrAonStatus_brownout = brown := by
    rw [hx]
    exact Dev.bit_setBit_self _ _ _
  have hxstrap : x.fld Reg.bootStat_strap = strap.toNat := by
    rw [hx]
    exact (Dev.fld_setFld_of_separate _ _ _ _ (by decide)).trans ((Dev.fld_setFld_self _ _ _ (by decide)).trans
      (Nat.mod_eq_of_lt strap.isLt))
  have hxreg : ∀ a, a ≠ Reg.bootStat → a ≠ Reg.pwrAonStatus → x.reg a = resetVal a := fun a h1 h2 => by
    rw [hx]
    exact (Dev.reg_setFld_ne _ Reg.pwrAonStatus_brownout _ _ h2).trans ((Dev.reg_setFld_ne _ Reg.bootStat_strap _ _ h1).trans
      (hwreg a))
  have hxrest : x.obs = w.obs ∧ x.counters = w.counters ∧ x.pwr = w.pwr ∧ x.boot = w.boot := by
    rw [hx]
    exact ⟨rfl, rfl, rfl, rfl⟩
  rw [← hx]
  clear hx
  obtain ⟨y, hy⟩ : ∃ y : Dev, y = { x with pwr := { x.pwr with extSupply := false, sysLow := d.pwr.sysLow } } := ⟨_, rfl⟩
  have hyr : y.regs = x.regs := by rw [hy]
  have hyrest : y.obs = x.obs ∧ y.counters = x.counters ∧ y.pwr.porLow = x.pwr.porLow ∧ y.boot = x.boot := by
    rw [hy]
    exact ⟨rfl, rfl, rfl, rfl⟩
  rw [← hy]
  clear hy
  obtain ⟨ho, hc, hp, hb⟩ := hxrest
  obtain ⟨ho', hc', hp', hb'⟩ := hyrest
  obtain ⟨h1, h2, h3, h4, h5⟩ := hwobs
  have hreg : ∀ a, a ≠ Reg.bootStat → a ≠ Reg.pwrAonStatus → a ≠ Reg.pwrRailstat →
      (y.setBit Reg.pwrRailstat_extsup false).reg a = resetVal a := fun a k1 k2 k3 =>
    (Dev.reg_setFld_ne _ Reg.pwrRailstat_extsup _ _ k3).trans ((Dev.reg_congr hyr a).trans (hxreg a k1 k2))
  refine ⟨?_, ?_, ?_, ?_, ?_, ?_, ?_, ?_, hreg⟩
  · exact (congrArg Reg.hifStat_dev_state.of (hreg _ (by decide) (by decide) (by decide))).trans hifStat_resets
  · exact (Dev.fld_setFld_of_separate _ _ _ _ (by decide)).trans ((Dev.fld_congr hyr _).trans hxstrap)
  · show y.obs.testEn = testEn
    rw [ho', ho, h1]
  · show y.obs.tapUndef = false
    rw [ho', ho, h2]
  · show y.counters = []
    rw [hc', hc, h3]
  · exact (Dev.bit_setFld_of_separate _ _ _ _ (by decide)).trans ((Dev.bit_congr hyr _).trans hxbrown)
  · show y.pwr.porLow = false
    rw [hp', hp, h4]
  · show y.boot = _
    rw [hb', hb, h5]

/-! ## SYS_RST_N -/

theorem Dev.sysReset_of_up {d : Dev} (hp : d.pwr.porLow = false) (hv : d.pwr.vinUp = true) (hs : d.pwr.seq = none)
    (hr : d.railsUp = true) (strap : BitVec 4) :
    d.sysReset strap =
      let x : Dev := { d.sysCore.setFld Reg.bootStat_strap strap.toNat with
        pwr := { (d.sysCore.setFld Reg.bootStat_strap strap.toNat).pwr with sysLow := false } }
      if d.bit Reg.pwrAonStatus_locked then x.setBit Reg.pwrAonStatus_locked false else x := by
  unfold Dev.sysReset
  rw [if_neg (by rw [hp, hv]; exact Bool.false_ne_true)]
  dsimp only
  rw [hr, hs]
  rfl

theorem Dev.sysReset_shows {d : Dev} (hp : d.pwr.porLow = false) (hv : d.pwr.vinUp = true) (hs : d.pwr.seq = none)
    (hr : d.railsUp = true) (strap : BitVec 4) :
    let e := d.sysReset strap
    e.devState = dsBoot ∧ e.fld Reg.bootStat_strap = strap.toNat ∧ e.pwr.sysLow = false ∧ e.obs.tapUndef = false ∧
      e.counters = d.counters ∧ e.boot = d.boot.flash ∧
      (∀ a, silent a = true → a ≠ Reg.pwrState → a ≠ Reg.pwrAonStatus → e.reg a = d.reg a) ∧
      ∀ a, silent a = false → a ≠ Reg.bootStat → e.reg a = resetVal a := by
  rw [Dev.sysReset_of_up hp hv hs hr strap]
  have hreg := fun a h1 h2 => d.sysCore_reg (a := a) h1 h2
  have hcore : d.sysCore.obs.tapUndef = false ∧ d.sysCore.counters = d.counters ∧ d.sysCore.boot = d.boot.flash := ⟨rfl, rfl, rfl⟩
  generalize d.sysCore = w at hreg hcore
  obtain ⟨x, hx⟩ : ∃ x : Dev, x = { w.setFld Reg.bootStat_strap strap.toNat with
        pwr := { (w.setFld Reg.bootStat_strap strap.toNat).pwr with sysLow := false } } := ⟨_, rfl⟩
  have hxr : x.regs = (w.setFld Reg.bootStat_strap strap.toNat).regs := by rw [hx]
  have hxs : x.pwr.sysLow = false := by rw [hx]
  have hxrest : x.obs = w.obs ∧ x.counters = w.counters ∧ x.boot = w.boot := by
    rw [hx]
    exact ⟨rfl, rfl, rfl⟩
  obtain ⟨e, he⟩ : ∃ e : Dev, e = if d.bit Reg.pwrAonStatus_locked then x.setBit Reg.pwrAonStatus_locked false else x := ⟨_, rfl⟩
  have hereg : ∀ a, a ≠ Reg.pwrAonStatus → e.reg a = x.reg a := fun a h => by
    rw [he]
    split
    · exact Dev.reg_setFld_ne x Reg.pwrAonStatus_locked _ _ h
    · rfl
  have herest : e.pwr = x.pwr ∧ e.obs = x.obs ∧ e.counters = x.counters ∧ e.boot = x.boot := by
    rw [he]
    split
    · exact ⟨rfl, rfl, rfl, rfl⟩
    · exact ⟨rfl, rfl, rfl, rfl⟩
  dsimp only
  rw [← hx, ← he]
  clear hx he
  obtain ⟨hp', ho, hc, hb⟩ := herest
  obtain ⟨ho', hc', hb'⟩ := hxrest
  obtain ⟨h1, h2, h3⟩ := hcore
  have hall : ∀ a, a ≠ Reg.pwrAonStatus → a ≠ Reg.bootStat → a ≠ Reg.pwrState →
      e.reg a = if silent a then d.reg a else resetVal a := fun a k1 k2 k3 =>
    (hereg a k1).trans ((Dev.reg_congr hxr a).trans ((Dev.reg_setFld_ne w Reg.bootStat_strap _ _ k2).trans (hreg a k2 k3)))
  have hsil : silent Reg.pwrAonStatus = true ∧ silent Reg.pwrState = true ∧ silent Reg.bootStat = false := by decide
  have hloud : ∀ a, silent a = false → a ≠ Reg.bootStat → e.reg a = resetVal a := fun a k1 k2 => by
    refine (hall a (fun h => ?_) k2 fun h => ?_).trans (if_neg (by rw [k1]; exact Bool.false_ne_true))
    · rw [h, hsil.1] at k1
      exact nomatch k1
    · rw [h, hsil.2.1] at k1
      exact nomatch k1
  refine ⟨(congrArg Reg.hifStat_dev_state.of (hloud _ (by decide) (by decide))).trans hifStat_resets, ?_, by rw [hp', hxs],
    by rw [ho, ho', h1], by rw [hc, hc', h2], by rw [hb, hb', h3], fun a k1 k2 k3 => ?_, hloud⟩
  · refine (Dev.fld_of_reg (f := Reg.bootStat_strap) (hereg _ (by decide))).trans ((Dev.fld_congr hxr _).trans ?_)
    exact (Dev.fld_setFld_self w _ _ (by decide)).trans (Nat.mod_eq_of_lt strap.isLt)
  · refine (hall a k3 (fun h => ?_) k2).trans (if_pos k1)
    rw [h, hsil.2.2] at k1
    exact nomatch k1

/-! ## The TAP -/

section
variable {d : Dev}

theorem Dev.tapSelect_of_off (h : d.obs.testEn = false) (op : BitVec 4) (b : Bool) : d.tapSelect op b = d :=
  if_pos (by rw [h]; rfl)

theorem Dev.tapSelect_of_on (h : d.obs.testEn = true) (op : BitVec 4) (b : Bool) :
    d.tapSelect op b = { d with obs := { d.obs with tap := op, tapUndef := d.obs.tapUndef || b } } :=
  if_neg (by rw [h]; decide)

/-- An instruction that leaves the balls their functions. -/
theorem Dev.tapSelect_of_kept (h : d.obs.testEn = true) (op : BitVec 4) :
    d.tapSelect op false = { d with obs := { d.obs with tap := op } } := by
  rw [Dev.tapSelect_of_on h, Bool.or_false]

/-- An instruction that takes the balls from their functions. -/
theorem Dev.tapSelect_of_taken (h : d.obs.testEn = true) (op : BitVec 4) :
    d.tapSelect op true = { d with obs := { d.obs with tap := op, tapUndef := true } } := by
  rw [Dev.tapSelect_of_on h, Bool.or_true]

end

/-- Settles O59: a reset is described register by register, a TAP instruction by what it selects. -/
theorem resetPinsAndTap : Obligations.ResetPinsAndTap := by
  refine ⟨fun s strap => ⟨fun hv hs hr testEn kept => ?_, fun hv testEn kept => ?_, fun hp hv hs hr => ?_, ?_, fun hp => ?_,
    fun hp => ?_⟩, fun s op l => ⟨fun ht i hi => ?_, fun ht => ?_⟩⟩
  · have hgives := Gives.of_runReset (exec_powerOnReset s strap testEn false kept)
      (Dev.powerOn_of_up hv hs hr strap testEn kept)
    have hshows := s.dev.repowered_shows strap testEn (s.dev.bit Reg.pwrAonStatus_brownout && kept)
    generalize s.dev.repowered strap testEn (s.dev.bit Reg.pwrAonStatus_brownout && kept) = e at hgives hshows
    exact ⟨e, hgives, hshows⟩
  · exact Gives.of_runReset (exec_powerOnReset s strap testEn false kept) (Dev.powerOn_of_down hv strap testEn kept)
  · exact ⟨s.dev.sysReset strap, Gives.of_runReset (exec_sysRstN s strap) rfl, Dev.sysReset_shows hp hv hs hr strap⟩
  · exact Gives.of_runReset (exec_porNAssert s) rfl
  · exact Gives.of_runReset (exec_sysRstNAssert s) (if_neg (by rw [hp]; exact Bool.false_ne_true))
  · exact Gives.of_runReset (exec_sysRstNAssert s) (if_pos hp)
  · have hnot : (!s.dev.obs.testEn) = true := by
      rw [ht]
      rfl
    simp only [List.mem_cons, List.not_mem_nil, or_false] at hi
    rcases hi with rfl | rfl | rfl | rfl | rfl | rfl
    · exact Gives.of_runReset (exec_extest s) (Dev.tapSelect_of_off ht 0 true)
    · exact Gives.of_runReset (exec_samplePreload s l) (if_pos hnot)
    · exact Gives.of_runReset (exec_idcode s) (if_pos hnot)
    · exact Gives.of_runReset (exec_clamp s) (Dev.tapSelect_of_off ht 3 true)
    · exact Gives.of_runReset (exec_highz s) (Dev.tapSelect_of_off ht 4 true)
    · exact Gives.of_runReset (exec_bypass s op) (Dev.tapSelect_of_off ht (tapBypass op) false)
  · intro Takes
    have hnot : ¬ (!s.dev.obs.testEn) = true := by
      rw [ht]
      exact Bool.false_ne_true
    have hid : s.dev.tapIdcode = (s.dev.tapSelect 2 false).out (.value 0xB734854F) := if_neg hnot
    rw [Dev.tapSelect_of_kept ht] at hid
    refine ⟨Gives.of_runReset (exec_extest s) (Dev.tapSelect_of_taken ht 0),
      Gives.of_runReset (exec_clamp s) (Dev.tapSelect_of_taken ht 3),
      Gives.of_runReset (exec_highz s) (Dev.tapSelect_of_taken ht 4),
      Gives.of_runReset (exec_samplePreload s l) (if_neg hnot), Gives.of_runReset (exec_idcode s) hid,
      fun hop => Gives.of_runReset (exec_bypass s op) ?_⟩
    rw [show tapBypass op = op from if_neg (by omega), Dev.tapSelect_of_kept ht]

end Sys2Proof.Machine
end

section
/-! # What a port that tries a mode writes, and what a boot keeps -/

namespace Sys2Proof.Machine

theorem Dev.Within.ite {A C : List Nat} {d a b : Dev} {c : Prop} [Decidable c] (ha : Dev.Within A C d a)
    (hb : Dev.Within A C d b) : Dev.Within A C d (if c then a else b) := by
  split
  · exact ha
  · exact hb

/-! ## The links -/

/-- The registers of the ports' links. -/
def linkRegs : List Nat := [0x300000, 0x310000, 0x300008, 0x310008]
/-- The counters of the ports' links. -/
def linkCnts : List Nat := [0x28F, 0x290, 0x292, 0x2AF, 0x2B0, 0x2B2, 0x3C6]

theorem mem_linkRegs (p : PortId) : Reg.ethStat p ∈ linkRegs ∧ Reg.ethCfg p ∈ linkRegs := by
  revert p
  decide

theorem mem_linkCnts (p : PortId) : Cnt.linkDown p ∈ linkCnts ∧ Cnt.pausedUs p ∈ linkCnts ∧ Cnt.dropLinkDown p ∈ linkCnts := by
  revert p
  decide

/-- Only registers and counters of the links, and the books, have changed. -/
abbrev Dev.LinksOnly (d e : Dev) : Prop := Dev.Within linkRegs linkCnts d e

theorem Dev.linkLost_links (d : Dev) (p : PortId) : d.LinksOnly (d.linkLost p) := by
  cases hl : d.linkUp p with
  | true =>
    have h := Dev.linkLost_shows hl
    obtain ⟨hs, -⟩ := mem_linkRegs p
    obtain ⟨hd, hp, -⟩ := mem_linkCnts p
    exact ⟨fun a hb ha => h.reg a hb fun k => ha (k ▸ hs), fun c hb hc => h.counter c hb (fun k => hc (k ▸ hd)) fun k => hc (k ▸ hp)⟩
  | false =>
    have h : d.linkLost p = d := by
      unfold Dev.linkLost
      exact if_pos (by rw [hl]; rfl)
    rw [h]
    exact .refl d

theorem Dev.flushPort_links (d : Dev) (p : PortId) : d.LinksOnly (d.flushPort p) := by
  obtain ⟨hr, -, -, hc⟩ := d.flushPort_shows p
  exact ⟨fun a hb _ => hr a hb, fun c hb h => hc c hb (fun k => h (k ▸ (mem_linkCnts 0).2.2)) fun k => h (k ▸ (mem_linkCnts 1).2.2)⟩

theorem Dev.FramesOnly.links {d e : Dev} (h : d.FramesOnly e) : d.LinksOnly e := .of_same h.regs h.counters

theorem Dev.memberFailover_links (d : Dev) (p : PortId) : d.LinksOnly (d.memberFailover p) := by
  rw [Dev.memberFailover_eq]
  have hf : d.FramesOnly ((List.range 8).foldl (Dev.failQueue p (d.port p).sending) d) :=
    .foldl (fun d q => .failQueue p _ d q) _ d
  generalize (List.range 8).foldl (Dev.failQueue p (d.port p).sending) d = x at hf ⊢
  have hx : x.FramesOnly (x.modPort p fun z => { z with sending := none }) := .modPort x p fun _ => rfl
  generalize (x.modPort p fun z => { z with sending := none }) = y at hx ⊢
  have hy : d.LinksOnly y.moveOver := ((hf.trans hx).trans (.moveOver y)).links
  generalize y.moveOver = z at hy ⊢
  have hb : z.LinksOnly (z.bump Cnt.linkFailover) := .bumpBy z 1 (by decide)
  generalize z.bump Cnt.linkFailover = w at hb ⊢
  have hw : w.LinksOnly { w with freeCtr := w.freeCtr + 1 } := .of_same rfl rfl
  exact hy.trans (hb.trans (hw.trans (.of_book (w.faultEvent_book 5 p))))

theorem Dev.pairEnded_links (d : Dev) (was : Bool) : d.LinksOnly (d.pairEnded was) := by
  unfold Dev.pairEnded
  refine .ite (.refl d) (.trans (Dev.FramesOnly.moveOver d).links ?_)
  generalize d.moveOver = x
  have hone (y : Dev) (p : PortId) : y.LinksOnly (if y.linkUp p then y else y.flushPort p) := .ite (.refl y) (y.flushPort_links p)
  exact (hone x 0).trans (hone _ 1)

theorem Dev.stepOver_links (d : Dev) : d.LinksOnly d.stepOver :=
  .trans (e := { d with eth := { d.eth with pairStep := none, pairCfg := none, below := 0 } }) (.of_same rfl rfl)
    (Dev.pairEnded_links _ _)

theorem Dev.stepFailure_links (d : Dev) (p : PortId) : d.LinksOnly (d.stepFailure p) := by
  unfold Dev.stepFailure
  split
  · exact .refl d
  · next s _ =>
    have hm : d.LinksOnly (if s.phase = .change then d.setModeOf s.member s.oldMode else d) :=
      .ite (.setFld d (f := Reg.ethCfg_mode s.member) _ (mem_linkRegs _).2) (.refl d)
    exact .ite (hm.trans (Dev.stepOver_links _)) (.ite (.of_same rfl rfl) (.ite d.stepOver_links (.refl d)))

theorem Dev.linkDown_links (d : Dev) (p : PortId) : d.LinksOnly (d.linkDown p) := by
  unfold Dev.linkDown
  refine .ite (.refl d) (.trans (d.linkLost_links p) ?_)
  generalize d.linkLost p = x
  exact .ite (.trans (x.memberFailover_links p) (Dev.stepFailure_links _ p)) (x.flushPort_links p)

theorem Dev.tryPort_links (d : Dev) (p : PortId) (m : Nat) : d.LinksOnly (d.tryPort p m) := by
  unfold Dev.tryPort
  have hx : d.LinksOnly (d.modPort p fun x => { x with tryMode := some m, tryFrom := d.tim.cyc }) :=
    .of_same (modPort_regs d p _) (modPort_counters d p _)
  generalize (d.modPort p fun x => { x with tryMode := some m, tryFrom := d.tim.cyc }) = x at hx ⊢
  generalize (Reg.ethCfg_mode p).put (d.reg (Reg.ethCfg p)) m = v
  unfold Dev.ethCfgWrite
  dsimp only
  generalize x.fld (Reg.ethCfg_mode p) = old
  have hy : x.LinksOnly (x.setReg (Reg.ethCfg p) (v &&& 0x00073FFF)) := .setReg x _ (mem_linkRegs p).2
  generalize x.setReg (Reg.ethCfg p) (v &&& 0x00073FFF) = y at hy ⊢
  exact hx.trans (hy.trans (.ite (.refl y) (y.linkDown_links p)))

/-! ## The boot -/

/-- The registers that a boot writes beside BOOT_STAT, BOOT_BUILD and HIF_STAT. -/
def bootRegs : List Nat :=
  [Reg.dmcCfg, Reg.timPtpcfg, Reg.bootUpdStat, Reg.bootUpdMiss, Reg.bootUpdLimit, Reg.tskCcstat, Reg.pwrState] ++ linkRegs
/-- The counters that a boot counts beside BOOT and BOOT_FALLBACK. -/
def bootCnts : List Nat := [Cnt.profileCopyBad, Cnt.leanEntry] ++ linkCnts

/-- Only what a boot writes beside BOOT_STAT, BOOT_BUILD and their counters has changed. -/
abbrev Dev.BootOnly (d e : Dev) : Prop := Dev.Within bootRegs bootCnts d e

theorem Dev.blankHost_boot (d : Dev) : d.BootOnly d.blankHost := by
  have h1 : d.BootOnly (d.setBit Reg.timPtpcfg_tc_en true) := .setFld d _ (by decide)
  have h2 : (d.setBit Reg.timPtpcfg_tc_en true).LinksOnly (((d.setBit Reg.timPtpcfg_tc_en true).tryPort 0 1).tryPort 1 1) :=
    (Dev.tryPort_links _ 0 1).trans (Dev.tryPort_links _ 1 1)
  have h3 : d.BootOnly (((d.setBit Reg.timPtpcfg_tc_en true).tryPort 0 1).tryPort 1 1) :=
    h1.trans (h2.mono (List.subset_append_right _ _) (List.subset_append_right _ _))
  unfold Dev.blankHost
  extract_lets x y enable chans src
  have h4 : d.BootOnly y := h3
  clear_value y
  exact h4.trans (.of_same rfl rfl)

theorem Dev.bootDram_boot (d : Dev) (r : Option (List Byte)) (find : DramFind) : d.BootOnly (d.bootDram r find) := by
  unfold Dev.bootDram
  extract_lets v
  exact .trans (.trans (.setFld d _ (by decide)) (.setFld _ _ (by decide))) (.setFld _ _ (by decide))

theorem Dev.bootUpdate_boot (d : Dev) : d.BootOnly d.bootUpdate := by
  unfold Dev.bootUpdate
  extract_lets marks src x st
  have hx : d.BootOnly x := .of_same rfl rfl
  have h2 : x.BootOnly ((x.setFld Reg.bootUpdStat_state st).setFld Reg.bootUpdLimit_limit x.chunkLimit) :=
    .trans (.setFld x _ (by decide)) (.setFld _ _ (by decide))
  clear_value x
  exact hx.trans (h2.trans ((Dev.showUpd_within _).1.mono (by decide) (by decide)))

/-- Without a link key only the boot record moves on. -/
theorem Dev.bootKeys_nil (d : Dev) : d.bootKeys [] = { d with boot := d.boot.nextEpochs } := rfl

/-- Events change the books only. -/
theorem Dev.wakeEvents_kept (d : Dev) (old ticks : Nat) :
    d.BootOnly (d.wakeEvents old ticks) ∧ (d.wakeEvents old ticks).devState = d.devState := by
  unfold Dev.wakeEvents
  extract_lets a l b src
  have ha : d.Book a := .event d _ _ _
  have hb : a.Book b := .foldl _ (fun d _ => .event d _ _ _) l a
  have hab := ha.trans hb
  clear_value b
  exact ⟨.trans (.of_book hab) (.of_same rfl rfl), hab.devState⟩

/-- The event of a fault that led to the boot. -/
theorem Dev.faultBoot_kept (d : Dev) (c code : Nat) (l : List (Nat × List Byte)) :
    let e := ({ d with pwr := { d.pwr with faultBoot := none } } : Dev).event code c l
    d.BootOnly e ∧ e.devState = d.devState := by
  obtain ⟨x, hx⟩ : ∃ x : Dev, x = { d with pwr := { d.pwr with faultBoot := none } } := ⟨_, rfl⟩
  have hr : x.regs = d.regs := by rw [hx]
  have hc : x.counters = d.counters := by rw [hx]
  rw [← hx]
  have h : x.Book (x.event code c l) := .event x _ _ _
  exact ⟨.trans (.of_same hr hc) (.of_book h), h.devState.trans (Dev.fld_congr hr _)⟩

/-- The event of a brown-out, and the events of the wakes before it. -/
theorem Dev.brownEvents_kept (d : Dev) (k i j : Nat) :
    let e := (({ d with freeCtr := k, pwr := { d.pwr with brownBoot := false } } : Dev).event 0x0023 0 []).wakeEvents i j
    d.BootOnly e ∧ e.devState = d.devState := by
  obtain ⟨x, hx⟩ : ∃ x : Dev, x = { d with freeCtr := k, pwr := { d.pwr with brownBoot := false } } := ⟨_, rfl⟩
  have hr : x.regs = d.regs := by rw [hx]
  have hc : x.counters = d.counters := by rw [hx]
  rw [← hx]
  have h : x.Book (x.event 0x0023 0 []) := .event x _ _ _
  obtain ⟨hb, hs⟩ := (x.event 0x0023 0 []).wakeEvents_kept i j
  exact ⟨.trans (.of_same hr hc) (.trans (.of_book h) hb), hs.trans (h.devState.trans (Dev.fld_congr hr _))⟩

theorem Dev.bootEvents_kept (d : Dev) : d.BootOnly d.bootEvents ∧ d.bootEvents.devState = d.devState := by
  have hlate (x : Dev) (hx : d.BootOnly x ∧ x.devState = d.devState) (k i j : Nat) :
      d.BootOnly ((({ x with freeCtr := k, pwr := { x.pwr with brownBoot := false } } : Dev).event 0x0023 0 []).wakeEvents i j) ∧
        ((({ x with freeCtr := k, pwr := { x.pwr with brownBoot := false } } : Dev).event 0x0023 0 []).wakeEvents i j).devState =
          d.devState :=
    ⟨hx.1.trans (x.brownEvents_kept k i j).1, (x.brownEvents_kept k i j).2.trans hx.2⟩
  unfold Dev.bootEvents
  split
  · next c _ =>
    have hx := d.faultBoot_kept c 0x0043 [(8, [byte (d.fld Reg.pwrFltCause_resets)])]
    dsimp only at hx ⊢
    generalize ({ d with pwr := { d.pwr with faultBoot := none } } : Dev).event 0x0043 c
      [(8, [byte (d.fld Reg.pwrFltCause_resets)])] = x at hx ⊢
    split
    · exact hx
    · exact hlate x hx _ _ _
  · dsimp only
    split
    · exact ⟨.refl d, rfl⟩
    · exact hlate d ⟨.refl d, rfl⟩ _ _ _

end Sys2Proof.Machine
end

section
/-! # The boot from flash and UART, and the trace port (O60) -/

namespace Sys2Proof.Machine

/-- With neither copy of the profile passing its checks the boot uses none. -/
theorem Dev.chooseProfile_of_none {d : Dev} (h0 : profileOk d.boot.prof0 = false) (h1 : profileOk d.boot.prof1 = false) :
    d.chooseProfile = (none, 1) := by
  unfold Dev.chooseProfile
  simp only [h0, h1, Bool.false_and, Bool.false_eq_true, if_false, Bool.or_false]

/-- What the choice of an image shows: the fallback, the boot, the bank and the build. -/
def Dev.bootShown (d : Dev) (img : List Byte) (bank fallback : Bool) : Dev :=
  let d := if fallback then (d.bump Cnt.bootFallback).raise Reg.bootStat_fallback else d
  ((d.bump Cnt.boot).setBit Reg.bootStat_bank bank).setReg Reg.bootBuild (BitVec.ofNat 32 (imgBuild img))

theorem Dev.bootShown_shows (d : Dev) (img : List Byte) (bank fallback : Bool) :
    let e := d.bootShown img bank fallback
    e.bit Reg.bootStat_bank = bank ∧ e.reg Reg.bootBuild = BitVec.ofNat 32 (imgBuild img) ∧
      e.counter Cnt.boot = d.counter Cnt.boot + 1 ∧
      e.counter Cnt.bootFallback = (if fallback then d.counter Cnt.bootFallback + 1 else d.counter Cnt.bootFallback) ∧
      (fallback = true → e.bit Reg.bootStat_fallback = true) ∧ e.boot = d.boot := by
  unfold Dev.bootShown
  extract_lets x e
  have hboot : x.counter Cnt.boot = d.counter Cnt.boot := by
    show (if _ then _ else _ : Dev).counter Cnt.boot = _
    split
    · exact (Dev.counter_raise _ _ _).trans ((Dev.counter_bumpBy ..).trans (if_neg (by decide)))
    · rfl
  have hfall : x.counter Cnt.bootFallback =
      (if fallback then d.counter Cnt.bootFallback + 1 else d.counter Cnt.bootFallback) := by
    show (if _ then _ else _ : Dev).counter Cnt.bootFallback = _
    split
    · exact (Dev.counter_raise _ _ _).trans (d.counter_bump_self _)
    · rfl
  have hbit : fallback = true → x.bit Reg.bootStat_fallback = true := fun h => by
    show (if _ then _ else _ : Dev).bit _ = _
    rw [if_pos h]
    exact Dev.bit_raise_self _ Reg.bootStat_fallback
  have hrec : x.boot = d.boot := by
    show (if _ then _ else _ : Dev).boot = _
    split
    · rfl
    · rfl
  have he : e = ((x.bump Cnt.boot).setBit Reg.bootStat_bank bank).setReg Reg.bootBuild (BitVec.ofNat 32 (imgBuild img)) := rfl
  clear_value e x
  generalize BitVec.ofNat 32 (imgBuild img) = v at he ⊢
  obtain ⟨y, hy⟩ : ∃ y, y = (x.bump Cnt.boot).setBit Reg.bootStat_bank bank := ⟨_, rfl⟩
  have hybank : y.bit Reg.bootStat_bank = bank := by
    rw [hy]
    exact Dev.bit_setBit_self _ _ _
  have hyfall : fallback = true → y.bit Reg.bootStat_fallback = true := fun h => by
    rw [hy]
    exact (Dev.bit_setFld_of_separate _ _ _ _ (by decide)).trans ((x.bit_bump Cnt.boot _).trans (hbit h))
  have hyboot : y.counter Cnt.boot = d.counter Cnt.boot + 1 := by
    rw [hy, ← hboot]
    exact x.counter_bump_self _
  have hyc : y.counter Cnt.bootFallback = x.counter Cnt.bootFallback := by
    rw [hy]
    exact (Dev.counter_bumpBy x Cnt.boot _ 1).trans (if_neg (by decide))
  have hyrec : y.boot = d.boot := by
    rw [hy]
    exact hrec
  rw [← hy] at he
  rw [he]
  clear hy he
  have hstat : (y.setReg Reg.bootBuild v).reg Reg.bootStat = y.reg Reg.bootStat := Dev.reg_setReg_ne _ (by decide) _
  exact ⟨(Dev.bit_of_reg (f := Reg.bootStat_bank) hstat).trans hybank, Dev.reg_setReg_same .., hyboot, hyc.trans hfall,
    fun h => (Dev.bit_of_reg (f := Reg.bootStat_fallback) hstat).trans (hyfall h), hyrec⟩

/-- What a boot without a usable profile shows. -/
theorem Dev.finishBoot_shows {d : Dev} (img : List Byte) (bank fallback : Bool) (find : DramFind)
    (h0 : profileOk d.boot.prof0 = false) (h1 : profileOk d.boot.prof1 = false) :
    let e := d.finishBoot img bank fallback find
    e.devState = dsStandalone ∧ e.bit Reg.bootStat_bank = bank ∧ e.reg Reg.bootBuild = BitVec.ofNat 32 (imgBuild img) ∧
      e.counter Cnt.boot = d.counter Cnt.boot + 1 ∧
      e.counter Cnt.bootFallback = (if fallback then d.counter Cnt.bootFallback + 1 else d.counter Cnt.bootFallback) ∧
      (fallback = true → e.bit Reg.bootStat_fallback = true) := by
  obtain ⟨hbank, hbuild, hcount, hfall, hbit, hrec⟩ := d.bootShown_shows img bank fallback
  intro e
  have he : e = d.finishBoot img bank fallback find := rfl
  clear_value e
  unfold Dev.finishBoot at he
  extract_lets d1 d2 d3 src d4 d5 ch d6 d7 base src2 src3 d8 keys d9 d10 d11 gen d12 d13 at he
  have hd3 : d3 = d.bootShown img bank fallback := rfl
  have hd4 : d3.BootOnly d4 := .of_same rfl rfl
  have hd5 : d4.BootOnly d5 := .bumpBy d4 _ (by decide)
  have hprofs : d5.boot.prof0 = d3.boot.prof0 ∧ d5.boot.prof1 = d3.boot.prof1 := ⟨rfl, rfl⟩
  have hch : ch = (none, 1) := by
    rw [hd3, hrec] at hprofs
    exact Dev.chooseProfile_of_none (by rw [hprofs.1, h0]) (by rw [hprofs.2, h1])
  have hd6 : d6 = d5.setFld Reg.bootStat_prof ch.2 := rfl
  have hd7 : d6.BootOnly d7 := d6.bootDram_boot _ find
  have hd8 : d7.BootOnly d8 := .of_same rfl rfl
  have hkeys : keys = [] := by
    show (match ch.1 with
      | some p => ((recordsOf p).filter fun r => r.1 == recLinkkey).map (·.2)
      | none => []) = []
    rw [hch]
  have hd9 : d8.BootOnly d9 := by
    show d8.BootOnly (d8.bootKeys keys)
    rw [hkeys, Dev.bootKeys_nil]
    exact .of_same rfl rfl
  have hd10 : d9.BootOnly d10 := by
    show d9.BootOnly (match ch.1 with | some p => d9.applyProfile p | none => d9.blankHost)
    rw [hch]
    exact d9.blankHost_boot
  have hd11 : d10.BootOnly d11 ∧ d11.devState = dsStandalone := by
    show d10.BootOnly (d10.bootUpdate.setFld Reg.hifStat_dev_state dsStandalone).testStandby ∧
      (d10.bootUpdate.setFld Reg.hifStat_dev_state dsStandalone).testStandby.devState = dsStandalone
    obtain ⟨x, hx⟩ : ∃ x, x = d10.bootUpdate.setFld Reg.hifStat_dev_state dsStandalone := ⟨_, rfl⟩
    have hbook : bookAddr Reg.hifStat := by
      unfold bookAddr
      decide
    have hxb : d10.bootUpdate.BootOnly x := by
      rw [hx]
      exact ⟨fun a hb _ => Dev.reg_setFld_ne _ Reg.hifStat_dev_state _ _ fun k => hb (k ▸ hbook), fun _ _ _ => rfl⟩
    have hxs : x.devState = dsStandalone := by
      rw [hx]
      exact (Dev.fld_setFld_self _ Reg.hifStat_dev_state dsStandalone (by decide)).trans rfl
    rw [← hx]
    have ht : x.BootOnly { x with tsk := { x.tsk with testing := true } } := .of_same rfl rfl
    exact ⟨d10.bootUpdate_boot.trans (hxb.trans (ht.trans (.setFld _ _ (by decide)))),
      (Dev.fld_setFld_of_separate _ _ _ _ (by decide)).trans ((Dev.fld_congr (d := x) rfl _).trans hxs)⟩
  have hd12 : d11.Book d12 := .event d11 _ _ _
  have hd13 : d12.BootOnly d13 ∧ d13.devState = d12.devState := d12.bootEvents_kept
  clear_value d13 d12 gen d11 d10 d9 keys d8 src3 src2 base d7 d6 ch d5 d4 src d3 d2 d1
  subst hd3
  have hlast : d13.BootOnly e ∧ e.devState = d13.devState := by
    rw [he]
    split
    · exact ⟨.trans (.setFld d13 (f := Reg.pwrState_state) _ (by decide)) (.bumpBy _ 1 (by decide)),
        Dev.fld_setFld_of_separate d13 Reg.pwrState_state Reg.hifStat_dev_state _ (by decide)⟩
    · exact ⟨.refl d13, rfl⟩
  have hlate : d6.BootOnly e := hd7.trans (hd8.trans (hd9.trans (hd10.trans (hd11.1.trans (.trans (.of_book hd12)
    (hd13.1.trans hlast.1))))))
  have hearly := hd4.trans hd5
  have hstat : ¬ bookAddr Reg.bootStat ∧ Reg.bootStat ∉ bootRegs ∧ ¬ bookAddr Reg.bootBuild ∧ Reg.bootBuild ∉ bootRegs := by
    unfold bookAddr
    decide
  have hcnts : ¬ bookCnt Cnt.boot ∧ Cnt.boot ∉ bootCnts ∧ ¬ bookCnt Cnt.bootFallback ∧ Cnt.bootFallback ∉ bootCnts := by
    unfold bookCnt
    decide
  have hcounter (c : Nat) (h1 : ¬ bookCnt c) (h2 : c ∉ bootCnts) : e.counter c = (d.bootShown img bank fallback).counter c := by
    rw [hlate.counter c h1 h2, hd6]
    exact hearly.counter c h1 h2
  have hbits (f : Field) (hf : f.addr = Reg.bootStat) (hs : Reg.bootStat_prof.separate f = true) :
      e.bit f = (d.bootShown img bank fallback).bit f := by
    rw [hlate.bit (by rw [hf]; exact hstat.1) (by rw [hf]; exact hstat.2.1), hd6, Dev.bit_setFld_of_separate _ _ _ _ hs]
    exact hearly.bit (by rw [hf]; exact hstat.1) (by rw [hf]; exact hstat.2.1)
  refine ⟨hlast.2.trans (hd13.2.trans (hd12.devState.trans hd11.2)), (hbits _ rfl (by decide)).trans hbank, ?_,
    (hcounter _ hcnts.1 hcnts.2.1).trans hcount, (hcounter _ hcnts.2.2.1 hcnts.2.2.2).trans hfall,
    fun h => (hbits _ rfl (by decide)).trans (hbit h)⟩
  rw [hlate.reg _ hstat.2.2.1 hstat.2.2.2, hd6, Dev.reg_setFld_ne _ _ _ _ (by decide)]
  exact (hearly.reg _ hstat.2.2.1 hstat.2.2.2).trans hbuild

/-! ## The statement -/

theorem Dev.bootComplete_of_flash {d : Dev} (hs : d.devState = dsBoot) (hr : d.boot.bothRejected = false)
    (h0 : d.fld Reg.bootStat_strap = 0) (find : DramFind) : d.bootComplete find = d.bootFlash d.boot.activeB find := by
  unfold Dev.bootComplete
  dsimp only
  rw [h0, hs, hr, if_neg (by decide), if_neg (fun h => absurd h.1 (by decide)), if_neg (fun h => absurd h.1 (by decide)),
    if_neg (fun h => absurd h.1 (by decide)), if_neg (fun h => absurd h.1 (by decide))]

theorem Dev.uartImage_of_waiting {d : Dev} (hs : d.devState = dsBoot)
    (hw : d.fld Reg.bootStat_strap = 8 ∨ d.boot.bothRejected = true) (img : List Byte) :
    d.uartImage img = { d with boot := { d.boot with
      bankA := img.take 12582912, activeB := false, applied := false, bothRejected := false, image := img } } := by
  have hgo : ¬ (d.devState != dsBoot || !(d.fld Reg.bootStat_strap == 8 || d.boot.bothRejected)) = true := by
    rw [hs]
    rcases hw with h | h
    · rw [h]
      simp
    · rw [h]
      simp
  unfold Dev.uartImage
  rw [if_neg hgo]
  rfl

theorem Dev.traceSent_of_front {d : Dev} {m : List Byte} {t : List (List Byte)} (hq : d.obs.traceQ = m :: t)
    (hon : d.obs.traceOn = true) (hl : d.obs.traceLost = 0) :
    let e := d.traceSent
    e.outs = .trace m :: d.outs ∧ e.obs = { d.obs with traceQ := t } ∧
      e.counter Cnt.traceMsg = d.counter Cnt.traceMsg + 1 := by
  obtain ⟨x, hx⟩ : ∃ x : Dev, x = (({ d with obs := { d.obs with traceQ := t } } : Dev).out (.trace m)).bump Cnt.traceMsg :=
    ⟨_, rfl⟩
  have heq : d.traceSent = (x.setFld Reg.obsTraceStat_level x.traceLevel).traceLostMsg := by
    rw [hx]
    unfold Dev.traceSent
    rw [hq]
    exact if_neg (by rw [hon]; decide)
  have hxo : x.outs = .trace m :: d.outs := by
    rw [hx]
    rfl
  have hxb : x.obs = { d.obs with traceQ := t } := by
    rw [hx]
    rfl
  have hxc : x.counter Cnt.traceMsg = d.counter Cnt.traceMsg + 1 := by
    rw [hx]
    exact Dev.counter_bump_self _ _
  rw [heq]
  clear hx heq
  generalize x.traceLevel = n
  have hlost : (x.setFld Reg.obsTraceStat_level n).traceLostMsg = x.setFld Reg.obsTraceStat_level n := by
    have h0 : (x.setFld Reg.obsTraceStat_level n).obs.traceLost = 0 := by
      show x.obs.traceLost = 0
      rw [hxb, hl]
    unfold Dev.traceLostMsg
    exact if_pos (.inl h0)
  rw [hlost]
  exact ⟨hxo, hxb, hxc⟩

/-- Settles O60: a boot without a usable profile keeps what the choice of its image shows. -/
theorem bootAndTrace : Obligations.BootAndTrace := by
  intro s hup
  refine ⟨fun hs hr h0 find => ?_, fun hs hw img => Gives.of_runUp hup rfl (Dev.uartImage_of_waiting hs hw img),
    fun m t hq hon hl => ⟨_, Gives.of_runUp hup rfl rfl, Dev.traceSent_of_front hq hon hl⟩, fun hq => ?_⟩
  · intro b
    have hflash : s.dev.bootComplete find = s.dev.bootFlash b find := Dev.bootComplete_of_flash hs hr h0 find
    clear_value b
    refine ⟨fun hok p0 p1 => ?_, fun hbad hok p0 p1 => ?_, fun hbad hbad' => Gives.of_runUp hup rfl (hflash.trans ?_)⟩
    · obtain ⟨h1, h2, h3, h4, h5, -⟩ := Dev.finishBoot_shows (s.dev.bank b) b false find p0 p1
      exact ⟨_, Gives.of_runUp hup rfl (hflash.trans (if_pos hok)), h1, h2, h3, h4, h5⟩
    · obtain ⟨h1, h2, -, -, h5, h6⟩ := Dev.finishBoot_shows (s.dev.bank (!b)) (!b) true find p0 p1
      have hboot : s.dev.bootFlash b find = s.dev.finishBoot (s.dev.bank (!b)) (!b) true find :=
        (if_neg (by rw [hbad]; exact Bool.false_ne_true)).trans (if_pos hok)
      exact ⟨_, Gives.of_runUp hup rfl (hflash.trans hboot), h1, h2, h6 rfl, h5⟩
    · exact (if_neg (by rw [hbad]; exact Bool.false_ne_true)).trans (if_neg (by rw [hbad']; exact Bool.false_ne_true))
  · refine Gives.of_runUp hup rfl (?_ : s.dev.traceSent = _)
    unfold Dev.traceSent
    rw [hq]

end Sys2Proof.Machine
end

section
/-! # What leaves the slot's clock (R16)

A slot tick does much, and of all of it only `enterSlot` moves the clock. Of every other part one `simp` lemma says here
that it leaves `Dev.clock`; the proof that a tick enters the next slot then only has to follow the tick's order. -/

namespace Sys2Proof.Machine

/-- The instant of a slot: its count, the TAI time and its fraction, how much of the slot has passed and whether its TG has
begun, what the next tick depends on, and the time of the Silt timer. -/
structure SlotClock where
  slotS : Int
  sec : BitVec 48
  ns : BitVec 30
  frac : BitVec 32
  elapsed : Nat
  tgBegun : Bool
  offset : Nat
  noTickBefore : Option Int
  silt : Nat

def clockOf (t : Tim) (silt : Nat) : SlotClock :=
  ⟨t.slotS, t.sec, t.ns, t.frac, t.elapsed, t.tgBegun, t.offset, t.noTickBefore, silt⟩

def Dev.clock (d : Dev) : SlotClock := clockOf d.tim d.pwr.silt

/-! ## Updates of the state -/

@[simp] theorem Dev.clockOf_tim (d : Dev) : clockOf d.tim d.pwr.silt = d.clock := rfl

@[simp] theorem Dev.clock_mk (a b c e r0 r1 r2 sch msh t f g h i j k p l m n o q u v) :
    (Dev.mk a b c e r0 r1 r2 sch msh t f g h i j k p l m n o q u v).clock = clockOf t p.silt := rfl

theorem Dev.clock_congr {d e : Dev} (ht : e.tim = d.tim) (hp : e.pwr = d.pwr) : e.clock = d.clock := by
  unfold Dev.clock
  rw [ht, hp]

@[simp] theorem Dev.clock_ite {p : Prop} [Decidable p] (d e : Dev) : (if p then d else e).clock = if p then d.clock else e.clock :=
  apply_ite Dev.clock p d e

theorem Dev.clock_foldl {α : Type} {f : Dev → α → Dev} (h : ∀ (d : Dev) a, (f d a).clock = d.clock) (l : List α) (d : Dev) :
    (l.foldl f d).clock = d.clock := by
  induction l generalizing d with
  | nil => rfl
  | cons a l ih => exact (ih _).trans (h d a)

theorem Dev.Book.clock {d e : Dev} (h : d.Book e) : e.clock = d.clock := Dev.clock_congr h.tim h.pwr

theorem Dev.TaskOnly.clock {d e : Dev} (h : d.TaskOnly e) : e.clock = d.clock := Dev.clock_congr (by rw [h]) (by rw [h])

@[simp] theorem Dev.clock_setReg (d : Dev) (a : Nat) (v : Word) : (d.setReg a v).clock = d.clock := rfl
@[simp] theorem Dev.clock_setFld (d : Dev) (f : Field) (v : Nat) : (d.setFld f v).clock = d.clock := rfl
@[simp] theorem Dev.clock_raise (d : Dev) (f : Field) : (d.raise f).clock = d.clock := rfl
@[simp] theorem Dev.clock_setBit (d : Dev) (f : Field) (b : Bool) : (d.setBit f b).clock = d.clock := rfl
@[simp] theorem Dev.clock_bumpBy (d : Dev) (i n : Nat) : (d.bumpBy i n).clock = d.clock := rfl
@[simp] theorem Dev.clock_bump (d : Dev) (i : Nat) : (d.bump i).clock = d.clock := rfl
@[simp] theorem Dev.clock_out (d : Dev) (o : Output) : (d.out o).clock = d.clock := rfl
@[simp] theorem Dev.clock_applyBoundary (d : Dev) (b : Boundary) : (d.applyBoundary b).clock = d.clock := rfl

@[simp] theorem Dev.clock_modRadio (d : Dev) (r : RadioId) (f : Radio → Radio) : (d.modRadio r f).clock = d.clock :=
  Dev.clock_congr (Dev.modRadio_tim d r f) (Dev.modRadio_pwr d r f)

@[simp] theorem Dev.clock_modPort (d : Dev) (p : PortId) (f : EthPort → EthPort) : (d.modPort p f).clock = d.clock :=
  Dev.clock_congr (Dev.modPort_tim d p f) (Dev.modPort_pwr d p f)

@[simp] theorem Dev.clock_setSensor (d : Dev) (i : Nat) (x : SensorCtx) : (d.setSensor i x).clock = d.clock := rfl
@[simp] theorem Dev.clock_modSensor (d : Dev) (i : Nat) (f : SensorCtx → SensorCtx) : (d.modSensor i f).clock = d.clock := rfl
@[simp] theorem Dev.clock_setLink (d : Dev) (l : Nat) (x : Link) : (d.setLink l x).clock = d.clock := rfl
@[simp] theorem Dev.clock_modLink (d : Dev) (l : Nat) (f : Link → Link) : (d.modLink l f).clock = d.clock := rfl

/-! ## Events, the trace port, completions and work -/

@[simp] theorem Dev.clock_event (d : Dev) (ty code : Nat) (l : List (Nat × List Byte)) : (d.event ty code l).clock = d.clock :=
  Dev.Book.clock (.event d ty code l)

@[simp] theorem Dev.clock_trace (d : Dev) (ty : Nat) (l : List Byte) : (d.trace ty l).clock = d.clock := Dev.Book.clock (.trace d ty l)

@[simp] theorem Dev.clock_traceTx (d : Dev) (r : RadioId) (b : Burst) (code : Option TxPart → Nat) :
    (d.traceTx r b code).clock = d.clock := Dev.Book.clock (.traceTx d r b code)

@[simp] theorem Dev.clock_hostWrite (d : Dev) (a : Nat) (l : List Byte) : (d.hostWrite a l).clock = d.clock :=
  Dev.Book.clock (.hostWrite d a l)

@[simp] theorem Dev.clock_progress (d : Dev) (op : Half) (pct part : Nat) : (d.progress op pct part).clock = d.clock :=
  Dev.Book.clock (.progress d op pct part)

@[simp] theorem Dev.clock_finish (d : Dev) (c : Cmd) (st res : Nat) : (d.finish c st res).clock = d.clock :=
  Dev.Book.clock (.finish d c st res)

@[simp] theorem Dev.clock_faultEvent (d : Dev) (cls part : Nat) : (d.faultEvent cls part).clock = d.clock := by
  exact (d.faultEvent_book cls part).clock.trans rfl

@[simp] theorem Dev.clock_createDev (d : Dev) (key : Nat) (work : Work) : (d.createDev key work).clock = d.clock :=
  (Dev.TaskOnly.createDev d key work).clock

@[simp] theorem Dev.clock_stageItems (d : Dev) : d.stageItems.clock = d.clock := by
  refine Dev.clock_foldl (fun d i => ?_) _ d
  unfold Dev.becomeReady
  exact (Dev.TaskOnly.offer _ _).clock.trans rfl

@[simp] theorem Dev.clock_retryDeferred (d : Dev) : d.retryDeferred.clock = d.clock := by
  unfold Dev.retryDeferred
  dsimp only
  rw [Dev.clock_foldl]
  · exact Dev.clock_congr rfl rfl
  · exact fun d p => Dev.clock_createDev d p.2 p.1

/-! ## The engine, and a Mladol frame (R222) -/

@[simp] theorem Dev.clock_setKslot (d : Dev) (i : Nat) (k : Option KeySlot) : (d.setKslot i k).clock = d.clock :=
  have h := (d.setKslot_shows i k).only
  Dev.clock_congr (by rw [h]) (by rw [h])

@[simp] theorem Dev.clock_markC (d : Dev) (c : Nat) (l : List (Nat × List Byte)) : (d.markC c l).clock = d.clock := by
  simp [Dev.markC]

@[simp] theorem Dev.clock_drawC (d : Dev) (i : Nat) : (d.drawC i).1.clock = d.clock := by
  unfold Dev.drawC
  split
  · rfl
  · split <;> simp

@[simp] theorem Dev.clock_lanes (d : Dev) (dec : Bool) (n : Nat) : (d.lanes dec n).clock = d.clock := by
  simp [Dev.lanes, -Dev.bumpBy_kao]

@[simp] theorem Dev.clock_drawLink (d : Dev) (l : Nat) : (d.drawLink l).1.clock = d.clock := by
  unfold Dev.drawLink
  dsimp only
  split
  · split <;> simp
  · simp

@[simp] theorem Dev.clock_mladolMpdu (d : Dev) (l : Nat) (hdr body : List Byte) : (d.mladolMpdu l hdr body).1.clock = d.clock := by
  unfold Dev.mladolMpdu
  dsimp only
  split
  · simp
  · simp [Dev.seal]

@[simp] theorem Dev.clock_linkBeacon (d : Dev) (l : Nat) (s : Int) : (d.linkBeacon l s).1.clock = d.clock := by
  simp [Dev.linkBeacon]

end Sys2Proof.Machine
end

section
/-! # The parts of a slot tick leave the clock (R16) -/

namespace Sys2Proof.Machine

/-! ## Radios -/

@[simp] theorem Dev.clock_drive (d : Dev) (r : RadioId) (pa lna : Bool) : (d.drive r pa lna).clock = d.clock := by simp [Dev.drive]

@[simp] theorem Dev.clock_coexReq (d : Dev) (r : RadioId) (on : Bool) : (d.coexReq r on).clock = d.clock := by simp [Dev.coexReq]

@[simp] theorem Dev.clock_coexOff (d : Dev) (r : RadioId) : (d.coexOff r).clock = d.clock := by simp [Dev.coexOff]

@[simp] theorem Dev.clock_setRf (d : Dev) (r : RadioId) (new cause : Nat) : (d.setRf r new cause).clock = d.clock := by
  by_cases h : d.rfState r = new
  · rw [show d.setRf r new cause = d from if_pos h]
  · exact (d.setRf_book cause h).clock

@[simp] theorem Dev.clock_raLost (d : Dev) (l : List Cell) : (d.raLost l).clock = d.clock := by simp [Dev.raLost]

@[simp] theorem Dev.clock_recordFaultSeq (d : Dev) (l : List (Nat × Byte)) : (d.recordFaultSeq l).clock = d.clock := by
  refine Dev.clock_foldl (fun d p => ?_) l d
  rfl

@[simp] theorem Dev.clock_releasePart (d : Dev) (p : TxPart) : (d.releasePart p).clock = d.clock := by
  unfold Dev.releasePart
  split <;> rfl

@[simp] theorem Dev.clock_releaseParts (d : Dev) (l : List TxPart) : (l.foldl Dev.releasePart d).clock = d.clock :=
  Dev.clock_foldl Dev.clock_releasePart l d

@[simp] theorem Dev.clock_releaseBurst (d : Dev) (b : Burst) : (d.releaseBurst b).clock = d.clock := by
  unfold Dev.releaseBurst
  dsimp only
  split <;> simp

@[simp] theorem Dev.clock_releaseBursts (d : Dev) (l : List Burst) : (l.foldl Dev.releaseBurst d).clock = d.clock :=
  Dev.clock_foldl Dev.clock_releaseBurst l d

@[simp] theorem Dev.clock_clearAir (d : Dev) (r : RadioId) : (d.clearAir r).clock = d.clock := by simp [Dev.clearAir]

@[simp] theorem Dev.clock_moveBursts (d : Dev) (r : RadioId) (l : List Burst) : (d.moveBursts r l).clock = d.clock := by
  refine Dev.clock_foldl (fun d b => ?_) l d
  split <;> simp

@[simp] theorem Dev.clock_failRadio (d : Dev) (r : RadioId) (cause : Nat) : (d.failRadio r cause).clock = d.clock := by
  simp [Dev.failRadio]

@[simp] theorem Dev.clock_lockSeen (d : Dev) (r : RadioId) (lock : Bool) : (d.lockSeen r lock).1.clock = d.clock := by
  simp [Dev.lockSeen]

@[simp] theorem Dev.clock_radioBoundary (d : Dev) (r : RadioId) : (d.radioBoundary r).clock = d.clock := by
  simp [Dev.radioBoundary]

@[simp] theorem Dev.clock_starveCheck (d : Dev) (r : RadioId) : (d.starveCheck r).clock = d.clock := by
  unfold Dev.starveCheck
  split <;> simp

@[simp] theorem Dev.clock_sendTuner (d : Dev) (r : RadioId) (i : Nat) : (d.sendTuner r i).clock = d.clock := by
  unfold Dev.sendTuner
  split
  · rfl
  · refine Dev.clock_foldl (fun d w => ?_) _ d
    rfl

@[simp] theorem Dev.clock_sweepTick (d : Dev) (r : RadioId) : (d.sweepTick r).clock = d.clock := by
  unfold Dev.sweepTick
  split
  · rfl
  · dsimp only
    split
    · rfl
    · split <;> simp

@[simp] theorem Dev.clock_antBoundary (d : Dev) : d.antBoundary.clock = d.clock := by
  unfold Dev.antBoundary
  dsimp only
  rw [Dev.clock_foldl]
  · simp
  · intro d x
    simp

/-! ## Takeovers of a radio (R153) -/

@[simp] theorem Dev.clock_seedFloors (d : Dev) (a b : RadioId) (chan : Nat) : (d.seedFloors a b chan).clock = d.clock := by
  refine Dev.clock_foldl (fun d k => ?_) _ d
  simp

@[simp] theorem Dev.clock_seedRemap (d : Dev) (m : Remap) : (d.seedRemap m).clock = d.clock := by
  refine Dev.clock_foldl (fun d p => ?_) _ d
  split <;> simp

@[simp] theorem Dev.clock_beginRemap (d : Dev) (m : Remap) : (d.beginRemap m).clock = d.clock := by simp [Dev.beginRemap]

@[simp] theorem Dev.clock_remapTick (d : Dev) : d.remapTick.clock = d.clock := by
  unfold Dev.remapTick
  dsimp only
  rw [Dev.clock_foldl, Dev.clock_foldl Dev.clock_beginRemap]
  intro d x
  split <;> simp

@[simp] theorem Dev.clock_remapBoundary (d : Dev) : d.remapBoundary.clock = d.clock := by
  refine Dev.clock_foldl (fun d m => ?_) _ d
  simp [Dev.endRemap]

/-! ## Readings and what is counted -/

@[simp] theorem Dev.clock_startTrain (d : Dev) : d.startTrain.clock = d.clock := by
  unfold Dev.startTrain
  split <;> simp

@[simp] theorem Dev.clock_readTemps (d : Dev) (m : TickMeasure) : (d.readTemps m).clock = d.clock := by
  simp [Dev.readTemps, Dev.readTemp, Dev.readPhyTemp]

@[simp] theorem Dev.clock_measureVin (d : Dev) (mv : Nat) : (d.measureVin mv).clock = d.clock := by simp [Dev.measureVin]

@[simp] theorem Dev.clock_measureTj (d : Dev) (t : Byte) : (d.measureTj t).clock = d.clock := by simp [Dev.measureTj]

@[simp] theorem Dev.clock_snapshotTick (d : Dev) (b : Bool) : (d.snapshotTick b).clock = d.clock := by simp [Dev.snapshotTick]

@[simp] theorem Dev.clock_watchRestart (d old : Dev) : (d.watchRestart old).clock = d.clock := rfl

@[simp] theorem Dev.clock_watchEvaluate (d : Dev) : d.watchEvaluate.clock = d.clock := by
  refine Dev.clock_foldl (fun d i => ?_) _ d
  simp [Dev.watchOne]

@[simp] theorem Dev.clock_traceTick (d : Dev) : d.traceTick.clock = d.clock := by simp [Dev.traceTick]

@[simp] theorem Dev.clock_gatesDue (d : Dev) (p : PortId) : (d.gatesDue p).clock = d.clock := by
  unfold Dev.gatesDue
  split
  · rfl
  · simp

@[simp] theorem Dev.clock_adaptBo (d : Dev) : d.adaptBo.clock = d.clock := by simp [Dev.adaptBo]

@[simp] theorem Dev.clock_swapTables (d : Dev) : d.swapTables.clock = d.clock := by simp [Dev.swapTables]

@[simp] theorem Dev.clock_newSuperframe (d : Dev) : d.newSuperframe.clock = d.clock := rfl

@[simp] theorem Dev.clock_surveyBusy (d : Dev) (i : Nat) (l : List Byte) : (d.surveyBusy i l).clock = d.clock := by
  simp [Dev.surveyBusy]

@[simp] theorem Dev.clock_surveyEnd (d : Dev) (s : Survey) : (d.surveyEnd s).clock = d.clock := by
  unfold Dev.surveyEnd
  dsimp only
  split <;> simp

@[simp] theorem Dev.clock_surveyBoundary (d : Dev) (l : List Byte) : (d.surveyBoundary l).clock = d.clock := by
  unfold Dev.surveyBoundary
  split
  · rfl
  · split
    · rfl
    · split <;> simp

@[simp] theorem Dev.clock_actBoundary (d : Dev) : d.actBoundary.clock = d.clock := by
  unfold Dev.actBoundary
  split
  · rfl
  · simp

/-! ## The servo and the parent link -/

@[simp] theorem Dev.clock_ppsOutGate (d : Dev) : d.ppsOutGate.clock = d.clock := by simp [Dev.ppsOutGate]

@[simp] theorem Dev.clock_setServo (d : Dev) (s : Nat) : (d.setServo s).clock = d.clock := by
  by_cases h : d.servo = s
  · rw [show d.setServo s = d from if_pos h]
  · unfold Dev.setServo
    dsimp only
    rw [if_neg h]
    generalize hx : (if s = svLocked then _ else _ : Dev) = x
    have hc : x.clock = d.clock := by
      rw [← hx]
      simp
    generalize hy : ({ x with tim := _ } : Dev) = y
    have hd : y.clock = d.clock := by
      rw [← hc, ← hy]
      rfl
    simp [hd]

theorem Dev.clock_slewed (d : Dev) (slew : Int) (inc : BitVec 40) :
    ({ d with tim := { d.tim with slew := slew, inc := inc } } : Dev).clock = d.clock := rfl

@[simp] theorem Dev.clock_incrementUpdate (d : Dev) : d.incrementUpdate.clock = d.clock := by
  have h : d.servoTick.clock = d.clock := by
    unfold Dev.servoTick
    exact (Dev.clock_slewed _ _ _).trans (by simp)
  simp [Dev.incrementUpdate, h]

@[simp] theorem Dev.clock_setMsh (d : Dev) (s : Nat) : (d.setMsh s).clock = d.clock := by
  simp [Dev.setMsh, Dev.servoLoss]

@[simp] theorem Dev.clock_mshTick (d : Dev) : d.mshTick.clock = d.clock := by simp [Dev.mshTick]

@[simp] theorem Dev.clock_mshRow (d : Dev) (s : Int) : (d.mshRow s).clock = d.clock := by
  unfold Dev.mshRow
  split
  · rfl
  · split
    · rfl
    · simp [Dev.parentRowEnded, Dev.beaconMissed]

@[simp] theorem Dev.clock_mshBoundary (d : Dev) : d.mshBoundary.clock = d.clock := by
  unfold Dev.mshBoundary
  extract_lets _ b _ e f n _ x
  have hf : f.clock = d.clock := by
    unfold f
    split
    · split <;> rfl
    · rfl
  have hx : x.clock = f.clock := rfl
  clear_value f x
  rw [← hf]
  simp [hx]

@[simp] theorem Dev.clock_linksEnabled (d old : Dev) : (d.linksEnabled old).clock = d.clock := by
  refine Dev.clock_foldl (fun d i => ?_) _ d
  simp

@[simp] theorem Dev.clock_superframe (d old : Dev) (m : TickMeasure) : (d.superframe old m).clock = d.clock := by
  unfold Dev.superframe
  dsimp only
  have h (x : Dev) : (radios.foldl (fun d r => (d.radioBoundary r).starveCheck r) x).clock = x.clock := by
    refine Dev.clock_foldl (fun d r => ?_) _ x
    simp
  simp [h, Dev.applyRotation]

/-! ## What a downlink's ACK symbols bring (R180) -/

@[simp] theorem Dev.clock_persist (d : Dev) : d.persist.clock = d.clock := by simp [Dev.persist]

end Sys2Proof.Machine
end

section
/-! # The slot tick enters the next slot (R16) -/

namespace Sys2Proof.Machine

/-! ## Links -/

@[simp] theorem Dev.clock_confirmMap (d : Dev) (i : Nat) (v : BitVec 4) : (d.confirmMap i v).clock = d.clock := by
  unfold Dev.confirmMap
  extract_lets x
  clear_value x
  split
  · rfl
  · split
    · rfl
    · extract_lets e
      have he : e.clock = d.clock := rfl
      clear_value e
      split
      · simp [Dev.queueLoadmap, he]
      · exact he

@[simp] theorem Dev.clock_confirmLinkMap (d : Dev) (l : Nat) (v : BitVec 4) : (d.confirmLinkMap l v).clock = d.clock := by
  unfold Dev.confirmLinkMap
  extract_lets k
  clear_value k
  split
  · rfl
  · split
    · rfl
    · extract_lets e
      have he : e.clock = d.clock := rfl
      clear_value e
      split
      · simp [he]
      · exact he

@[simp] theorem Dev.clock_linkLose (d : Dev) (l : Nat) (m : LinkMpdu) : (d.linkLose l m).clock = d.clock := by
  unfold Dev.linkLose
  dsimp only
  split <;> simp [Dev.dropLinkMap]

@[simp] theorem Dev.clock_linkAcked (d : Dev) (l : Nat) (p : TxPart) (code : Option Nat) :
    (d.linkAcked l p code).clock = d.clock := by
  unfold Dev.linkAcked
  dsimp only
  split
  · rfl
  · split
    · split <;> simp
    · split <;> simp
    · simp
    · simp

@[simp] theorem Dev.clock_chooseLink (d : Dev) (l : Nat) (r : RadioId) (chan m : Nat) (s : Int) (counted : Bool) (cs : List Nat) :
    (d.chooseLink l r chan m s counted cs).1.clock = d.clock := by
  induction cs generalizing d counted with
  | nil => rfl
  | cons c cs ih =>
    unfold Dev.chooseLink
    dsimp only
    split
    · exact ih _ _
    · split
      · exact ih _ _
      · generalize (if c = 2 then _ else d.linkTxMap l r chan m : List (BitVec 4) × BitVec 4 × BitVec 4) = map
        split
        · simp
        · rw [ih]
          simp

@[simp] theorem Dev.clock_linkPrepare (d : Dev) (r : RadioId) (w : Row) (s : Int) : (d.linkPrepare r w s).clock = d.clock := by
  unfold Dev.linkPrepare
  split
  · rfl
  · extract_lets idx chan m b o
    have ho : o.1.clock = d.clock := by
      unfold o
      split <;> simp [b]
    clear_value o
    split
    · rfl
    · split <;> simp [ho]

/-! ## Downlinks -/

@[simp] theorem Dev.clock_mapDl (d : Dev) (x : Downlink) (f : Downlink → Downlink) : (d.mapDl x f).clock = d.clock := by
  simp [Dev.mapDl]

@[simp] theorem Dev.clock_dropDl (d : Dev) (x : Downlink) : (d.dropDl x).clock = d.clock := by simp [Dev.dropDl]

@[simp] theorem Dev.clock_dlFinish (d : Dev) (x : Downlink) (st : Nat) : (d.dlFinish x st).clock = d.clock := by
  unfold Dev.dlFinish
  dsimp only
  split <;> simp

@[simp] theorem Dev.clock_noFitDl (d : Dev) (x : Downlink) : (d.noFitDl x).clock = d.clock := by simp [Dev.noFitDl]

@[simp] theorem Dev.clock_planParts (d : Dev) (what : TxWhat) (mem : List (RadioId × Nat × CellEntry)) (s : Int) (sig : BitVec 24)
    (mpdu : List Byte) (codes : List (BitVec 4)) : (d.planParts what mem s sig mpdu codes).clock = d.clock := by
  refine Dev.clock_foldl (fun d x => ?_) mem d
  exact Dev.clock_modRadio d _ _

@[simp] theorem Dev.clock_planOwner (d : Dev) (i : Nat) (mem : List (RadioId × Nat × CellEntry)) (c : CellEntry) (s : Int) :
    (d.planOwner i mem c s).clock = d.clock := by
  unfold Dev.planOwner
  dsimp only
  split
  · simp
  · split <;> simp

@[simp] theorem Dev.clock_planBcast (d : Dev) (mem : List (RadioId × Nat × CellEntry)) (c : CellEntry) (chan : Nat) (s : Int) :
    (d.planBcast mem c chan s).clock = d.clock := by
  unfold Dev.planBcast
  split <;> simp

@[simp] theorem Dev.clock_planJrsp (d : Dev) (mem : List (RadioId × Nat × CellEntry)) (c : CellEntry) (chan : Nat) (s : Int) :
    (d.planJrsp mem c chan s).clock = d.clock := by
  unfold Dev.planJrsp
  split
  · split <;> simp
  · simp

@[simp] theorem Dev.clock_planCell (d : Dev) (r : RadioId) (w : Row) (c : CellEntry) (s : Int) :
    (d.planCell r w c s).clock = d.clock := by
  unfold Dev.planCell
  dsimp only
  split
  · simp [Dev.composeBeacon]
  · split
    · simp
    · split
      · split
        · rfl
        · split
          · simp
          · split <;> simp
      · rfl

@[simp] theorem Dev.clock_planWake (d : Dev) (r : RadioId) (chan : Nat) (s : Int) : (d.planWake r chan s).clock = d.clock := by
  unfold Dev.planWake
  split <;> simp

@[simp] theorem Dev.clock_fetchRow (d : Dev) (w : Row) (s : Int) : (d.fetchRow w s).clock = d.clock := by
  refine Dev.clock_foldl (fun d i => ?_) _ d
  unfold Dev.fetchOwner Dev.fetchSensor
  split <;> simp [Dev.cacheSensor]

@[simp] theorem Dev.clock_prepareRow (d : Dev) (s : Int) (r : RadioId) : (d.prepareRow s r).clock = d.clock := by
  have h (x : Dev) (w : Row) : (w.used.foldl (fun d c => d.planCell r w c s) x).clock = x.clock :=
    Dev.clock_foldl (fun d c => Dev.clock_planCell d r w c s) _ x
  simp [Dev.prepareRow, h]

@[simp] theorem Dev.clock_prepareNext (d : Dev) : d.prepareNext.clock = d.clock := by
  refine Dev.clock_foldl (fun x r => ?_) _ d
  exact Dev.clock_prepareRow _ _ _

/-! ## What closes the slot that ends -/

@[simp] theorem Dev.clock_abandon (d : Dev) (b : Burst) (synth : Bool) : (d.abandon b synth).clock = d.clock := by
  unfold Dev.abandon
  dsimp only
  split
  · simp
  · split <;> simp

@[simp] theorem Dev.clock_sendBurst (d : Dev) (r : RadioId) (b : Burst) (lost : List (TxPart × Nat)) :
    (d.sendBurst r b lost).clock = d.clock := by
  simp [Dev.sendBurst]

@[simp] theorem Dev.clock_checkOne (d : Dev) (r : RadioId) (o : Bool × Bool) (lost : List (TxPart × Nat)) :
    (d.checkOne r o lost).clock = d.clock := by
  unfold Dev.checkOne
  split
  · rfl
  · dsimp only
    split
    · simp
    · simp

@[simp] theorem Dev.clock_checkNow (d : Dev) (g : List RadioId) : (d.checkNow g).clock = d.clock := by
  refine Dev.clock_foldl (fun d x => ?_) _ d
  exact Dev.clock_checkOne _ _ _ _

@[simp] theorem Dev.clock_checkRest (d : Dev) : d.checkRest.clock = d.clock := by
  refine Dev.clock_foldl (fun d r => ?_) _ d
  simp

@[simp] theorem Dev.clock_dlAnswer (d : Dev) (x : Downlink) (code : Option Nat) : (d.dlAnswer x code).clock = d.clock := by
  unfold Dev.dlAnswer
  dsimp only
  split <;> simp

@[simp] theorem Dev.clock_lmAnswer (d : Dev) (i : Nat) (m : LmFrame) (code : Option Nat) : (d.lmAnswer i m code).clock = d.clock := by
  unfold Dev.lmAnswer
  split <;> simp [Dev.lmHold]

@[simp] theorem Dev.clock_answer (d : Dev) (p : TxPart) (code : Option Nat) : (d.answer p code).clock = d.clock := by
  unfold Dev.answer
  split
  · split <;> simp
  · split <;> simp
  · split <;> simp
  · simp
  · rfl
  · rfl

@[simp] theorem Dev.clock_settleAck (d : Dev) (p : TxPart) : (d.settleAck p).clock = d.clock := by
  have h (f : Radio → Radio) (x : Dev) : (radios.foldl (fun d r => d.modRadio r f) x).clock = x.clock :=
    Dev.clock_foldl (fun d r => Dev.clock_modRadio d r f) _ x
  simp [Dev.settleAck, h]

@[simp] theorem Dev.clock_ackMissing (d : Dev) (s : Int) : (d.ackMissing s).clock = d.clock := by
  refine Dev.clock_foldl (fun d r => ?_) _ d
  refine Dev.clock_foldl (fun d p => ?_) _ d
  simp

@[simp] theorem Dev.clock_endCells (d : Dev) : d.endCells.clock = d.clock := by
  refine Dev.clock_foldl (fun d r => ?_) _ d
  simp

@[simp] theorem Dev.clock_noteQueued (d : Dev) : d.noteQueued.clock = d.clock := by
  refine Dev.clock_foldl (fun x r => ?_) _ d
  simp

/-! ## The slot tick -/

/-- The clock of the slot that comes next: its count and the TAI time of its tick (R16). -/
def SlotClock.next (c : SlotClock) (s : Int) (t : Int) : SlotClock :=
  { c with slotS := s, sec := BitVec.ofInt 48 (t / 1000000000), ns := BitVec.ofInt 30 (t % 1000000000), frac := 0,
           elapsed := 0, tgBegun := false, noTickBefore := none }

theorem Dev.clock_enterSlot (d : Dev) : d.enterSlot.clock = d.clock.next d.nextS (d.tickTai d.nextS) := by
  unfold Dev.enterSlot
  simp
  rfl

theorem Dev.nextS_of_clock {d e : Dev} (h : e.clock = d.clock) : e.nextS = d.nextS ∧ ∀ s, e.tickTai s = d.tickTai s := by
  have hs : e.tim.sec = d.tim.sec := congrArg SlotClock.sec h
  have hn : e.tim.ns = d.tim.ns := congrArg SlotClock.ns h
  have ho : e.tim.offset = d.tim.offset := congrArg SlotClock.offset h
  have hb : e.tim.noTickBefore = d.tim.noTickBefore := congrArg SlotClock.noTickBefore h
  unfold Dev.tickTai Dev.nextS
  rw [Dev.tai_congr hs hn, ho, hb]
  exact ⟨rfl, fun _ => rfl⟩

theorem Dev.clock_slotTick (d : Dev) (m : TickMeasure) :
    (d.slotTick m).clock = { d.clock.next d.nextS (d.tickTai d.nextS) with silt := d.pwr.silt + 2500000 } := by
  unfold Dev.slotTick
  extract_lets old closed entered _ _ _ begun gated boundary framed swept paused stored updated measured snapped watched
  have hclosed : closed.clock = d.clock := by simp [closed]
  obtain ⟨hnext, htick⟩ := Dev.nextS_of_clock hclosed
  have hentered : entered.clock = d.clock.next d.nextS (d.tickTai d.nextS) := by
    have h : entered.clock = closed.enterSlot.clock := by simp [entered, Dev.endRecs, Dev.ageRx]
    rw [h, Dev.clock_enterSlot, hclosed, hnext, htick]
  have hsilt : entered.pwr.silt = d.pwr.silt := congrArg SlotClock.silt hentered
  have hbegun : begun.clock = { entered.clock with silt := entered.pwr.silt + 2500000 } := rfl
  rw [hentered, hsilt] at hbegun
  clear_value closed entered begun
  have hgated : gated.clock = begun.clock := (Dev.clock_foldl Dev.clock_coexOff radios _).trans (Dev.clock_applyBoundary _ _)
  clear_value gated
  clear_value boundary
  have hframed : framed.clock = gated.clock := by simp [framed]
  clear_value framed
  have hswept : swept.clock = framed.clock := (Dev.clock_foldl Dev.clock_sweepTick radios _).trans (by simp [Dev.countRa])
  clear_value swept
  have hpaused : paused.clock = swept.clock := by simp [paused]
  clear_value paused
  have hstored : stored.clock = paused.clock := by simp [stored]
  clear_value stored
  have hupdated : updated.clock = stored.clock := by simp [updated, Dev.checkpointTick, Dev.checkpoint]
  clear_value updated
  have hsnapped : snapped.clock = updated.clock := by simp [snapped, measured]
  clear_value snapped
  have hwatched : watched.clock = snapped.clock := by simp [watched]
  clear_value watched
  rw [Dev.clock_prepareNext, hwatched, hsnapped, hupdated, hstored, hpaused, hswept, hframed, hgated]
  exact hbegun

/-- A slot tick stands at the beginning of the slot that came next (R16). -/
theorem slotTick_enters {s : State} (m : TickMeasure) (hup : Up s) :
    ∃ d : Dev, Gives (.slotTick m) s d ∧ d.tim.slotS = s.dev.nextS ∧
      d.tim.sec = BitVec.ofInt 48 (s.dev.tickTai s.dev.nextS / 1000000000) ∧
      d.tim.ns = BitVec.ofInt 30 (s.dev.tickTai s.dev.nextS % 1000000000) ∧ d.tim.frac = 0 ∧
      d.tim.tgBegun = false ∧ d.tim.elapsed = 0 ∧ d.pwr.silt = s.dev.pwr.silt + 2500000 := by
  have hg : Gives (.slotTick m) s (s.dev.slotTick m) := .of_runUp hup rfl rfl
  have h := s.dev.clock_slotTick m
  generalize s.dev.slotTick m = d at hg h
  exact ⟨d, hg, congrArg SlotClock.slotS h, congrArg SlotClock.sec h, congrArg SlotClock.ns h, congrArg SlotClock.frac h,
    congrArg SlotClock.tgBegun h, congrArg SlotClock.elapsed h, congrArg SlotClock.silt h⟩

/-! ## The end of the schedule copy (R164) -/

theorem Dev.tableCopyDone_of_idle {d : Dev} (h : d.sch.copying = false) : d.tableCopyDone = d := if_pos (by rw [h]; rfl)

theorem Dev.tableCopyDone_of_none {d : Dev} (h : d.sch.copying = true) (hl : d.sch.held = []) :
    d.tableCopyDone = { d with sch := { d.sch with copying := false, held := [] } } := by
  unfold Dev.tableCopyDone
  rw [if_neg (by rw [h]; decide), hl]
  rfl

theorem Dev.tableCopyDone_of_held {d : Dev} {c : Cmd} {radio first count : Nat} {buf : Buf} (h : d.sch.copying = true)
    (hl : d.sch.held = [(c, radio, first, count, buf)]) :
    d.tableCopyDone =
      ({ d with sch := { d.sch with copying := false, held := [] } } : Dev).schedWriteNow c radio first count buf := by
  unfold Dev.tableCopyDone
  rw [if_neg (by rw [h]; decide), hl]
  rfl

end Sys2Proof.Machine
end

section
/-! # The start of TG: the clock, and the retunes (R130, R237) -/

namespace Sys2Proof.Machine

/-! ## The clock at the start of TG -/

/-- Only the clock has moved since, and the same slot comes next. -/
structure Dev.AtTg (d e : Dev) : Prop where
  only : e = { d with tim := e.tim }
  slotS : e.tim.slotS = d.tim.slotS
  tgBegun : e.tim.tgBegun = d.tim.tgBegun
  step : e.tim.step = d.tim.step
  offStep : e.tim.offStep = d.tim.offStep
  nextS : e.nextS = d.nextS

/-- The instant from which on the next tick may come (R16, R239). -/
def Dev.tickAfter (d : Dev) : Int := d.tim.noTickBefore.elim (d.tai + 1) (max (d.tai + 1))

theorem Dev.nextS_eq (d : Dev) : d.nextS = -(((d.tim.offset : Int) - d.tickAfter) / 2500000) := by
  unfold Dev.nextS Dev.tickAfter
  cases d.tim.noTickBefore <;> rfl

/-- While the clock stays before the tick that comes next, that tick stays the next. -/
theorem Dev.nextS_of_later {d e : Dev} (ho : e.tim.offset = d.tim.offset) (hb : e.tim.noTickBefore = d.tim.noTickBefore)
    (hl : d.tai ≤ e.tai) (ht : e.tai < d.tickTai d.nextS) : e.nextS = d.nextS := by
  have hn := d.nextS_eq
  unfold Dev.tickTai at ht
  rw [e.nextS_eq, ho]
  unfold Dev.tickAfter at *
  rw [hb]
  generalize d.tim.noTickBefore = b at *
  cases b with
  | none =>
    simp only [Option.elim_none] at *
    omega
  | some n =>
    simp only [Option.elim_some] at *
    omega

theorem Dev.reachTg_atTg {d : Dev} (hnext : d.nextS = d.tim.slotS + 1)
    (hmax : d.tickTai (d.tim.slotS + 1) ≤ 281474976710656 * 1000000000) : d.AtTg d.reachTg := by
  have h0 := d.tai_nonneg
  unfold Dev.reachTg
  dsimp only
  split
  · exact ⟨rfl, rfl, rfl, rfl, rfl, rfl⟩
  next hlt =>
    have hlt := Int.not_le.mp hlt
    have htick : d.tickTai d.tim.slotS + 2343750 < d.tickTai (d.tim.slotS + 1) := by
      unfold Dev.tickTai
      omega
    have htai : (d.advanceTo (d.tickTai d.tim.slotS + 2343750)).tai = d.tickTai d.tim.slotS + 2343750 :=
      (d.tai_advanceTo _).trans (d.tai_setTai (by omega) (by omega))
    refine ⟨rfl, rfl, rfl, rfl, rfl, Dev.nextS_of_later rfl rfl ?_ ?_⟩
    · rw [Dev.tai_elapsed (d.advanceTo _) 937500, htai]
      omega
    · rw [Dev.tai_elapsed (d.advanceTo _) 937500, htai, hnext]
      exact htick

/-! ## The rows that a retune looks at -/

theorem boundOf_mshParch {i : Nat} (h : i < 8) : boundOf (Reg.mshParch i) ≠ .atOnce := by
  revert i
  decide +kernel

theorem boundOf_rfTemp (r : RadioId) : boundOf (Reg.rfTemp r) = .atOnce := by
  revert r
  decide +kernel

section
variable {d e : Dev} (h : d.SameRows e)
include h

theorem Dev.SameRows.searchChan (r : RadioId) (w : Row) : e.searchChan r w = d.searchChan r w := by
  unfold Dev.searchChan
  have hstat : ∀ f : Field, f.addr = Reg.mshStat → e.fld f = d.fld f := fun f hf => congrArg f.of (hf ▸ h.mesh)
  have hlt : d.fld Reg.mshStat_search_idx < 8 := Nat.mod_lt _ (by decide)
  rw [hstat Reg.mshStat_state rfl, hstat Reg.mshStat_search_idx rfl, h.search, h.parentRowOf,
    h.cfgFld (f := Reg.mshParch_chan _) (boundOf_mshParch hlt)]

theorem Dev.SameRows.rowChan (r : RadioId) (s : Int) : e.rowChan r s = d.rowChan r s := by
  unfold Dev.rowChan
  simp only [h.rowCarried, h.searchChan, h.airChan]

theorem Dev.SameRows.rowContinues (r : RadioId) (s : Int) : e.rowContinues r s = d.rowContinues r s := by
  unfold Dev.rowContinues Dev.linksAt
  dsimp only
  rw [h.rowCarried, h.meshIndexAt, (h.viewAt s).links]

end

end Sys2Proof.Machine
end

section
/-! # A tick, the schedule copy, and the retunes at the start of TG (R16, R130, R164) -/

namespace Sys2Proof.Machine

/-! ## What another radio's start of TG leaves -/

/-- Radio `r`, its status, the clock and the rows are those of `d`. -/
structure Dev.Aside (r : RadioId) (d e : Dev) : Prop where
  rows : d.SameRows e
  tim : e.tim = d.tim
  radio : e.radio r = d.radio r
  stat : e.reg (Reg.rfStat r) = d.reg (Reg.rfStat r)

theorem Dev.nextS_congr {d e : Dev} (h : e.tim = d.tim) : e.nextS = d.nextS := by
  unfold Dev.nextS Dev.tai
  rw [h]

theorem rfTemp_apart (q : RadioId) : Reg.schCommit ≠ Reg.rfTemp q ∧ Reg.mshStat ≠ Reg.rfTemp q ∧
    ∀ r : RadioId, Reg.rfStat r ≠ Reg.rfTemp q := by
  revert q
  decide

theorem rfStat_bits (q : RadioId) : (Reg.rfStat_lock q).separate (Reg.rfStat_state q) = true ∧
    (Reg.rfStat_cal_starved q).separate (Reg.rfStat_state q) = true ∧
    (Reg.rfStat_cal_applied q).separate (Reg.rfStat_state q) = true := by
  revert q
  decide

theorem Dev.Aside.refl (r : RadioId) (d : Dev) : d.Aside r d := ⟨.refl d, rfl, rfl, rfl⟩

section
variable {r q : RadioId} {a b c : Dev} (hq : q ≠ r)

theorem Dev.Aside.trans (h : a.Aside r b) (k : b.Aside r c) : a.Aside r c :=
  ⟨h.rows.trans k.rows, k.tim.trans h.tim, k.radio.trans h.radio, k.stat.trans h.stat⟩

theorem Dev.Aside.bump (d : Dev) (i : Nat) : d.Aside r (d.bump i) := ⟨.bumpBy d i 1, rfl, Dev.radio_bump d i r, rfl⟩

theorem Dev.Aside.setTemp (d : Dev) (v : Nat) : d.Aside r (d.setFld (Reg.rfTemp_last q) v) where
  rows := by
    obtain ⟨hc, hm, hr⟩ := rfTemp_apart q
    refine .setReg d _ _ ?_ hc hm hr
    show boundOf (Reg.rfTemp q) ≠ _
    rw [boundOf_rfTemp]
    decide
  tim := rfl
  radio := Dev.radio_setFld d _ v r
  stat := Dev.reg_setFld_ne d _ _ _ ((rfTemp_apart q).2.2 r)

theorem Dev.Aside.out (d : Dev) (o : Output) : d.Aside r (d.out o) where
  rows := ⟨rfl, rfl, rfl, rfl, rfl, rfl, fun _ => rfl, rfl, rfl, rfl, rfl, rfl, rfl, rfl, rfl, rfl⟩
  tim := rfl
  radio := Dev.radio_congr rfl rfl rfl r
  stat := rfl

theorem Dev.Aside.sendTuner (d : Dev) (i : Nat) : d.Aside r (d.sendTuner q i) := by
  unfold Dev.sendTuner
  split
  · exact .refl r d
  · exact List.foldlRecOn (motive := fun x => d.Aside r x) _ _ (.refl r d) fun x hx w _ => hx.trans (.out x _)

include hq

theorem Dev.Aside.modRadio (d : Dev) (f : Radio → Radio) : d.Aside r (d.modRadio q f) where
  rows := .modRadio d q f
  tim := Dev.modRadio_tim d q f
  radio := Dev.radio_modRadio_ne d hq.symm f
  stat := Dev.reg_congr (Dev.modRadio_regs d q f) _

theorem Dev.Aside.setStat (d : Dev) {f : Field} (v : Nat) (hf : f.addr = Reg.rfStat q)
    (hs : f.separate (Reg.rfStat_state q) = true) : d.Aside r (d.setFld f v) where
  rows := .setFld_rfStat d q v hf hs
  tim := Dev.setFld_tim d f v
  radio := Dev.radio_setFld d f v r
  stat := Dev.reg_setFld_ne d _ _ _ (by rw [hf]; exact rfStat_ne hq.symm)

theorem Dev.Aside.applyCal (d : Dev) : d.Aside r (d.applyCal q) := by
  obtain ⟨-, hstarved, happlied⟩ := rfStat_bits q
  have hentries (l : List Nat) : d.Aside r (l.foldl (fun d i => d.setEntry q i) d) :=
    List.foldlRecOn (motive := fun x => d.Aside r x) l _ (.refl r d) fun x hx i _ => hx.trans (.modRadio hq x _)
  unfold Dev.applyCal
  split
  · exact .refl r d
  · split
    · exact .refl r d
    · refine .trans ?_ (.bump _ _)
      refine .trans ?_ (.setStat hq _ 1 rfl happlied)
      refine .trans ?_ (.modRadio hq _ _)
      refine .trans ?_ (.setStat hq _ _ rfl hstarved)
      exact (hentries _).trans (.setTemp _ _)

theorem Dev.Aside.retuneTo (d : Dev) (i : Nat) : d.Aside r (d.retuneTo q i) := by
  unfold Dev.retuneTo
  split
  · exact .refl r d
  · refine .trans ?_ (.bump _ _)
    refine .trans ?_ (.modRadio hq _ _)
    refine .trans ?_ (.sendTuner _ _)
    exact (Dev.Aside.modRadio hq d _).trans (.setStat hq _ _ rfl (rfStat_bits q).1)

theorem Dev.Aside.tgRadio (d : Dev) : d.Aside r (d.tgRadio q) := by
  unfold Dev.tgRadio Dev.tuneNow
  split
  · exact .refl r d
  · split
    · exact .modRadio hq d _
    · split
      · exact .refl r d
      · split
        · split
          · exact .refl r d
          · split
            · exact .refl r d
            · exact .modRadio hq d _
        · split
          · exact .retuneTo hq d _
          · exact .refl r d

end

theorem Dev.sendTuner_regs (d : Dev) (r : RadioId) (i : Nat) : (d.sendTuner r i).regs = d.regs := by
  unfold Dev.sendTuner
  split
  · rfl
  · exact List.foldlRecOn (motive := fun (x : Dev) => x.regs = d.regs) _ _ rfl fun _ h _ _ => h

/-! ## A radio that retunes -/

/-- Radio `r` retunes to index `i` at the start of TG (R130). -/
structure Dev.Retunes (d : Dev) (r : RadioId) (i : Nat) (c : ChanCfg) : Prop where
  run : d.rfReadyRun r = true
  noRun : (d.radio r).tempRun = none
  onAir : (d.radio r).onAir = []
  ends : d.rowContinues r d.nextS = false
  row : d.rowChan r d.nextS = some i
  chan : d.chan i = some c
  entry : d.entryValid r i = true
  moves : (d.radio r).chan ≠ some i

/-- What only looks at the rows and at the radio's channel, runs and entries. -/
theorem Dev.Retunes.mono {d e : Dev} {r : RadioId} {i : Nat} {c : ChanCfg} (h : d.Retunes r i c) (k : d.SameRows e)
    (hn : e.nextS = d.nextS) (ht : (e.radio r).tempRun = (d.radio r).tempRun) (ha : (e.radio r).onAir = (d.radio r).onAir)
    (hc : (e.radio r).chan = (d.radio r).chan) (he : (e.radio r).entries = (d.radio r).entries) : e.Retunes r i c where
  run := (k.rfReadyRun r).trans h.run
  noRun := ht.trans h.noRun
  onAir := ha.trans h.onAir
  ends := by rw [hn, k.rowContinues, h.ends]
  row := by rw [hn, k.rowChan, h.row]
  chan := (k.chan i).trans h.chan
  entry := by
    have hv := h.entry
    unfold Dev.entryValid at *
    rwa [he]
  moves := by rw [hc]; exact h.moves

theorem Dev.Retunes.aside {d e : Dev} {r : RadioId} {i : Nat} {c : ChanCfg} (h : d.Retunes r i c) (k : d.Aside r e) :
    e.Retunes r i c :=
  h.mono k.rows (Dev.nextS_congr k.tim) (by rw [k.radio]) (by rw [k.radio]) (by rw [k.radio]) (by rw [k.radio])

/-- The radio is on its way to index `i`, without lock. -/
structure Dev.Retuned (d : Dev) (r : RadioId) (i : Nat) : Prop where
  chan : (d.radio r).chan = some i
  target : (d.radio r).target = some i
  lock : d.bit (Reg.rfStat_lock r) = false

theorem Dev.Retuned.aside {d e : Dev} {r : RadioId} {i : Nat} (h : d.Retuned r i) (k : d.Aside r e) : e.Retuned r i :=
  ⟨by rw [k.radio, h.chan], by rw [k.radio, h.target], (Dev.bit_of_reg k.stat).trans h.lock⟩

theorem Dev.retuneTo_retuned {d : Dev} {r : RadioId} {i : Nat} {c : ChanCfg} (hc : d.chan i = some c) :
    (d.retuneTo r i).Retuned r i := by
  obtain ⟨p, hz, y, -, hr⟩ := Dev.retuneTo_radio (r := r) hc
  refine ⟨by rw [hr], by rw [hr], ?_⟩
  unfold Dev.retuneTo
  split
  case h_1 h0 => exact nomatch hc.symm.trans h0
  case h_2 =>
    extract_lets low hz y cold moved
    have hlow : low.bit (Reg.rfStat_lock r) = false :=
      (Dev.bit_congr (Dev.sendTuner_regs _ r i) _).trans (Dev.bit_setBit_self _ _ false (by simp [Reg.rfStat_lock]))
    exact (Dev.bit_bump moved _ _).trans ((Dev.bit_congr (Dev.modRadio_regs _ _ _) _).trans hlow)

theorem Dev.applyCal_of_none {d : Dev} {r : RadioId} (h : (d.radio r).tempRun = none) : d.applyCal r = d := by
  unfold Dev.applyCal
  rw [h]

theorem Dev.Retunes.tgRadio {d : Dev} {r : RadioId} {i : Nat} {c : ChanCfg} (h : d.Retunes r i c) :
    (d.tgRadio r).Retuned r i := by
  unfold Dev.tgRadio Dev.tuneNow
  rw [if_neg (by rw [h.run, h.ends]; decide), if_neg (not_not.mpr h.onAir), h.row]
  dsimp only
  rw [if_neg h.moves, if_pos h.entry]
  exact Dev.retuneTo_retuned h.chan

/-- What the start of TG does on one radio: the results of its temperature run, then its retune. -/
def Dev.tgOne (d : Dev) (r : RadioId) : Dev := (d.applyCal r).tgRadio r

theorem Dev.Aside.tgOne {r q : RadioId} (hq : q ≠ r) (d : Dev) : d.Aside r (d.tgOne q) :=
  (Dev.Aside.applyCal hq d).trans (.tgRadio hq _)

theorem Dev.Retunes.tgOne {d : Dev} {r : RadioId} {i : Nat} {c : ChanCfg} (h : d.Retunes r i c) : (d.tgOne r).Retuned r i := by
  unfold Dev.tgOne
  rw [Dev.applyCal_of_none h.noRun]
  exact h.tgRadio

/-- Each radio retunes at its own turn, and the others' turns leave it. -/
theorem Dev.Retunes.tgAll {d : Dev} {r : RadioId} {i : Nat} {c : ChanCfg} (h : d.Retunes r i c) :
    (radios.foldl Dev.tgOne d).Retuned r i := by
  show (((d.tgOne 0).tgOne 1).tgOne 2).Retuned r i
  have hr : r = 0 ∨ r = 1 ∨ r = 2 := by
    clear h
    revert r
    decide
  rcases hr with rfl | rfl | rfl
  · exact (h.tgOne.aside (.tgOne (by decide) _)).aside (.tgOne (by decide) _)
  · exact (h.aside (.tgOne (by decide) d)).tgOne.aside (.tgOne (by decide) _)
  · exact ((h.aside (.tgOne (by decide) d)).aside (.tgOne (by decide) _)).tgOne

/-! ## The start of TG -/

theorem Dev.AtTg.sameRows {d e : Dev} (h : d.AtTg e) : d.SameRows e := by
  rw [h.only]
  exact ⟨rfl, rfl, rfl, h.slotS, rfl, rfl, fun _ => rfl, rfl, rfl, rfl, rfl, rfl, rfl, rfl, rfl, rfl⟩

theorem Dev.AtTg.radio {d e : Dev} (h : d.AtTg e) (r : RadioId) : e.radio r = d.radio r := by
  rw [h.only]
  exact Dev.radio_congr rfl rfl rfl r

/-- A radio's turn leaves the clock. -/
theorem Dev.tgOne_tim (d : Dev) (r : RadioId) : (d.tgOne r).tim = d.tim := by
  obtain ⟨q, hq⟩ : ∃ q : RadioId, r ≠ q := by
    revert r
    decide
  exact (Dev.Aside.tgOne hq d).tim

theorem Dev.tgAll_begun (d : Dev) : (radios.foldl Dev.tgOne d).tim.tgBegun = d.tim.tgBegun :=
  List.foldlRecOn (motive := fun x : Dev => x.tim.tgBegun = d.tim.tgBegun) radios Dev.tgOne rfl fun x hx r _ =>
    (congrArg Tim.tgBegun (x.tgOne_tim r)).trans hx

/-- The end of period 14 leaves what a retune looks at. -/
structure Dev.AckEnd (d e : Dev) : Prop where
  rows : d.SameRows e
  tim : e.tim = d.tim
  tempRun : ∀ r, (e.radio r).tempRun = (d.radio r).tempRun
  onAir : ∀ r, (e.radio r).onAir = (d.radio r).onAir
  chan : ∀ r, (e.radio r).chan = (d.radio r).chan
  entries : ∀ r, (e.radio r).entries = (d.radio r).entries

theorem Dev.AckEnd.refl (d : Dev) : d.AckEnd d := ⟨.refl d, rfl, fun _ => rfl, fun _ => rfl, fun _ => rfl, fun _ => rfl⟩

theorem Dev.AckEnd.trans {a b c : Dev} (h : a.AckEnd b) (k : b.AckEnd c) : a.AckEnd c where
  rows := h.rows.trans k.rows
  tim := k.tim.trans h.tim
  tempRun r := (k.tempRun r).trans (h.tempRun r)
  onAir r := (k.onAir r).trans (h.onAir r)
  chan r := (k.chan r).trans (h.chan r)
  entries r := (k.entries r).trans (h.entries r)

theorem Dev.AckEnd.modRadio (d : Dev) (r : RadioId) {f : Radio → Radio} (hf : ∀ x, (f x).tempRun = x.tempRun ∧
    (f x).onAir = x.onAir ∧ (f x).chan = x.chan ∧ (f x).entries = x.entries) : d.AckEnd (d.modRadio r f) := by
  have hq (q : RadioId) : ((d.modRadio r f).radio q).tempRun = (d.radio q).tempRun ∧
      ((d.modRadio r f).radio q).onAir = (d.radio q).onAir ∧ ((d.modRadio r f).radio q).chan = (d.radio q).chan ∧
      ((d.modRadio r f).radio q).entries = (d.radio q).entries := by
    by_cases h : q = r
    · subst h
      rw [Dev.radio_modRadio_self]
      exact hf _
    · rw [Dev.radio_modRadio_ne d h f]
      exact ⟨rfl, rfl, rfl, rfl⟩
  exact ⟨.modRadio d r f, Dev.modRadio_tim d r f, fun q => (hq q).1, fun q => (hq q).2.1, fun q => (hq q).2.2.1,
    fun q => (hq q).2.2.2⟩

theorem Dev.AckEnd.ackrxEnd (d : Dev) (r : RadioId) : d.AckEnd (d.ackrxEnd r) := by
  unfold Dev.ackrxEnd
  split
  · exact .refl d
  · have h := Dev.AckEnd.modRadio d r (f := fun x => { x with agc := .preset }) fun _ => ⟨rfl, rfl, rfl, rfl⟩
    dsimp only
    split
    · exact h.trans (.modRadio _ r fun _ => ⟨rfl, rfl, rfl, rfl⟩)
    · exact h

theorem Dev.applySteps_of_none {d : Dev} (h : d.tim.step = none) (k : d.tim.offStep = none) : d.applySteps = d :=
  if_pos (by rw [h, k]; rfl)

theorem Dev.renumber_of_same {d : Dev} (h : d.nextS = d.tim.slotS + 1) : d.renumber = d := if_pos (by unfold Dev.curS; omega)

/-- TG begins once: the clock comes to its instant, and each radio has its turn. -/
theorem Dev.tgStart_eq {d : Dev} (hb : d.tim.tgBegun = false) (hs : d.tim.step = none) (ho : d.tim.offStep = none)
    (hnext : d.nextS = d.tim.slotS + 1) (hmax : d.tickTai (d.tim.slotS + 1) ≤ 281474976710656 * 1000000000) :
    ∃ e, d.tgStart = radios.foldl Dev.tgOne e ∧ e.tim.tgBegun = true ∧ e.nextS = d.nextS ∧ d.SameRows e ∧
      ∀ r, (e.radio r).tempRun = (d.radio r).tempRun ∧ (e.radio r).onAir = (d.radio r).onAir ∧
        (e.radio r).chan = (d.radio r).chan ∧ (e.radio r).entries = (d.radio r).entries := by
  unfold Dev.tgStart
  rw [if_neg (by rw [hb]; decide)]
  dsimp only
  generalize hx : ({ d with tim := { d.tim with tgBegun := true } } : Dev) = x
  have hxn : x.nextS = d.nextS := by
    rw [← hx]
    rfl
  have hat : x.AtTg x.reachTg := by
    refine Dev.reachTg_atTg ?_ ?_
    · rw [hxn, hnext, ← hx]
    · rw [← hx]
      exact hmax
  generalize x.reachTg = y at hat ⊢
  have hack : y.AckEnd (radios.foldl (fun d r => d.ackrxEnd r) y) :=
    List.foldlRecOn (motive := fun z => y.AckEnd z) radios _ (.refl y) fun z hz r _ => hz.trans (.ackrxEnd z r)
  generalize radios.foldl (fun d r => d.ackrxEnd r) y = z at hack ⊢
  have hzs : z.tim.step = none := by rw [hack.tim, hat.step, ← hx, hs]
  have hzo : z.tim.offStep = none := by rw [hack.tim, hat.offStep, ← hx, ho]
  have hzn : z.nextS = d.nextS := by rw [Dev.nextS_congr hack.tim, hat.nextS, hxn]
  have hzl : z.nextS = z.tim.slotS + 1 := by rw [hzn, hnext, hack.tim, hat.slotS, ← hx]
  have hsame : d.SameRows x := hx ▸ ⟨rfl, rfl, rfl, rfl, rfl, rfl, fun _ => rfl, rfl, rfl, rfl, rfl, rfl, rfl, rfl, rfl, rfl⟩
  rw [Dev.applySteps_of_none hzs hzo, Dev.renumber_of_same hzl, ite_self]
  refine ⟨z, rfl, ?_, hzn, ?_, fun r => ?_⟩
  · rw [hack.tim, hat.tgBegun, ← hx]
  · exact (hsame.trans hat.sameRows).trans hack.rows
  · have hr : y.radio r = d.radio r := (hat.radio r).trans (hx ▸ Dev.radio_congr rfl rfl rfl r)
    rw [hack.tempRun, hack.onAir, hack.chan, hack.entries, hr]
    exact ⟨rfl, rfl, rfl, rfl⟩

/-- Of R130: the start of TG retunes each radio whose next row needs another index. -/
theorem tgStart_retunes {s : State} (hup : Up s) (hb : s.dev.tim.tgBegun = false) (hs : s.dev.tim.step = none)
    (ho : s.dev.tim.offStep = none) (hnext : s.dev.nextS = s.dev.tim.slotS + 1)
    (hmax : s.dev.tickTai (s.dev.tim.slotS + 1) ≤ 281474976710656 * 1000000000) :
    ∃ d : Dev, Gives .tgStart s d ∧ d.tim.tgBegun = true ∧
      ∀ (r : RadioId) (i : Nat) (c : ChanCfg), s.dev.Retunes r i c → d.Retuned r i := by
  obtain ⟨e, he, hbegun, hn, hrows, hradio⟩ := Dev.tgStart_eq hb hs ho hnext hmax
  refine ⟨radios.foldl Dev.tgOne e, .of_runUp hup rfl he, ?_, fun r i c h => ?_⟩
  · rw [Dev.tgAll_begun, hbegun]
  · obtain ⟨ht, ha, hc, hen⟩ := hradio r
    exact (h.mono hrows hn ht ha hc hen).tgAll

/-- Settles O40: of a tick only `enterSlot` moves the clock, and it enters the slot that comes next; the end of the schedule copy
runs the one command it holds; and the start of TG brings every radio to its turn with the rows, entries and channels that
it had. -/
theorem slotAndTgStart : Obligations.SlotAndTgStart := by
  unfold Obligations.SlotAndTgStart
  refine ⟨fun s m hup => slotTick_enters m hup, fun s hup hc => .of_runUp hup rfl (Dev.tableCopyDone_of_idle hc),
    fun s hup hc hl => .of_runUp hup rfl (Dev.tableCopyDone_of_none hc hl),
    fun s c radio first count buf hup hc hl => .of_runUp hup rfl (Dev.tableCopyDone_of_held hc hl),
    fun s hup => ⟨fun hb => .of_runUp hup rfl (if_pos hb), fun hb hs ho hnext hmax => ?_⟩⟩
  obtain ⟨d, hd, hbegun, hall⟩ := tgStart_retunes hup hb hs ho hnext hmax
  refine ⟨d, hd, hbegun, fun r i c hrun ht ha hcont hrow hc he hmoves => ?_⟩
  obtain ⟨hchan, htarget, hlock⟩ := hall r i c
    ⟨hrun, ht, ha, by rw [hnext]; exact hcont, by rw [hnext]; exact hrow, hc, he, hmoves⟩
  exact ⟨hchan, htarget, hlock⟩

end Sys2Proof.Machine
end
